-- ==== Sys2Proof/Word.lean ====
section
/-! DEFINITION. The words of the machine and the plainest maps over them. -/

namespace Sys2Proof

/-- One byte of memory. -/
abbrev Byte := BitVec 8

/-- The 32-bit word of one lane (01 R15). -/
abbrev Word := BitVec 32

/-- A 64-bit uniform register, special register or instruction word (01 R15, 02 R32). -/
abbrev DWord := BitVec 64

/-- A set of lanes of one group, bit L for lane L. -/
abbrev Mask := BitVec 32

/-- A finite map as an association list. -/
abbrev AMap (κ α : Type) := List (κ × α)

/-- The value at a key, if the key is listed. -/
def AMap.get? {κ α : Type} [DecidableEq κ] (m : AMap κ α) (k : κ) : Option α :=
  match m with
  | [] => none
  | (k', a) :: rest => if k' = k then some a else AMap.get? rest k

/-- The value at a key, or the value an unlisted key has. -/
def AMap.getD {κ α : Type} [DecidableEq κ] (m : AMap κ α) (k : κ) (d : α) : α :=
  (m.get? k).getD d

/-- The map with the key's value replaced, or listed last if it was not listed. -/
def AMap.set {κ α : Type} [DecidableEq κ] (m : AMap κ α) (k : κ) (a : α) : AMap κ α :=
  match m with
  | [] => [(k, a)]
  | (k', b) :: rest => if k' = k then (k, a) :: rest else (k', b) :: AMap.set rest k a

/-- The map without the key. -/
def AMap.erase {κ α : Type} [DecidableEq κ] (m : AMap κ α) (k : κ) : AMap κ α :=
  List.filter (fun x => decide (x.1 ≠ k)) m

/-- The lane numbers of a group, in increasing order (01 R10). -/
def lanes : List Nat := List.range 32

/-- A value of every lane, listed in lane order. -/
def perLane {α : Type} (f : Nat → α) : List α := lanes.map f

/-- Whether lane L is in the set. -/
def Mask.has (m : Mask) (l : Nat) : Bool := m.getLsbD l

/-- The set of the lanes that satisfy a test. -/
def maskOf (f : Nat → Bool) : Mask :=
  BitVec.ofNat 32 (lanes.foldl (fun n l => if f l then n + 2 ^ l else n) 0)

/-- The set of every lane. -/
def Mask.all : Mask := 0xFFFFFFFF

/-- The lowest lane of a set; 0 for the empty set. -/
def Mask.lowest (m : Mask) : Nat := (lanes.find? (fun l => m.getLsbD l)).getD 0

/-- The lanes of a set in increasing order. -/
def Mask.toLanes (m : Mask) : List Nat := lanes.filter (fun l => m.getLsbD l)

/-- How many lanes a set has. -/
def Mask.card (m : Mask) : Nat := m.toLanes.length

/-- Bits [hi:lo] of a number, as a number. -/
def bits (x : Nat) (hi lo : Nat) : Nat := (x / 2 ^ lo) % 2 ^ (hi + 1 - lo)

/-- The n low bytes of a number, least significant first (06 R173: memory is little-endian). -/
def natToBytes (n : Nat) (x : Nat) : List Byte :=
  (List.range n).map (fun i => BitVec.ofNat 8 (x / 256 ^ i))

/-- The number whose bytes are listed least significant first (06 R173). -/
def bytesToNat (bs : List Byte) : Nat :=
  bs.foldr (fun b n => b.toNat + 256 * n) 0

/-- The low word of a 64-bit value. -/
def DWord.lo (x : DWord) : Word := x.setWidth 32

/-- The high word of a 64-bit value. -/
def DWord.hi (x : DWord) : Word := (x >>> 32).setWidth 32

/-- The 64-bit value of a register pair: low word in the even register (01 R15). -/
def pair64 (lo hi : Word) : DWord := hi ++ lo

/-- x rounded up to a multiple of n. -/
def roundUp (x n : Nat) : Nat := (x + n - 1) / n * n

/-- x divided by n, rounded up. -/
def ceilDiv (x n : Nat) : Nat := (x + n - 1) / n

end Sys2Proof
end

