-- ==== Sys2Proof/Syntax.lean ====
section
/-! DEFINITION. The instruction set: every row of the opcode table as one constructor (02 R56; the rows past MIGR
are the steps of engines, hosts and other packages). Operand records are the formats of 02 R45. -/

namespace Sys2Proof

/-- A compute core (or, with `home`, the home core beneath it) of the package (01 R6, 12 R342). -/
structure CoreRef where
  home : Bool
  die : Nat
  core : Nat
  deriving DecidableEq, Repr, Inhabited

/-- A group, named by its core and slot (01 R11). -/
structure GRef where
  home : Bool
  die : Nat
  core : Nat
  slot : Nat
  deriving DecidableEq, Repr, Inhabited

/-- The core a group lives on. -/
def GRef.coreRef (g : GRef) : CoreRef := { home := g.home, die := g.die, core := g.core }

/-- A place that holds a copy of the step register (12 R364). -/
inductive Place where
  | compute (die core : Nat)
  | home (die core : Nat)
  | slice (die n : Nat)
  deriving DecidableEq, Repr, Inhabited

/-- Where an uncorrectable error strikes (14 R418): a sector of HBM4 by its place among the package's stacks (R402), or a sector of a line in a
slice or an L1D by address space and virtual address. -/
inductive ErrorSite where
  | memory (pa : Nat)
  | slice (die n asid va : Nat)
  | l1d (die core asid va : Nat)
  deriving DecidableEq, Repr, Inhabited

/-- What firmware writes and sets at bring-up (14 R434 stage 2): an input of the machine. -/
structure FwSetup where
  ctxBase : DWord
  fqBase : DWord
  route : DWord
  modTab : DWord
  spillBase : List (Nat × DWord)
  cells : List Host.Cell
  deriving DecidableEq, Repr, Inhabited

/-- An image that the boot ROM or firmware verifies (14 R432): its bytes and its security version. -/
structure BootImage where
  bytes : List Byte
  version : BitVec 16
  deriving DecidableEq, Repr, Inhabited

/-- What the signer adds to an attestation report (14 R433): the signature's bytes, an input of the machine. -/
structure AttestReport where
  signature : List Byte
  deriving DecidableEq, Repr, Inhabited

/-- The guard of an instruction (02 R41): predicate p0-p6, or always. -/
structure Guard where
  neg : Bool
  idx : BitVec 3
  deriving DecidableEq, Repr, Inhabited

/-- A source field (02 R44): 9-bit operand, last use, trap if empty. -/
structure Src where
  opnd : BitVec 9
  last : Bool
  etrap : Bool
  deriving DecidableEq, Repr, Inhabited

/-- F-R (02 R45). -/
structure OpR where
  g : Guard
  d : BitVec 9
  a : Src
  b : Src
  c : Src
  m : BitVec 10
  deriving DecidableEq, Repr, Inhabited

/-- F-I (02 R45). -/
structure OpI where
  g : Guard
  d : BitVec 9
  a : Src
  imm : BitVec 22
  m : BitVec 10
  deriving DecidableEq, Repr, Inhabited

/-- An R/I opcode's word: F-R, or F-I when MOD[0] = 1 (02 R56). -/
inductive OpRI where
  | r (o : OpR)
  | i (o : OpI)
  deriving DecidableEq, Repr, Inhabited

/-- F-W (02 R45). -/
structure OpW where
  g : Guard
  d : BitVec 9
  z : BitVec 11
  imm : BitVec 32
  deriving DecidableEq, Repr, Inhabited

/-- F-W with the 64-bit literal of its second word (02 R38, R45). -/
structure OpWL where
  w : OpW
  lit : DWord
  deriving DecidableEq, Repr, Inhabited

/-- F-M (02 R45). -/
structure OpM where
  g : Guard
  d : BitVec 9
  a : Src
  b : Src
  ord : BitVec 2
  scope : BitVec 3
  evict : BitVec 3
  size : BitVec 3
  off : BitVec 10
  deriving DecidableEq, Repr, Inhabited

/-- F-B (02 R45). -/
structure OpB where
  g : Guard
  toff : BitVec 24
  joff : BitVec 24
  uni : Bool
  qen : Bool
  qidx : BitVec 2
  deriving DecidableEq, Repr, Inhabited

/-- F-B with the literal offset of its second word (02 R47). -/
structure OpBL where
  b : OpB
  lit : DWord
  deriving DecidableEq, Repr, Inhabited

/-- F-T (02 R45). -/
structure OpT where
  g : Guard
  td : BitVec 4
  ta : BitVec 4
  tb : BitVec 4
  res : Bool
  acc : BitVec 3
  ts : BitVec 4
  shp : BitVec 22
  m : BitVec 10
  deriving DecidableEq, Repr, Inhabited

/-- F-S (02 R45). -/
structure OpS where
  g : Guard
  d : BitVec 9
  a : Src
  imm : BitVec 16
  sub : BitVec 6
  m : BitVec 10
  deriving DecidableEq, Repr, Inhabited

/-- One step of the machine: an instruction of a clause slot, or a step of an engine, a host or another package
(spec/opcode_table.json, one constructor a row). -/
inductive Instr where
  /-- NOP (R149): Has no effect. -/
  | nop (o : OpS)
  /-- BRA (R150): Branches to a PC-relative target by q predicate, uniform guard or per-lane guard, diverging the split when lanes disagree. -/
  | bra (o : OpB)
  /-- BRX (R150): Two-slot branch whose literal second word gives a 64-bit byte offset to the target. -/
  | brx (o : OpBL)
  /-- CALL (R151): Branches as BRA and, when any lane takes it, writes the return address into k63. -/
  | call (o : OpB)
  /-- CALLX (R151): Branches as BRX and, when any lane takes it, writes the return address into k63. -/
  | callx (o : OpBL)
  /-- RET (R152): Transfers the whole split to the clause header held in k63. -/
  | ret (o : OpS)
  /-- JMPK (R152): Transfers the whole split to the clause header held in a k register. -/
  | jmpk (o : OpS)
  /-- EXIT (R153): Ends the guarded lanes of the split; the group ends when its last lane exits. -/
  | exit (o : OpS)
  /-- YIELD (R149): Hints the partition to start another ready group's clause before this group's next clause. -/
  | yield (o : OpS)
  /-- MASKR (R154): Reads the active, dormant, parked or exited lane mask selected by SUB into a k register. -/
  | maskr (o : OpS)
  /-- MASKW (R154): Narrows the split's mask, moving the removed lanes to DORM. -/
  | maskw (o : OpS)
  /-- VOTE (R155): Computes ballot, all, any or uniform of a predicate over the split's lanes. -/
  | vote (o : OpR)
  /-- PLOP (R156): Combines three predicates through a lookup table into a p or q destination. -/
  | plop (o : OpR)
  /-- CHKF (R157): Writes into a predicate whether a register has landed. -/
  | chkf (o : OpS)
  /-- WAITF (R157): Holds the split until a register is full, reading no value. -/
  | waitf (o : OpS)
  /-- GSYNC (R149): Group barrier: a synchronising slot that releases and acquires at core scope over all memory. -/
  | gsync (o : OpS)
  /-- KMOV (R158): Copies a uniform operand into a k register. -/
  | kmov (o : OpR)
  /-- KMOVI (R158): Writes a sign-extended 32-bit immediate into a k register. -/
  | kmovi (o : OpW)
  /-- KLIT (R158): Writes the 64-bit literal of its second word into a k register. -/
  | klit (o : OpWL)
  /-- KADD (R159): Adds two uniform values modulo 2^64. -/
  | kadd (o : OpRI)
  /-- KSUB (R159): Subtracts two uniform values modulo 2^64. -/
  | ksub (o : OpRI)
  /-- KMUL (R159): Multiplies two uniform values, keeping the low 64 bits. -/
  | kmul (o : OpRI)
  /-- KMAD (R159): Multiplies and adds uniform values modulo 2^64. -/
  | kmad (o : OpR)
  /-- KSHL (R159): Shifts a uniform value left. -/
  | kshl (o : OpRI)
  /-- KSHR (R159): Shifts a uniform value right, logically or arithmetically. -/
  | kshr (o : OpRI)
  /-- KLOP (R159): Applies a bitwise three-input lookup table to uniform values. -/
  | klop (o : OpR)
  /-- KCMP (R160): Compares two uniform values signed or unsigned into a q predicate or k register. -/
  | kcmp (o : OpRI)
  /-- KSEL (R160): Selects one of two uniform values by a q predicate. -/
  | ksel (o : OpR)
  /-- KRDS (R161): Reads a special register into a k register. -/
  | krds (o : OpS)
  /-- KWRS (R161): Writes a k register into a writable special register. -/
  | kwrs (o : OpS)
  /-- KRDF (R162): Reads the value of the lowest active lane of a v register into a k register. -/
  | krdf (o : OpR)
  /-- KMNX (R159): Takes the signed or unsigned minimum or maximum of two uniform values. -/
  | kmnx (o : OpRI)
  /-- IADD (R184): Integer add, wrapping or saturating. -/
  | iadd (o : OpRI)
  /-- ISUB (R184): Integer subtract, wrapping or saturating. -/
  | isub (o : OpRI)
  /-- IMUL (R184): Integer multiply, wrapping or saturating. -/
  | imul (o : OpRI)
  /-- IMULH (R184): High 32 bits of an integer product. -/
  | imulh (o : OpR)
  /-- IMAD (R184): Integer multiply-add. -/
  | imad (o : OpR)
  /-- IMNX (R184): Integer minimum or maximum. -/
  | imnx (o : OpRI)
  /-- IABS (R184): Integer absolute value. -/
  | iabs (o : OpR)
  /-- SHL (R185): Logical left shift. -/
  | shl (o : OpRI)
  /-- SHR (R185): Logical right shift. -/
  | shr (o : OpRI)
  /-- SAR (R185): Arithmetic right shift. -/
  | sar (o : OpRI)
  /-- LOP3 (R186): Bitwise three-input lookup table. -/
  | lop3 (o : OpR)
  /-- POPC (R186): Counts set bits. -/
  | popc (o : OpR)
  /-- CLZ (R186): Counts leading zero bits. -/
  | clz (o : OpR)
  /-- BFX (R187): Extracts a bit field, sign- or zero-extended. -/
  | bfx (o : OpR)
  /-- BFI (R187): Inserts a bit field. -/
  | bfi (o : OpR)
  /-- ICMP (R188): Integer compare into a predicate or mask. -/
  | icmp (o : OpRI)
  /-- FADD (R189): Floating add, rounded once. -/
  | fadd (o : OpRI)
  /-- FSUB (R189): Floating subtract, rounded once. -/
  | fsub (o : OpRI)
  /-- FMUL (R189): Floating multiply, rounded once. -/
  | fmul (o : OpRI)
  /-- FFMA (R189): Fused floating multiply-add, rounded once. -/
  | ffma (o : OpR)
  /-- FMNX (R191): Floating minimum or maximum, returning an operand unchanged. -/
  | fmnx (o : OpRI)
  /-- FCMP (R192): Floating compare into a predicate or mask. -/
  | fcmp (o : OpRI)
  /-- FRCP (R189): Correctly rounded reciprocal. -/
  | frcp (o : OpR)
  /-- FRSQ (R190): Reciprocal square root rounded RNE. -/
  | frsq (o : OpR)
  /-- FSQRT (R189): Correctly rounded square root. -/
  | fsqrt (o : OpR)
  /-- FDIV (R189): Correctly rounded division. -/
  | fdiv (o : OpR)
  /-- FEX2 (R190): Base-2 exponential rounded RNE. -/
  | fex2 (o : OpR)
  /-- FLG2 (R190): Base-2 logarithm rounded RNE. -/
  | flg2 (o : OpR)
  /-- FSIN (R190): Sine rounded RNE. -/
  | fsin (o : OpR)
  /-- FCOS (R190): Cosine rounded RNE. -/
  | fcos (o : OpR)
  /-- FCLS (R193): Forms a class mask of a floating value. -/
  | fcls (o : OpR)
  /-- FSCL (R189): Scales a floating value by a power of two. -/
  | fscl (o : OpR)
  /-- MOV (R194): Copies a word or pair. -/
  | mov (o : OpR)
  /-- MOVI (R194): Writes a 32-bit immediate to a v register. -/
  | movi (o : OpW)
  /-- SEL (R195): Selects one of two values per lane by a predicate. -/
  | sel (o : OpR)
  /-- CVT (R196): Converts one value per lane between formats. -/
  | cvt (o : OpR)
  /-- PACK (R197): Converts two values and places them as adjacent elements. -/
  | pack (o : OpR)
  /-- UNPK (R197): Widens two packed elements to exact F32 or integers. -/
  | unpk (o : OpR)
  /-- PRMB (R198): Selects or sign-fills bytes from a register pair. -/
  | prmb (o : OpR)
  /-- XSHF (R205): Moves words between participant lanes. -/
  | xshf (o : OpR)
  /-- XRED (R206): Reduces the participants' values over a fixed tree. -/
  | xred (o : OpR)
  /-- XSCN (R207): Scans the participants' values in lane order. -/
  | xscn (o : OpR)
  /-- MXIX (R208): Merges value and index pairs between lanes. -/
  | mxix (o : OpR)
  /-- RAND (R201): Writes random bits from the counter-based generator and advances the draw counter. -/
  | rand (o : OpR)
  /-- RDSR (R202): Reads a special register into every active lane. -/
  | rdsr (o : OpS)
  /-- CLMP (R199): Clamps a value between two bounds. -/
  | clmp (o : OpR)
  /-- QNT (R200): Quantises a pair against a block scale into narrow elements. -/
  | qnt (o : OpR)
  /-- DQNT (R200): Decodes narrow elements with a block scale into F32. -/
  | dqnt (o : OpR)
  /-- TSUM (R260): Two-sum: rounded sum and its exact error. -/
  | tsum (o : OpR)
  /-- TDIF (R260): Two-sum of a and minus b. -/
  | tdif (o : OpR)
  /-- TPRD (R261): Two-product: rounded product and its error. -/
  | tprd (o : OpR)
  /-- TFMA (R262): Fused multiply-add with two error words. -/
  | tfma (o : OpR)
  /-- FTSM (R260): Fast two-sum with three roundings. -/
  | ftsm (o : OpR)
  /-- XADD (R264): Adds two expansions through expand. -/
  | xadd (o : OpR)
  /-- XSUB (R264): Subtracts two expansions through expand. -/
  | xsub (o : OpR)
  /-- XMUL (R264): Multiplies two expansions through two-products and expand. -/
  | xmul (o : OpR)
  /-- XACC (R264): Accumulates a two-product into an expansion. -/
  | xacc (o : OpR)
  /-- XRNM (R265): Renormalises an expansion. -/
  | xrnm (o : OpR)
  /-- XCPR (R265): Compresses an expansion to fewer words. -/
  | xcpr (o : OpR)
  /-- XCMP (R266): Compares the exact sums of two expansions. -/
  | xcmp (o : OpR)
  /-- XCVT (R267): Converts between expansions and integers. -/
  | xcvt (o : OpR)
  /-- XSPL (R268): Splits an F32 expansion into 16-bit words. -/
  | xspl (o : OpR)
  /-- XTRE (R270): Sums one expansion per participant over a fixed tree. -/
  | xtre (o : OpR)
  /-- XSCL (R269): Scales each expansion word by a power of two. -/
  | xscl (o : OpR)
  /-- LDG (R236): Loads from global memory into v registers. -/
  | ldg (o : OpM)
  /-- STG (R236): Stores v registers to global memory. -/
  | stg (o : OpM)
  /-- LDS (R236): Loads from the block's scratchpad. -/
  | lds (o : OpM)
  /-- STS (R236): Stores to the block's scratchpad. -/
  | sts (o : OpM)
  /-- LDW (R236): Loads through the on-chip map. -/
  | ldw (o : OpM)
  /-- STW (R236): Stores through the on-chip map. -/
  | stw (o : OpM)
  /-- LDK (R237): Makes one global load for the split into a k register. -/
  | ldk (o : OpM)
  /-- STK (R237): Makes one global store for the split from a k register. -/
  | stk (o : OpM)
  /-- GTHR (R238): Gathers one element per lane from gather-direct pages as a memory-side packet. -/
  | gthr (o : OpM)
  /-- SCTR (R238): Scatters one element per lane. -/
  | sctr (o : OpM)
  /-- PREF (R240): Prefetches lines into the L1D and slice. -/
  | pref (o : OpM)
  /-- WBK (R240): Writes back dirty bytes of lines to their home slices. -/
  | wbk (o : OpM)
  /-- INV (R240): Writes back and invalidates lines in the L1D. -/
  | inv (o : OpM)
  /-- FNC (R241): Fence turning the adjacent access into a release or acquire. -/
  | fnc (o : OpM)
  /-- SBND (R242): Adds a binding range to a sync object for every core of the launch. -/
  | sbnd (o : OpS)
  /-- SUNB (R242): Removes every binding of a sync object. -/
  | sunb (o : OpS)
  /-- AADD (R245): Atomic integer add returning the old value. -/
  | aadd (o : OpM)
  /-- AFAD (R245): Atomic floating add returning the old value. -/
  | afad (o : OpM)
  /-- ACAD (R246): Atomically adds an F32 pair into a compensated high and low word pair. -/
  | acad (o : OpM)
  /-- AMNX (R245): Atomic integer minimum or maximum. -/
  | amnx (o : OpM)
  /-- AFMX (R245): Atomic floating minimum or maximum. -/
  | afmx (o : OpM)
  /-- AMXI (R247): Atomic maximum of a 64-bit value-and-index order key. -/
  | amxi (o : OpM)
  /-- ALOP (R245): Atomic bitwise and, or or xor. -/
  | alop (o : OpM)
  /-- AXCH (R245): Atomic exchange. -/
  | axch (o : OpM)
  /-- ACAS (R245): Atomic compare-and-swap. -/
  | acas (o : OpM)
  /-- AINC (R245): Atomic wrapping increment or decrement against a bound. -/
  | ainc (o : OpM)
  /-- ARED (R248): Atomic reduction without reply, combinable at gateways. -/
  | ared (o : OpM)
  /-- WAITA (R249): Holds the split until a watched word meets a condition, then reads it. -/
  | waita (o : OpM)
  /-- TLD (R318): Loads a tile view from memory. -/
  | tld (o : OpT)
  /-- TST (R318): Stores a tile view to memory. -/
  | tst (o : OpT)
  /-- TZRO (R320): Zeroes a tile view. -/
  | tzro (o : OpT)
  /-- TZRO_ACC (R320): Zeroes n accumulator blocks. -/
  | tzroAcc (o : OpT)
  /-- TMVV (R321): Moves tile lines into v registers. -/
  | tmvv (o : OpT)
  /-- TMVV_ACC (R321): Moves accumulator lines into v registers. -/
  | tmvvAcc (o : OpT)
  /-- TMVT (R321): Moves v registers into tile lines. -/
  | tmvt (o : OpT)
  /-- TMVT_ACC (R321): Moves v registers into accumulator lines. -/
  | tmvtAcc (o : OpT)
  /-- TTRN (R322): Transposes a tile view. -/
  | ttrn (o : OpT)
  /-- TSCL (R323): Derives Q32 block scales and quantises a tile. -/
  | tscl (o : OpT)
  /-- WLD (R324): Latches weights and scales into the block's weight latch. -/
  | wld (o : OpT)
  /-- ALD (R319): Loads an accumulator region, optionally with residual. -/
  | ald (o : OpT)
  /-- AST (R319): Stores an accumulator region rounded to a memory format. -/
  | ast (o : OpT)
  /-- MMA (R325): Multiplies an activation by the latched weights into accumulators, optionally with residual. -/
  | mma (o : OpT)
  /-- MMAG (R329): Gang product using the activation streamed from position 0. -/
  | mmag (o : OpT)
  /-- MFEN (R326): Closes the group's open matrix batch. -/
  | mfen (o : OpS)
  /-- MFEN_NUM (R326): Closes the open matrix batch and returns its number. -/
  | mfenNum (o : OpS)
  /-- MFCT (R336): Factors an accumulator matrix into L and U with pivot policy. -/
  | mfct (o : OpT)
  /-- MTRS (R337): Triangular solve against a factor in accumulators. -/
  | mtrs (o : OpT)
  /-- MEST_RD (R333): Reads the array's toggle count. -/
  | mestRd (o : OpS)
  /-- MEST_CLR (R333): Clears the array's toggle count. -/
  | mestClr (o : OpS)
  /-- GANG (R328): Forms a gang of cores on the die row after a lift-line rendezvous. -/
  | gang (o : OpS)
  /-- GANG_DIS (R328): Dissolves the gang once every member has issued it. -/
  | gangDis (o : OpS)
  /-- LREC (R291): Reads a layout record into a copy context. -/
  | lrec (o : OpS)
  /-- RBND (R292): Binds a region-table window to a copy context. -/
  | rbnd (o : OpS)
  /-- RUNB (R292): Starts or finishes unbinding a window, with final write-out. -/
  | runb (o : OpS)
  /-- RTCH_FILL (R293): Begins a fill of a window. -/
  | rtchFill (o : OpS)
  /-- RTCH_OUT (R293): Begins a write-out of a window. -/
  | rtchOut (o : OpS)
  /-- RTST (R294): Reads a half of a window's ARRIVED or ABORTED bitmap. -/
  | rtst (o : OpS)
  /-- RWT (R294): Waits until masked chunks of a window have arrived. -/
  | rwt (o : OpS)
  /-- CFEN (R295): Closes the group's open copy batch. -/
  | cfen (o : OpS)
  /-- CFEN_NUM (R295): Closes the open copy batch and returns its number. -/
  | cfenNum (o : OpS)
  /-- HNEW_NEW (R290): Allocates a copy context and returns its handle. -/
  | hnewNew (o : OpS)
  /-- HNEW_FREE (R290): Frees a copy context, revoking its handle. -/
  | hnewFree (o : OpS)
  /-- RSTA_E (R296): Reads a region entry's status. -/
  | rstaE (o : OpS)
  /-- RSTA_H (R296): Reads a handle's status. -/
  | rstaH (o : OpS)
  /-- BAR (R214): Arrives at a hardware barrier and waits for its phase. -/
  | bar (o : OpS)
  /-- BARA (R214): Arrives at a hardware barrier and returns the phase number. -/
  | bara (o : OpS)
  /-- BARW (R214): Waits for a hardware barrier phase to complete and acquires. -/
  | barw (o : OpS)
  /-- PHA (R217): Arrives at a phase barrier. -/
  | pha (o : OpS)
  /-- PHA_EXPECT (R217): Posts expected chunks and arrives in one step. -/
  | phaExpect (o : OpS)
  /-- PHX_EXPECT (R217): Posts expected chunks without arrival. -/
  | phxExpect (o : OpS)
  /-- PHX_INIT (R217): Sets the arrivals a phase needs. -/
  | phxInit (o : OpS)
  /-- PHX_READ (R217): Reads a phase barrier's state word. -/
  | phxRead (o : OpS)
  /-- PHW (R217): Waits while a phase barrier's parity equals a value, then acquires. -/
  | phw (o : OpS)
  /-- TKG (R221): Draws the next ticket number. -/
  | tkg (o : OpS)
  /-- TKW (R221): Waits until a ticket serves a value, then acquires. -/
  | tkw (o : OpS)
  /-- TKS_SET (R221): Sets the now-serving value and releases. -/
  | tksSet (o : OpS)
  /-- TKS_INC (R221): Increments the now-serving value and releases. -/
  | tksInc (o : OpS)
  /-- TLW (R223): Waits until a timeline reaches a value, then acquires. -/
  | tlw (o : OpS)
  /-- TLR (R223): Reads a timeline's value. -/
  | tlr (o : OpS)
  /-- TLS (R223): Raises a named timeline and releases at the span's scope. -/
  | tls (o : OpS)
  /-- CMB (R349): Sends combine requests of the active lanes to an object's home, trapping on failure. -/
  | cmb (o : OpS)
  /-- CMB_NT (R351): Sends combine requests, reporting failure in a predicate. -/
  | cmbNt (o : OpS)
  /-- CMBR (R355): Commits a pack's buffer and sends each lane's reply. -/
  | cmbr (o : OpS)
  /-- OBJR (R345): Registers a combinable object at its home slice. -/
  | objr (o : OpS)
  /-- OBJC_CLR (R347): Returns a POISONED object to IDLE. -/
  | objcClr (o : OpS)
  /-- OBJC_DEL (R347): Deregisters an object after any running pack ends. -/
  | objcDel (o : OpS)
  /-- GLD (R367): Reads a glide word decayed to the current step. -/
  | gld (o : OpM)
  /-- GADD (R368): Adds to a glide word after decaying it to the step. -/
  | gadd (o : OpM)
  /-- GMRG (R369): Merges a glide word into memory at the later stamp. -/
  | gmrg (o : OpM)
  /-- GSET (R370): Writes a glide word, optionally stamping it now. -/
  | gset (o : OpM)
  /-- GSWP_ADD (R372): Registers a sweep region with a copy of the factor table. -/
  | gswpAdd (o : OpS)
  /-- GSWP_REM (R372): Removes a sweep region. -/
  | gswpRem (o : OpS)
  /-- GSTP_ADD (R371): Advances the ASID's step and waits for every copy and any sweep. -/
  | gstpAdd (o : OpS)
  /-- GSTP_RD (R371): Reads the master step. -/
  | gstpRd (o : OpS)
  /-- SOL (R382): Solicits a census of a key over a scope with a combine op. -/
  | sol (o : OpS)
  /-- SOLW (R393): Waits until a census slot is not OPEN, then acquires. -/
  | solw (o : OpS)
  /-- KINS (R394): Inserts a key and tile location into the core's directory. -/
  | kins (o : OpS)
  /-- KDEL (R395): Deletes a directory entry, deferred while censuses that matched it are open. -/
  | kdel (o : OpS)
  /-- KDEL_MV (R395): Moves a directory entry to another block through the gondola. -/
  | kdelMv (o : OpS)
  /-- RSP (R386): Contributes a responder's run to its census. -/
  | rsp (o : OpS)
  /-- SOLR (R393): Reads a census slot's status. -/
  | solr (o : OpS)
  /-- TRAP (R163): Raises SWTRAP with a code. -/
  | trap (o : OpS)
  /-- TRET (R134): Returns from a handler, resuming the suspended split. -/
  | tret (o : OpS)
  /-- TDONE (R138): Saves the group as PREEMPTED with a cookie. -/
  | tdone (o : OpS)
  /-- IPRF (R165): Prefetches code lines into a chosen instruction cache level. -/
  | iprf (o : OpS)
  /-- MODL (R166): Installs a code module in the ASID's module table. -/
  | modl (o : OpS)
  /-- MODU (R167): Removes a code module entry. -/
  | modu (o : OpS)
  /-- CNTR (R168): Reads an engine counter. -/
  | cntr (o : OpS)
  /-- CNTC (R168): Clears one counter. -/
  | cntc (o : OpS)
  /-- CNTC_ALL (R168): Clears every counter of the core. -/
  | cntcAll (o : OpS)
  /-- BRK (R163): Raises BREAK with a code. -/
  | brk (o : OpS)
  /-- SREG_RD (R169): Reads a system register. -/
  | sregRd (o : OpS)
  /-- SREG_WR (R169): Writes a system register without behaviour of its own. -/
  | sregWr (o : OpS)
  /-- PREEMPTREQ (R137): Writing a LID requests pre-emption of that launch. -/
  | preemptreq (o : OpS)
  /-- RESUMEREQ (R140): Writing a LID restores the launch's saved groups and resumes placement. -/
  | resumereq (o : OpS)
  /-- LNCH (R91): Submits a launch record to the distributor and receives its status. -/
  | lnch (o : OpS)
  /-- DGST_OPEN (R109): Opens a piste task and records its restart point. -/
  | dgstOpen (o : OpS)
  /-- DGST_READ (R109): Reads the open task's digest. -/
  | dgstRead (o : OpS)
  /-- DGST_RECORD (R109): Stores the task digest, adds it to LDIG and closes the task. -/
  | dgstRecord (o : OpS)
  /-- DGST_CHECK (R109): Compares the task digest with the stored one, closing it or raising DIGEST. -/
  | dgstCheck (o : OpS)
  /-- PCOL (R426): Opens a port collective after waiting on its timeline. -/
  | pcol (o : OpS)
  /-- PCOL_NOWAIT (R428): Opens a port collective without waiting or acquiring. -/
  | pcolNowait (o : OpS)
  /-- MIGR (R413): Moves a page to a new physical address, holding writes meanwhile. -/
  | migr (o : OpS)
  /-- CLAUSE_SCHEDULE (R101): Each cycle the partition selects one ready clause by class, age and slot, charging idle cycles to a stall counter. -/
  | clauseSchedule (c : CoreRef) (p : Nat)
  /-- AGE_PROMOTE (R101): Raises a waiting ready group's class after every 16 cycles without a clause start. -/
  | agePromote (g : GRef)
  /-- CLAUSE_START (R112): Fetches and checks a clause, applies a JOIN arrival and waits on its wait slots before issuing slots. -/
  | clauseStart (g : GRef) (e : Nat)
  /-- IFETCH_LINE_ARRIVAL (R143): A code line arrives from a lower instruction cache or memory and fills the missing levels. -/
  | ifetchLineArrival (n : Nat)
  /-- TRAP_ENTRY (R133): Suspends the trapping split, holds the others, sets trap registers and starts the handler split. -/
  | trapEntry (g : GRef) (e : Nat)
  /-- PREEMPT_TRAP (R137): After drain, a group of the pre-empted launch takes PREEMPT or goes to the forced save. -/
  | preemptTrap (g : GRef)
  /-- FORCED_SAVE (R139): On PREBUDGET expiry the sequencer stops issue and writes the complete save image. -/
  | forcedSave (g : GRef)
  /-- UNCORRECTED_TRAP (R131): An uncorrectable error contained at block level is taken as an asynchronous trap at a clause boundary. -/
  | uncorrectedTrap (g : GRef)
  /-- REGISTER_SPILL (R126): When no physical register is free, a victim register is compressed and written to its spill slot. -/
  | registerSpill (c : CoreRef) (p : Nat)
  /-- REGISTER_RELOAD (R126): A spilled register's reload lands and unblocks its reader. -/
  | registerReload (g : GRef) (r : Nat)
  /-- ACCESS_VERDICT (R231): Lane verdicts of accepted or faulted arrive from L1D, slice or controller, completing the slot. -/
  | accessVerdict (op : Nat)
  /-- PARKED_SET_REPLAY (R121): A served parked set takes a free entry and re-executes its faulting slot. -/
  | parkedSetReplay (g : GRef) (i : Nat)
  /-- LOAD_DATA_LAND (R236): A load's or atomic's data land in the destination registers and set them full. -/
  | loadDataLand (op : Nat)
  /-- STORE_ACK (R236): A store is acknowledged by the place that performed it, decrementing st. -/
  | storeAck (op : Nat)
  /-- MAILBOX_WRITE_LAND (R16): A write to a mailbox register lands, filling or overwriting it, or the saved image. -/
  | mailboxWriteLand (n : Nat)
  /-- WAITA_RETEST (R249): A write reaching a watched sector retests a waiting WAITA's condition. -/
  | waitaRetest (op : Nat)
  /-- HOME_ATOMIC (R343): The home unit accepts and performs an atomic, sync-word access or glide operation on a line homed at its slice. -/
  | homeAtomic (op : Nat) (lane : Nat)
  /-- QUAD_ATOMIC (R73): The quad atomic unit performs a quad-scope atomic on its copy and writes it through. -/
  | quadAtomic (op : Nat) (lane : Nat)
  /-- PORT_ATOMIC (R422): A Korilink port performs a pod- or system-scope atomic. -/
  | portAtomic (op : Nat) (lane : Nat)
  /-- ARED_GATEWAY_COMBINE (R80): A die gateway combines AREDs to one address into one operation. -/
  | aredGatewayCombine (op1 : Nat) (lane1 : Nat) (op2 : Nat) (lane2 : Nat)
  /-- PEER_FILL (R233): A miss on a read-only page is filled from a quad peer core. -/
  | peerFill (op : Nat) (lane : Nat)
  /-- STEWARD_POLL (R87): The steward's WAITA on command-page TAILs completes and it takes the next command, setting PERR on overrun. -/
  | stewardPoll (pt : Nat) (page : Nat)
  /-- LAUNCH (R86): Command that executes LNCH on a launch record. -/
  | launch (pt : Nat) (page : Nat)
  /-- SIGNAL (R86): Command that signals a timeline with a value. -/
  | signal (pt : Nat) (page : Nat)
  /-- MODLOAD (R86): Command that executes MODL. -/
  | modload (pt : Nat) (page : Nat)
  /-- MODUNLOAD (R86): Command that executes MODU. -/
  | modunload (pt : Nat) (page : Nat)
  /-- WAIT (R86): Command that holds the page's later commands until a timeline reaches a value. -/
  | wait (pt : Nat) (page : Nat)
  /-- BADCMD (R86): An unassigned command OP completes with status BADCMD. -/
  | badcmd (pt : Nat) (page : Nat)
  /-- LAUNCH_READY (R96): A queue head whose dependences hold becomes READY. -/
  | launchReady (pt : Nat) (q : Nat)
  /-- POD_PART_ACCEPT_MSG (R94): A distributor learns that another package accepted a part of a pod-span launch. -/
  | podPartAcceptMsg (asid : Nat) (rec : Nat) (pkg : Nat)
  /-- POD_PART_REFUSAL_MSG (R94): A refusal on another package completes the accepted part with END 4. -/
  | podPartRefusalMsg (asid : Nat) (rec : Nat) (pkg : Nat)
  /-- BLOCK_PLACE (R98): The distributor places a block, cohort or piste logical core on a core with room. -/
  | blockPlace (pt : Nat)
  /-- GROUP_START (R99): A placed group's KARGS land and it starts at ENTRY with its initial state. -/
  | groupStart (g : GRef)
  /-- LAUNCH_DONE (R97): When all engine work ends, writes the status, releases named timelines and signals COMP. -/
  | launchDone (lid : Nat)
  /-- BARRIER_ARRIVAL (R213): An arrival reaches a hardware barrier's place, completing the phase when all members have arrived or exited. -/
  | barrierArrival (n : Nat)
  /-- BARRIER_COMPLETION_NOTIFY (R213): A phase completion reaches waiting groups, which acquire. -/
  | barrierCompletionNotify (g : GRef) (e : Nat)
  /-- TICKET_SERVE_BROADCAST (R220): A new now-serving value reaches the cores of the quad and wakes waiting TKWs. -/
  | ticketServeBroadcast (lid : Nat) (blk : Nat) (tk : Nat) (core : Nat)
  /-- TIMELINE_SIGNAL_ARRIVAL (R223): A timeline advance reaches waiting TLWs, which acquire. -/
  | timelineSignalArrival (g : GRef) (e : Nat)
  /-- CHUNK_REQUEST (R283): A copy context issues the next chunk request after the spacing and in-flight limit allow. -/
  | chunkRequest (c : CoreRef) (n : Nat)
  /-- CHUNK_LAND_FILL (R283): A fill chunk lands, sets ARRIVED, counts into its phase barrier and serves waiting touches. -/
  | chunkLandFill (c : CoreRef) (n : Nat) (k : Nat)
  /-- CHUNK_LAND_WRITEOUT (R286): A write-out chunk lands at the far side, counting into the target's phase barrier. -/
  | chunkLandWriteout (c : CoreRef) (n : Nat) (k : Nat)
  /-- CHUNK_ABORT (R287): A far-side check failure, refused fault or uncorrectable error aborts a chunk and revokes the entry. -/
  | chunkAbort (c : CoreRef) (n : Nat) (k : Nat)
  /-- MAT_OP_ACCEPT (R312): The matrix engine accepts one waiting operation per cycle, round robin over partitions. -/
  | matOpAccept (c : CoreRef)
  /-- MAT_OP_COMPLETE (R313): A matrix operation completes its writes and releases into the matrix timeline. -/
  | matOpComplete (c : CoreRef)
  /-- MAT_OP_ABANDON (R314): A refused fault or uncorrectable error abandons a matrix operation and sets MFAULT. -/
  | matOpAbandon (c : CoreRef)
  /-- GANG_RENDEZVOUS (R328): When every listed member has issued GANG, each receives its gang state. -/
  | gangRendezvous (c : CoreRef)
  /-- LIFT_LINE_MATCH (R329): When an MMAG reaches the head on every member, shapes are compared and the gang product runs or is cancelled. -/
  | liftLineMatch (c : CoreRef)
  /-- THROTTLE_WINDOW (R332): A new 256-cycle power window starts and the toggle count resets. -/
  | throttleWindow (c : CoreRef)
  /-- CMB_ACCEPT (R349): A combine message arrives at the home core and is queued whole or refused. -/
  | cmbAccept (n : Nat)
  /-- CMB_RESEND (R350): A refused combine message is resent after its backoff. -/
  | cmbResend (n : Nat)
  /-- PACK_FORM (R352): An IDLE object with queued requests and a free method slot starts a pack wave. -/
  | packForm (c : CoreRef)
  /-- REPLY_LAND (R356): A combine reply lands in the requester lane and acquires the commit. -/
  | replyLand (n : Nat)
  /-- METHOD_FAULT (R357): A pack-wave trap or MBUD expiry discards the pack, fails its requests and poisons the object. -/
  | methodFault (g : GRef)
  /-- STEP_PROPAGATE (R364): A step change reaches a copy of the step register, which adopts it. -/
  | stepPropagate (asid : Nat) (place : Place)
  /-- CENSUS_BROADCAST_ARRIVE (R383): A census broadcast reaches a core, which snapshots its match set, opens the census and reports its count. -/
  | censusBroadcastArrive (n : Nat) (c : CoreRef)
  /-- RESPONDER_SPAWN (R384): A matched entry starts a responder group in a free responder slot. -/
  | responderSpawn (c : CoreRef)
  /-- RESPONDER_FAULT (R385): A responder trapping or exiting before RSP ends and counts one fault. -/
  | responderFault (g : GRef)
  /-- DIE_PARTIAL_FOLD (R389): A die node folds a response or count from a core of its die and forwards the partial when complete. -/
  | diePartialFold (n : Nat) (r : Nat)
  /-- CENSUS_RESPONSE_ARRIVE (R389): A response, count or die partial reaches the asker and is folded. -/
  | censusResponseArrive (n : Nat) (r : Nat)
  /-- CENSUS_TIMEOUT (R391): The census budget expires and it completes with TIMEOUT. -/
  | censusTimeout (n : Nat)
  /-- CENSUS_CLOSE_ARRIVE (R383): A close reaches a core; once its responders have ended the census closes there and LEAVING entries free. -/
  | censusCloseArrive (n : Nat) (c : CoreRef)
  /-- CENSUS_MOVE_AT_NODE (R395): A move reaches the common gondola node and is ordered against broadcasts and sent down. -/
  | censusMoveAtNode (n : Nat) (passed : List Nat)
  /-- CENSUS_MOVE_AT_CORE (R395): A move arrives at source or destination core, making the entry LEAVING or inserting it. -/
  | censusMoveAtCore (n : Nat) (dst : Bool)
  /-- PAGE_WALK (R405): A controller walks the page tables for a missing translation. -/
  | pageWalk (ctl : Nat) (asid : Nat) (va : Nat)
  /-- GATHER_PACKET_EXPAND (R415): A stack's base die expands a gather or scatter packet element by element. -/
  | gatherPacketExpand (op : Nat) (stack : Nat)
  /-- DEADLINE_EXPIRY (R416): A deadline request's count runs out and it is served before non-deadline requests. -/
  | deadlineExpiry (n : Nat)
  /-- CORRECTED_ERROR (R417): ECC corrects an error, rewrites the codeword and counts it for its row region. -/
  | correctedError (ctl : Nat) (region : Nat)
  /-- UNCORRECTABLE_ERROR (R418): An uncorrectable error poisons the sectors it touches, or refetches a clean cached copy. -/
  | uncorrectableError (site : ErrorSite)
  /-- POISON_CONSUME (R418): A consumer meets poisoned data and the error is escalated or the operation aborted. -/
  | poisonConsume (n : Nat)
  /-- KORILINK_CRC_RESEND (R420): A flit failing its CRC is resent with every later flit of its port. -/
  | korilinkCrcResend (port : Nat)
  /-- PCOL_MEMBER_EXCHANGE (R427): Members exchange collective parameters, completing with MISMATCH on difference. -/
  | pcolMemberExchange (n : Nat) (same : Bool)
  /-- PCOL_RING_STEP (R427): A segment's accumulator is added at the next member of the ring. -/
  | pcolRingStep (n : Nat) (seg : Nat) (i : Nat) (data : List Word)
  /-- PCOL_COMPLETE (R427): A member writes its results and STATA and signals COMP. -/
  | pcolComplete (n : Nat)
  /-- PCOL_BUDGET_EXPIRY (R427): A collective's budget runs out and it completes with TIMEOUT. -/
  | pcolBudgetExpiry (n : Nat)
  /-- MIGR_SWITCH (R414): After the copy, the leaf is rewritten, translations invalidated and held writes performed at the new page. -/
  | migrSwitch (n : Nat)
  /-- HOST_BAR2_WRITE (R429): A host write through BAR2 is performed as a system-scope store at the home slice. -/
  | hostBar2Write (va : Nat) (bytes : List Byte)
  /-- CLAIM (R431): A master's CLAIM write changes OWNER when the expected owner matches. -/
  | claim (master : Nat) (v : DWord)
  /-- FQACK_RETRY (R412): Answers a fault record with RETRY; joined requests retranslate or replay. -/
  | fqackRetry (master : Nat) (fid : Nat)
  /-- FQACK_REFUSE (R412): Answers a fault record with REFUSE; joined requests fail per requester. -/
  | fqackRefuse (master : Nat) (fid : Nat)
  /-- SHOOT_TR (R407): Invalidates a range's translations in every controller of the partition. -/
  | shootTr (master : Nat) (v : DWord)
  /-- SHOOT_DATA (R407): Writes back and invalidates a range's lines in every L1D and slice. -/
  | shootData (master : Nat) (v : DWord)
  /-- SHOOT_COMPLETE (R407): A shoot-down finishes and SHOOTDONE increments. -/
  | shootComplete (n : Nat)
  /-- CMDPG (R430): Registers or disables a command page for a partition's steward and queue. -/
  | cmdpg (master : Nat) (v : DWord)
  /-- ATTEST (R433): Writes a signed attestation report into the buffer, advancing the signature counter first. -/
  | attest (master : Nat) (v : DWord) (report : AttestReport)
  /-- PRESET_PACKAGE (R430): Resets the package, keeping PARTCFG. -/
  | presetPackage (master : Nat)
  /-- PRESET_PARTITIONS (R430): Resets the partitions with PFAIL. -/
  | presetPartitions (master : Nat)
  /-- PORT_REG_WRITE (R430): Writes a port register without behaviour of its own, dropped and counted from non-owners. -/
  | portRegWrite (master : Nat) (off : Nat) (v : DWord)
  /-- LINK_DOWN_OWNER_CLEAR (R431): When the owner's link goes down, OWNER becomes 0. -/
  | linkDownOwnerClear (master : Nat)
  /-- POWER_ON_RESET (R434): Holds every core, clears OWNER and STATUS, frees contexts and sets PARTCFG to 00. -/
  | powerOnReset
  /-- BOOT_ROM_FW_VERIFY (R432): The boot ROM loads FW from flash and verifies its signature and version. -/
  | bootRomFwVerify (fw : BootImage) (signature : List Byte)
  /-- FW_BRINGUP (R434): FW trains memory and links, writes ECC and builds ASID 0's tables and base registers. -/
  | fwBringup (ok : Bool) (img : FwSetup)
  /-- STEWARD_INSTALL (R434): FW verifies STEWARD and IDENT and installs STEWARD in each partition. -/
  | stewardInstall (steward : BootImage) (ident : BootImage) (signatures : List Byte × List Byte) (cells : List Host.Cell)
  /-- STEWARD_START (R434): Each partition's steward starts and READY is set. -/
  | stewardStart (pt : Nat)
  /-- FQHEAD_WRITE (R410): Writing FQHEAD records the consumed fault records, which frees room in the fault queue and releases the faulting requests held at their controllers. -/
  | fqheadWrite (master : Nat) (v : DWord)
  /-- QUAD_WRITE_THROUGH_ARRIVE (R73): A word written through by the quad atomic unit arrives at its home slice about 80 cycles after the atomic and enters the word's order there. -/
  | quadWriteThroughArrive (n : Nat)
  /-- REFRESH_INTERVAL (R417): Each refresh interval advances the controller's count I, against which the corrected-error windows of its row regions expire. -/
  | refreshInterval (ctl : Nat)
  /-- POWER_LOSS (R433): Loss of power ends all device state, and the only trace that survives is that a committed but unused attestation signature index stays skipped. -/
  | powerLoss
  /-- BINDING_CHANGE_PROPAGATE (R69): A binding change from SBND or SUNB reaches a core of the launch, which then uses the new set for its releases and acquires, and SBND or SUNB completes once every core holds it. -/
  | bindingChangePropagate (lid : Nat) (c : CoreRef)
  deriving DecidableEq, Repr, Inhabited

/-- What the machine does next: one event, or the issue of the next slot of the split that partition `p` of core `c`
has selected (04 R101, 05 R112). -/
inductive Move where
  | event (i : Instr)
  | issue (c : CoreRef) (p : Nat)
  deriving DecidableEq, Repr, Inhabited

end Sys2Proof
end

