-- ==== Sys2Proof/Machine/Operands.lean ====
section
/-! DEFINITION. Fields of instruction words and the operand spaces (02 R41 to R51). -/

namespace Sys2Proof


/-- What a 9-bit source operand names (02 R48). -/
inductive SrcK where
  | v (n : Nat)
  | k (n : Nat)
  | lane | zero | ones
  /-- special register by its R17 index -/
  | special (i : Nat)
  | emask
  | int (n : Nat)
  /-- floating constant 0 to 7: 0.5, -0.5, 1, -1, 2, -2, 4, -4 -/
  | flt (i : Nat)
  | reserved
  deriving DecidableEq, Repr, Inhabited

/-- The source operand space (02 R48). -/
def srcK (x : BitVec 9) : SrcK :=
  let n := x.toNat
  if n < 320 then .v n
  else if n < 384 then .k (n - 320)
  else if n = 384 then .lane
  else if n = 385 then .zero
  else if n = 386 then .ones
  else if n < 392 then .special (n - 387 + 1)
  else if n = 392 then .emask
  else if n = 393 then .special 0x23
  else if n = 394 then .special 0x24
  else if n < 416 then .reserved
  else if n < 432 then .int (n - 416)
  else if n < 440 then .flt (n - 432)
  else .reserved

/-- What a 9-bit destination operand names (02 R49). -/
inductive DstK where
  | v (n : Nat)
  | k (n : Nat)
  | p (n : Nat)
  | q (n : Nat)
  | t (n : Nat)
  | reserved
  deriving DecidableEq, Repr, Inhabited

/-- The destination operand space (02 R49). -/
def dstK (x : BitVec 9) : DstK :=
  let n := x.toNat
  if n < 320 then .v n
  else if n < 384 then .k (n - 320)
  else if n < 391 then .p (n - 384)
  else if n < 392 then .reserved
  else if n < 396 then .q (n - 392)
  else if n < 400 then .reserved
  else if n < 416 then .t (n - 400)
  else .reserved

/-- The guard is not the reserved one (02 R41). -/
def Guard.legal (g : Guard) : Bool := !(g.neg && g.idx == 7)

/-- The guard is always (02 R41). -/
def Guard.always (g : Guard) : Bool := !g.neg && g.idx == 7

/-- A field the instruction does not use is zero (02 R43). -/
def Src.unused (a : Src) : Bool := a.opnd == 0 && !a.last && !a.etrap

/-- The source names a v register. -/
def Src.isV (a : Src) : Bool := match srcK a.opnd with | .v _ => true | _ => false

/-- The source names a k register. -/
def Src.isK (a : Src) : Bool := match srcK a.opnd with | .k _ => true | _ => false

/-- The source names a k register without last use (02 R44). -/
def Src.kReg (a : Src) : Bool := a.isK && !a.last

/-- The source is a small integer constant with no L or E bit. -/
def Src.intConst (a : Src) : Bool :=
  match srcK a.opnd with | .int _ => !a.last && !a.etrap | _ => false

/-- L only on v operands, E only on v and k operands (02 R44). -/
def Src.bitsLegal (a : Src) : Bool := (!a.last || a.isV) && (!a.etrap || a.isV || a.isK)

/-- The register number of a v operand, else 0. -/
def Src.vNum (a : Src) : Nat := match srcK a.opnd with | .v n => n | _ => 0

/-- The register number of a k operand, else 0. -/
def Src.kNum (a : Src) : Nat := match srcK a.opnd with | .k n => n | _ => 0

/-- The destination names a k register. -/
def isKDst (d : BitVec 9) : Bool := match dstK d with | .k _ => true | _ => false

/-- The destination names a q predicate. -/
def isQDst (d : BitVec 9) : Bool := match dstK d with | .q _ => true | _ => false

/-- The destination names a p predicate. -/
def isPDst (d : BitVec 9) : Bool := match dstK d with | .p _ => true | _ => false

/-- The destination names a v register. -/
def isVDst (d : BitVec 9) : Bool := match dstK d with | .v _ => true | _ => false

/-- The register number of a destination: v, k, p, q or t by its own numbering. -/
def dstNum (d : BitVec 9) : Nat :=
  match dstK d with | .v n => n | .k n => n | .p n => n | .q n => n | .t n => n | .reserved => 0

/-- A uniform source (05 R128): k, the specials, zero, ones, `%emask` or a small integer. -/
def Src.uniform (a : Src) : Bool :=
  a.bitsLegal && match srcK a.opnd with
    | .k _ | .zero | .ones | .special _ | .emask | .int _ => true
    | _ => false

/-- A k register or a small integer constant, without last use. -/
def Src.kOrInt (a : Src) : Bool := a.kReg || a.intConst

/-- A predicate code of A, B or C (05 R155): p0-p6, true, q0-q3. -/
def Src.predCode (a : Src) : Bool := a.opnd.toNat < 12 && !a.last && !a.etrap

/-- A predicate code that is the same in every lane: true or q0-q3. -/
def Src.uniPred (a : Src) : Bool := 7 ≤ a.opnd.toNat && a.opnd.toNat < 12

/-- The fields of an F-S word apart from D, A, IMM16, SUB and MOD that a one-operand form leaves zero. -/
def OpS.noD (o : OpS) : Bool := o.d == 0

/-- Bit n of MOD. -/
def mbit {w : Nat} (m : BitVec w) (n : Nat) : Bool := m.getLsbD n

/-- Bits [hi:lo] of MOD as a number. -/
def mfield {w : Nat} (m : BitVec w) (hi lo : Nat) : Nat := bits m.toNat hi lo

/-- Every bit of MOD outside the listed ones is zero (02 R43). -/
def mzero {w : Nat} (m : BitVec w) (used : Nat) : Bool := (m.toNat &&& (2 ^ w - 1 - used)) == 0

/-! ### The common view of R/I words -/

/-- Guard of an R/I word. -/
def OpRI.g : OpRI → Guard | .r o => o.g | .i o => o.g
/-- Destination of an R/I word. -/
def OpRI.d : OpRI → BitVec 9 | .r o => o.d | .i o => o.d
/-- Source A of an R/I word. -/
def OpRI.a : OpRI → Src | .r o => o.a | .i o => o.a
/-- MOD of an R/I word. -/
def OpRI.m : OpRI → BitVec 10 | .r o => o.m | .i o => o.m
/-- Source B of an R/I word in format F-R; the zero operand in F-I. -/
def OpRI.bsrc : OpRI → Option Src | .r o => some o.b | .i _ => none
/-- IMM22 of an F-I word (02 R45); 0 in F-R. -/
def OpRI.imm : OpRI → BitVec 22 | .r _ => 0 | .i o => o.imm

/-- MOD[0] selects the format, and C is unused in F-R of a two-source opcode (02 R45, R43). -/
def OpRI.shape (o : OpRI) : Bool :=
  match o with
  | .r o => !mbit o.m 0 && o.c.unused
  | .i o => mbit o.m 0

/-! ### Arithmetic MOD (02 R50) -/

/-- TYPE. -/
inductive Ty where
  | b32 | s32 | n32 | f32 | f16x2 | bf16x2 | s16x2 | n16x2
  deriving DecidableEq, Repr, Inhabited

/-- TYPE of MOD[9:7]. -/
def tyOf (m : BitVec 10) : Ty :=
  match mfield m 9 7 with
  | 0 => .b32 | 1 => .s32 | 2 => .n32 | 3 => .f32 | 4 => .f16x2 | 5 => .bf16x2 | 6 => .s16x2 | _ => .n16x2

/-- RND of MOD[6:4]. -/
def rndOf (m : BitVec 10) : Nat := mfield m 6 4

/-- SAT. -/
def satOf (m : BitVec 10) : Bool := mbit m 3

/-- NOF. -/
def nofOf (m : BitVec 10) : Bool := mbit m 2

/-- The type is f32, f16x2 or bf16x2. -/
def Ty.isFloat : Ty → Bool | .f32 | .f16x2 | .bf16x2 => true | _ => false

/-- The type holds two 16-bit halves. -/
def Ty.packed : Ty → Bool | .f16x2 | .bf16x2 | .s16x2 | .n16x2 => true | _ => false

/-- Width of a type's elements. -/
def Ty.w (ty : Ty) : Nat := if ty.packed then 16 else 32

/-- The type reads its operands as signed. -/
def Ty.signed (ty : Ty) : Bool := match ty with | .s32 | .s16x2 => true | _ => false

/-- The checks on every arithmetic MOD (02 R50): RND 111, RND on an integer or raw type, NOF on a type without
flushing. -/
def arithModLegal (m : BitVec 10) : Bool :=
  rndOf m != 7 && ((tyOf m).isFloat || (rndOf m == 0 && !nofOf m))

/-! ### F-M fields (02 R45, R46) -/

/-- Bytes of an access or of an element (02 R46). -/
def sizeBytes (sz : BitVec 3) : Nat :=
  match sz.toNat with
  | 0 => 1 | 1 => 2 | 2 => 4 | 3 => 8 | 4 => 16 | 5 => 2 | 6 => 4 | _ => 8

/-- SIZE is a packet (02 R46). -/
def isPacket (sz : BitVec 3) : Bool := decide (5 ≤ sz.toNat)

/-- A base operand: a k register or an even v index (02 R46). -/
def baseLegal (a : Src) : Bool :=
  a.bitsLegal && match srcK a.opnd with
    | .k _ => true
    | .v n => n % 2 == 0
    | _ => false

/-- An index operand: a v or k register, a per-lane special or a small integer constant (02 R46). The uniform specials, `%emask`
and the constants 385 and 386, which R46 does not name and gives no ILLOP, are admitted too (log 117). -/
def indexLegal (b : Src) : Bool :=
  b.bitsLegal && match srcK b.opnd with
    | .v _ | .k _ | .lane | .zero | .ones | .special _ | .emask | .int _ => true
    | _ => false

/-- A v data register aligned to its size: even for 8 bytes, a multiple of 4 for 16 bytes (02 R46), within v0-v319. -/
def dataRunLegal (n size : Nat) : Bool :=
  let w := if size ≤ 4 then 1 else size / 4
  n % w == 0 && n + w ≤ 320

end Sys2Proof
end

