-- ==== Sys2Proof/Machine/LegalLane.lean ====
section
/-! DEFINITION. Which field values of the LANE words are legal (02 R40 step 2, R42 to R51; 06 R182 to R208). -/

namespace Sys2Proof

/-- A source of a LANE word (06 R182, 02 R44, R48). -/
def laneSrc (a : Src) : Bool := a.bitsLegal && (match srcK a.opnd with | .reserved => false | _ => true)

/-- A source in a 64-bit position: an even pair, a k register, or a constant that is no float (02 R48, 06 R182). -/
def laneSrc64 (a : Src) : Bool :=
  a.bitsLegal && (match srcK a.opnd with
    | .reserved => false
    | .flt _ => false
    | .v n => n % 2 == 0
    | _ => true)

/-- A source of one word, or of a pair when `wide`. -/
def laneSrcW (wide : Bool) (a : Src) : Bool := if wide then laneSrc64 a else laneSrc a

/-- A v destination, even for a pair (06 R182). -/
def laneDst (wide : Bool) (d : BitVec 9) : Bool := isVDst d && (!wide || dstNum d % 2 == 0)

/-- An arithmetic MOD within an opcode's row of 06 R183. -/
def laneMod (m : BitVec 10) (ts : List Ty) (sat nof m1 : Bool) : Bool :=
  arithModLegal m && ts.contains (tyOf m) && (sat || !satOf m) && (nof || !nofOf m) && (m1 || !mbit m 1)

/-- IMM22 fits a packed type (02 R51). -/
def immLegal (m : BitVec 10) (imm : BitVec 22) : Bool := !(tyOf m).packed || bits imm.toNat 21 16 == 0

/-- Operand B of an R/I word is a legal source or immediate (02 R45, R51). -/
def lanePairB (o : OpRI) : Bool :=
  o.shape && laneSrc o.a &&
  (match o with | .r x => laneSrc x.b | .i x => immLegal x.m x.imm)

/-- The types of the integer rows. -/
def intTypes : List Ty := [.s32, .n32, .s16x2, .n16x2]
/-- The types of the floating rows. -/
def fltTypes : List Ty := [.f32, .f16x2, .bf16x2]

/-- A two-source R/I word of a row. -/
def legalLane2 (ts : List Ty) (sat nof m1 : Bool) (o : OpRI) : Bool :=
  o.g.legal && laneDst false o.d && lanePairB o && laneMod o.m ts sat nof m1

/-- IADD and ISUB (06 R183): SAT not with b32. -/
def legalIadd (o : OpRI) : Bool := legalLane2 (.b32 :: intTypes) true false false o && !(satOf o.m && tyOf o.m == .b32)

/-- A one-source F-R word of a row. -/
def legalLaneR1 (ts : List Ty) (sat nof : Bool) (o : OpR) : Bool :=
  o.g.legal && laneDst false o.d && laneSrc o.a && o.b.unused && o.c.unused && !mbit o.m 0 && laneMod o.m ts sat nof false

/-- A two-source F-R word of a row. -/
def legalLaneR2 (ts : List Ty) (sat nof : Bool) (o : OpR) : Bool :=
  o.g.legal && laneDst false o.d && laneSrc o.a && laneSrc o.b && o.c.unused && !mbit o.m 0 && laneMod o.m ts sat nof false

/-- A three-source F-R word of a row. -/
def legalLaneR3 (ts : List Ty) (sat nof : Bool) (o : OpR) : Bool :=
  o.g.legal && laneDst false o.d && laneSrc o.a && laneSrc o.b && laneSrc o.c && !mbit o.m 0 && laneMod o.m ts sat nof false

/-- FRSQ, FEX2, FLG2, FSIN, FCOS (06 R183): RND 000 or 001. -/
def legalUnary (o : OpR) : Bool := legalLaneR1 fltTypes true true o && decide (rndOf o.m ≤ 1)

/-- LOP3 (06 R183): MOD[8:1] is the table. -/
def legalLop3 (o : OpR) : Bool :=
  o.g.legal && laneDst false o.d && laneSrc o.a && laneSrc o.b && laneSrc o.c && mzero o.m 0x1FE

/-- The destination of a comparison: v, or p under a type that is not packed (06 R188). -/
def cmpDst (d : BitVec 9) (ty : Ty) : Bool := laneDst false d || (isPDst d && !ty.packed)

/-- ICMP (06 R183, R188). -/
def legalIcmp (o : OpRI) : Bool :=
  let cc := mfield o.m 6 3
  o.g.legal && cmpDst o.d (tyOf o.m) && lanePairB o && (.b32 :: intTypes).contains (tyOf o.m) && mfield o.m 2 1 == 0 &&
  decide (cc ≤ 5) && (tyOf o.m != .b32 || decide (cc ≤ 1))

/-- FCMP (06 R183, R192). -/
def legalFcmp (o : OpRI) : Bool :=
  o.g.legal && cmpDst o.d (tyOf o.m) && lanePairB o && fltTypes.contains (tyOf o.m) && mfield o.m 2 1 == 0 &&
  decide (mfield o.m 6 3 ≤ 12)

/-- FCLS (06 R183, R193). -/
def legalFcls (o : OpR) : Bool :=
  o.g.legal && cmpDst o.d (tyOf o.m) && laneSrc o.a && laneSrc o.b && o.c.unused && !mbit o.m 0 &&
  laneMod o.m fltTypes false false false && rndOf o.m == 0

/-- FMNX (06 R183): MOD[4] NANP, MOD[1] MAX. -/
def legalFmnx (o : OpRI) : Bool :=
  o.g.legal && laneDst false o.d && lanePairB o && fltTypes.contains (tyOf o.m) && mzero o.m 0x393

/-- MOV (06 R183): MOD[1] B64. -/
def legalMov (o : OpR) : Bool :=
  let w := mbit o.m 1
  o.g.legal && laneDst w o.d && laneSrcW w o.a && o.b.unused && o.c.unused && mzero o.m 2

/-- MOVI (06 R194, 02 R45). -/
def legalMovi (o : OpW) : Bool := o.g.legal && laneDst false o.d && o.z == 0

/-- SEL (06 R183, R195). -/
def legalSel (o : OpR) : Bool :=
  let w := mbit o.m 2
  o.g.legal && laneDst w o.d && laneSrcW w o.a && laneSrcW w o.b && o.c.predCode && mzero o.m 6

/-- Destination format code of CVT (06 R196). -/
def cvtDst (o : OpR) : Nat := bits o.b.opnd.toNat 8 4
/-- Source format code of CVT. -/
def cvtSrc (o : OpR) : Nat := bits o.b.opnd.toNat 3 0 * 2 + (if o.b.last then 1 else 0)
/-- A format code that is assigned. -/
def cvtCode (n : Nat) : Bool := n < 16 && n != 7
/-- An integer format code. -/
def cvtInt (n : Nat) : Bool := 8 ≤ n
/-- A 64-bit format code. -/
def cvtWide (n : Nat) : Bool := n == 11 || n == 15

/-- CVT (06 R196). -/
def legalCvt (o : OpR) : Bool :=
  let d := cvtDst o
  let a := cvtSrc o
  o.g.legal && !o.b.etrap && cvtCode d && cvtCode a && o.c.unused && mzero o.m 0x7E && rndOf o.m != 7 &&
  laneDst (cvtWide d) o.d && laneSrcW (cvtWide a) o.a &&
  (!mbit o.m 1 || d == 3) && (!nofOf o.m || decide (d ≤ 2)) && (rndOf o.m == 0 || !(cvtInt d && cvtInt a))

/-- Highest POS of a pack format (06 R197). -/
def packPos (fmt : Nat) : Nat := match fmt with | 2 => 1 | 3 => 1 | 4 => 3 | _ => 0

/-- PACK (06 R197). -/
def legalPack (o : OpR) : Bool :=
  let f := mfield o.m 9 7
  o.g.legal && laneDst false o.d && laneSrc o.a && laneSrc o.b && f != 7 && rndOf o.m != 7 &&
  decide (mfield o.m 1 0 ≤ packPos f) && (decide (f < 5) || (rndOf o.m == 0 && !nofOf o.m)) &&
  (if f = 2 || f = 3 || f = 4 then laneSrc o.c else o.c.unused)

/-- UNPK (06 R197). -/
def legalUnpk (o : OpR) : Bool :=
  let f := mfield o.m 9 7
  o.g.legal && laneDst true o.d && laneSrc o.a && o.b.unused && o.c.unused && f != 7 && mfield o.m 6 2 == 0 &&
  decide (mfield o.m 1 0 ≤ packPos f)

/-- PRMB (06 R198). -/
def legalPrmb (o : OpR) : Bool :=
  o.g.legal && laneDst false o.d && laneSrc o.a && laneSrc o.b && laneSrc o.c && o.m == 0

/-- CLMP (06 R199). -/
def legalClmp (o : OpR) : Bool :=
  legalLaneR3 (intTypes ++ fltTypes) false false o && rndOf o.m == 0

/-- The pack format code of a QNT format code. -/
def qntFmt (o : OpR) : Nat := mfield o.m 9 8 + 2

/-- QNT (06 R200). -/
def legalQnt (o : OpR) : Bool :=
  o.g.legal && laneDst false o.d && laneSrc64 o.a && laneSrc o.b && laneSrc o.c && mfield o.m 9 8 != 3 &&
  rndOf o.m != 7 && !nofOf o.m && decide (mfield o.m 1 0 ≤ packPos (qntFmt o))

/-- DQNT (06 R200). -/
def legalDqnt (o : OpR) : Bool :=
  o.g.legal && laneDst true o.d && laneSrc o.a && laneSrc o.b && o.c.unused && mfield o.m 9 8 != 3 &&
  rndOf o.m != 7 && decide (mfield o.m 1 0 ≤ packPos (qntFmt o))

/-- A member mask (06 R203): a k register, ones or `%emask`. -/
def memberSrc (a : Src) : Bool :=
  a.bitsLegal && !a.last && (match srcK a.opnd with | .k _ | .ones | .emask => true | _ => false)

/-- XSHF (06 R205). -/
def legalXshf (o : OpR) : Bool :=
  let w := mbit o.m 4
  o.g.legal && laneDst w o.d && laneSrcW w o.a && laneSrc o.b && memberSrc o.c && mzero o.m 0x1E &&
  decide (mfield o.m 3 1 ≤ 3)

/-- XRED and XSCN (06 R206, R207). -/
def legalXred (excl : Bool) (o : OpR) : Bool :=
  let op := mfield o.m 3 1
  o.g.legal && laneDst false o.d && laneSrc o.a && o.b.unused && memberSrc o.c && (excl || !mbit o.m 0) &&
  rndOf o.m != 7 && (rndOf o.m == 0 || (tyOf o.m).isFloat) && decide (op ≤ 5) &&
  (if 3 ≤ op then tyOf o.m == .b32 else tyOf o.m != .b32)

/-- MXIX (06 R208): MOD[0] MIN. -/
def legalMxix (o : OpR) : Bool :=
  o.g.legal && laneDst true o.d && laneSrc64 o.a && laneSrc o.b && memberSrc o.c &&
  [Ty.f32, .s32, .n32].contains (tyOf o.m) && mfield o.m 6 4 == 0 && decide (mfield o.m 3 1 ≤ 3)

/-- RAND (06 R201). -/
def legalRand (o : OpR) : Bool :=
  o.g.legal && laneDst (mbit o.m 1) o.d && o.a.unused && o.b.unused && o.c.unused && mfield o.m 6 2 == 0 && !mbit o.m 0 &&
  (tyOf o.m == .b32 || (tyOf o.m == .f32 && !mbit o.m 1))

/-- RDSR (06 R202, 01 R18). -/
def legalRdsr (o : OpS) : Bool :=
  o.g.legal && decide (o.sub.toNat ≤ 1) && laneDst (o.sub == 1) o.d && o.a.unused && decide (o.imm.toNat ≤ 0x29) && o.m == 0

end Sys2Proof
end

