-- ==== Sys2Proof/Config.lean ====
section
/-! DEFINITION. What the spec leaves open, as constants with no value: nothing can be proved of what they are. -/

namespace Sys2Proof.Config

/-- The step that comes next when the agenda is empty: the spec orders the agents only by the mechanisms of 01 R3
(DESIGN CHOICE, log 4; free value). -/
opaque nextMove : Nat → Move

/-- The n-th byte that the spec leaves unspecified (05 R127; free value, log 16). -/
opaque freeByte : Nat → Byte

/-- The choice among n equal candidates that the spec leaves open, such as a victim of equal priority (08 R232; free
value, log 17). -/
opaque freePick : Nat → Nat

/-- The fuses (14 R432): the SHAKE256 digest of the Jenven root public key, and the minimum security version of FW (0), STEWARD
(1) and IDENT (2). They are fixed for a package; the spec gives no value (free values, log 131). -/
opaque rootDigest : BitVec 256
opaque minVersion : Nat → BitVec 16

/-- The package's serial number (14 R433; free value, log 131). -/
opaque serial : List Byte

/-- SHAKE256 of some bytes (14 R432), and whether an XMSS^MT signature of an image and its version verifies under the root key
of a digest: standards that the spec names and does not repeat (uninterpreted, log 131). -/
opaque shake256 : List Byte → BitVec 256
opaque signed : (root : BitVec 256) → (image : List Byte) → (version : BitVec 16) → (signature : List Byte) → Bool

/-- The bytes of an attestation report from M0 to M2, the nonce, the serial number, the signature index and the signature:
the spec gives its contents and not its layout (14 R433; free value, log 29). -/
opaque attestReport : (m0 m1 m2 : BitVec 256) → (nonce serial : List Byte) → (index : Nat) → (signature : List Byte) → List Byte

/-- The completion word of an attestation; `true` for EXHAUSTED (14 R433; free value, log 29). -/
opaque attestWord : Bool → DWord

/-- The INFO code of a containment level (14 R411, R419; free value, log 30). -/
opaque levelCode : Nat → Nat

/-- A physical address of a row region of a controller (14 R417; free value, log 30). -/
opaque regionPa : (ctl region : Nat) → Nat

end Sys2Proof.Config
end

