-- ==== Sys2Proof/Machine/Float.lean ====
section
/-! DEFINITION. Number formats, exact values, rounding and the random bits of 06 R172 to R181. -/

namespace Sys2Proof.Machine

open Sys2Proof

/-! ### Formats (06 R172) -/

/-- The formats of 06 R172 that have a sign. -/
inductive Fmt where
  | f32 | f16 | bf16 | e4m3 | e5m2 | e2m1
  deriving DecidableEq, Repr, Inhabited

/-- Mantissa bits. -/
def Fmt.mbits : Fmt → Nat
  | .f32 => 23 | .f16 => 10 | .bf16 => 7 | .e4m3 => 3 | .e5m2 => 2 | .e2m1 => 1

/-- Exponent bits. -/
def Fmt.ebits : Fmt → Nat
  | .f32 => 8 | .f16 => 5 | .bf16 => 8 | .e4m3 => 4 | .e5m2 => 5 | .e2m1 => 2

/-- Exponent bias. -/
def Fmt.bias : Fmt → Nat
  | .f32 => 127 | .f16 => 15 | .bf16 => 127 | .e4m3 => 7 | .e5m2 => 15 | .e2m1 => 1

/-- The format has infinities. -/
def Fmt.hasInf : Fmt → Bool
  | .f32 | .f16 | .bf16 | .e5m2 => true
  | .e4m3 | .e2m1 => false

/-- Width in bits. -/
def Fmt.width (f : Fmt) : Nat := f.ebits + f.mbits + 1

/-- The canonical NaN; E2M1 has none and a NaN becomes 0 there (06 R196). -/
def Fmt.nan : Fmt → Nat
  | .f32 => 0x7FC00000 | .f16 => 0x7E00 | .bf16 => 0x7FC0 | .e4m3 => 0x7F | .e5m2 => 0x7E | .e2m1 => 0

/-- The pattern of the largest finite value. -/
def Fmt.maxFinite : Fmt → Nat
  | .f32 => 0x7F7FFFFF | .f16 => 0x7BFF | .bf16 => 0x7F7F | .e4m3 => 0x7E | .e5m2 => 0x7B | .e2m1 => 0x7

/-- The pattern of +infinity, for the formats that have it. -/
def Fmt.infPat (f : Fmt) : Nat := (2 ^ f.ebits - 1) * 2 ^ f.mbits

/-- A sign bit in its place. -/
def Fmt.sign (f : Fmt) (neg : Bool) : Nat := if neg then 2 ^ (f.ebits + f.mbits) else 0

/-- The exponent of the format's subnormal spacing. -/
def Fmt.qmin (f : Fmt) : Int := 1 - (f.bias : Int) - (f.mbits : Int)

/-- Results of this format can be flushed (06 R178). -/
def Fmt.flushes : Fmt → Bool
  | .f32 | .f16 | .bf16 => true
  | _ => false

/-- An exact value: NaN, an infinity, a signed zero, or (-1)^neg * m * 2^e with m > 0. A set `st` says that the true
magnitude lies strictly between m * 2^e and (m + 1) * 2^e. -/
inductive FV where
  | nan
  | inf (neg : Bool)
  | zero (neg : Bool)
  | num (neg : Bool) (m : Nat) (e : Int) (st : Bool)
  deriving DecidableEq, Repr, Inhabited

/-- The value of a field pattern (06 R172). -/
def decodeF (f : Fmt) (x : Nat) : FV :=
  let neg := bits x (f.ebits + f.mbits) (f.ebits + f.mbits) == 1
  let e := bits x (f.ebits + f.mbits - 1) f.mbits
  let m := x % 2 ^ f.mbits
  let top := 2 ^ f.ebits - 1
  if e = 0 then (if m = 0 then .zero neg else .num neg m f.qmin false)
  else if f.hasInf && e = top then (if m = 0 then .inf neg else .nan)
  else if f = .e4m3 && e = top && m = 7 then .nan
  else .num neg (2 ^ f.mbits + m) ((e : Int) - 1 + f.qmin) false

/-- The sign of a value; NaN has none. -/
def FV.neg : FV → Bool
  | .nan => false | .inf n => n | .zero n => n | .num n _ _ _ => n

/-- The value with its sign flipped. -/
def FV.negate : FV → FV
  | .nan => .nan | .inf n => .inf (!n) | .zero n => .zero (!n) | .num n m e s => .num (!n) m e s

/-! ### Rounding (06 R174 to R178) -/

/-- Rounding modes. -/
inductive Rm where
  | rne | rtz | rdn | rup | rna | sr
  deriving DecidableEq, Repr, Inhabited

/-- The mode of an RND or MODE code (02 R50, 06 R174); 000 in MODE is RNE. None for the reserved codes. -/
def rmOf (n : Nat) : Option Rm :=
  match n with
  | 0 => some .rne | 1 => some .rne | 2 => some .rtz | 3 => some .rdn | 4 => some .rup | 5 => some .rna | 6 => some .sr
  | _ => none

/-- How a result is rounded: mode, saturation, flushing, NaN on overflow (NANOV), random bits of SR. -/
structure RndCtl where
  mode : Rm
  sat : Bool
  ftz : Bool
  nanov : Bool
  u : Nat
  deriving DecidableEq, Repr, Inhabited

/-- Plain RNE without saturation or flushing. -/
def RndCtl.rne : RndCtl := ⟨.rne, false, false, false, 0⟩

/-- A rounded element with what the counters of 06 R209 count. -/
structure Elem where
  b : Nat
  flushed : Bool
  sat : Bool
  nan : Bool
  deriving DecidableEq, Repr, Inhabited

/-- An element that counts nothing. -/
def Elem.plain (b : Nat) : Elem := ⟨b, false, false, false⟩

/-- How many bits a number has. -/
def bitLen (n : Nat) : Nat := if n = 0 then 0 else Nat.log2 n + 1

/-- A magnitude m * 2^e (with `st`) rounded to a multiple of 2^q: the multiple. `shift` bits of m lie below 2^q, at
least 34 of them, so that the comparison of SR is exact (06 R176). -/
def roundTo (mode : Rm) (u : Nat) (neg : Bool) (m : Nat) (st : Bool) (shift : Nat) : Nat :=
  let n := m / 2 ^ shift
  let rem := m % 2 ^ shift
  let half := 2 ^ (shift - 1)
  let up : Bool :=
    if rem = 0 && !st then false
    else match mode with
      | .rne => decide (half < rem) || (rem == half && (st || n % 2 == 1))
      | .rtz => false
      | .rdn => neg
      | .rup => !neg
      | .rna => decide (half ≤ rem)
      | .sr => decide (u * 2 ^ shift < rem * 2 ^ 32) || (u * 2 ^ shift == rem * 2 ^ 32 && st)
  if up then n + 1 else n

/-- A magnitude rounded to a multiple of 2^q: m is first extended so that at least 34 of its bits lie below. -/
def roundMul (mode : Rm) (u : Nat) (neg : Bool) (m : Nat) (e q : Int) (st : Bool) : Nat :=
  let sh := q - e
  if 34 ≤ sh then
    -- a value far below 2^q keeps its side of every boundary
    if (bitLen m : Int) + 64 < sh then roundTo mode u neg 1 true 128
    else roundTo mode u neg m st sh.toNat
  else roundTo mode u neg (m * 2 ^ (34 - sh).toNat) st 34

/-- The pattern of the magnitude n * 2^q, where n has at most mbits + 2 bits and q is the grid's spacing. -/
def encodeMag (f : Fmt) (n : Nat) (q : Int) : Nat :=
  if n = 0 then 0
  else
    let l := bitLen n
    let top := q + (l : Int) - 1
    if top < 1 - (f.bias : Int) then n
    else
      let e := (top + (f.bias : Int)).toNat
      let frac := n * 2 ^ f.mbits / 2 ^ (l - 1) - 2 ^ f.mbits
      e * 2 ^ f.mbits + frac

/-- The overflow result (06 R177). -/
def overflowTo (f : Fmt) (c : RndCtl) (neg : Bool) : Elem :=
  let mx : Elem := ⟨f.sign neg + f.maxFinite, false, true, false⟩
  match f with
  | .e4m3 => if c.nanov then ⟨f.nan, false, false, true⟩ else mx
  | .e2m1 => mx
  | _ =>
    if c.sat then mx
    else
      let inf := Elem.plain (f.sign neg + f.infPat)
      let big := Elem.plain (f.sign neg + f.maxFinite)
      match c.mode with
      | .rne | .rna | .sr => inf
      | .rtz => big
      | .rdn => if neg then inf else big
      | .rup => if neg then big else inf

/-- `round_fmt` (06 R176 to R179). -/
def roundF (f : Fmt) (c : RndCtl) (x : FV) : Elem :=
  match x with
  | .nan => ⟨f.nan, false, false, f != .e2m1⟩
  | .zero neg => Elem.plain (f.sign neg)
  | .inf neg =>
    match f with
    | .e4m3 => if c.nanov then ⟨f.nan, false, false, true⟩ else ⟨f.sign neg + f.maxFinite, false, true, false⟩
    | .e2m1 => ⟨f.sign neg + f.maxFinite, false, true, false⟩
    | _ => if c.sat then ⟨f.sign neg + f.maxFinite, false, true, false⟩ else Elem.plain (f.sign neg + f.infPat)
  | .num neg m e st =>
    let top := e + (bitLen m : Int) - 1
    let q := max (top - (f.mbits : Int)) f.qmin
    let n := roundMul c.mode c.u neg m e q st
    let l := bitLen n
    let rtop := q + (l : Int) - 1
    let emax : Int := (2 ^ f.ebits - (if f.hasInf then 2 else 1) : Nat) - (f.bias : Int)
    if n ≠ 0 && (emax < rtop || decide (f.maxFinite < encodeMag f n q)) then overflowTo f c neg
    else if f.flushes && c.ftz && n ≠ 0 && decide (rtop < 1 - (f.bias : Int)) then ⟨f.sign neg, true, false, false⟩
    else Elem.plain (f.sign neg + encodeMag f n q)

/-! ### Exact arithmetic (06 R179, R189) -/

/-- The sign of an exact zero sum of operands of opposite sign (06 R179). -/
def zeroSum (mode : Rm) : FV := .zero (mode = .rdn)

/-- A signed integer times 2^e. -/
def ofInt (mode : Rm) (i : Int) (e : Int) : FV :=
  if i = 0 then zeroSum mode else .num (decide (i < 0)) i.natAbs e false

/-- An exact sum. Neither operand carries `st`. -/
def FV.add (mode : Rm) (a b : FV) : FV :=
  match a, b with
  | .nan, _ => .nan
  | _, .nan => .nan
  | .inf x, .inf y => if x = y then .inf x else .nan
  | .inf x, _ => .inf x
  | _, .inf y => .inf y
  | .zero x, .zero y => if x = y then .zero x else zeroSum mode
  | .zero _, y => y
  | x, .zero _ => x
  | .num n1 m1 e1 _, .num n2 m2 e2 _ =>
    let e := min e1 e2
    let i1 : Int := (m1 * 2 ^ (e1 - e).toNat : Nat)
    let i2 : Int := (m2 * 2 ^ (e2 - e).toNat : Nat)
    ofInt mode ((if n1 then -i1 else i1) + (if n2 then -i2 else i2)) e

/-- An exact product. -/
def FV.mul (a b : FV) : FV :=
  match a, b with
  | .nan, _ => .nan
  | _, .nan => .nan
  | .inf _, .zero _ => .nan
  | .zero _, .inf _ => .nan
  | .inf x, y => .inf (x != y.neg)
  | x, .inf y => .inf (x.neg != y)
  | .zero x, y => .zero (x != y.neg)
  | x, .zero y => .zero (x.neg != y)
  | .num n1 m1 e1 _, .num n2 m2 e2 _ => .num (n1 != n2) (m1 * m2) (e1 + e2) false

/-- Bits kept of a quotient or root that is not exact: far more than any format's precision and SR's 32 bits. -/
def workBits : Nat := 256

/-- A quotient, truncated with `st` where it is not exact. -/
def FV.div (a b : FV) : FV :=
  match a, b with
  | .nan, _ => .nan
  | _, .nan => .nan
  | .inf _, .inf _ => .nan
  | .zero _, .zero _ => .nan
  | .inf x, y => .inf (x != y.neg)
  | x, .inf y => .zero (x.neg != y)
  | .zero x, y => .zero (x != y.neg)
  | x, .zero y => .inf (x.neg != y)
  | .num n1 m1 e1 _, .num n2 m2 e2 _ =>
    let k := workBits + bitLen m2
    let q := m1 * 2 ^ k / m2
    .num (n1 != n2) q (e1 - e2 - (k : Int)) (decide (m1 * 2 ^ k % m2 ≠ 0))

/-- The integer square root, bit by bit from 2^(i-1) down: the largest r of that form with r * r ≤ n. -/
def isqrtFrom (n : Nat) : Nat → Nat → Nat
  | 0, r => r
  | i + 1, r => isqrtFrom n i (if (r + 2 ^ i) * (r + 2 ^ i) ≤ n then r + 2 ^ i else r)

/-- The integer square root. -/
def isqrt (n : Nat) : Nat := isqrtFrom n (bitLen n / 2 + 1) 0

/-- A square root, truncated with `st` where it is not exact (06 R189). -/
def FV.sqrt (a : FV) : FV :=
  match a with
  | .nan => .nan
  | .zero n => .zero n
  | .inf n => if n then .nan else .inf false
  | .num n m e _ =>
    if n then .nan
    else
      let odd := decide (e % 2 ≠ 0)
      let k := 2 * workBits
      let m' := (if odd then 2 * m else m) * 2 ^ k
      let e' := (if odd then e - 1 else e) - (k : Int)
      let r := isqrt m'
      .num false r (e' / 2) (decide (r * r ≠ m'))

/-- A reciprocal square root, truncated with `st` (06 R190). -/
def FV.rsqrt (a : FV) : FV :=
  match a with
  | .nan => .nan
  | .zero n => .inf n
  | .inf n => if n then .nan else .zero false
  | .num n m e _ =>
    if n then .nan
    else
      -- a = m' * 2^e' with e' even; 1/sqrt a = sqrt (2^(2k) / m') * 2^(-k - e'/2)
      let odd := decide (e % 2 ≠ 0)
      let m' := if odd then 2 * m else m
      let e' := if odd then e - 1 else e
      let k := workBits + bitLen m'
      let r := isqrt (2 ^ (2 * k) / m')
      .num false r (-(k : Int) - e' / 2) (decide (r * r * m' ≠ 2 ^ (2 * k)))

/-- A value times a power of two (06 R189 FSCL). -/
def FV.scale (a : FV) (n : Int) : FV :=
  match a with
  | .num s m e st => .num s m (e + n) st
  | x => x

/-! ### The functions of 06 R190, in fixed point

Values are integers counted in units of 2^-P. Each series is cut after enough terms for the working precision; the
result is truncated, and no result of these functions of a dyadic operand lies on a rounding boundary apart from the
exact cases handled first (log 20). -/

/-- Σ z^(2k+1) / (2k+1) with sign s^k: the arc tangent (s = -1) or its hyperbolic form (s = 1), in units of 2^-P. -/
def atanSum (P : Nat) (z2 : Nat) (alt : Bool) (terms : Nat) : Nat → Nat → Int → Int
  | zk, k, acc =>
    match terms with
    | 0 => acc
    | n + 1 =>
      let t : Int := (zk / (2 * k + 1) : Nat)
      let acc' := if alt && k % 2 = 1 then acc - t else acc + t
      atanSum P z2 alt n (zk * z2 / 2 ^ P) (k + 1) acc'

/-- atanh (num / den) in units of 2^-P. -/
def atanhFix (P num den terms : Nat) : Int :=
  let z := num * 2 ^ P / den
  atanSum P (z * z / 2 ^ P) false terms z 0 0

/-- atan (1 / den) in units of 2^-P. -/
def atanInvFix (P den terms : Nat) : Int :=
  let z := 2 ^ P / den
  atanSum P (z * z / 2 ^ P) true terms z 0 0

/-- ln 2 = 2 atanh (1/3). -/
def ln2Fix (P : Nat) : Nat := (2 * atanhFix P 1 3 (P / 3 + 2)).toNat

/-- π by 16 atan (1/5) - 4 atan (1/239). -/
def piFix (P : Nat) : Nat := (16 * atanInvFix P 5 (P / 4 + 2) - 4 * atanInvFix P 239 (P / 15 + 2)).toNat

/-- Σ x^n / n! in units of 2^-P, from the term t of index n on. -/
def expSum (P x : Nat) (terms : Nat) : Nat → Nat → Nat → Nat
  | t, n, acc =>
    match terms with
    | 0 => acc
    | k + 1 => expSum P x k (t * x / 2 ^ P / (n + 1)) (n + 1) (acc + t)

/-- Σ (-1)^k x^(2k+i) / (2k+i)! in units of 2^-P, from the term t of index n = i on: sine (i = 1) or cosine (i = 0). -/
def trigSum (P x2 : Nat) (terms : Nat) : Nat → Nat → Bool → Int → Int
  | t, n, neg, acc =>
    match terms with
    | 0 => acc
    | k + 1 =>
      trigSum P x2 k (t * x2 / 2 ^ P / ((n + 1) * (n + 2))) (n + 2) (!neg) (if neg then acc - t else acc + t)

/-- Precision of the fixed-point functions. -/
def fnBits : Nat := 300

/-- 2^a (06 R190). -/
def FV.exp2 (a : FV) : FV :=
  match a with
  | .nan => .nan
  | .zero _ => .num false 1 0 false
  | .inf n => if n then .zero false else .inf false
  | .num n m e _ =>
    if 10 < e + (bitLen m : Int) then (if n then .num false 1 (-2000) true else .num false 1 2000 false)
    else if e + (bitLen m : Int) < -100 then
      -- 2^a is 1 plus or minus less than 2^-99
      if n then .num false (2 ^ 99 - 1) (-99) true else .num false (2 ^ 99) (-99) true
    else
      let P := fnBits
      let x : Nat := if 0 ≤ e then m * 2 ^ (P + e.toNat) else m * 2 ^ P / 2 ^ (-e).toNat
      let xi : Int := if n then -(x : Int) else x
      let k := xi / (2 ^ P : Nat)
      let f := (xi % (2 ^ P : Nat)).toNat
      if f = 0 then .num false 1 k false
      else .num false (expSum P (f * ln2Fix P / 2 ^ P) 90 (2 ^ P) 0 0) (k - (P : Int)) true

/-- log2 a (06 R190). -/
def FV.log2 (a : FV) : FV :=
  match a with
  | .nan => .nan
  | .zero _ => .inf true
  | .inf n => if n then .nan else .inf false
  | .num n m e _ =>
    if n then .nan
    else
      let l := bitLen m
      let k : Int := e + (l : Int) - 1
      if m = 2 ^ (l - 1) then (if k = 0 then .zero false else .num (decide (k < 0)) k.natAbs 0 false)
      else
        let P := fnBits
        -- log2 of m / 2^(l-1), which lies strictly between 1 and 2
        let lnm := 2 * atanhFix P (m - 2 ^ (l - 1)) (m + 2 ^ (l - 1)) (P / 3 + 2)
        let r : Int := k * (2 ^ P : Nat) + lnm * (2 ^ P : Nat) / (ln2Fix P : Int)
        .num (decide (r < 0)) r.natAbs (-(P : Int)) true

/-- Sine and cosine of a nonzero finite value (06 R190): the argument is reduced by multiples of π/2. -/
def trigFV (cosine : Bool) (n : Bool) (m : Nat) (e : Int) : FV :=
  if e + (bitLen m : Int) < -60 then
    if cosine then .num false (2 ^ 100 - 1) (-100) true
    else .num n (m * 2 ^ 100 - 1) (e - 100) true
  else
    let P := fnBits
    let Q := P + 160
    let x : Nat := if 0 ≤ e then m * 2 ^ (Q + e.toNat) else m * 2 ^ Q / 2 ^ (-e).toNat
    let half := piFix Q / 2
    let k := x / half
    let r := (x % half) / 2 ^ 160
    let quad := (k + (if cosine then 1 else 0)) % 4
    let r2 := r * r / 2 ^ P
    let s := if quad % 2 = 0 then trigSum P r2 60 r 1 false 0 else trigSum P r2 60 (2 ^ P) 0 false 0
    let v := if 2 ≤ quad then -s else s
    let v := if n && !cosine then -v else v
    if v = 0 then .zero false else .num (decide (v < 0)) v.natAbs (-(P : Int)) true

/-- sin a (06 R190). -/
def FV.sin (a : FV) : FV :=
  match a with
  | .nan => .nan | .inf _ => .nan | .zero n => .zero n
  | .num n m e _ => trigFV false n m e

/-- cos a (06 R190). -/
def FV.cos (a : FV) : FV :=
  match a with
  | .nan => .nan | .inf _ => .nan | .zero _ => .num false 1 0 false
  | .num n m e _ => trigFV true n m e

/-! ### Comparison -/

/-- The order of two values that are not NaN, -0 equal to +0: less, equal or greater. -/
def FV.cmp (a b : FV) : Ordering :=
  let key (x : FV) : Int × Nat × Int :=
    match x with
    | .nan => (0, 0, 0)
    | .zero _ => (0, 0, 0)
    | .inf n => (if n then -2 else 2, 0, 0)
    | .num n m e _ => (if n then -1 else 1, m, e)
  let (c1, m1, e1) := key a
  let (c2, m2, e2) := key b
  if c1 ≠ c2 then compare c1 c2
  else if c1 = 1 || c1 = -1 then
    let e := min e1 e2
    let o := compare (m1 * 2 ^ (e1 - e).toNat) (m2 * 2 ^ (e2 - e).toNat)
    if c1 = 1 then o else o.swap
  else .eq

/-- The value is NaN. -/
def FV.isNan : FV → Bool | .nan => true | _ => false

/-- FMNX of two patterns of a format (06 R191): an operand unchanged; -0 below +0; a NaN loses to a number, or gives
the canonical NaN under NANP; two NaNs give it too. -/
def fmnx (f : Fmt) (isMax nanp : Bool) (a b : Nat) : Nat :=
  let x := decodeF f a; let y := decodeF f b
  if x.isNan || y.isNan then
    if nanp || (x.isNan && y.isNan) then f.nan else if x.isNan then b else a
  else
    let o := match FV.cmp x y with
      | .eq => match x, y with
        | .zero n1, .zero n2 => if n1 = n2 then Ordering.eq else if n1 then Ordering.lt else Ordering.gt
        | _, _ => Ordering.eq
      | o => o
    match o with
    | .lt => if isMax then b else a
    | .gt => if isMax then a else b
    | .eq => a

/-! ### Integers of a rounded value (06 R196) -/

/-- A finite value rounded to an integer. -/
def FV.toInt (mode : Rm) (u : Nat) (a : FV) : Int :=
  match a with
  | .num n m e st =>
    let r := roundMul mode u n m e 0 st
    if n then -(r : Int) else r
  | _ => 0

/-- An integer clamped to a range. -/
def clampI (x lo hi : Int) : Int := if x < lo then lo else if hi < x then hi else x

/-- An integer modulo 2^w, as a number. -/
def wrapN (w : Nat) (x : Int) : Nat := (x % (2 ^ w : Nat)).toNat

/-- A w-bit pattern read as a two's-complement integer. -/
def sInt (w : Nat) (x : Nat) : Int := if x % 2 ^ w < 2 ^ (w - 1) then (x % 2 ^ w : Nat) else (x % 2 ^ w : Nat) - (2 ^ w : Nat)

/-! ### Random bits (06 R180) -/

/-- `rnd`. -/
def genRnd (z m : DWord) (s : Nat) : DWord := let y := z * m; y ^^^ (y >>> s)

/-- `gen(key, dom, lid, idx, ctr)`. -/
def gen (key : DWord) (dom lid : Nat) (idx ctr : DWord) : DWord :=
  let z := key ^^^ 0x51A7C04E93D26BF8
  let z := genRnd (z ^^^ idx) 0xC2B59A4E71D30F8B 31
  let z := genRnd (z ^^^ ctr) 0x8E61F3A725C94DB3 29
  let z := genRnd (z ^^^ (BitVec.ofNat 64 (dom * 2 ^ 32) ||| BitVec.ofNat 64 lid)) 0xB7D40E956A1CE327 32
  genRnd z 0xF05A83C6D9127E4D 33

/-- The SR bits of a generator value. -/
def srBits (z : DWord) : Nat := z.toNat % 2 ^ 32

end Sys2Proof.Machine
end

