-- ==== Sys2Proof/Machine/Atomic.lean ====
section
/-! DEFINITION. What each atomic makes of a word (08 R245 to R249), as functions of the old word and the operand. -/

namespace Sys2Proof.Machine

open Sys2Proof

/-- The 16-bit half h of a word. -/
def halfOf (x h : Nat) : Nat := x / 2 ^ (16 * h) % 2 ^ 16

/-- A function applied to each element of a word: the word under F32, both halves under a 16-bit format. -/
def perElem (f : Fmt) (g : Nat → Nat → Nat → Elem) (a b : Nat) : Nat :=
  match f with
  | .f32 => (g 0 a b).b
  | _ => (g 0 (halfOf a 0) (halfOf b 0)).b + 2 ^ 16 * (g 1 (halfOf a 1) (halfOf b 1)).b

/-- One rounded sum of two patterns of a format. -/
def fAddElem (f : Fmt) (c : RndCtl) (a b : Nat) : Elem :=
  roundF f c (FV.add c.mode (decodeF f a) (decodeF f b))

/-- AFAD (08 R245): the random bits of element h are `us` at h. -/
def atomFadd (f : Fmt) (mode : Rm) (ftz : Bool) (us : Nat → Nat) (old b : Nat) : Nat :=
  perElem f (fun h x y => fAddElem f ⟨mode, false, ftz, false, us h⟩ x y) old b

/-- AADD (08 R245) by AOP and size. -/
def atomAdd (aop size old b : Nat) : Nat :=
  let w := 8 * size
  match aop with
  | 2 => wrapN 32 (clampI (sInt 32 old + sInt 32 b) (-(2 ^ 31)) (2 ^ 31 - 1))
  | 3 => min (old + b) (2 ^ 32 - 1)
  | _ => (old + b) % 2 ^ w

/-- AMNX (08 R245). -/
def atomMnx (aop size old b : Nat) : Nat :=
  let w := 8 * size
  let isMax := aop % 2 = 1
  let less := if aop / 2 % 2 = 0 then decide (sInt w old < sInt w b) else decide (old < b)
  if less then (if isMax then b else old) else if isMax then old else b

/-- The format of a two-bit float code: f32, f16x2, bf16x2. -/
def fmtCode (n : Nat) : Fmt := match n with | 0 => .f32 | 1 => .f16 | _ => .bf16

/-- AFMX (08 R245, 06 R191). -/
def atomFmx (aop old b : Nat) : Nat :=
  let f := fmtCode (aop / 2)
  perElem f (fun _ x y => Elem.plain (fmnx f (aop % 2 = 1) false x y)) old b

/-- The order key of a value (08 R247) by the type of AMXI. -/
def ordKey (ty v : Nat) : Nat :=
  match ty with
  | 0 => if (decodeF .f32 v).isNan then 2 ^ 32 - 1
         else if 2 ^ 31 ≤ v then v ^^^ (2 ^ 32 - 1) else v + 2 ^ 31
  | 1 => v ^^^ 2 ^ 31
  | _ => v

/-- AMXI (08 R247): the value and the index of the operand make the key. -/
def atomMxi (aop old b : Nat) : Nat :=
  let key := ordKey (aop / 2) (b % 2 ^ 32) * 2 ^ 32 + (b / 2 ^ 32 ^^^ (2 ^ 32 - 1))
  max old key

/-- ALOP (08 R245). -/
def atomLop (aop old b : Nat) : Nat :=
  match aop % 4 with | 0 => old &&& b | 1 => old ||| b | _ => old ^^^ b

/-- AINC (08 R245). -/
def atomInc (aop old b : Nat) : Nat :=
  if aop % 2 = 0 then (if b ≤ old then 0 else old + 1)
  else if old = 0 || b < old then b else old - 1

/-- ACAS (08 R245): the operand holds cmp below new. -/
def atomCas (size old b : Nat) : Nat :=
  let w := 8 * size
  if old = b % 2 ^ w then b / 2 ^ w else old

/-- The pattern's value is finite. -/
def finite32 (x : Nat) : Bool := match decodeF .f32 x with | .nan => false | .inf _ => false | _ => true

/-- The rounding of ACAD (08 R246): RNE, no flush. -/
def acadRound (x : FV) : Nat := (roundF .f32 RndCtl.rne x).b

/-- ACAD (08 R246): the pair (h, l) after (xh, xl) is added. -/
def atomCad (h l xh xl : Nat) : Nat × Nat :=
  let d := decodeF .f32
  let exact := FV.add .rne (d h) (d xh)
  let s := acadRound exact
  if !finite32 s then (s, 0)
  else
    let e := FV.add .rne exact (d s).negate
    let t := acadRound (FV.add .rne (FV.add .rne (d l) (d xl)) e)
    let st := FV.add .rne (d s) (d t)
    let h' := acadRound st
    if !finite32 h' then (h', 0)
    else (h', acadRound (FV.add .rne st (d h').negate))

/-- The condition of WAITA (08 R249). -/
def waitaHolds (aop word b : Nat) : Bool :=
  match aop with
  | 0 => word != b | 1 => word == b | 2 => decide (b < word) | _ => decide (b ≤ word)

/-! ### Glide words (12 R365): VALUE in [63:32], STAMP in [31:8], FIDX in [7:0] -/

/-- rne32 of a product. -/
def rneMul (a b : Nat) : Nat := acadRound (FV.mul (decodeF .f32 a) (decodeF .f32 b))

/-- rne32 of a sum. -/
def rneAdd (a b : Nat) : Nat := acadRound (FV.add .rne (decodeF .f32 a) (decodeF .f32 b))

/-- The powering of R365: p after the i low bits of the age that remain, from the highest. -/
def glidePow (f age : Nat) : Nat → Nat → Nat
  | 0, p => p
  | i + 1, p =>
    let q := rneMul p p
    glidePow f age i (if age / 2 ^ i % 2 = 1 then rneMul q f else q)

/-- VALUE. -/
def gValue (w : Nat) : Nat := w / 2 ^ 32 % 2 ^ 32

/-- STAMP. -/
def gStamp (w : Nat) : Nat := w / 2 ^ 8 % 2 ^ 24

/-- A glide word from its fields. -/
def gWord (v stamp fidx : Nat) : Nat := v * 2 ^ 32 + stamp % 2 ^ 24 * 2 ^ 8 + fidx % 2 ^ 8

/-- decay_to (12 R365). -/
def decayTo (w t : Nat) (ft : List Word) : Nat :=
  let age := (t % 2 ^ 24 + 2 ^ 24 - gStamp w) % 2 ^ 24
  if age = 0 then gValue w
  else rneMul (gValue w) (glidePow (ft.getD (w % 2 ^ 8) 0).toNat age 24 0x3F800000)

/-- Stamp a is later than or equal to b (12 R365). -/
def stampLater (a b : Nat) : Bool := decide ((a + 2 ^ 24 - b) % 2 ^ 24 < 2 ^ 23)

/-- GADD (12 R368). -/
def glideAdd (old x step : Nat) (ft : List Word) : Nat := gWord (rneAdd (decayTo old step ft) x) step old

/-- GMRG (12 R369). -/
def glideMerge (m r : Nat) (ft : List Word) : Nat :=
  let t := if stampLater (gStamp r) (gStamp m) then gStamp r else gStamp m
  gWord (rneAdd (decayTo m t ft) (decayTo r t ft)) t m

/-- GSET (12 R370). -/
def glideSet (b step : Nat) (now : Bool) : Nat := if now then gWord (gValue b) step b else b

end Sys2Proof.Machine
end

