-- ==== Sys2Proof/Machine/State.lean ====
section
/-! DEFINITION. The state of one package (00 R1): everything the spec gives the machine, as plain data. INVENTORY.md
lists each piece with its rule and its reset value. -/

namespace Sys2Proof.Machine

open Sys2Proof

/-- Bytes at addresses, strictly rising. In `Memory.wf` form no listed byte is zero. -/
abbrev Memory := List Host.Cell

/-- Bytes held by a cache line, an atomic unit or a buffer: listed means held. -/
abbrev ByteMap := List Host.Cell

/-! ### Traps and waits -/

/-- Trap causes with their codes (05 R131). -/
inductive Cause where
  | illop | illclass | illclause | illscope | illlayout | illpiste | emptyread | deadread | access | misalign
  | barovf | maskself | stalehandle | chunkabort | combfault | censusfail | digest | preempt | swtrap | brk
  | uncorrected | fatalnest
  deriving DecidableEq, Repr, Inhabited

/-- A trap found in a split and not yet entered: cause, DETAIL and the `%tpc` it sets (05 R131). -/
structure PendTrap where
  cause : Cause
  detail : Nat
  tpc : Nat
  deriving DecidableEq, Repr, Inhabited

/-- Why a split does not issue (05 R114). -/
inductive Wait where
  | none
  /-- its code line is not in the L0 instruction cache (R143) -/
  | fetch
  /-- a wait slot of its clause is not satisfied (02 R35) -/
  | waitSlot
  /-- a source register is empty in these lanes (02 R28): a k register, or a v register -/
  | empty (isK : Bool) (r : Nat) (m : Mask)
  /-- fewer physical registers are free than the slot writes, n (R126) -/
  | phys (n : Nat)
  /-- a spilled register must be reloaded (R126) -/
  | reload (r : Nat)
  /-- the lanes of its access have no verdict yet (08 R231) -/
  | verdict (op : Nat)
  /-- a reply must arrive before the slot completes -/
  | reply
  /-- the condition of a waiting instruction does not hold; the slot is issued again -/
  | retest
  /-- HELD at a synchronising slot that is not yet performed (R120) -/
  | syncSlot
  /-- HELD at a cross-lane slot with this member mask (06 R204) -/
  | crossLane (m : Mask)
  /-- HELD while another split of the group is in a handler (R133) -/
  | handler
  /-- stalled at an issue whose wait counter is full or whose buffer has no room (02 R34) -/
  | room
  /-- HELD at a PHA that found ARR = EXP: it counts into the next phase of barrier n and posts k chunks (07 R217) -/
  | phase (n k : Nat)
  /-- an RWT: these bits of ARRIVED half h of region entry n (10 R294) -/
  | chunks (n h : Nat) (ka : DWord)
  deriving DecidableEq, Repr, Inhabited

/-- A fetched clause: header word and slot words (02 R32). -/
structure Clause where
  hdr : DWord
  slots : List DWord
  deriving DecidableEq, Repr, Inhabited

/-! ### Splits (05 R113 to R121) -/

/-- State of a split entry (05 R114). -/
inductive SplitState where
  | free | ready | blocked | held | suspended
  deriving DecidableEq, Repr, Inhabited

/-- One entry of a group's split table (05 R113) with the clause it executes. -/
structure Split where
  mask : Mask
  dorm : Mask
  state : SplitState
  /-- join record 0-15, 0x1F none -/
  jref : Nat
  hdr : Nat
  slot : Nat
  clause : Option Clause
  /-- the wait slots let the clause start (R112 step 4) -/
  started : Bool
  wait : Wait
  /-- progress of a slot that is issued more than once: the barrier phase it arrived in, the reply it waits for, or the member
  mask it was HELD with -/
  prog : Option Nat
  trap : Option PendTrap
  /-- the access whose faulted slot the split executes again, 0 none: the slot reads through the marks that access left
  (05 R121) -/
  replay : Nat
  /-- order in which the split became ready -/
  since : Nat
  /-- its clause has been counted in CLAUSES, and its slots in SPLIT_PAIR beside another split's (05 R147, 04 R103) -/
  counted : Bool
  paired : Bool
  deriving DecidableEq, Repr, Inhabited

/-- A free split entry. Entries 1 to 10 hold it at group start, where 05 R113 gives HDR the value ENTRY without naming an entry:
entry 0 has ENTRY, the FREE ones 0 (DESIGN CHOICE, log 133). -/
def Split.free : Split :=
  { mask := 0, dorm := 0, state := .free, jref := 0x1F, hdr := 0, slot := 0, clause := none, started := false,
    wait := .none, prog := none, trap := none, replay := 0, since := 0, counted := false, paired := false }

/-- A join record (05 R115). -/
structure Join where
  mask : Mask
  arrived : Mask
  valid : Bool
  outer : Nat
  defer : Bool
  j : Nat
  dmask : Mask
  dpc : Nat
  deriving DecidableEq, Repr, Inhabited

/-- A join record that is not in use. -/
def Join.free : Join :=
  { mask := 0, arrived := 0, valid := false, outer := 0x1F, defer := false, j := 0, dmask := 0, dpc := 0 }

/-- A parked set (05 R121). `refused` marks a set whose fault system software refused (14 R412); `hdepth` is the handler
depth at which its lanes parked, 0 for an ordinary split (05 R133 step 4); `prod` is the access that parked them, the
producer that left their destination empty. -/
structure Parked where
  mask : Mask
  dorm : Mask
  valid : Bool
  served : Bool
  refused : Bool
  jref : Nat
  hdr : Nat
  slot : Nat
  hdepth : Nat
  prod : Nat
  deriving DecidableEq, Repr, Inhabited

/-- A parked set that is not in use. -/
def Parked.free : Parked :=
  { mask := 0, dorm := 0, valid := false, served := false, refused := false, jref := 0x1F, hdr := 0, slot := 0,
    hdepth := 0, prod := 0 }

/-! ### Registers (01 R15, 05 R124 to R127) -/

/-- A v register of a group. `prod` gives each lane's outstanding producer, 0 when it has landed; `fails` lists the lanes
an engine marked failed (R131 kind D), each with its cause and DETAIL; `full` is the full bit of a mailbox register. A
register that was freed keeps its DEAD mask and is not mapped. -/
structure VReg where
  vals : List Word
  mapped : Bool
  spilled : Bool
  dead : Mask
  prod : List Nat
  fails : AMap Nat (Cause × Nat)
  full : Bool
  deriving DecidableEq, Repr, Inhabited

/-- An unmapped register. -/
def VReg.unmapped : VReg :=
  { vals := perLane (fun _ => 0), mapped := false, spilled := false, dead := 0, prod := perLane (fun _ => 0), fails := [],
    full := false }

/-- A k register: value, full bit and outstanding producer (01 R29). -/
structure KReg where
  val : DWord
  full : Bool
  prod : Nat
  deriving DecidableEq, Repr, Inhabited

/-- A k register that holds 0 and is full (04 R99). -/
def KReg.zero : KReg := { val := 0, full := true, prod := 0 }

/-- The wait counters of a group (02 R34). -/
structure Counters where
  copy : Nat
  mat : Nat
  cmb : Nat
  cen : Nat
  st : Nat
  ld : Nat
  deriving DecidableEq, Repr, Inhabited

/-- An implicit timeline (01 R23, R24): its value, the number of closed batches and the batch of every operation that
has not completed. -/
structure Implicit where
  value : DWord
  closed : Nat
  out : List Nat
  deriving DecidableEq, Repr, Inhabited

/-- State of a census slot (13 R392, R393). -/
structure CenSlot where
  state : Nat
  fail : Bool
  timeout : Bool
  matched : Nat
  responded : Nat
  faulted : Nat
  /-- scope of the slot's last census -/
  scope : Nat
  /-- the closes that are not done: the census and the core -/
  closing : List (Nat × CoreRef)
  deriving DecidableEq, Repr, Inhabited

/-- The writable and saved special registers of a group (01 R17). -/
structure Specials where
  rmode : DWord
  seed : DWord
  draw : DWord
  tcause : BitVec 32
  tpc : DWord
  gang : DWord
  tc : List DWord
  pivot : DWord
  mbudget : BitVec 32
  caoff : DWord
  key : DWord
  kloc : DWord
  deriving DecidableEq, Repr, Inhabited

/-- What a group is: a group of a block, a census responder (13 R384) or a pack wave (12 R353). -/
inductive GKind where
  | ordinary
  | responder (census : Nat) (entry : Nat) (done : Bool)
  | pack (id : Nat)
  deriving DecidableEq, Repr, Inhabited

/-- Life of a group: placed and waiting for its KARGS (04 R99), running, saved by TDONE or by force (05 R130). -/
inductive GPhase where
  | placed | running | preempted | spilled
  deriving DecidableEq, Repr, Inhabited

/-- One resident or saved group. -/
structure Group where
  ref : GRef
  kind : GKind
  phase : GPhase
  lid : Nat
  blk : Nat
  gidx : Nat
  vregs : AMap Nat VReg
  kregs : AMap Nat KReg
  preds : List Mask
  qs : List Bool
  sp : Specials
  ctl : Implicit
  mtl : Implicit
  splits : List Split
  joins : List Join
  parked : List Parked
  exited : Mask
  depth : Nat
  /-- the split whose trap is being handled (05 R133) -/
  suspended : Option Nat
  /-- `%tpc` as handler entry set it, at depth 1 and at depth 2 (05 R134, R135) -/
  tpcSet : DWord
  tpcSet2 : DWord
  shadowCause : BitVec 32
  shadowTpc : DWord
  /-- the entry the depth-2 handler took over (05 R135) -/
  nestEntry : Nat
  /-- the other handler entries that lanes of the depth-2 handler replay in (05 R121, R135) -/
  deep : List Nat
  /-- the causes being handled at depth 1 and at depth 2 (05 R135) -/
  cause1 : Cause
  cause2 : Cause
  prepend : Bool
  /-- a pre-emption of the launch was requested and not yet taken (05 R137) -/
  preemptReq : Bool
  /-- an UNCORRECTED trap waits for a clause boundary (05 R131 kind A) -/
  uncorr : Bool
  ctr : Counters
  census : List CenSlot
  cookie : DWord
  /-- when the group last started a clause or became ready, and when it last started a clause (04 R101, R126); its
  effective class, 0 urgent to 2 background -/
  age : Nat
  lastStart : Nat
  klass : Nat
  clauses : Nat
  /-- where the group's spill image is, once a save or spill has begun it (05 R142, R148) -/
  imgAt : Option Nat
  /-- FNC fences waiting for their access, per lane: scope of a pending release (03 R76) -/
  fenceRel : List (Option Nat)
  /-- lanes whose accesses since their last FNC acquire have read a word that an engine's signal wrote (03 R75, R76) -/
  engSeen : Mask
  deriving DecidableEq, Repr, Inhabited

/-! ### Memory operations of groups (08 R229 to R249) -/

/-- What a lane of an access waits for. -/
inductive LaneStatus where
  | waiting | accepted | performed
  deriving DecidableEq, Repr, Inhabited

/-- One lane of an access: its address, its operand bytes and its reply. -/
structure LaneAcc where
  lane : Nat
  addr : Nat
  data : List Byte
  reply : List Byte
  status : LaneStatus
  /-- lanes of other AREDs that complete with this one (03 R80): operation and lane -/
  joined : List (Nat × Nat)
  /-- scope of the FNC release the lane's access carries (03 R76) -/
  fence : Option Nat
  /-- the lane has read a word that an engine's signal wrote (03 R75) -/
  eng : Bool
  deriving DecidableEq, Repr, Inhabited

/-- Where an access goes. -/
inductive Space where
  | global | scratch | onchip
  deriving DecidableEq, Repr, Inhabited

/-- What an access does. -/
inductive AccKind where
  | load | store | gather | scatter | ldk | stk | atomic | ared | glide | waita | maint
  deriving DecidableEq, Repr, Inhabited

/-- An outstanding access of a group: the slot that issued it, what it does and its lanes. Rounding data are those
sampled at issue (06 R175, R180). -/
structure MemOp where
  id : Nat
  g : GRef
  entry : Nat
  ins : Instr
  asid : Nat
  kind : AccKind
  space : Space
  size : Nat
  ord : Nat
  scope : Nat
  evict : Nat
  /-- first register of the destination; whether it is a k register -/
  dest : Nat
  destK : Bool
  lanes : List LaneAcc
  rmode : DWord
  seed : DWord
  draw : DWord
  caoff : DWord
  lid : Nat
  /-- the launch identifier of the random bits, and the λ of lane 0 (06 R180) -/
  glid : Nat
  lam0 : Nat
  /-- a WAITA whose condition held at a test (08 R249) -/
  met : Bool
  /-- the v registers it writes, the lanes whose slot it is, and whether its group's launch is a piste launch (04 R106) -/
  dests : List Nat
  act : Mask
  piste : Bool
  deriving DecidableEq, Repr, Inhabited

/-- A write in transit to a mailbox register (01 R16, R22): target slot, register, bytes by offset in the register, the
issuing group and its access. -/
structure MboxWrite where
  id : Nat
  g : GRef
  reg : Nat
  bytes : ByteMap
  src : GRef
  op : Nat
  deriving DecidableEq, Repr, Inhabited

/-! ### Caches and translation (08 R232, 14 R403 to R409) -/

/-- A line of an L1D or a slice: tag, bytes valid and clean, bytes valid and dirty (by offset in the line), the page's
attributes, the replacement priority and the poisoned sectors. -/
structure Line where
  asid : Nat
  line : Nat
  clean : ByteMap
  dirty : ByteMap
  ro : Bool
  gd : Bool
  pol : Nat
  prio : Nat
  own : Nat
  poison : List Nat
  deriving DecidableEq, Repr, Inhabited

/-- A translation-cache entry: the leaf word and its level (14 R403). -/
structure Tlb where
  asid : Nat
  base : Nat
  level : Nat
  leaf : DWord
  deriving DecidableEq, Repr, Inhabited

/-- A remap-filter entry (14 R409). -/
structure Remap where
  asid : Nat
  page : Nat
  pasid : Nat
  ppage : Nat
  size : Nat
  deriving DecidableEq, Repr, Inhabited

/-- A write-through of a quad atomic unit in transit to its home slice (03 R73), with the group and the lanes it serves. -/
structure QuadWrite where
  id : Nat
  die : Nat
  quad : Nat
  asid : Nat
  addr : Nat
  bytes : List Byte
  g : GRef
  lanes : List Nat
  deriving DecidableEq, Repr, Inhabited

/-- A word a quad atomic unit keeps (03 R73). -/
structure QuadCopy where
  asid : Nat
  addr : Nat
  bytes : List Byte
  deriving DecidableEq, Repr, Inhabited

/-- A line of an instruction cache: tag and its sixteen words as fetched (05 R143). -/
structure ILine where
  asid : Nat
  line : Nat
  words : List DWord
  deriving DecidableEq, Repr, Inhabited

/-- A code line on its way to a core (05 R143): the levels it fills and the partition it goes to. -/
structure IFill where
  id : Nat
  c : CoreRef
  p : Nat
  asid : Nat
  line : Nat
  deriving DecidableEq, Repr, Inhabited

/-! ### Launches and blocks (04) -/

/-- A role descriptor (04 R88). -/
structure RoleDesc where
  en : Bool
  first : Nat
  last : Nat
  regs : Nat
  deriving DecidableEq, Repr, Inhabited

/-- A launch record (04 R88). `wf` tells whether its reserved fields are zero and its descriptors well formed. -/
structure LaunchRec where
  version : Nat
  span : Nat
  sdie : Nat
  queue : Nat
  prio : Nat
  persist : Bool
  cohort : Bool
  piste : Bool
  debug : Bool
  blocks : Nat
  mdl : Nat
  asid : Nat
  entry : Nat
  groups : Nat
  gregs : Nat
  roleCp : RoleDesc
  roleMx : RoleDesc
  roleEp : RoleDesc
  podn : Nat
  mbox : Nat
  accb : Nat
  tiles : Nat
  scratch : Nat
  hen : Bool
  handler : Nat
  rmode : DWord
  seed : DWord
  ntl : Nat
  mbudget : BitVec 32
  tlinit : Nat
  gft : Nat
  kargs : Nat
  stack : Nat
  stksz : Nat
  deps : List (DWord × DWord)
  comp : DWord
  compv : DWord
  stata : Nat
  nbind : Nat
  bindt : Nat
  pwaves : Nat
  plcores : Nat
  ptasks : Nat
  pdtab : Nat
  wf : Bool
  deriving DecidableEq, Repr, Inhabited

/-- Launch states (04 R96). -/
inductive LState where
  | queued | ready | placing | running | draining | done
  deriving DecidableEq, Repr, Inhabited

/-- A binding (03 R68, 08 R242). -/
structure Binding where
  obj : Nat
  base : Nat
  len : Nat
  scope : Nat
  deriving DecidableEq, Repr, Inhabited

/-- A slot whose split waits for a reply that its k register takes: who issued it, the register, and the producer that the
register counts it as (01 R29). -/
structure Waiter where
  g : GRef
  entry : Nat
  kd : Nat
  id : Nat
  deriving DecidableEq, Repr, Inhabited

/-- A binding change on its way to the cores of the launch (03 R69): the old set, the cores that still hold it, and the
slot that waits. -/
structure BindChange extends Waiter where
  old : List Binding
  left : List CoreRef
  status : Nat
  deriving DecidableEq, Repr, Inhabited

/-- A launch known to the distributor (04 R94 to R97). -/
structure Launch where
  lid : Nat
  part : Nat
  lrec : LaunchRec
  recAddr : Nat
  /-- code base of the launch's module (05 R145) -/
  base : Nat
  state : LState
  endc : Nat
  trapped : Nat
  ldig : DWord
  tls : List DWord
  /-- launch of the issuing group, for references of KIND 10 (R89); 0 for the steward -/
  issuer : Nat
  unplaced : List Nat
  /-- pre-emption holds back placement (05 R137) -/
  preempted : Bool
  readySeq : Nat
  bindings : List Binding
  change : Option BindChange
  ft : List Word
  podAccepted : List Nat
  deriving DecidableEq, Repr, Inhabited

/-- What other packages answered to submissions of a pod-span record (04 R94): each answers every submission once. -/
structure PodNews where
  asid : Nat
  recAddr : Nat
  /-- answers to submissions that this package has not answered yet, in the order of their arrival, and whether they accept -/
  msgs : List (Nat × Bool)
  /-- packages whose next answer is to a submission that has ended here -/
  stale : List Nat
  deriving DecidableEq, Repr, Inhabited

/-- A phase barrier (07 R215). -/
structure PhaseBar where
  p : Bool
  arr : Nat
  exp : Nat
  pend : Int
  deriving DecidableEq, Repr, Inhabited

/-- The weight latch of a block (11 R304). -/
structure Latch where
  fmt : Nat
  smode : Nat
  k : Nat
  n : Nat
  /-- patterns of the logical K × N weights, row by row -/
  weights : List Nat
  /-- their scales by logical block, row by row, and the blocks of a row -/
  scales : List Nat
  scaleCols : Nat
  deriving DecidableEq, Repr, Inhabited

/-- A byte committed to a merge buffer: address, value, the λ of the lane that stored it and the task it belongs to
(04 R106, R110). -/
structure MergeByte where
  addr : Nat
  val : Byte
  lam : Nat
  task : Option Nat
  deriving DecidableEq, Repr, Inhabited

/-- A held ARED of a piste launch (04 R107). -/
structure HeldAred where
  lam : Nat
  addr : Nat
  ins : Instr
  data : List Byte
  caoff : DWord
  rmode : DWord
  task : Option Nat
  deriving DecidableEq, Repr, Inhabited

/-- A merge epoch that ended at the block's arrival at a barrier of the span's level, until it is merged (04 R106, 07 R225):
the barrier's number, the buffered bytes, the held AREDs. -/
structure Epoch where
  bar : Nat
  bytes : List MergeByte
  areds : List HeldAred
  deriving DecidableEq, Repr, Inhabited

/-- A resident block (04 R98). -/
structure Block where
  lid : Nat
  idx : Nat
  die : Nat
  core : Nat
  slots : List Nat
  scratchBase : Nat
  scratchLen : Nat
  tileBase : Nat
  accBase : Nat
  phase : List PhaseBar
  latch : Option Latch
  merge : List MergeByte
  areds : List HeldAred
  /-- the epochs that have ended and are not merged yet, oldest first (04 R106) -/
  epochs : List Epoch
  task : Option Nat
  dig : DWord
  restart : Nat
  mismatch : Bool
  /-- held at clause boundaries while another wave of its logical core recovers (04 R110) -/
  hold : Bool
  /-- every group has exited; the storage waits for responders (13 R398) -/
  closed : Bool
  deriving DecidableEq, Repr, Inhabited

/-- A hardware barrier (07 R211, R213): launch, level, instance (block, cohort, die or 0), number, completed phases,
the groups counted into the current phase. -/
structure HBar where
  lid : Nat
  level : Nat
  inst : Nat
  id : Nat
  c : BitVec 32
  arrived : List GRef
  deriving DecidableEq, Repr, Inhabited

/-- An arrival on its way to a barrier's place (07 R213), or one that waits there for the phase before it to complete. -/
structure BarMsg where
  id : Nat
  lid : Nat
  level : Nat
  inst : Nat
  bar : Nat
  g : GRef
  entry : Nat
  /-- BARA's reply -/
  waiter : Option Waiter
  deriving DecidableEq, Repr, Inhabited

/-- A ticket (07 R220): the counts of the ticket unit and, per core of the quad, the served values on their way and the
one it holds. -/
structure Ticket where
  lid : Nat
  blk : Nat
  tk : Nat
  next : Word
  serv : Word
  seen : AMap Nat Word
  queue : AMap Nat (List Word)
  deriving DecidableEq, Repr, Inhabited

/-! ### Distributor and steward -/

/-- A distributor (04 R94, R98): one per partition of the package. -/
structure Distributor where
  queues : AMap Nat (List Nat)
  pointer : Nat
  readyCount : Nat
  deriving DecidableEq, Repr, Inhabited

/-- Where the table entry of an installed module is, by MODTAB as it was when its MODL began (05 R148), and its code. -/
structure ModAt where
  tab : Nat
  base : Nat
  len : Nat
  deriving DecidableEq, Repr, Inhabited

/-- A command taken from a command page (04 R86). -/
structure Command where
  op : Nat
  arg0 : DWord
  arg1 : DWord
  arg2 : DWord
  number : Nat
  deriving DecidableEq, Repr, Inhabited

/-- A registered command page (04 R85, R87). -/
structure CmdPage where
  va : Nat
  perr : Nat
  /-- counts to be cleared, or PERR 2 to be written, once the page accepts it (14 R408) -/
  clear : Bool
  cmd : Option Command
  deriving DecidableEq, Repr, Inhabited

/-- Issue state of a partition of a core: the slot and split its scheduler selected, and the group that yields
(04 R101, 05 R149). -/
structure PartSched where
  sel : Option (Nat × Nat)
  yield : Option Nat
  deriving DecidableEq, Repr, Inhabited

/-! ### Copy engine (10) -/

/-- A layout record (10 R277). -/
structure Layout where
  conv : Nat
  esz : Nat
  inner : Bool
  outer : Bool
  swz : Nat
  br : Nat
  bc : Nat
  orr : Nat
  oc : Nat
  rowStride : Nat
  wf : Bool
  deriving DecidableEq, Repr, Inhabited

/-- A copy context (10 R274). -/
structure CopyCtx where
  owner : Option Nat
  gen : Nat
  layout : Option Layout
  deriving DecidableEq, Repr, Inhabited

/-- States of a region entry (10 R282). -/
inductive RState where
  | free | absent | filling | present | revoked | flushing
  deriving DecidableEq, Repr, Inhabited

/-- A fill or write-out in progress (10 R283, R286): its group and batch when it counts in `%ctl`, its place in the order of
issues, the chunks not yet requested, the chunks in flight, the chunks that are done. -/
structure Transfer where
  g : Option GRef
  batch : Nat
  seq : Nat
  todo : List Nat
  flight : List Nat
  done : List Nat
  deriving DecidableEq, Repr, Inhabited

/-- A chunk requested of a copy engine: the region entry, the chunk, whether it is written out (10 R274). -/
structure EngReq where
  c : CoreRef
  n : Nat
  k : Nat
  out : Bool
  deriving DecidableEq, Repr, Inhabited

/-- A lane that waits on a chunk of a window (10 R284). -/
structure TouchLane where
  op : Nat
  lane : Nat
  chunk : Nat
  deriving DecidableEq, Repr, Inhabited

/-- A region-table entry (10 R280 to R296). -/
structure Region where
  state : RState
  lid : Nat
  blk : Nat
  fark : Bool
  dir : Nat
  far : Nat
  handle : Nat
  phen : Bool
  phb : Nat
  woff : Nat
  touch : Bool
  len : Nat
  layout : Layout
  rmode : DWord
  seed : DWord
  asid : Nat
  arrived : BitVec 128
  aborted : BitVec 128
  reason : Nat
  nabt : Nat
  fills : Nat
  fill : Option Transfer
  out : Option Transfer
  /-- RUNB waits for the started chunks (R282) -/
  unbind : Bool
  waiting : List TouchLane
  deriving DecidableEq, Repr, Inhabited

/-! ### Matrix engine (11) -/

/-- What an operation writes in one 16-byte sector: on-chip storage or global memory, the sector, its bytes by address
(11 R315). -/
structure SecWrite where
  chip : Bool
  sec : Nat
  cells : List Host.Cell
  deriving DecidableEq, Repr, Inhabited

/-- A matrix operation: its slot and everything sampled at issue (11 R301, R311 to R313). -/
structure MatOp where
  id : Nat
  g : GRef
  p : Nat
  ins : Instr
  lid : Nat
  blk : Nat
  batch : Nat
  mask : Mask
  base : DWord
  stride : DWord
  vd : DWord
  va : DWord
  vb : DWord
  vs : DWord
  rmode : DWord
  seed : DWord
  pivot : DWord
  lam0 : Nat
  budget : Nat
  vdata : List (Nat × List Word)
  gseq : Nat
  /-- an MMAG past the lift line, with the activation streamed from position 0 -/
  lifted : Bool
  cancelled : Bool
  /-- of an operation that has been computed, the sectors that have not changed yet (11 R315) -/
  todo : Option (List SecWrite)
  asid : Nat
  /-- where the block's storage lies -/
  scratchBase : Nat
  tileBase : Nat
  accBase : Nat
  deriving DecidableEq, Repr, Inhabited

/-- The matrix engine of a core. -/
structure MatEng where
  waiting : List MatOp
  accepted : List MatOp
  lastPart : Nat
  toggles : DWord
  window : Nat
  prevRow : Nat
  lastLatch : Option (Nat × Nat)
  deriving DecidableEq, Repr, Inhabited

/-- A GANG or GANG.dis that waits at the lift line (11 R328). -/
structure GangWait extends Waiter where
  list : Nat
  dis : Bool
  deriving DecidableEq, Repr, Inhabited

/-! ### Home engine (12) -/

/-- States of a combinable object (12 R346). -/
inductive OState where
  | idle | running | closing | poisoned
  deriving DecidableEq, Repr, Inhabited

/-- A registered object (12 R344 to R347). -/
structure Obj where
  die : Nat
  slice : Nat
  home : Nat
  asid : Nat
  lid : Nat
  mdl : Nat
  method : Nat
  asz : Nat
  rsz : Nat
  comm : Bool
  regs : Nat
  mbud : Nat
  slen : Nat
  recAddr : Nat
  state : OState
  packNo : DWord
  /-- the OBJC.del forms that wait for the running pack -/
  delBy : List Waiter
  deriving DecidableEq, Repr, Inhabited

/-- A combine request of one lane (12 R349). -/
structure Req where
  msg : Nat
  home : Nat
  asid : Nat
  word : Word
  args : List Word
  asz : Nat
  rsz : Nat
  g : GRef
  lane : Nat
  dest : Nat
  nt : Option Nat
  op : Nat
  lid : Nat
  deriving DecidableEq, Repr, Inhabited

/-- A combine message: in transit to its home, or refused and waiting to be resent (12 R349, R350). -/
structure CmbMsg where
  id : Nat
  die : Nat
  slice : Nat
  reqs : List Req
  refusals : Nat
  backoff : Bool
  deriving DecidableEq, Repr, Inhabited

/-- A pack (12 R352 to R359): its object, its requests, the bytes it has written and whether CMBR was performed. -/
structure Pack where
  id : Nat
  c : CoreRef
  g : GRef
  home : Nat
  asid : Nat
  number : DWord
  reqs : List Req
  buf : ByteMap
  slen : Nat
  rsz : Nat
  mbud : Nat
  committed : Bool
  deriving DecidableEq, Repr, Inhabited

/-- A reply in transit (12 R356): the words of the run, or the DETAIL of a failure. -/
structure Reply where
  id : Nat
  req : Req
  words : List Word
  fail : Option Nat
  slen : Nat
  deriving DecidableEq, Repr, Inhabited

/-- A sweep region with its factor table (12 R372). -/
structure Sweep where
  base : Nat
  len : Nat
  ft : List Word
  deriving DecidableEq, Repr, Inhabited

/-- The step register of an ASID (12 R364): every value it has had since creation, newest last, how many changes each
copy has adopted, the GSTPs that wait, the sweep table, the words that each slice has still to sweep. -/
structure StepReg where
  asid : Nat
  history : List Word
  adopted : AMap Place Nat
  waiting : List (Waiter × Nat)
  sweeps : List Sweep
  todo : AMap Place (List Nat)
  deriving DecidableEq, Repr, Inhabited

/-! ### Census engine (13) -/

/-- A key-directory entry that is VALID or LEAVING (13 R376, R377). -/
structure DirEnt where
  key : DWord
  loc : DWord
  lid : Nat
  blk : Nat
  leaving : Bool
  /-- open censuses that matched the entry while it was VALID -/
  matchedBy : List Nat
  /-- the KDEL that waits for the release, with the status it writes -/
  waiter : Option (Waiter × Nat)
  deriving DecidableEq, Repr, Inhabited

/-- A census open at a core (13 R383): its place in the order of arrival there, matched entries that wait for a responder,
responders running, close arrived. -/
structure CenCore where
  c : CoreRef
  seq : Nat
  spawn : List Nat
  running : Nat
  closeArrived : Bool
  deriving DecidableEq, Repr, Inhabited

/-- A count report or a response on its way (13 R383, R386, R389). -/
structure CenMsg where
  id : Nat
  c : CoreRef
  entry : Nat
  count : Option Nat
  fault : Bool
  contrib : List (Option (List Word))
  deriving DecidableEq, Repr, Inhabited

/-- What a die node has folded for a census (13 R389). -/
structure DiePart where
  die : Nat
  counted : List Nat
  count : Nat
  responded : Nat
  faulted : Nat
  acc : List (Option (List Word))
  pend : List CenMsg
  key : Nat
  sent : Bool
  deriving DecidableEq, Repr, Inhabited

/-- A die partial on its way to the asker (13 R389). -/
structure DieMsg where
  id : Nat
  die : Nat
  cores : Nat
  count : Nat
  responded : Nat
  faulted : Nat
  acc : List (Option (List Word))
  key : Nat
  deriving DecidableEq, Repr, Inhabited

/-- A census (13 R380 to R393). -/
structure Census where
  id : Nat
  g : GRef
  slot : Nat
  lid : Nat
  key : DWord
  kmask : DWord
  arg : DWord
  budget : Nat
  entry : Nat
  op : Nat
  scope : Nat
  mode : Nat
  nt : Bool
  dest : Nat
  mask : Mask
  prodId : Nat
  complete : Bool
  /-- cores its broadcast has not reached -/
  pending : List CoreRef
  /-- broadcasts and moves that go before it on the down channels they share (13 R379, R396) -/
  after : List Nat
  cores : List CenCore
  closes : List CoreRef
  msgs : List CenMsg
  dies : List DiePart
  dieMsgs : List DieMsg
  /-- cores whose count has reached the asker -/
  counted : Nat
  matched : Nat
  responded : Nat
  faulted : Nat
  acc : List (Option (List Word))
  /-- responses the asker holds until their turn in key order (piste mode) -/
  sorted : List (Nat × List (Option (List Word)))
  /-- dies of other packages whose partials have arrived, as package · 4 + die -/
  far : List Nat
  /-- asked by a group of another package (13 R379, log 107) -/
  foreign : Bool
  deriving DecidableEq, Repr, Inhabited

/-- A directory move in progress (13 R395, R396). -/
structure KMove extends Waiter where
  src : CoreRef
  dst : CoreRef
  ent : Nat
  key : DWord
  loc : DWord
  lid : Nat
  blk : Nat
  /-- its common node has sent it down, after these broadcasts and moves -/
  atNode : Bool
  before : List Nat
  /-- applied at the source; the source entry is FREE -/
  srcAt : Bool
  srcFree : Bool
  /-- the entry it took at the destination -/
  dstDone : Option Nat
  deriving DecidableEq, Repr, Inhabited

/-! ### Ports (14) -/

/-- Who waits on a fault record (14 R412). -/
inductive Requester where
  | parked (g : GRef) (set : Nat)
  | fetch (g : GRef) (e : Nat)
  | chunk (q : EngReq)
  | matOp (c : CoreRef) (id : Nat)
  | pcol (id : Nat)
  | engine
  deriving DecidableEq, Repr, Inhabited

/-- An unanswered fault record with the requests that joined it (14 R411, R412). -/
structure FaultRec where
  fid : Nat
  asid : Nat
  page : Nat
  kind : Nat
  joined : List Requester
  deriving DecidableEq, Repr, Inhabited

/-- The port registers (14 R430). -/
structure PortRegs where
  ready : Bool
  fwfail : Bool
  pfail : Bool
  failStage : Nat
  owner : Nat
  partcfg : BitVec 2
  ctxbase : DWord
  fqbase : DWord
  fqhead : DWord
  shootva : DWord
  shootlen : DWord
  shootdone : DWord
  dlmax : DWord
  route : DWord
  nonowner : DWord
  deriving DecidableEq, Repr, Inhabited

/-- A write of a privileged group to a port register, on its way (14 R429): operation, offset, value. -/
structure PortWrite where
  op : Nat
  off : Nat
  val : DWord
  deriving DecidableEq, Repr, Inhabited

/-- A shoot-down in progress (14 R407): what is still to be done. -/
structure Shoot where
  id : Nat
  asid : Nat
  va : Nat
  len : Nat
  tr : Bool
  data : Bool
  deriving DecidableEq, Repr, Inhabited

/-- Whose write a migration holds (14 R414): a lane's, or an engine operation's. -/
inductive WriteSrc where
  | lane (g : GRef) (l : Nat)
  | engine (id : Nat)
  deriving DecidableEq, Repr, Inhabited

/-- A write held by a migration (14 R413, R414): primary virtual place, offset in the page, bytes, and those whose write it
is; none for a write-back. -/
structure HeldWrite where
  asid : Nat
  va : Nat
  off : Nat
  bytes : List Byte
  src : List WriteSrc
  deriving DecidableEq, Repr, Inhabited

/-- An open migration (14 R413): the old and the new page and the leaf lie at addresses of `hbm` (R402). -/
structure Migr extends Waiter where
  asid : Nat
  va : Nat
  level : Nat
  size : Nat
  old : Nat
  new : Nat
  leafAt : Nat
  leaf : DWord
  held : List HeldWrite
  deriving DecidableEq, Repr, Inhabited

/-- Progress of a port collective: waiting for its members, reading its contribution, in the ring (14 R427). -/
inductive ColState where
  | waiting | reading | ring
  /-- its status is known; what it writes last waits for a page that migrates (14 R414) -/
  | closing
  deriving DecidableEq, Repr, Inhabited

/-- An open port collective at this member (14 R424 to R428). -/
structure Collective where
  id : Nat
  part : Nat
  lid : Nat
  blk : Nat
  core : CoreRef
  asid : Nat
  op : Nat
  dtype : Nat
  dl : Bool
  colid : Nat
  bucket : Nat
  count : Nat
  members : List Nat
  wait : DWord
  waitv : DWord
  comp : DWord
  compv : DWord
  stata : Nat
  srseed : DWord
  budget : Nat
  nowait : Bool
  caoff : DWord
  rmode : DWord
  state : ColState
  contrib : List Word
  contribLo : List Word
  /-- sectors of the contribution that have still to be read: of the low words or of the high ones, and the sector's number -/
  left : List (Bool × Nat)
  /-- segments whose final words are known: segment number, high words, low words -/
  result : List (Nat × List Word × List Word)
  /-- pieces of sectors that have still to be written: address and bytes -/
  todo : List (Nat × List Byte)
  status : Nat
  deriving DecidableEq, Repr, Inhabited

/-- ECC tracking of a controller (14 R417). -/
structure Ecc where
  i : Nat
  /-- region, count, first interval; least recently used first -/
  rows : List (Nat × Nat × Nat)
  /-- spare rows used, per bank -/
  spares : AMap Nat Nat
  deriving DecidableEq, Repr, Inhabited

/-- Whose deadline-class request it is (14 R416): an access's, a copy chunk's, a matrix operation's, a collective's. -/
inductive DlWho where
  | op (id : Nat)
  | chunk (q : EngReq)
  | mat (c : CoreRef) (id : Nat)
  | col (id : Nat)
  deriving DecidableEq, Repr, Inhabited

/-- A deadline-class request that waits at its controller (14 R416). -/
structure DlReq where
  id : Nat
  who : DlWho
  ctl : Nat
  overdue : Bool
  deriving DecidableEq, Repr, Inhabited

/-- A Korilink port (14 R420, R423). -/
structure KPort where
  down : Bool
  resends : Nat
  deriving DecidableEq, Repr, Inhabited

/-- Bring-up (14 R432 to R434). `spares` is the spare-row tables, which outlast a reset: by controller the spare rows used of
each bank (14 R417, R434). -/
structure Boot where
  stage : Nat
  m0 : BitVec 256
  m1 : BitVec 256
  m2 : BitVec 256
  attest : Nat
  stewards : List Nat
  spares : AMap Nat (AMap Nat Nat)
  deriving DecidableEq, Repr, Inhabited

/-- The split that issues the slot being executed: its group and its entry. -/
structure Issuer where
  g : GRef
  e : Nat
  deriving DecidableEq, Repr, Inhabited

/-! ### The whole machine -/

/-- The state of the package. The first three fields are the model's own (log 4, log 5). -/
structure State where
  agenda : List Move
  tick : Nat
  cur : Option Issuer
  /-- next identifier of an operation, message or request; 1 names none -/
  nextId : Nat
  -- memory
  hbm : Memory
  poison : List Nat
  onchip : Memory
  l1d : AMap CoreRef (List Line)
  roFilter : AMap CoreRef (List (Nat × Nat))
  lastPeer : AMap CoreRef Nat
  slices : AMap (Nat × Nat) (List Line)
  remap : AMap (Nat × Nat) (List Remap)
  tlb : AMap Nat (List Tlb)
  quadCopies : AMap (Nat × Nat) (List QuadCopy)
  quadWrites : List QuadWrite
  ops : List MemOp
  mbox : List MboxWrite
  /-- words that an engine's signal wrote last: primary address space and address (03 R75) -/
  engWords : List (Nat × Nat)
  -- code
  icL0 : AMap (CoreRef × Nat) (List ILine)
  icL1 : AMap CoreRef (List ILine)
  icL2 : AMap (Nat × Nat) (List ILine)
  ifills : List IFill
  -- groups and blocks
  groups : List Group
  blocks : List Block
  bars : List HBar
  barMsgs : List BarMsg
  tickets : List Ticket
  sched : AMap (CoreRef × Nat) PartSched
  -- launches
  launches : List Launch
  nextLid : Nat
  podNews : List PodNews
  dists : AMap Nat Distributor
  pages : AMap (Nat × Nat) CmdPage
  -- engines
  ctxs : AMap (Nat × Nat) CopyCtx
  /-- the chunks requested of each copy engine of a die, in order -/
  engines : AMap (Nat × Nat) (List EngReq)
  regions : AMap (CoreRef × Nat) Region
  mats : AMap CoreRef MatEng
  gangs : List GangWait
  ring : AMap CoreRef (List GRef)
  objs : List Obj
  queues : AMap (Nat × Nat) (List Req)
  cmbs : List CmbMsg
  packs : List Pack
  replies : List Reply
  steps : List StepReg
  dir : AMap (CoreRef × Nat) DirEnt
  censuses : List Census
  moves : List KMove
  -- ports
  regs : PortRegs
  faults : List FaultRec
  nextFid : Nat
  shoots : List Shoot
  portWrites : List PortWrite
  migrs : List Migr
  cols : List Collective
  ecc : AMap Nat Ecc
  dls : List DlReq
  kports : AMap Nat KPort
  /-- bytes of stores to unreachable packages that were discarded (14 R423; log 123) -/
  lostBytes : Nat
  parts : List (Nat × Nat)
  stopped : List Nat
  held : Bool
  boot : Boot
  pkg : Nat
  pod : Nat
  podSize : Nat
  -- system registers and counters
  spillBase : AMap CoreRef DWord
  /-- the spill regions that SPILLBASE named before, latest first (05 R148) -/
  spillPrev : List (CoreRef × DWord)
  preBudget : BitVec 32
  modTab : DWord
  /-- the modules that MODL installed (05 R148) -/
  modAt : AMap (Nat × Nat) ModAt
  /-- earlier contents of lines of installed modules that were stored to, latest first (05 R144) -/
  codeHist : AMap (Nat × Nat) (List (List DWord))
  counters : AMap (CoreRef × Nat) DWord
  deriving DecidableEq, Repr, Inhabited

/-- Port registers after a power-on reset (14 R430, R434); firmware's registers before firmware runs hold 0 (log 9). -/
def PortRegs.reset : PortRegs :=
  { ready := false, fwfail := false, pfail := false, failStage := 0, owner := 0, partcfg := 0, ctxbase := 0,
    fqbase := 0, fqhead := 0, shootva := 0, shootlen := 0, shootdone := 0, dlmax := 1024, route := 0, nonowner := 0 }

/-- Bring-up after a power-on reset: nothing has run (14 R434, log 9). -/
def Boot.reset : Boot := { stage := 0, m0 := 0, m1 := 0, m2 := 0, attest := 0, stewards := [], spares := [] }

/-- The machine right after a power-on reset (14 R434): every core held, no owner, every context free, one partition of
four dies, and no launch, block, group or cached line. -/
def State.reset : State :=
  { agenda := [], tick := 0, cur := none, nextId := 2,
    hbm := [], poison := [], onchip := [], l1d := [], roFilter := [], lastPeer := [], slices := [], remap := [],
    tlb := [], quadCopies := [], quadWrites := [], ops := [], mbox := [], engWords := [],
    icL0 := [], icL1 := [], icL2 := [], ifills := [],
    groups := [], blocks := [], bars := [], barMsgs := [], tickets := [], sched := [],
    launches := [], nextLid := 1, podNews := [], dists := [], pages := [],
    ctxs := [], engines := [], regions := [], mats := [], gangs := [], ring := [], objs := [], queues := [], cmbs := [], packs := [],
    replies := [], steps := [], dir := [], censuses := [], moves := [],
    regs := PortRegs.reset, faults := [], nextFid := 1, shoots := [], portWrites := [], migrs := [], cols := [], ecc := [], dls := [],
    kports := [], lostBytes := 0, parts := [(0, 4)], stopped := [], held := true, boot := Boot.reset, pkg := 0, pod := 0, podSize := 1,
    spillBase := [], spillPrev := [], preBudget := 100000, modTab := 0, modAt := [], codeHist := [], counters := [] }

/-- Why a step stops with a fault. -/
inductive Fault where
  /-- Raised by every slot meaning when no split is named as its issuer: an instruction word outside a clause has no
  meaning (02 R32). Safe: no run of the machine issues a slot without a split. -/
  | noIssuer
  deriving DecidableEq, Repr, Inhabited

/-- Why a step is refused. -/
inductive Refusal where
  /-- Raised by exec's arms of rows that have no meaning yet. Safe: nothing is claimed of the row. -/
  | notModelled (mnemonic : String)
  deriving DecidableEq, Repr, Inhabited

/-- The outcome of a step of this machine. -/
abbrev Out := Host.Outcome State Fault Refusal

end Sys2Proof.Machine
end

