-- ==== Sys2Proof/Machine/Base.lean ====
section
/-! DEFINITION. Finding and replacing the parts of the state: groups, splits, launches, blocks, counters. -/

namespace Sys2Proof.Machine

open Sys2Proof

/-! ### Lists of fixed length -/

/-- The list with element n replaced by its image. -/
def modNth {α : Type} (l : List α) (n : Nat) (f : α → α) : List α := l.modify n f

/-! ### Groups -/

/-- The group with this name. -/
def State.group? (s : State) (r : GRef) : Option Group := s.groups.find? (fun g => g.ref = r)

/-- The state with a group replaced. -/
def State.modGroup (s : State) (r : GRef) (f : Group → Group) : State :=
  { s with groups := s.groups.map (fun g => if g.ref = r then f g else g) }

/-- The state with the group of that name replaced by this one. -/
def State.putGroup (s : State) (g : Group) : State := s.modGroup g.ref (fun _ => g)

/-- Entry e of a group's split table (05 R113). -/
def Group.split (g : Group) (e : Nat) : Split := g.splits.getD e Split.free

/-- The group with an entry of its split table replaced. -/
def Group.modSplit (g : Group) (e : Nat) (f : Split → Split) : Group := { g with splits := modNth g.splits e f }

/-- The state with an entry of a group's split table replaced. -/
def State.modSplit (s : State) (r : GRef) (e : Nat) (f : Split → Split) : State :=
  s.modGroup r (fun g => g.modSplit e f)

/-- The lanes of every parked set (05 R121). -/
def Group.parkedMask (g : Group) : Mask :=
  g.parked.foldl (fun m p => if p.valid then m ||| p.mask ||| p.dorm else m) 0

/-- The entry is a handler entry: 8 or 9 while a handler runs (05 R113, R133). -/
def Group.inHandler (g : Group) (e : Nat) : Bool := decide (0 < g.depth) && (e == 8 || e == 9)

/-- The entry belongs to the handler that runs: 8 or 9 at depth 1; at depth 2 the nesting entry, and one in which lanes that
parked there replay (05 R121, R133, R135). -/
def Group.handles (g : Group) (e : Nat) : Bool := g.inHandler e && (g.depth != 2 || e == g.nestEntry || g.deep.contains e)

/-- The cause that the running handler handles (05 R135). -/
def Group.causeNow (g : Group) : Cause := if g.depth = 2 then g.cause2 else g.cause1

/-- The group issues: it is not saved and has started. -/
def Group.isRunning (g : Group) : Bool := decide (g.phase = .running)

/-- The partition of a core that a slot belongs to (01 R11). -/
def partOf (r : GRef) : Nat := if r.home then r.slot / 8 else r.slot / 16

/-- The quad of a compute core (01 R7). -/
def quadOf (core : Nat) : Nat := 4 * (core / 8 / 2) + core % 8 / 2

/-- The cores of a quad in increasing index (01 R7). -/
def quadCores (q : Nat) : List Nat :=
  let x := 2 * (q % 4); let y := 2 * (q / 4)
  [8 * y + x, 8 * y + x + 1, 8 * (y + 1) + x, 8 * (y + 1) + x + 1]

/-- A split is READY (05 R114). -/
def Group.anyReady (g : Group) : Bool := (List.range 10).any (fun e => (g.split e).state == .ready)

/-- A change after which splits are READY that were not: they are as old as this moment, and so is a group of which none
was (04 R101, log 32). -/
def Group.readied (g : Group) (now : Nat) (old : Group) : Group :=
  let since (i : Nat) (sp : Split) : Split :=
    if sp.state = .ready && (old.split i).state ≠ .ready then { sp with since := now } else sp
  { g with splits := g.splits.mapIdx since, age := if old.anyReady || !g.anyReady then g.age else now }

/-- The state with a group changed so that splits of it may become READY. -/
def State.modReady (s : State) (r : GRef) (f : Group → Group) : State :=
  { s.modGroup r (fun g => (f g).readied s.nextId g) with nextId := s.nextId + 1 }

/-! ### Launches and blocks -/

/-- The launch with this identifier. -/
def State.launch? (s : State) (lid : Nat) : Option Launch := s.launches.find? (fun l => l.lid = lid)

/-- The state with a launch replaced. -/
def State.modLaunch (s : State) (lid : Nat) (f : Launch → Launch) : State :=
  { s with launches := s.launches.map (fun l => if l.lid = lid then f l else l) }

/-- The resident block with this index. -/
def State.block? (s : State) (lid idx : Nat) : Option Block :=
  s.blocks.find? (fun b => b.lid = lid && b.idx = idx)

/-- The state with a block replaced. -/
def State.modBlock (s : State) (lid idx : Nat) (f : Block → Block) : State :=
  { s with blocks := s.blocks.map (fun b => if b.lid = lid && b.idx = idx then f b else b) }

/-- The launch of a group. -/
def State.launchOf (s : State) (g : Group) : Option Launch := s.launch? g.lid

/-- The block of a group. -/
def State.blockOf (s : State) (g : Group) : Option Block := s.block? g.lid g.blk

/-- A launch record whose every field is zero. -/
def LaunchRec.zero : LaunchRec := default

/-- The launch record of a group's launch. -/
def State.recOf (s : State) (g : Group) : LaunchRec :=
  match s.launch? g.lid with | some l => l.lrec | none => LaunchRec.zero

/-- The address space of a group: that of its launch, 0 for the steward (05 R148); a pack wave uses its object's. -/
def State.asidOf (s : State) (g : Group) : Nat :=
  match g.kind with
  | .pack id => match s.packs.find? (fun p => p.id = id) with | some p => p.asid | none => 0
  | _ => (s.recOf g).asid

/-- A group is privileged when its launch has ASID 0 (05 R148). -/
def State.privileged (s : State) (g : Group) : Bool := s.asidOf g == 0

/-- The group belongs to a piste launch (04 R105): a pack wave belongs to none (12 R360). -/
def State.pisteOf (s : State) (g : Group) : Bool :=
  match g.kind with
  | .pack _ => false
  | _ => (s.recOf g).piste

/-- The first die and the number of dies of the partition that holds a die (14 R402). -/
def State.partitionOf (s : State) (die : Nat) : Nat × Nat :=
  match s.parts.find? (fun p => p.1 ≤ die && die < p.1 + p.2) with
  | some p => p
  | none => (0, 4)

/-- The number of the partition that holds a die. -/
def State.partIdx (s : State) (die : Nat) : Nat :=
  (s.parts.findIdx? (fun p => p.1 ≤ die && die < p.1 + p.2)).getD 0

/-- The dies of a partition by its number. -/
def State.partDies (s : State) (pt : Nat) : List Nat :=
  match s.parts[pt]? with
  | some p => (List.range p.2).map (fun i => p.1 + i)
  | none => []

/-! ### Counters (05 R146) -/

/-- A counter raised by n, modulo 2^64. -/
def State.count (s : State) (c : CoreRef) (engine event : Nat) (n : Nat := 1) : State :=
  if n = 0 then s
  else
    let k := (c, engine * 256 + event)
    { s with counters := s.counters.set k (s.counters.getD k 0 + BitVec.ofNat 64 n) }

/-- A port counter raised (14 R435): one set for each partition, kept under its first die. -/
def State.countPort (s : State) (die event : Nat) (n : Nat := 1) : State :=
  s.count { home := false, die := (s.partitionOf die).1, core := 0 } 10 event n

/-- A fresh identifier. -/
def State.fresh (s : State) : Nat × State := (s.nextId, { s with nextId := s.nextId + 1 })

/-! ### Trap causes (05 R131) -/

/-- The code of a cause in `%tcause.CAUSE`. -/
def causeCode : Cause → Nat
  | .illop => 0x01 | .illclass => 0x02 | .illclause => 0x03 | .illscope => 0x04 | .illlayout => 0x05
  | .illpiste => 0x06 | .emptyread => 0x07 | .deadread => 0x08 | .access => 0x09 | .misalign => 0x0A
  | .barovf => 0x0B | .maskself => 0x0C | .stalehandle => 0x0D | .chunkabort => 0x0E | .combfault => 0x0F
  | .censusfail => 0x10 | .digest => 0x11 | .preempt => 0x12 | .swtrap => 0x13 | .brk => 0x14
  | .uncorrected => 0x15 | .fatalnest => 0x16

/-- The causes of kind A, taken at a clause boundary. -/
def Cause.kindA : Cause → Bool
  | .preempt | .uncorrected => true
  | _ => false

/-! ### Registers -/

/-- A v register of a group; an unlisted one is unmapped. -/
def Group.vreg (g : Group) (n : Nat) : VReg := g.vregs.getD n VReg.unmapped

/-- A k register of a group. -/
def Group.kreg (g : Group) (n : Nat) : KReg := g.kregs.getD n KReg.zero

/-- The group with a v register replaced. -/
def Group.setV (g : Group) (n : Nat) (r : VReg) : Group := { g with vregs := g.vregs.set n r }

/-- The group with a k register replaced. -/
def Group.setK (g : Group) (n : Nat) (r : KReg) : Group := { g with kregs := g.kregs.set n r }

/-- A k register written by a synchronous slot: full at once, and the latest producer (01 R29). -/
def Group.writeK (g : Group) (n : Nat) (x : DWord) : Group := g.setK n { val := x, full := true, prod := 0 }

/-- The lanes a v register has pending (05 R124). -/
def VReg.pending (r : VReg) : Mask := maskOf (fun l => r.prod.getD l 0 != 0)

/-- Register n is a declared mailbox register of the group (04 R88 MBOX). -/
def State.isMbox (s : State) (g : Group) (n : Nat) : Bool :=
  match g.kind with
  | .ordinary => decide (320 - 8 * (s.recOf g).mbox ≤ n && n < 320)
  | _ => false

/-- The lane's word of a register that holds it. -/
def VReg.lane (r : VReg) (l : Nat) : Word := r.vals.getD l 0

/-- The lanes of a register that an engine marked failed. -/
def VReg.fail (r : VReg) : Mask := maskOf (fun l => (r.fails.get? l).isSome)

/-- A register without the failed marks of some lanes. -/
def VReg.unfail (r : VReg) (m : Mask) : VReg := { r with fails := r.fails.filter (fun x => !m.has x.1) }

/-- A v register written by a synchronous slot in some lanes (05 R124, R125): those lanes get their words, lose their
DEAD and failed marks and any outstanding producer; the other lanes keep theirs. Lanes of a register never written
before hold 0 (log 15). A mailbox register becomes full when lane 31 is written (01 R16). -/
def VReg.write (r : VReg) (m : Mask) (f : Nat → Word) : VReg :=
  { r.unfail m with
    vals := perLane (fun l => if m.has l then f l else r.lane l),
    mapped := true,
    spilled := r.spilled && m != Mask.all,
    dead := r.dead &&& ~~~m,
    prod := perLane (fun l => if m.has l then 0 else r.prod.getD l 0),
    full := r.full || m.has 31 }

/-- The group with a v register written in some lanes; nothing happens for the empty set of lanes. -/
def Group.writeV (g : Group) (n : Nat) (m : Mask) (f : Nat → Word) : Group :=
  if m = 0 then g else g.setV n ((g.vreg n).write m f)

/-- The lanes of a register marked empty by a producer at its issue (01 R27). -/
def VReg.mark (r : VReg) (m : Mask) (id : Nat) : VReg :=
  { r.unfail m with
    mapped := true,
    spilled := r.spilled && m != Mask.all,
    dead := r.dead &&& ~~~m,
    prod := perLane (fun l => if m.has l then id else r.prod.getD l 0) }

/-- A register whose physical register is freed (05 R125): nothing is outstanding on it, and its DEAD mask stays. -/
def VReg.freed (r : VReg) : VReg := { VReg.unmapped with dead := r.dead }

/-- The group with lanes of a register marked empty. -/
def Group.markV (g : Group) (n : Nat) (m : Mask) (id : Nat) : Group :=
  if m = 0 then g else g.setV n ((g.vreg n).mark m id)

/-- Data of producer id land in some lanes of a register (01 R27, R29): a lane that a later producer has superseded
keeps what it holds. -/
def VReg.land (r : VReg) (m : Mask) (id : Nat) (f : Nat → Word) : VReg :=
  let ok := m &&& maskOf (fun l => r.prod.getD l 0 == id)
  { r with
    vals := perLane (fun l => if ok.has l then f l else r.lane l),
    prod := perLane (fun l => if ok.has l then 0 else r.prod.getD l 0) }

/-- The group with landed data. -/
def Group.landV (g : Group) (n : Nat) (m : Mask) (id : Nat) (f : Nat → Word) : Group :=
  g.setV n ((g.vreg n).land m id f)

/-- Lanes of a register land marked failed (05 R131 kind D): they hold 0 and the reader traps. -/
def Group.failV (g : Group) (n : Nat) (m : Mask) (id : Nat) (c : Cause) (detail : Nat) : Group :=
  let r := g.vreg n
  let ok := m &&& maskOf (fun l => r.prod.getD l 0 == id)
  g.setV n { r.land m id (fun _ => 0) with fails := ok.toLanes.foldl (fun a l => a.set l (c, detail)) r.fails }

/-- A k register marked empty by a producer (01 R29). -/
def Group.markK (g : Group) (n : Nat) (id : Nat) : Group := g.setK n { g.kreg n with full := false, prod := id }

/-- A value of producer id lands in a k register (01 R29): a superseded producer's value is discarded. -/
def Group.landK (g : Group) (n : Nat) (id : Nat) (x : DWord) : Group :=
  if (g.kreg n).prod = id then g.setK n { val := x, full := true, prod := 0 } else g

/-- The lanes of a v register whose outstanding producer has this identifier. -/
def VReg.prodMask (r : VReg) (id : Nat) : Mask := maskOf (fun l => r.prod.getD l 0 == id)

/-- A p predicate of a group; p7 is true (01 R15). -/
def Group.pred (g : Group) (i : Nat) : Mask := if i = 7 then Mask.all else g.preds.getD i 0

/-- The group with a p predicate written in some lanes. -/
def Group.writeP (g : Group) (i : Nat) (m v : Mask) : Group :=
  { g with preds := modNth g.preds i (fun old => (old &&& ~~~m) ||| (v &&& m)) }

/-- The group with a q predicate written. -/
def Group.writeQ (g : Group) (i : Nat) (b : Bool) : Group := { g with qs := modNth g.qs i (fun _ => b) }

/-- The lanes of a set in which a guard holds (02 R42). -/
def Group.guardMask (g : Group) (gd : Guard) (m : Mask) : Mask :=
  let p := g.pred gd.idx.toNat
  m &&& (if gd.neg then ~~~p else p)

/-! ### Wait counters (02 R34) -/

/-- The counter a wait selector names. -/
def Counters.sel (c : Counters) (n : Nat) : Nat :=
  match n with | 1 => c.copy | 2 => c.mat | 3 => c.cmb | 4 => c.cen | 5 => c.st | 6 => c.ld | _ => 0

/-- The counters with one of them changed. -/
def Counters.upd (c : Counters) (n : Nat) (f : Nat → Nat) : Counters :=
  match n with
  | 1 => { c with copy := f c.copy } | 2 => { c with mat := f c.mat } | 3 => { c with cmb := f c.cmb }
  | 4 => { c with cen := f c.cen } | 5 => { c with st := f c.st } | 6 => { c with ld := f c.ld }
  | _ => c

/-- The group with a wait counter raised. -/
def Group.incCtr (g : Group) (n : Nat) : Group := { g with ctr := g.ctr.upd n (· + 1) }

/-- The group with a wait counter lowered. -/
def Group.decCtr (g : Group) (n : Nat) : Group := { g with ctr := g.ctr.upd n (· - 1) }

/-! ### Implicit timelines (01 R23, R24) -/

/-- An operation joins the open batch; the number of the batch is returned. -/
def Implicit.join (t : Implicit) : Nat × Implicit := (t.closed + 1, { t with out := t.out ++ [t.closed + 1] })

/-- The value follows the batches that are closed and whole; a timeline never wraps (01 R25). -/
def Implicit.settle (t : Implicit) : Implicit :=
  { t with value := BitVec.ofNat 64 (min (2 ^ 64 - 1) (t.out.foldl (fun n b => min n (b - 1)) t.closed)) }

/-- The open batch is closed, even empty. -/
def Implicit.close (t : Implicit) : Implicit := { t with closed := t.closed + 1 }.settle

/-- An operation of a batch completes. -/
def Implicit.finish (t : Implicit) (batch : Nat) : Implicit := { t with out := t.out.erase batch }.settle

end Sys2Proof.Machine
end

