-- ==== Sys2Proof/Machine/Memory.lean ====
section
/-! DEFINITION. Memory: bytes by address, address translation (14 R401 to R409), the home slices (12 R341) and HBM4. -/

namespace Sys2Proof.Machine

open Sys2Proof

/-! ### Bytes by address -/

/-- The byte at an address; an unlisted address reads as 0 (log 1). -/
def memGet (m : Memory) (a : Nat) : Byte :=
  match m with
  | [] => 0
  | (k, b) :: rest => if k = a then b else memGet rest a

/-- The memory with one byte written, in canonical form: addresses rise and no listed byte is 0. -/
def memPut (m : Memory) (a : Nat) (b : Byte) : Memory :=
  match m with
  | [] => if b = 0 then [] else [(a, b)]
  | (k, c) :: rest =>
    if k < a then (k, c) :: memPut rest a b
    else if k = a then (if b = 0 then rest else (a, b) :: rest)
    else if b = 0 then (k, c) :: rest
    else (a, b) :: (k, c) :: rest

/-- Addresses strictly rise, all above lo, and no listed byte is 0. -/
def Memory.wfFrom (m : Memory) (lo : Nat) : Bool :=
  match m with
  | [] => true
  | (k, b) :: rest => decide (lo ≤ k) && decide (b ≠ 0) && Memory.wfFrom rest (k + 1)

/-- The canonical form of a memory. -/
def Memory.wf (m : Memory) : Bool := m.wfFrom 0

/-- n bytes from an address. -/
def memRead (m : Memory) (a n : Nat) : List Byte := (List.range n).map (fun i => memGet m (a + i))

/-- The memory with bytes written from an address. -/
def memWrite (m : Memory) (a : Nat) (bs : List Byte) : Memory :=
  match bs with
  | [] => m
  | b :: rest => memWrite (memPut m a b) (a + 1) rest

/-- The little-endian 64-bit word at an address (06 R173). -/
def memRead64 (m : Memory) (a : Nat) : DWord := BitVec.ofNat 64 (bytesToNat (memRead m a 8))

/-- The byte a line or buffer holds at an offset. -/
def bmGet? (m : ByteMap) (a : Nat) : Option Byte :=
  match m with
  | [] => none
  | (k, b) :: rest => if k = a then some b else bmGet? rest a

/-- A byte held at an offset; offsets rise. -/
def bmSet (m : ByteMap) (a : Nat) (b : Byte) : ByteMap :=
  match m with
  | [] => [(a, b)]
  | (k, c) :: rest =>
    if k < a then (k, c) :: bmSet rest a b
    else if k = a then (a, b) :: rest
    else (a, b) :: (k, c) :: rest

/-- The byte at an offset no longer held. -/
def bmErase (m : ByteMap) (a : Nat) : ByteMap := m.filter (fun x => decide (x.1 ≠ a))

/-- Two ranges of bytes meet. -/
def meet (a n b m : Nat) : Bool := decide (a < b + m && b < a + n)

/-! ### Where data live (12 R341, 14 R402) -/

/-- The home slice of a global address in the partition of dies `first` to `first + d - 1` (12 R341, 14 R402). -/
def homeIn (part : Nat × Nat) (va : Nat) : Nat × Nat :=
  let x := (va / 128) % 2 ^ 25
  let y := x ^^^ (x / 2 ^ 9) ^^^ (x / 2 ^ 18)
  let n := y % (48 * part.2)
  (part.1 + n / 48, n % 48)

/-- The slice that holds a line of a core's spill region, outside the hash (05 R142): the one beneath the core. A region that
SPILLBASE named before keeps its slice, so that the old images stay where they were (R148; log 128). -/
def State.spillHome (s : State) (die va : Nat) : Option (Nat × Nat) :=
  let p := s.partitionOf die
  ((s.spillBase ++ s.spillPrev).find? (fun x =>
    p.1 ≤ x.1.die && x.1.die < p.1 + p.2 && x.2.toNat ≤ va && va < x.2.toNat + 64 * 0xC000)).map (fun x => (x.1.die, x.1.core))

/-- The home slice of an address of an address space, for an agent on a die. -/
def State.homeOf (s : State) (die asid va : Nat) : Nat × Nat :=
  match (if asid = 0 then s.spillHome die va else none) with
  | some h => h
  | none => homeIn (s.partitionOf die) va

/-- The home slice index of R341 within the package or partition. -/
def State.homeIdx (s : State) (die va : Nat) : Nat :=
  let p := s.partitionOf die
  let h := homeIn p va
  (h.1 - p.1) * 48 + h.2

/-- A home unit counts an event: HOME_ATOMICS, or GLIDE_OPS (12 R374). -/
def State.countHome (s : State) (die asid va event : Nat) : State :=
  let h := s.homeOf die asid va
  s.count { home := false, die := h.1, core := h.2 } 8 event

/-- The memory controller of a home slice (14 R403). -/
def ctlOf (h : Nat × Nat) : Nat := 2 * h.1 + h.2 % 2

/-- The stack that serves a local address (14 R401, R402). -/
def State.stackOf (s : State) (die pa : Nat) : Nat :=
  let p := s.partitionOf die
  let x := bits pa 10 8 ^^^ bits pa 18 16 ^^^ bits pa 26 24
  2 * p.1 + x % (2 * p.2)

/-! ### Leaves (14 R406) -/

/-- OWN: 0 launch-private, 1 context-shared, 2 partition-shared, 3 host-mapped. -/
def leafOwn (l : DWord) : Nat := bits l.toNat 63 62
/-- SEC: secondary synonym. -/
def leafSec (l : DWord) : Bool := l.getLsbD 61
/-- DL: deadline class. -/
def leafDl (l : DWord) : Bool := l.getLsbD 9
/-- POL: default policy. -/
def leafPol (l : DWord) : Nat := bits l.toNat 8 6
/-- GD: gather-direct. -/
def leafGd (l : DWord) : Bool := l.getLsbD 5
/-- W: writable. -/
def leafW (l : DWord) : Bool := l.getLsbD 4
/-- PA of a leaf with SEC = 0. -/
def leafPa (l : DWord) : Nat := bits l.toNat 51 16 * 2 ^ 16

/-- Bytes of the page a leaf of a level maps (14 R405). -/
def levelSize (level : Nat) : Nat :=
  match level with | 0 => 2 ^ 16 | 1 => 2 ^ 21 | _ => 2 ^ 30

/-- A leaf found by a walk or held in a translation cache, or the fault that ended the walk: kind, entry, level. -/
inductive WalkRes where
  | leaf (l : DWord) (level : Nat)
  | fault (kind : Nat) (entry : DWord) (level : Nat)
  deriving DecidableEq, Repr, Inhabited

/-- The layout of a leaf (14 R406). -/
def leafWf (l : DWord) (level : Nat) : Bool :=
  let x := l.toNat
  bits x 3 2 == 0 &&
  (if leafSec l then bits x 60 56 == 0
   else bits x 60 52 == 0 && bits x 15 10 == 0 && leafPol l != 7 && leafPa l % levelSize level == 0)

/-- The index of an address at a level (14 R405). -/
def walkIndex (va level : Nat) : Nat :=
  match level with
  | 0 => bits va 20 16 | 1 => bits va 29 21 | 2 => bits va 42 30 | _ => bits va 55 43

/-- The alignment of the tables of a level (14 R405). -/
def tableAlign (level : Nat) : Nat :=
  match level with | 0 => 2 ^ 8 | 1 => 2 ^ 12 | _ => 2 ^ 16

/-- Where local address 0 of a die's partition lies among the package's stacks: 96 GiB for each die before it (14 R402). -/
def State.localBase (s : State) (die : Nat) : Nat := (s.partitionOf die).1 * (96 * 2 ^ 30)

/-- The address in `hbm` of a PA that an agent on a die names: in a divided package each partition's local addresses run
from 0 over its own stacks, so those of a partition whose first die is d lie 96 GiB times d higher (14 R402); a PA of another
package stands as it is. -/
def State.physKey (s : State) (die pa : Nat) : Nat :=
  if bits pa 51 44 = s.pkg then pa + s.localBase die else pa

/-- One level of a walk of the table at a PA, then the levels below (14 R405, R406). The list of PAs read comes with the
result. -/
def State.walkFrom (s : State) (die va : Nat) (level : Nat) (table : Nat) : WalkRes × List Nat :=
  let a := table + 8 * walkIndex va level
  let e := memRead64 s.hbm (s.physKey die a)
  if !e.getLsbD 0 then (.fault 1 e level, [a])
  else if e.getLsbD 1 then
    (if level < 3 && leafWf e level then .leaf e level else .fault 4 e level, [a])
  else
    match level with
    | 0 => (.fault 4 e 0, [a])
    | below + 1 =>
      let next := bits e.toNat 51 8 * 2 ^ 8
      if bits e.toNat 7 2 != 0 || bits e.toNat 63 52 != 0 || next % tableAlign below != 0 then (.fault 4 e level, [a])
      else
        let r := s.walkFrom die va below next
        (r.1, a :: r.2)

/-- A walk of the tables of an address space by a controller of a die, with the PAs it reads (14 R404, R405). -/
def State.walkAll (s : State) (die asid va : Nat) : WalkRes × List Nat :=
  let a := s.regs.ctxbase.toNat + 8 * asid
  let e := memRead64 s.hbm (s.physKey die a)
  if !e.getLsbD 0 then (.fault 1 e 3, [a])
  else if bits e.toNat 15 1 != 0 || bits e.toNat 63 52 != 0 then (.fault 4 e 3, [a])
  else
    let r := s.walkFrom die va 3 (bits e.toNat 51 16 * 2 ^ 16)
    (r.1, a :: r.2)

/-- A walk's result. A walk that reads a poisoned table entry gives none until PAGE_WALK escalates it (14 R418): KIND 8,
which no fault record takes. -/
def State.walk (s : State) (die asid va : Nat) : WalkRes :=
  let r := s.walkAll die asid va
  if s.poison.isEmpty || r.2.all (fun a => !s.poison.contains (s.physKey die a / 16 * 16)) then r.1 else .fault 8 0 0

/-- The translation a controller's cache holds for an address (14 R403). -/
def tlbFind (ts : List Tlb) (asid va : Nat) : Option Tlb :=
  ts.find? (fun t => t.asid = asid && t.base ≤ va && va < t.base + levelSize t.level)

/-- The leaf of an address at the controller of its home slice: the cached one, else the one a walk finds. -/
def State.leafAt (s : State) (die asid va : Nat) : WalkRes :=
  let ctl := ctlOf (s.homeOf die asid va)
  match tlbFind (s.tlb.getD ctl []) asid va with
  | some t => .leaf t.leaf t.level
  | none => s.walk die asid va

/-- A translated address: the die it was translated for, the physical address, leaf and level, and the primary address
whose line holds the bytes (14 R409). -/
structure Xl where
  die : Nat
  pa : Nat
  leaf : DWord
  level : Nat
  asid : Nat
  va : Nat
  deriving DecidableEq, Repr, Inhabited

/-- Result of a translation. -/
inductive XlRes where
  | ok (x : Xl)
  | fault (kind : Nat) (entry : DWord) (level : Nat)
  deriving DecidableEq, Repr, Inhabited

/-- A port of the package is up (14 R423). -/
def State.portUp (s : State) (p : Nat) : Bool :=
  match s.kports.get? p with | some k => !k.down | none => true

/-- The valid ports toward a package, of those that belong to the partition of a die: port p to the one that holds die
p div 4 (14 R402, R421). -/
def State.routePorts (s : State) (die q : Nat) : List Nat :=
  let e := (memRead64 s.hbm (s.physKey die (s.regs.route.toNat + 8 * q))).toNat
  (((List.range 4).filter (fun i => bits e (8 * i + 4) (8 * i + 4) == 1)).map (fun i => bits e (8 * i + 3) (8 * i))).filter
    (fun p => s.partIdx (p / 4) == s.partIdx die)

/-- The port by which a request for a line of home slice index n leaves for a package: the (n mod v)-th valid one, else the
next valid one that is up (14 R421, R423). -/
def State.routePort (s : State) (die q n : Nat) : Option Nat :=
  let ps := s.routePorts die q
  let k := n % ps.length
  (ps.drop k ++ ps.take k).find? s.portUp

/-- No port toward the package of a byte is up (14 R423). -/
def State.unreachable (s : State) (x : Xl) : Bool :=
  leafOwn x.leaf != 3 && bits x.pa 51 44 != s.pkg &&
  (s.routePort x.die (bits x.pa 51 44) (s.homeIdx x.die x.va)).isNone

/-- The PA of a page that is not host-mapped names no memory (14 R401, R402, R408 OUTSIDE). -/
def State.outside (s : State) (die pa : Nat) : Bool :=
  let pkg := bits pa 51 44
  let loc := bits pa 43 0
  if pkg = s.pkg then decide ((s.partitionOf die).2 * (96 * 2 ^ 30) ≤ loc)
  else decide (0x6000000000 ≤ loc) || (s.routePorts die pkg).isEmpty

/-- The address in `hbm` of a translated byte: its PA's, or 2^52 plus the PCIe bus address for a host-mapped page
(14 R401, R402, R406). -/
def State.memKey (s : State) (x : Xl) : Nat := if leafOwn x.leaf = 3 then 2 ^ 52 + x.pa else s.physKey x.die x.pa

/-- The remap filter of a slice redirects a secondary address (14 R409). -/
def State.remapped (s : State) (h : Nat × Nat) (asid va : Nat) : Option (Nat × Nat) :=
  match (s.remap.getD h []).find? (fun r => r.asid = asid && r.page ≤ va && va < r.page + r.size) with
  | some r => some (r.pasid, r.ppage + (va - r.page))
  | none => none

/-- Misses at some addresses hit the redirects of their slices: these are the ones used last (14 R409). -/
def State.remapUse (s : State) (die asid : Nat) (as : List Nat) : State :=
  if s.remap.isEmpty then s
  else as.foldl (fun (s : State) a =>
    let h := s.homeOf die asid a
    let l := s.remap.getD h []
    match l.find? (fun r => r.asid = asid && r.page ≤ a && a < r.page + r.size) with
    | some r => { s with remap := s.remap.set h (r :: l.filter (· ≠ r)) }
    | none => s) s

/-- Translation of an address for an agent on a die (14 R403 to R409). A secondary leaf is followed once. -/
def State.xlate (s : State) (die asid va : Nat) : XlRes :=
  let prim (asid va : Nat) : XlRes :=
    match s.leafAt die asid va with
    | .fault k e l => .fault k e l
    | .leaf l level =>
      if leafSec l then .fault 4 l level
      else
        let pa := leafPa l + va % levelSize level
        if leafOwn l != 3 && s.outside die pa then .fault 5 l level else .ok ⟨die, pa, l, level, asid, va⟩
  match s.remapped (s.homeOf die asid va) asid va with
  | some (a, v) => prim a v
  | none =>
    match s.leafAt die asid va with
    | .fault k e l => .fault k e l
    | .leaf l _ =>
      if leafSec l then
        let pasid := bits l.toNat 15 4
        let pbase := bits l.toNat 55 16 * 2 ^ 16
        match s.leafAt die pasid pbase with
        | .fault k e lv => .fault k e lv
        | .leaf pl plevel => if leafSec pl then .fault 4 pl plevel else prim pasid (pbase + va % levelSize plevel)
      else prim asid va

/-! ### HBM4 -/

/-- A migration that holds writes of the page an address in `hbm` lies in (14 R413, R414). -/
def State.migrOf (s : State) (key : Nat) : Option Migr :=
  s.migrs.find? (fun m => m.old ≤ key && key < m.old + m.size)

/-- Bytes written to memory at a physical key; whole sectors lose their poison mark (14 R418). -/
def State.hbmWrite (s : State) (key : Nat) (bs : List Byte) : State :=
  { s with
    hbm := memWrite s.hbm key bs,
    poison := s.poison.filter (fun p => !(decide (key ≤ p) && decide (p + 16 ≤ key + bs.length))) }

/-- A write that reaches a memory controller: discarded and counted when its package is unreachable (14 R423; log 123), held
while the page migrates (14 R414). -/
def State.ctlWrite (s : State) (x : Xl) (bs : List Byte) : State :=
  if s.unreachable x then { s with lostBytes := s.lostBytes + bs.length }
  else
  match s.migrOf (s.memKey x) with
  | some m =>
    { s with migrs := s.migrs.map (fun y => if y.id = m.id then
        { y with held := y.held ++ [⟨x.asid, x.va, s.memKey x - m.old, bs, []⟩] } else y) }
  | none => s.hbmWrite (s.memKey x) bs

/-- The byte of a write-back of a virtual place that a migration holds, the latest one: it was performed at its home slice
before it left, so that reads which follow see it (03 R63, R83; log 109). -/
def State.heldByte (s : State) (die asid va : Nat) : Option Byte :=
  (s.migrs.filter (fun m => s.partIdx m.g.die = s.partIdx die)).foldl (fun (r : Option Byte) m => m.held.foldl (fun (r : Option Byte) h =>
    if h.asid = asid && h.va ≤ va && va < h.va + h.bytes.length then some (h.bytes.getD (va - h.va) 0) else r) r) none

/-- A byte beneath the home slice: memory's, or that of a held write-back of a page that slices hold. -/
def State.memByte (s : State) (x : Xl) : Byte :=
  (if leafGd x.leaf then none else s.heldByte x.die x.asid x.va).getD (memGet s.hbm (s.memKey x))

/-- The primary address space and address of a place (14 R409); its own where no translation is found. -/
def State.primary (s : State) (die asid a : Nat) : Nat × Nat :=
  match s.xlate die asid a with | .ok x => (x.asid, x.va) | _ => (asid, a)

/-- A held write touches some bytes of a primary place. -/
def HeldWrite.touches (h : HeldWrite) (k : Nat × Nat) (n : Nat) : Bool :=
  h.asid == k.1 && meet h.va h.bytes.length k.2 n

/-- A write of a group's lane to some bytes is held by a migration (14 R414). -/
def State.heldOf (s : State) (g : GRef) (lane : Nat) (asid a n : Nat) : Bool :=
  s.migrs.any (fun m => m.held.any (fun h => h.src.contains (.lane g lane) && h.touches (s.primary g.die asid a) n))

/-- A write to some bytes of a gather-direct page is held by a migration, whoever made it (14 R414). -/
def State.rangeHeld (s : State) (die asid a n : Nat) : Bool :=
  s.migrs.any (fun m => m.held.any (fun h => h.touches (s.primary die asid a) n)) &&
  (match s.xlate die asid a with | .ok x => leafGd x.leaf | _ => false)

/-- A byte lies on a gather-direct page that migrates: what an engine writes there waits for the switch (14 R414). -/
def State.gdMigrates (s : State) (die asid a : Nat) : Bool :=
  !s.migrs.isEmpty && (match s.xlate die asid a with | .ok x => leafGd x.leaf && (s.migrOf (s.memKey x)).isSome | _ => false)

/-- A write of an engine operation is held by a migration (14 R414). -/
def State.engHeld (s : State) (id : Nat) : Bool := s.migrs.any (fun m => m.held.any (fun h => h.src.contains (.engine id)))

/-- The writes held since a state are those of an access or operation. -/
def State.ownHeld (s : State) (before : State) (src : List WriteSrc) : State :=
  if s.migrs.isEmpty then s
  else { s with migrs := s.migrs.map (fun (m : Migr) =>
    let old := ((before.migrs.find? (fun b => b.id = m.id)).map (fun b => b.held.length)).getD 0
    { m with held := m.held.take old ++ (m.held.drop old).map (fun h => { h with src := src }) }) }

/-- A word that an engine's signal writes last is noted; any other write of its bytes ends that (03 R75). -/
def State.engNote (s : State) (die asid a : Nat) : State :=
  let k := s.primary die asid a
  { s with engWords := s.engWords.filter (· ≠ k) ++ [k] }

/-- A byte is written: a signal's word it lies in is no longer the signal's. -/
def State.engDrop (s : State) (asid a : Nat) : State :=
  if s.engWords.isEmpty then s
  else { s with engWords := s.engWords.filter (fun w => !(w.1 == asid && meet w.2 8 a 1)) }

/-! ### Lines -/

/-- The byte a line holds at an offset. -/
def Line.byte? (l : Line) (off : Nat) : Option Byte :=
  match bmGet? l.dirty off with | some b => some b | none => bmGet? l.clean off

/-- A byte written in a line: valid and dirty (08 R232). -/
def Line.putDirty (l : Line) (off : Nat) (b : Byte) : Line :=
  { l with dirty := bmSet l.dirty off b, clean := bmErase l.clean off }

/-- A byte filled into a line beneath its dirty bytes (08 R232). -/
def Line.putClean (l : Line) (off : Nat) (b : Byte) : Line :=
  match bmGet? l.dirty off with | some _ => l | none => { l with clean := bmSet l.clean off b }

/-- The line after its dirty bytes were written back (08 R232). -/
def Line.cleaned (l : Line) : Line :=
  { l with clean := l.dirty.foldl (fun m x => bmSet m x.1 x.2) l.clean, dirty := [] }

/-- The line of an address in a cache. -/
def findLine (ls : List Line) (asid va : Nat) : Option Line :=
  ls.find? (fun l => l.asid = asid && l.line = va / 128)

/-- A cache with a line replaced. -/
def modLine (ls : List Line) (asid va : Nat) (f : Line → Line) : List Line :=
  ls.map (fun l => if l.asid = asid && l.line = va / 128 then f l else l)

/-- A cache without a line. -/
def dropLine (ls : List Line) (asid va : Nat) : List Line :=
  ls.filter (fun l => !(l.asid = asid && l.line = va / 128))

/-- A line that holds nothing yet, of a page with this leaf. -/
def newLine (asid va prio : Nat) (leaf : DWord) : Line :=
  { asid := asid, line := va / 128, clean := [], dirty := [], ro := !leafW leaf, gd := leafGd leaf, pol := leafPol leaf,
    prio := prio, own := leafOwn leaf, poison := [] }

/-- The victim of a set whose ways are full: a line of the lowest priority; among equals the choice is free
(08 R232, R235, log 17). -/
def victim (ls : List Line) (tick : Nat) : Option Line :=
  match ls with
  | [] => none
  | l0 :: _ =>
    let lo := ls.foldl (fun n l => min n l.prio) l0.prio
    let cands := ls.filter (fun l => l.prio = lo)
    cands[Config.freePick tick % cands.length]?

/-- The slice set of a line: 2,048 sets of 16 ways (log 18). -/
def sliceSet (line : Nat) : Nat := line % 2048

/-- The L1D set of a line: 128 sets of 8 ways (08 R232, log 18). -/
def l1Set (line : Nat) : Nat := line % 128

/-- The priority of a policy code (08 R235). -/
def codePrio (n : Nat) : Nat := match n with | 1 => 0 | 2 => 1 | 4 => 3 | 5 => 4 | 7 => 0 | _ => 2

/-- Priority 4 (keep) acts as 3 (high) when the set already holds `limit` such lines (08 R235). -/
def keepPrio (ls : List Line) (limit prio : Nat) : Nat :=
  if prio = 4 && decide (limit ≤ (ls.filter (fun l => l.prio = 4)).length) then 3 else prio

/-! ### Home slices -/

/-- The lines of a slice. -/
def State.sliceLines (s : State) (h : Nat × Nat) : List Line := s.slices.getD h []

/-- A slice's lines replaced. -/
def State.setSlice (s : State) (h : Nat × Nat) (ls : List Line) : State := { s with slices := s.slices.set h ls }

/-- A slice's dirty line goes to memory: its dirty bytes, sector by sector, with their poison (08 R232, 14 R418). -/
def State.sliceFlush (s : State) (die : Nat) (l : Line) : State :=
  match s.xlate die l.asid (l.line * 128) with
  | .fault _ _ _ => s
  | .ok x =>
    let s1 := (List.range 8).foldl (fun (s : State) sec =>
      let bs := (List.range 16).filterMap (fun i => bmGet? l.dirty (16 * sec + i))
      if bs.length = 16 then s.ctlWrite { x with pa := x.pa + 16 * sec, va := x.va + 16 * sec } bs
      else (List.range 16).foldl (fun (s : State) i =>
        match bmGet? l.dirty (16 * sec + i) with
        | some b => s.ctlWrite { x with pa := x.pa + 16 * sec + i, va := x.va + 16 * sec + i } [b]
        | none => s) s) s
    let marks := (l.poison.map (fun sec => s.memKey x + 16 * sec)).filter (fun p => !s1.poison.contains p)
    { s1 with poison := s1.poison ++ marks }

/-- Room for a line in a slice: a victim is written back and dropped when the 16 ways are full (08 R235). -/
def State.sliceRoom (s : State) (die : Nat) (h : Nat × Nat) (line : Nat) : State :=
  let ways := (s.sliceLines h).filter (fun l => sliceSet l.line = sliceSet line)
  if ways.length < 16 then s
  else
    match victim ways s.tick with
    | none => s
    | some v =>
      let s1 := s.sliceFlush die v
      s1.setSlice h (dropLine (s1.sliceLines h) v.asid (v.line * 128))

/-- The line of an address in a slice, allocated if absent. -/
def State.sliceAlloc (s : State) (die : Nat) (h : Nat × Nat) (asid va prio : Nat) (leaf : DWord) : State :=
  match findLine (s.sliceLines h) asid va with
  | some _ => s
  | none =>
    let s1 := s.sliceRoom die h (va / 128)
    let ways := (s1.sliceLines h).filter (fun l => sliceSet l.line = sliceSet (va / 128))
    s1.setSlice h (s1.sliceLines h ++ [newLine asid va (keepPrio ways 8 prio) leaf])

/-- An access gives the slice line it touches its replacement priority (08 R235). Under last use a dirty line is written
back before it is demoted (03 R82). -/
def State.sliceTouch (s : State) (die asid va prio : Nat) (last : Bool) : State :=
  match s.xlate die asid va with
  | .fault _ _ _ => s
  | .ok x =>
    let h := s.homeOf die x.asid x.va
    let ways := (s.sliceLines h).filter (fun l => sliceSet l.line = sliceSet (x.va / 128) && !(l.asid = x.asid && l.line = x.va / 128))
    match findLine (s.sliceLines h) x.asid x.va with
    | none => s
    | some ln =>
      let s1 := if last && !ln.dirty.isEmpty then s.sliceFlush die ln else s
      s1.setSlice h (modLine (s1.sliceLines h) x.asid x.va (fun l =>
        { (if last then l.cleaned else l) with prio := keepPrio ways 8 prio }))

/-- The byte at the point of order of a global address (03 R58): the slice's, else memory's; 0 where no page is
mapped, which no access that passed its verdict reads. -/
def State.homeByte (s : State) (die asid va : Nat) : Byte :=
  match s.xlate die asid va with
  | .fault _ _ _ =>
    match findLine (s.sliceLines (s.homeOf die asid va)) asid va with
    | some l => (l.byte? (va % 128)).getD 0
    | none => 0
  | .ok x =>
    if leafGd x.leaf then memGet s.hbm (s.memKey x)
    else
      match findLine (s.sliceLines (s.homeOf die x.asid x.va)) x.asid x.va with
      | some l => (l.byte? (x.va % 128)).getD (s.memByte x)
      | none => s.memByte x

/-- n bytes at the point of order. -/
def State.homeRead (s : State) (die asid va n : Nat) : List Byte :=
  (List.range n).map (fun i => s.homeByte die asid (va + i))

/-- The little-endian 64-bit word at the point of order. -/
def State.homeRead64 (s : State) (die asid va : Nat) : DWord := BitVec.ofNat 64 (bytesToNat (s.homeRead die asid va 8))

/-- One byte written at the point of order (03 R58, R81): in the slice, or through to memory on a gather-direct page. -/
def State.homePut (s : State) (die asid va prio : Nat) (b : Byte) : State :=
  match s.xlate die asid va with
  | .ok x =>
    let s := s.engDrop x.asid x.va
    if leafGd x.leaf then s.ctlWrite x [b]
    else
      let h := s.homeOf die x.asid x.va
      let s1 := s.sliceAlloc die h x.asid x.va prio x.leaf
      s1.setSlice h (modLine (s1.sliceLines h) x.asid x.va (fun l => l.putDirty (x.va % 128) b))
  | .fault _ _ _ =>
    let h := s.homeOf die asid va
    let s1 := s.sliceAlloc die h asid va prio 0x10
    s1.setSlice h (modLine (s1.sliceLines h) asid va (fun l => l.putDirty (va % 128) b))

/-- A whole sector written at the point of order loses its poison (14 R418). -/
def State.homeClearPoison (s : State) (die asid va len : Nat) : State :=
  (List.range (len / 16 + 1)).foldl (fun (s : State) i =>
    let a := roundUp va 16 + 16 * i
    if a + 16 ≤ va + len then
      match s.xlate die asid a with
      | .ok x =>
        let h := s.homeOf die x.asid x.va
        let s1 := s.setSlice h (modLine (s.sliceLines h) x.asid x.va
          (fun l => { l with poison := l.poison.filter (· ≠ x.va % 128 / 16) }))
        if leafGd x.leaf then { s1 with poison := s1.poison.filter (· ≠ s.memKey x) } else s1
      | .fault _ _ _ => s
    else s) s

/-- The sixteen words of a code line as memory holds them, read through the slices. -/
def State.codeWords (s : State) (die asid line : Nat) : List DWord :=
  (List.range 16).map (fun i => s.homeRead64 die asid (line * 128 + 8 * i))

/-- Where the earlier contents of an address's line are listed: under its primary address, so that a store through a synonym
counts too, and its partition (05 R144, 14 R402, R409). -/
def State.codeKey (s : State) (die asid va : Nat) : Nat × Nat :=
  let p := s.primary die asid va
  (s.partIdx die * 4096 + p.1, p.2 / 128)

/-- Contents of a line listed for a later fetch (05 R144). -/
def State.codeKeep (s : State) (k : Nat × Nat) (ws : List DWord) : State :=
  { s with codeHist := s.codeHist.set k (ws :: s.codeHist.getD k []) }

/-- While a module is installed, lines that are about to be stored to keep their contents for a later fetch (05 R144). -/
def State.codeNote (s : State) (die asid va n : Nat) : State :=
  if s.modAt.isEmpty then s
  else
    let ls := ((List.range (n / 128 + 2)).map (va / 128 + ·)).filter (fun l => l * 128 < va + n)
    ls.foldl (fun s l => s.codeKeep (s.codeKey die asid (l * 128)) (s.codeWords die asid l)) s

/-- No slice and no sector of memory is poisoned. -/
def State.noPoison (s : State) : Bool := s.poison.isEmpty && s.slices.all (fun h => h.2.all (fun l => l.poison.isEmpty))

/-- Bytes stored at the point of order, from an address. -/
def State.homeStore (s : State) (die asid va : Nat) (bs : List Byte) : State :=
  let s1 := (bs.zipIdx).foldl (fun (s : State) x => s.homePut die asid (va + x.2) 2 x.1) (s.codeNote die asid va bs.length)
  if s1.noPoison then s1
  else s1.homeClearPoison die asid va bs.length

/-- A sector filled into its home slice, clean; pages that are gather-direct and poisoned sectors are not kept
(08 R231, log 19). -/
def State.sliceFill (s : State) (die asid va prio : Nat) : State :=
  match s.xlate die asid va with
  | .fault _ _ _ => s
  | .ok x =>
    let base := s.memKey x / 16 * 16
    if leafGd x.leaf || s.poison.contains base then s
    else
      let h := s.homeOf die x.asid x.va
      let s1 := s.sliceAlloc die h x.asid x.va prio x.leaf
      let off := x.va % 128 / 16 * 16
      s1.setSlice h (modLine (s1.sliceLines h) x.asid x.va (fun l =>
        (List.range 16).foldl (fun l i =>
          match l.byte? (off + i) with
          | some _ => l
          | none => l.putClean (off + i) (s1.memByte { x with pa := x.pa / 16 * 16 + i, va := x.va / 16 * 16 + i })) l))

/-- Poison met by a read at the point of order (14 R418, and R423 for an unreachable package): the ownership, whether the copy was dirty, the PA. -/
def State.poisonAt (s : State) (die asid va n : Nat) : Option (Nat × Bool × Nat) :=
  if s.noPoison && s.kports.isEmpty then none
  else
    (List.range n).findSome? (fun i =>
      match s.xlate die asid (va + i) with
      | .fault _ _ _ => none
      | .ok x =>
        let ln := if leafGd x.leaf then none else findLine (s.sliceLines (s.homeOf die x.asid x.va)) x.asid x.va
        match ln with
        | some l =>
          if l.poison.contains (x.va % 128 / 16) then some (leafOwn x.leaf, true, x.pa)
          else if (l.byte? (x.va % 128)).isSome then none
          else if s.unreachable x then some (2, false, x.pa)
          else if s.poison.contains (s.memKey x / 16 * 16) then some (leafOwn x.leaf, false, x.pa) else none
        | none =>
          if s.unreachable x then some (2, false, x.pa)
          else if s.poison.contains (s.memKey x / 16 * 16) then some (leafOwn x.leaf, false, x.pa) else none)

/-- An address of the global spaces (08 R230 check 1). -/
def globalVa (a : Nat) : Bool := decide (a < 2 ^ 56) && bits a 55 40 != 0xFFFF

/-- An address of the on-chip aperture (08 R230, R244). -/
def apertureVa (a : Nat) : Bool := decide (a < 2 ^ 56) && bits a 55 40 == 0xFFFF

/-! ### The on-chip map (01 R19, R20) -/

/-- An on-chip map address taken apart. -/
structure OcAddr where
  die : Nat
  core : Nat
  kind : Nat
  off : Nat
  deriving DecidableEq, Repr, Inhabited

/-- Bytes of each kind (01 R20). -/
def ocLimit (kind : Nat) : Nat :=
  match kind with | 0 => 0x60000 | 1 => 0x40000 | 2 => 0x40000 | _ => 0x20000

/-- The fields of a map address (01 R19), when its own rules hold: zero bits, a compute core, an offset in range. -/
def ocDecode (a : Nat) : Option OcAddr :=
  let x : OcAddr := ⟨bits a 37 36, bits a 35 30, bits a 29 28, bits a 27 0⟩
  if a < 2 ^ 38 && x.core < 48 && x.off < ocLimit x.kind then some x else none

/-- The map address of an offset of a kind on a core. -/
def ocEncode (die core kind off : Nat) : Nat := die * 2 ^ 36 + core * 2 ^ 30 + kind * 2 ^ 28 + off

/-- The block that holds `n` bytes of on-chip storage from an offset (01 R20): not a closed one (01 R21). -/
def State.ocBlock (s : State) (x : OcAddr) (n : Nat) : Option Block :=
  s.blocks.find? (fun b =>
    let r := match s.launch? b.lid with | some l => l.lrec | none => LaunchRec.zero
    b.die = x.die && b.core = x.core && !b.closed &&
    (match x.kind with
     | 0 => b.scratchBase ≤ x.off && x.off + n ≤ b.scratchBase + r.scratch
     | 1 => b.accBase * 0x8000 ≤ x.off && x.off + n ≤ (b.accBase + r.accb) * 0x8000
     | 3 => b.tileBase * 0x2000 ≤ x.off && x.off + n ≤ (b.tileBase + r.tiles) * 0x2000
     | _ => false))

/-- The group whose mailbox register an offset names, with the register and the byte in it (01 R20). -/
def State.ocMbox (s : State) (x : OcAddr) : Option (Group × Nat × Nat) :=
  let r : GRef := { home := false, die := x.die, core := x.core, slot := x.off / 0x1000 }
  match s.group? r with
  | none => none
  | some g =>
    let n := 288 + x.off % 0x1000 / 0x80
    if s.isMbox g n then some (g, n, x.off % 0x80) else none

/-- The checks of 01 R20 and R21 on an access of n bytes by a launch: ACCESS when it fails. -/
def State.ocLegal (s : State) (lid a n : Nat) : Bool :=
  match ocDecode a with
  | none => false
  | some x =>
    if x.kind = 2 then
      match s.ocMbox x with
      | some (g, _, off) => decide (g.lid = lid) && decide (off + n ≤ 0x80)
      | none => false
    else
      match s.ocBlock x n with
      | some b => decide (b.lid = lid)
      | none => false

/-- The byte of a lane word. -/
def wordByte (w : Word) (i : Nat) : Byte := BitVec.ofNat 8 (w.toNat / 256 ^ i)

/-- A word with one byte replaced. -/
def setWordByte (w : Word) (i : Nat) (b : Byte) : Word :=
  (w &&& ~~~((0xFF : Word) <<< (8 * i))) ||| ((b.setWidth 32) <<< (8 * i))

/-- The byte at a map address. -/
def State.ocByte (s : State) (a : Nat) : Byte :=
  match ocDecode a with
  | none => 0
  | some x =>
    if x.kind = 2 then
      match s.ocMbox x with
      | some (g, n, off) => wordByte ((g.vreg n).lane (off / 4)) (off % 4)
      | none => 0
    else memGet s.onchip a

/-- n bytes from a map address. -/
def State.ocRead (s : State) (a n : Nat) : List Byte := (List.range n).map (fun i => s.ocByte (a + i))

/-- Bytes land in a mailbox register, lane by lane (01 R16): it becomes full when they include lane 31's word. -/
def VReg.mboxLand (r : VReg) (bs : ByteMap) : VReg :=
  { r with
    vals := perLane (fun l => bs.foldl (fun w x => if x.1 / 4 = l then setWordByte w (x.1 % 4) x.2 else w) (r.lane l)),
    mapped := true,
    dead := r.dead &&& ~~~(maskOf (fun l => bs.any (fun x => x.1 / 4 == l))),
    full := r.full || bs.any (fun x => x.1 / 4 == 31) }

/-! ### WAITA's tests (08 R249) -/

/-- An address of the port register block, which privileged groups reach in ASID 0 (14 R429). -/
def portBlock (asid va : Nat) : Bool := asid == 0 && va / 2 ^ 16 == 0xFE00000000

/-- The lane's access is performed. -/
def LaneAcc.isDone (l : LaneAcc) : Bool := l.status == .performed

/-- The map address of a lane's access to on-chip storage: scratchpad accesses are stored with theirs. -/
def MemOp.oc (o : MemOp) (l : LaneAcc) : Option Nat :=
  match o.space with
  | .global => if apertureVa l.addr then some (l.addr % 2 ^ 40) else none
  | _ => some l.addr

/-- The word a WAITA watches: at its storage in the aperture, else at the home slice, where a pack wave sees its own writes
(12 R354). -/
def State.waitaWord (s : State) (o : MemOp) (l : LaneAcc) : List Byte :=
  match o.oc l with
  | some a => s.ocRead a o.size
  | none =>
    let home := s.homeRead o.g.die o.asid l.addr o.size
    match s.packs.find? (fun p => p.g = o.g && !p.committed && p.home ≤ l.addr && l.addr + o.size ≤ p.home + p.slen) with
    | some p => home.mapIdx (fun i b => (bmGet? p.buf (l.addr + i)).getD b)
    | none => home

/-- The condition of a WAITA holds in some lane. -/
def State.waitaMet (s : State) (o : MemOp) : Bool :=
  o.lanes.any (fun l => !portBlock o.asid l.addr && waitaHolds o.evict (bytesToNat (s.waitaWord o l)) (bytesToNat l.data))

/-- Every WAITA whose lanes are accepted is tested: at its issue, and when a write has reached a place (08 R249). -/
def State.watch (s : State) : State :=
  if s.ops.any (fun o => o.kind == .waita && !o.met) then
    { s with ops := s.ops.map (fun (o : MemOp) =>
      if o.kind = .waita && !o.met && o.lanes.all (fun l => l.status = .accepted) && s.waitaMet o then { o with met := true } else o) }
  else s

/-- Bytes written at the point of order, from an address. -/
def State.homeWrite (s : State) (die asid va : Nat) (bs : List Byte) : State := (s.homeStore die asid va bs).watch

/-- The same under the default policy of the page (08 R235, R244). -/
def State.homeWriteDef (s : State) (die asid va : Nat) (bs : List Byte) : State :=
  let pol := match s.xlate die asid va with | .ok x => leafPol x.leaf | _ => 0
  (s.homeWrite die asid va bs).sliceTouch die asid va (codePrio pol) false

/-- Bytes written to scratchpad, accumulator or tile storage from a map address. -/
def State.ocWrite (s : State) (a : Nat) (bs : List Byte) : State := { s with onchip := memWrite s.onchip a bs }.watch

/-! ### Copies of a quad atomic unit (03 R73) -/

/-- A write-through of the unit to some bytes is in transit. -/
def State.quadTransit (s : State) (q : Nat × Nat) (asid a n : Nat) : Bool :=
  s.quadWrites.any (fun w => w.die == q.1 && w.quad == q.2 && w.asid == asid && meet w.addr w.bytes.length a n)

/-- The unit replaces its copies of some bytes. -/
def State.quadForget (s : State) (q : Nat × Nat) (asid a n : Nat) : State :=
  let cs := s.quadCopies.getD q []
  if cs.any (fun x => x.asid == asid && meet x.addr x.bytes.length a n) then
    { s with quadCopies := s.quadCopies.set q (cs.filter (fun x => !(x.asid == asid && meet x.addr x.bytes.length a n))) }
  else s

/-- The unit replaces its copies of some bytes unless a write-through of them is in transit, which will follow in the
order whatever was written before (03 R61, R63; log 110). -/
def State.quadYield (s : State) (q : Nat × Nat) (asid a n : Nat) : State :=
  if s.quadTransit q asid a n then s else s.quadForget q asid a n

/-! ### L1D (08 R232) -/

/-- The lines of a core's L1D. -/
def State.l1Lines (s : State) (c : CoreRef) : List Line := s.l1d.getD c []

/-- An L1D's lines replaced. -/
def State.setL1 (s : State) (c : CoreRef) (ls : List Line) : State := { s with l1d := s.l1d.set c ls }

/-- A sector poisoned at the point of order (14 R418). -/
def State.homePoison (s : State) (die asid va : Nat) : State :=
  match s.xlate die asid va with
  | .fault _ _ _ => s
  | .ok x =>
    if leafGd x.leaf then
      let p := s.memKey x / 16 * 16
      if s.poison.contains p then s else { s with poison := s.poison ++ [p] }
    else
      let h := s.homeOf die x.asid x.va
      let sec := x.va % 128 / 16
      s.setSlice h (modLine (s.sliceLines h) x.asid x.va (fun l =>
        if l.poison.contains sec then l else { l with poison := l.poison ++ [sec] }))

/-- A line's dirty bytes are written back to the home slice, with their poison, and counted where `counted` (08 R232, R250,
14 R418); the quad's atomic unit replaces its copies of them. -/
def State.l1Flush (s : State) (c : CoreRef) (l : Line) (counted : Bool) : State :=
  if l.dirty.isEmpty && l.poison.isEmpty then s
  else
    let q := (c.die, quadOf c.core)
    let s0 := l.dirty.foldl (fun (s : State) x =>
      (s.quadYield q l.asid (l.line * 128 + x.1) 1).homePut c.die l.asid (l.line * 128 + x.1) l.prio x.2)
        (s.codeNote c.die l.asid (l.line * 128) 128)
    let s1 := l.poison.foldl (fun (s : State) sec => s.homePoison c.die l.asid (l.line * 128 + 16 * sec)) s0
    (s1.count c 4 0x0D (if counted then l.dirty.length else 0)).watch

/-- One line written back: its dirty bytes go home and the line stays, clean. WBK_BYTES counts them for WBK, INV, releases
and replacement (08 R250). -/
def State.l1WriteBack (s : State) (c : CoreRef) (asid va : Nat) (counted : Bool := true) : State :=
  match findLine (s.l1Lines c) asid va with
  | none => s
  | some l =>
    let s1 := s.l1Flush c l counted
    s1.setL1 c (modLine (s1.l1Lines c) asid va Line.cleaned)

/-- One line written back, then gone. -/
def State.l1Invalidate (s : State) (c : CoreRef) (asid va : Nat) (counted : Bool := true) : State :=
  match findLine (s.l1Lines c) asid va with
  | none => s
  | some l =>
    let s1 := s.l1Flush c l counted
    s1.setL1 c (dropLine (s1.l1Lines c) asid va)

/-- The line of an address in an L1D, allocated if absent; a victim is written back first (08 R232). -/
def State.l1Alloc (s : State) (c : CoreRef) (asid va prio : Nat) (leaf : DWord) : State :=
  match findLine (s.l1Lines c) asid va with
  | some _ => s
  | none =>
    let ways := (s.l1Lines c).filter (fun l => l1Set l.line = l1Set (va / 128))
    let s1 :=
      if ways.length < 8 then s
      else match victim ways s.tick with
        | none => s
        | some v => s.l1Invalidate c v.asid (v.line * 128)
    let ways1 := (s1.l1Lines c).filter (fun l => l1Set l.line = l1Set (va / 128))
    s1.setL1 c (s1.l1Lines c ++ [newLine asid va (keepPrio ways1 6 prio) leaf])

/-- A core has an L1D: home cores have none (12 R342). -/
def hasL1 (c : CoreRef) : Bool := !c.home

/-- Every byte of a range is valid in the core's L1D. -/
def State.l1Holds (s : State) (c : CoreRef) (asid a n : Nat) : Bool :=
  hasL1 c && (match findLine (s.l1Lines c) asid a with
    | some l => (List.range n).all (fun i => (l.byte? ((a + i) % 128)).isSome)
    | none => false)

/-- The bytes of an aligned range as a core's load sees them: the L1D's when it holds them all, else those of the home
slice beneath the L1D's dirty bytes, all fetched at once (08 R232, 03 R65). -/
def State.l1Read (s : State) (c : CoreRef) (asid a n : Nat) : List Byte :=
  let ln := if hasL1 c then findLine (s.l1Lines c) asid a else none
  let hit := s.l1Holds c asid a n
  (List.range n).map (fun i =>
    match ln with
    | some l => ((if hit then l.byte? ((a + i) % 128) else bmGet? l.dirty ((a + i) % 128))).getD (s.homeByte c.die asid (a + i))
    | none => s.homeByte c.die asid (a + i))

/-- Before a lane's access to some bytes is performed beyond the L1D, the line's dirty bytes go home and the bytes leave
the L1D, so that program order holds (03 R61, R63; log 110). -/
def State.l1Sync (s : State) (c : CoreRef) (asid a n : Nat) : State :=
  if !hasL1 c then s
  else
    match findLine (s.l1Lines c) asid a with
    | none => s
    | some l =>
      let s1 := if (List.range n).any (fun i => (bmGet? l.dirty ((a + i) % 128)).isSome) then s.l1WriteBack c asid a false else s
      s1.setL1 c (modLine (s1.l1Lines c) asid a (fun l =>
        { l with clean := l.clean.filter (fun x => !(a % 128 ≤ x.1 && x.1 < a % 128 + n)) }))

/-! ### Sets of addresses for releases and acquires (03 R72) -/

/-- The line of an address range set: all memory when no range is given. -/
def inRanges (rs : Option (List (Nat × Nat))) (line : Nat) : Bool :=
  match rs with
  | none => true
  | some l => l.any (fun r => r.1 / 128 ≤ line && line * 128 < r.1 + r.2)

/-- Write back every dirty line of a core's L1D in the ranges of an address space (03 R72 release). -/
def State.l1Release (s : State) (c : CoreRef) (asid : Nat) (rs : Option (List (Nat × Nat))) : State :=
  (s.l1Lines c).foldl (fun (s : State) l =>
    if l.asid = asid && inRanges rs l.line && !l.dirty.isEmpty then s.l1WriteBack c l.asid (l.line * 128) else s) s

/-- Invalidate every line of a core's L1D in the ranges, dirty sectors written back first (03 R72 acquire). -/
def State.l1Acquire (s : State) (c : CoreRef) (asid : Nat) (rs : Option (List (Nat × Nat))) : State :=
  (s.l1Lines c).foldl (fun (s : State) l =>
    if l.asid = asid && inRanges rs l.line then s.l1Invalidate c l.asid (l.line * 128) false else s) s

/-- The whole L1D written back and invalidated (04 R96). -/
def State.l1AcquireAll (s : State) (c : CoreRef) : State :=
  (s.l1Lines c).foldl (fun (s : State) l => s.l1Invalidate c l.asid (l.line * 128) false) s

end Sys2Proof.Machine
end

