-- ==== Sys2Proof/Machine/Image.lean ====
section
/-! DEFINITION. The register slots of a spill image (05 R127, R142), and writes that land in mailbox registers (01 R16,
R22). -/

namespace Sys2Proof.Machine

open Sys2Proof

/-! ### Register slots of an image (05 R127) -/

/-- The image of a slot in the spill region that SPILLBASE names (05 R142). -/
def State.imgNow (s : State) (r : GRef) : Nat := (s.spillBase.getD r.coreRef 0).toNat + r.slot * 0xC000

/-- The address of a group's image (05 R142): where its save or its first spill began, whatever SPILLBASE became since
(R148). -/
def State.imgAddr (s : State) (r : GRef) : Nat := ((s.group? r).bind (·.imgAt)).getD (s.imgNow r)

/-- The payload code of a register's words and the payload (05 R127). -/
def regPayload (ws : List Word) : Nat × List Byte :=
  let x0 := ws.headD 0
  let ds : List Int := ws.map (fun x => sInt 32 (x - x0).toNat)
  if ws.all (fun x => x = x0) then (1, natToBytes 4 x0.toNat)
  else if ds.all (fun d => -128 ≤ d && d ≤ 127) then (2, natToBytes 4 x0.toNat ++ ds.flatMap (fun d => natToBytes 1 (wrapN 8 d)))
  else if ds.all (fun d => -32768 ≤ d && d ≤ 32767) then
    (3, natToBytes 4 x0.toNat ++ ds.flatMap (fun d => natToBytes 2 (wrapN 16 d)))
  else (0, ws.flatMap (fun x => natToBytes 4 x.toNat))

/-- The words of a payload, for codes 0 to 3 (05 R127). -/
def payloadWords (code : Nat) (bs : List Byte) : List Word :=
  let at4 (i : Nat) : Word := BitVec.ofNat 32 (bytesToNat ((bs.drop i).take 4))
  perLane (fun l =>
    match code with
    | 1 => at4 0
    | 2 => at4 0 + ((bs.getD (4 + l) 0).signExtend 32)
    | 3 => at4 0 + ((BitVec.ofNat 16 (bytesToNat ((bs.drop (4 + 2 * l)).take 2))).signExtend 32)
    | _ => at4 (4 * l))

/-- The format byte of a register (05 R127). -/
def formatByte (mbox : Bool) (v : VReg) : Byte :=
  if !v.mapped then 0
  else
    let full := if mbox then v.full else v.pending = 0
    BitVec.ofNat 8 (0x80 + (if full then 0x40 else 0) + (regPayload v.vals).1)

/-- A register written to its slot of the image, with its format byte; the rest of the slot is unspecified (log 16). -/
def State.imgPutReg (s : State) (r : GRef) (mbox : Bool) (n : Nat) (v : VReg) : State :=
  let a := s.imgAddr r
  let s1 := s.homeWrite r.die 0 (a + 0x860 + n) [formatByte mbox v]
  if !v.mapped then s1
  else
    let p := (regPayload v.vals).2
    let slotAt := a + 0x1400 + 128 * n
    s1.homeWrite r.die 0 slotAt (p ++ (List.range (128 - p.length)).map (fun i => Config.freeByte (slotAt + p.length + i)))

/-- A register of a group is written to its image; a group whose registers are all in the physical file begins a new
image (05 R126, R148). What a program stores there while the group runs has no effect on a reload (R142): the state keeps the
words that were spilled. -/
def State.imgSpill (s : State) (r : GRef) (n : Nat) : State :=
  let s1 := s.modGroup r (fun g => if g.vregs.any (fun x => x.2.spilled) then g else { g with imgAt := some (s.imgNow r) })
  match s1.group? r with
  | some g => (s1.imgPutReg r false n (g.vreg n)).modGroup r (fun g => g.setV n { g.vreg n with spilled := true })
  | none => s1

/-- A register read from its slot; none when the code is one that is never written (05 R127). -/
def State.imgGetReg (s : State) (r : GRef) (n : Nat) : Option VReg :=
  let a := s.imgAddr r
  let f := (s.homeByte r.die 0 (a + 0x860 + n)).toNat
  if f / 128 % 2 = 0 then some VReg.unmapped
  else if 4 ≤ f % 8 then none
  else
    let ws := payloadWords (f % 8) (s.homeRead r.die 0 (a + 0x1400 + 128 * n) 128)
    some { VReg.unmapped with vals := ws, mapped := true, full := f / 64 % 2 = 1 }

/-! ### Mailbox registers -/

/-- A write lands in a mailbox register, or in the saved image of its group (01 R16, R22). -/
def State.mboxDeliver (s : State) (r : GRef) (n : Nat) (bs : ByteMap) : State :=
  match s.group? r with
  | none => s
  | some g =>
    if !s.isMbox g n then s
    else
      let v := (g.vreg n).mboxLand bs
      let s1 := s.modGroup r (fun g => g.setV n v)
      let s2 := if g.phase = .preempted || g.phase = .spilled then s1.imgPutReg r true n v else s1
      (s2.count r.coreRef 1 0x16 (if (g.vreg n).full then 1 else 0)).watch

/-- Bytes written at a map address, at the addressed storage (01 R16, 08 R244). -/
def State.ocStore (s : State) (a : Nat) (bs : List Byte) : State :=
  match ocDecode a with
  | none => s
  | some x =>
    if x.kind = 2 then
      match s.ocMbox x with
      | some (g, n, off) => s.mboxDeliver g.ref n ((bs.zipIdx).map (fun y => (off + y.2, y.1)))
      | none => s
    else s.ocWrite a bs

end Sys2Proof.Machine
end

