-- ==== Sys2Proof/Machine/Groups.lean ====
section
/-! DEFINITION. Lanes, groups and blocks that end (05 R118, 01 R13, R21, 10 R297, 11 R328, 13 R398), hardware-barrier
completion (07 R213) and the ends of merge epochs (04 R106, R107). -/

namespace Sys2Proof.Machine

open Sys2Proof

/-- A list with an element inserted before the first one that is greater. -/
def insertBy {α : Type} (le : α → α → Bool) (x : α) : List α → List α
  | [] => [x]
  | y :: ys => if le y x then y :: insertBy le x ys else x :: y :: ys

/-- A stable insertion sort. -/
def sortBy {α : Type} (le : α → α → Bool) (l : List α) : List α := l.foldl (fun acc x => insertBy le x acc) []

/-! ### Lane exit (05 R118) -/

/-- Some live split or valid parked set of the group has this join record, or one nested in it, as its JREF (log 21). -/
def Group.namesJoin (g : Group) (r : Nat) : Bool :=
  let direct (x : Nat) : Bool :=
    g.splits.any (fun sp => sp.state != .free && sp.jref == x) || g.parked.any (fun p => p.valid && p.jref == x)
  let rec chain (fuel x : Nat) : Bool :=
    match fuel with
    | 0 => false
    | n + 1 => x == r || (match g.joins[x]? with | some j => j.valid && chain n j.outer | none => false)
  (List.range 16).any (fun x => direct x && chain 17 x)

/-- The entries a record's depth may use (05 R113, R115): 0-7, or 8 and 9 for record 14; none for record 15. -/
def entriesOf (r : Nat) : List Nat := if r < 14 then List.range 8 else if r = 14 then [8, 9] else []

/-- The lowest free entry among some. -/
def Group.freeEntry (g : Group) (es : List Nat) : Option Nat := es.find? (fun e => (g.split e).state = .free)

/-- The address of the clause after the one a split executes (02 R32). -/
def Split.nextHdr (sp : Split) : Nat :=
  match sp.clause with
  | some c => sp.hdr + 16 + 8 * bits c.hdr.toNat 60 57
  | none => sp.hdr

/-- The split is between the first slot of a clause and its end; one that was restored, or resumed after a handler, has its
clause fetched again and goes on (05 R112, R134, R140). -/
def Split.inClause (sp : Split) : Bool := sp.started || sp.slot != 0

/-- A split that starts at a header. -/
def Split.start (m dorm : Mask) (jref hdr slot since : Nat) : Split :=
  { Split.free with mask := m, dorm := dorm, state := .ready, jref := jref, hdr := hdr, slot := slot, since := since }

/-- Steps 3 and 4 of R118 for one join record: a deferred part whose predecessors are gone starts; a record all of whose
lanes have arrived completes; a record without lanes is freed. -/
def Group.settleJoin (g : Group) (now r : Nat) : Group :=
  match g.joins[r]? with
  | none => g
  | some j =>
    if !j.valid || g.namesJoin r then g
    else if j.mask = 0 then { g with joins := modNth g.joins r (fun _ => Join.free) }
    else
      match g.freeEntry (entriesOf r) with
      | none => g
      | some e =>
        if j.defer && j.dmask != 0 then
          { g.modSplit e (fun _ => Split.start j.dmask 0 r j.dpc 0 now) with
            joins := modNth g.joins r (fun x => { x with defer := false }) }
        else if j.arrived = j.mask then
          { g.modSplit e (fun _ => Split.start j.arrived 0 j.outer j.j 0 now) with
            joins := modNth g.joins r (fun _ => Join.free) }
        else g

/-- Steps 3 and 4 of R118 for every record, inner records first. -/
def Group.settle (g : Group) (now : Nat) : Group :=
  (List.range 16).reverse.foldl (fun g r => g.settleJoin now r) g

/-- Lanes exit (05 R118); their outstanding register producers are discarded (R153). -/
def Group.exitLanes (g : Group) (m : Mask) (now : Nat) : Group :=
  let keep : Mask := ~~~m
  let g1 : Group := { g with
    exited := g.exited ||| m,
    vregs := g.vregs.map (fun x => (x.1, { x.2 with prod := x.2.prod.mapIdx (fun l p => if m.has l then 0 else p) })),
    splits := g.splits.map (fun (sp : Split) => { sp with mask := sp.mask &&& keep, dorm := sp.dorm &&& keep }),
    joins := g.joins.map (fun (j : Join) =>
      { j with mask := j.mask &&& keep, arrived := j.arrived &&& keep, dmask := j.dmask &&& keep }) }
  -- step 1: dormant lanes of a split whose active lanes are gone
  let g2 : Group := (List.range 10).foldl (fun (g : Group) e =>
    let sp := g.split e
    if sp.state != .free && sp.mask = 0 && sp.dorm != 0 then
      match g.joins[sp.jref]? with
      | some _ =>
        { g.modSplit e (fun _ => Split.free) with
          joins := modNth g.joins sp.jref (fun j => { j with arrived := j.arrived ||| sp.dorm }) }
      | none => g.modSplit e (fun sp => Split.start sp.dorm 0 0x1F sp.nextHdr 0 now)
    else g) g1
  -- step 2: empty splits
  let g3 : Group := { g2 with splits := g2.splits.map (fun (sp : Split) =>
    if sp.state != .free && sp.mask = 0 && sp.dorm = 0 then Split.free else sp) }
  (g3.settle now).settle now

/-! ### The end of a slot (05 R112) -/

/-- The split stands READY at a header, with its lanes and its join record kept. -/
def Split.goto (sp : Split) (tgt : Nat) : Split :=
  { sp with
    hdr := tgt % 2 ^ 56, slot := 0, clause := none, started := false, state := .ready, wait := .none, prog := none,
    replay := 0, trap := none, counted := false, paired := false }

/-- The position after n slots of the clause; a clause that ends leaves the split at the next header. A split restored from
an image counts on, and its clause is fetched again (05 R140). -/
def Split.step (sp : Split) (n : Nat) : Split :=
  let on : Split := { sp with slot := sp.slot + n, state := .ready, wait := .none, prog := none, replay := 0 }
  match sp.clause with
  | none => on
  | some c => if sp.slot + n ≤ bits c.hdr.toNat 60 57 then on else sp.goto sp.nextHdr

/-- A split outside the handler that runs is HELD when it reaches the end of its clause (05 R133, R135). -/
def Group.holdAtEnd (g : Group) (e : Nat) : Group :=
  let sp := g.split e
  if 0 < g.depth && !g.handles e && sp.state = .ready && sp.clause.isNone && sp.slot = 0 then
    g.modSplit e (fun sp => { sp with state := .held, wait := .handler })
  else g

/-- The split completes the slot it stands at. -/
def Group.finish (g : Group) (e : Nat) (n : Nat := 1) : Group :=
  (g.modSplit e (fun sp => sp.step n)).holdAtEnd e

/-- The split's slot completes. -/
def State.finishSlot (s : State) (r : GRef) (e : Nat) (n : Nat := 1) : State :=
  (s.modReady r (fun g => g.finish e n)).count r.coreRef 1 1 n

/-- The split waits at its slot for the reply with this number. -/
def Split.awaits (sp : Split) (id : Nat) : Bool := sp.state == .blocked && sp.wait == .reply && sp.prog == some id

/-- A slot's reply: its k register takes the value unless a later producer superseded it (01 R29), and the split that waits
for it
completes the slot. -/
def State.answer (s : State) (w : Waiter) (x : DWord) : State :=
  let s1 := s.modGroup w.g (fun g => g.landK w.kd w.id x)
  match s1.group? w.g with
  | some g => if (g.split w.entry).awaits w.id then s1.finishSlot w.g w.entry else s1
  | none => s1

/-- The split ends its clause at another header (05 R112). -/
def Group.jump (g : Group) (e : Nat) (tgt : Nat) : Group :=
  (g.modSplit e (fun sp => sp.goto tgt)).holdAtEnd e

/-! ### Hardware barriers (07 R211, R213) -/

/-- The instance of a level that a group belongs to: its block, its cohort, its die, or 0. -/
def barInst (level : Nat) (g : Group) : Nat :=
  match level with | 0 => g.blk | 1 => g.blk / 4 | 2 => g.ref.die | _ => 0

/-- A group counts in a hardware barrier: an ordinary group of the launch in the instance (01 R13). -/
def HBar.member (b : HBar) (g : Group) : Bool :=
  decide (g.kind = .ordinary) && decide (g.lid = b.lid) && decide (barInst b.level g = b.inst)

/-- The level of the barriers of a launch's span (04 R88, 07 R211). -/
def spanLevel (r : LaunchRec) : Nat := r.span + 2

/-- The arrivals of the other packages of a pod-span launch have come, or have not: what other packages do is an input at free
moments (04 R94, log 22). -/
def State.othersCame (s : State) : Bool := Config.freePick s.tick % 2 == 1

/-- Some group has arrived, and every member has arrived or exited (07 R213); a pod barrier of a launch on several packages
has the arrivals of the other parts too. -/
def State.barComplete (s : State) (b : HBar) : Bool :=
  let l := s.launch? b.lid
  let waits := match l with
    | some l => (decide (2 ≤ b.level) && !l.unplaced.isEmpty) || (b.level == 4 && l.lrec.podn != 0 && !s.othersCame)
    | none => false
  !b.arrived.isEmpty && !waits && s.groups.all (fun g => !b.member g || b.arrived.contains g.ref)

/-- A held ARED applied at the home slice, or at its storage in the aperture (04 R107, 08 R244): each add RNE, FTZ as
sampled at its issue. The slice takes the page's default policy (R235, R244) and counts the atomic (12 R374). -/
def State.applyAred (s : State) (die asid : Nat) (h : HeldAred) : State :=
  match h.ins with
  | .ared o =>
    let chip := apertureVa h.addr
    let s := if chip then s else s.countHome die asid h.addr 0
    let read (a : Nat) : Nat := bytesToNat (if chip then s.ocRead (a % 2 ^ 40) 4 else s.homeRead die asid a 4)
    let put (s : State) (a x : Nat) : State :=
      if chip then s.ocStore (a % 2 ^ 40) (natToBytes 4 x) else s.homeWriteDef die asid a (natToBytes 4 x)
    let b := bytesToNat h.data
    let ftz := h.rmode.getLsbD 4
    match o.evict.toNat with
    | 5 =>
      let la := (h.addr + h.caoff.toNat) % 2 ^ 64
      let r := atomCad (read h.addr) (read la) (b % 2 ^ 32) (b / 2 ^ 32)
      put (put s h.addr r.1) la r.2
    | n => put s h.addr (atomFadd (fmtCode (n - 2)) .rne ftz (fun _ => 0) (read h.addr) b)
  | _ => s

/-- A block's merge epoch ends at its arrival at a barrier of the span level (04 R106, 07 R225): the buffer is set apart until
that barrier's phase completes, and later stores belong to the next epoch. -/
def Block.arrive (b : Block) (bar : Nat) : Block :=
  if b.epochs.any (fun e => e.bar = bar) then b
  else { b with epochs := b.epochs ++ [⟨bar, b.merge, b.areds⟩], merge := [], areds := [] }

/-- The epochs of a block that are merged when a barrier's phase completes, oldest first: those that ended before the block's
arrival there or at it, by its exit at the latest (01 R13); at the launch's end, all (04 R106). -/
def Block.due (b : Block) (bar : Option Nat) : List Epoch × Block :=
  match bar with
  | none => (b.epochs ++ [⟨0, b.merge, b.areds⟩], { b with epochs := [], merge := [], areds := [] })
  | some n =>
    let b1 := b.arrive n
    let k := (b1.epochs.findIdx? (fun e => e.bar = n)).getD 0 + 1
    (b1.epochs.take k, { b1 with epochs := b1.epochs.drop k })

/-- The block's merge buffer holds nothing. -/
def Block.merged (b : Block) : Bool :=
  b.merge.isEmpty && b.areds.isEmpty && b.epochs.all (fun e => e.bytes.isEmpty && e.areds.isEmpty)

/-- One epoch of each block is merged: the buffered bytes reach the home slices, the highest λ last; then the held AREDs are
applied in increasing λ (04 R106, R107). -/
def State.mergeEpochs (s : State) (die asid : Nat) (es : List Epoch) : State :=
  let bytes := sortBy (fun (x y : MergeByte) => x.lam ≤ y.lam) (es.flatMap (·.bytes))
  let areds := sortBy (fun (x y : HeldAred) => x.lam ≤ y.lam) (es.flatMap (·.areds))
  let s1 := bytes.foldl (fun (s : State) m => s.homeWrite die asid m.addr [m.val]) s
  areds.foldl (fun (s : State) h => s.applyAred die asid h) s1

/-- A barrier of the span level has completed its phase in a piste launch, or the launch ends: the epochs that this covers are
merged, every block's oldest first (04 R106, R107, 07 R225). -/
def State.epochEnd (s : State) (lid : Nat) (bar : Option Nat) : State :=
  match s.launch? lid with
  | none => s
  | some l =>
    let bs := s.blocks.filter (fun b => b.lid = lid)
    let die := match bs with | b :: _ => b.die | [] => 0
    let dues := bs.map (fun b => (b.due bar).1)
    let rounds := dues.foldl (fun n d => max n d.length) 0
    let s2 := (List.range rounds).foldl (fun (s : State) i =>
      s.mergeEpochs die l.lrec.asid (dues.filterMap (fun (d : List Epoch) => d[i]?))) s
    let s3 := bs.foldl (fun (s : State) b =>
      let sectors := (((b.due bar).1.flatMap (·.bytes)).map (fun m => m.addr / 16)).dedup.length
      s.count { home := false, die := b.die, core := b.core } 0 7 sectors) s2
    { s3 with blocks := s3.blocks.map (fun b => if b.lid = lid then (b.due bar).2 else b) }

/-- A block of a piste launch all of whose groups that are left have arrived at a barrier of the span's level has arrived, also
by the exit of its last other group: its epoch ends (04 R106, 07 R225). -/
def State.epochArrive (s : State) (lid blk : Nat) : State :=
  match s.launch? lid with
  | none => s
  | some l =>
    let gs := s.groups.filter (fun g => g.lid = lid && g.blk = blk && g.kind = .ordinary)
    let came (b : HBar) : Bool := b.lid == lid && b.level == spanLevel l.lrec && gs.all (fun g => b.arrived.contains g.ref)
    if l.lrec.piste && !gs.isEmpty then
      (s.bars.filter came).foldl (fun (s : State) b => s.modBlock lid blk (fun x => x.arrive b.id)) s
    else s

/-- The cores that hold members of a barrier. -/
def State.barCores (s : State) (b : HBar) : List CoreRef :=
  ((s.groups.filter b.member).map (fun g => g.ref.coreRef)).dedup

/-- A barrier whose every member has arrived or exited completes its phase (07 R213). -/
def State.completeBar (s : State) (b : HBar) : State :=
  if s.barComplete b then
    let s1 := { s with bars := s.bars.map (fun x =>
      if x.lid = b.lid && x.level = b.level && x.inst = b.inst && x.id = b.id then
        { x with c := x.c + 1, arrived := [] } else x) }
    let s2 := (s.barCores b).foldl (fun (s : State) c => s.count c 3 1) s1
    match s.launch? b.lid with
    | some l => if l.lrec.piste && b.level = spanLevel l.lrec then s2.epochEnd b.lid (some b.id) else s2
    | none => s2
  else s

/-- Every barrier of a launch that can complete its phase does (01 R13, 07 R213). -/
def State.completeBars (s : State) (lid : Nat) : State :=
  (s.bars.filter (fun b => b.lid = lid)).foldl (fun (s : State) b => s.completeBar b) s

/-! ### Windows, directory entries and gangs of what ends -/

/-- A write-out has chunks that are to be written: it has begun (10 R286); RUNB's final one begins when its fill has ended. -/
def Region.writing (r : Region) : Bool :=
  match r.out with | some t => (!t.todo.isEmpty || !t.flight.isEmpty) && !(r.fill.isSome && r.unbind) | none => false

/-- The windows of a block close (10 R297): its fills abort, no write-out is begun, its entries become FREE. A write-out under
way completes (05 R153), its entry, and the faults its chunks wait for, under a number that no instruction names. -/
def State.windowsClose (s : State) (lid blk : Nat) : State :=
  let mine (x : (CoreRef × Nat) × Region) : Bool := x.2.lid == lid && x.2.blk == blk
  let key (k : CoreRef × Nat) : CoreRef × Nat := (k.1, 64 * (s.nextId + 1) + k.2)
  let gone := (s.regions.filter mine).map (·.1)
  let left := (s.regions.filter (fun x => mine x && x.2.writing)).map (fun x => (key x.1,
    { x.2 with state := .flushing, fill := none, unbind := true, waiting := [] }))
  let stays (q : EngReq) : Bool := q.out || !gone.contains (q.c, q.n)
  let name (q : EngReq) : EngReq := if gone.contains (q.c, q.n) then { q with n := (key (q.c, q.n)).2 } else q
  let lost (x : (CoreRef × Nat) × Region) : Nat :=
    match x.2.fill with | some t => t.todo.length + t.flight.length | none => 0
  let s1 := (s.regions.filter mine).foldl (fun (s : State) x => s.count x.1.1 6 4 (lost x)) s
  { s1 with
    nextId := s.nextId + 1,
    regions := s.regions.filter (fun x => !mine x) ++ left,
    engines := s.engines.map (fun x => (x.1, (x.2.filter stays).map name))
    faults := s.faults.map (fun (f : FaultRec) => { f with joined := f.joined.filterMap (fun q => match q with
      | .chunk q => if stays q then some (.chunk (name q)) else none
      | q => some q) })
    dls := (s.dls.filter (fun d => match d.who with | .chunk q => stays q | _ => true)).map (fun d => match d.who with
      | .chunk q => { d with who := .chunk (name q) }
      | _ => d) }

/-- A directory move whose source entry is FREE and that has been applied at its destination writes its status
(13 R395). -/
def State.moveDone (s : State) (n : Nat) : State :=
  match s.moves.find? (fun m => m.id = n) with
  | none => s
  | some m =>
    match m.srcFree, m.dstDone with
    | true, some e =>
      let s1 := { s with moves := s.moves.filter (fun x => x.id ≠ n) }
      s1.answer m.toWaiter (BitVec.ofNat 64 (e * 2 ^ 8))
    | _, _ => s

/-- A LEAVING directory entry that no open census matched becomes FREE; the KDEL or move that waits for it is told
(13 R377, R395). -/
def State.dirRelease (s : State) (k : CoreRef × Nat) : State :=
  match s.dir.get? k with
  | none => s
  | some d =>
    if d.leaving && d.matchedBy.isEmpty then
      let ms := (s.moves.filter (fun m => m.srcAt && m.src = k.1 && m.ent = k.2)).map (·.id)
      let s1 : State := { s with
        dir := s.dir.erase k,
        moves := s.moves.map (fun (m : KMove) => if ms.contains m.id then { m with srcFree := true } else m) }
      let s2 := ms.foldl (fun (s : State) n => s.moveDone n) (s1.count k.1 9 6 (Config.freePick s1.tick))
      match d.waiter with
      | some (w, status) => s2.answer w (BitVec.ofNat 64 status)
      | none => s2
    else s

/-- A census closes at a core once its close and its broadcast have arrived there and every responder there has ended
(13 R383): the entries it matched may be released. The census is over when it has closed everywhere. -/
def State.cenClose (s : State) (n : Nat) (c : CoreRef) : State :=
  match s.censuses.find? (fun x => x.id = n) with
  | none => s
  | some x =>
    match x.cores.find? (fun k => k.c = c) with
    | none => s
    | some k =>
      if k.closeArrived && !x.pending.contains c && k.spawn.isEmpty && k.running = 0 then
        let left := x.cores.filter (fun k => k.c ≠ c)
        let gone := x.complete && left.isEmpty && x.pending.isEmpty && x.closes.isEmpty
        let keys := (s.dir.filter (fun y => y.1.1 = c && y.2.matchedBy.contains n)).map (·.1)
        let s1 : State := { s with
          censuses := if gone then s.censuses.filter (fun y => y.id ≠ n)
            else s.censuses.map (fun (y : Census) => if y.id = n then { y with cores := left } else y),
          dir := s.dir.map (fun y => if y.1.1 = c then (y.1, { y.2 with matchedBy := y.2.matchedBy.filter (· ≠ n) }) else y) }
        let s2 := s1.modGroup x.g (fun g => { g with
          census := modNth g.census x.slot (fun (z : CenSlot) => { z with closing := z.closing.filter (· ≠ (n, c)) }) })
        keys.foldl (fun (s : State) k => s.dirRelease k) s2
      else s

/-- A responder of a census has ended on a core (13 R385). -/
def State.responderEnd (s : State) (n : Nat) (c : CoreRef) : State :=
  let less (k : CenCore) : CenCore := if k.c = c then { k with running := k.running - 1 } else k
  let s1 : State := { s with
    censuses := s.censuses.map (fun (x : Census) => if x.id = n then { x with cores := x.cores.map less } else x) }
  s1.cenClose n c

/-- The directory entries of a block are deleted as by KDEL (13 R398). -/
def State.dirPurge (s : State) (lid blk : Nat) : State :=
  let keys := (s.dir.filter (fun x => x.2.lid = lid && x.2.blk = blk)).map (·.1)
  let s1 := { s with dir := s.dir.map (fun x =>
    if x.2.lid = lid && x.2.blk = blk then (x.1, { x.2 with leaving := true }) else x) }
  keys.foldl (fun (s : State) k => s.dirRelease k) s1

/-- SIZE of `%gang` (11 R327). -/
def gangSize (x : DWord) : Nat := bits x.toNat 63 61

/-- COLS of `%gang`. -/
def gangCols (x : DWord) : Nat := bits x.toNat 23 0

/-- `%gang` with GERR set. -/
def gangErr (x : DWord) : DWord := x ||| (1 <<< 34)

/-- Groups of the same launch on the same die row that hold the same gang (11 R327, R328). -/
def State.gangMembers (s : State) (g : Group) : List GRef :=
  if gangSize g.sp.gang = 0 then []
  else (s.groups.filter (fun x => x.lid = g.lid && gangSize x.sp.gang != 0 && gangCols x.sp.gang = gangCols g.sp.gang &&
    x.ref.die = g.ref.die && x.ref.core / 8 = g.ref.core / 8 && !x.ref.home)).map (·.ref)

/-- A member leaves: the gang is dissolved for every member, whose held MMAGs are cancelled with GERR set (11 R328). -/
def State.gangDissolve (s : State) (g : Group) : State :=
  (s.gangMembers g).foldl (fun (s : State) r =>
    let mine (o : MatOp) : Bool := o.g == r && !o.lifted && !o.cancelled && (match o.ins with | .mmag _ => true | _ => false)
    let m := s.mats.getD r.coreRef default
    let held := (m.waiting ++ m.accepted).any mine
    let cancel (l : List MatOp) : List MatOp := l.map (fun o => if mine o then { o with cancelled := true } else o)
    let s1 := s.modGroup r (fun x =>
      let gg := x.sp.gang &&& 0x1FFFFFFFFFFFFFFF
      let gg := if held && r != g.ref then gangErr gg else gg
      { x with sp := { x.sp with gang := gg } })
    { s1 with
      mats := if held then
          s1.mats.set r.coreRef { m with waiting := cancel m.waiting, accepted := cancel m.accepted }
        else s1.mats,
      ring := s1.ring.set r.coreRef ((s1.ring.getD r.coreRef []).filter (· ≠ r)) }) s

/-- GSEQ of the MMAG of a group that is held at the lift line (11 R329). -/
def State.liftSeq (s : State) (r : GRef) : Option Nat :=
  match (s.mats.getD r.coreRef default).accepted with
  | o :: _ => if o.g = r && !o.lifted && !o.cancelled && (match o.ins with | .mmag _ => true | _ => false) then some o.gseq else none
  | [] => none

/-- A GANG or GANG.dis that is abandoned has no effect: its k register holds what it held (11 R330). -/
def Group.unmarkK (g : Group) (w : Waiter) : Group :=
  if (g.kreg w.kd).prod = w.id then g.setK w.kd { g.kreg w.kd with full := true, prod := 0 } else g

/-- The splits of a group whose instruction is abandoned for a pre-emption stay at their slots to issue it again: an ordinary
split is HELD there for the handler or the save, a handler's is READY (08 R249, 11 R330). -/
def Group.abandon (g : Group) (es : List Nat) : Group :=
  es.foldl (fun g e => g.modSplit e (fun sp =>
    if g.inHandler e then { sp with state := .ready, wait := .none, prog := none }
    else { sp with state := .held, wait := .handler, prog := none })) g

/-- MMAG_CANCEL (11 R330): the MMAGs of a group's gang that are held at the lift line are cancelled in all members with
GCANCEL set, and a GANG or GANG.dis of the group is abandoned. -/
def State.mmagCancel (s : State) (r : GRef) : State :=
  match s.group? r with
  | none => s
  | some g =>
    let ms := s.gangMembers g
    let seqs := ms.filterMap s.liftSeq
    let mine (x : GRef) (o : MatOp) : Bool :=
      o.g == x && !o.lifted && !o.cancelled && (match o.ins with | .mmag _ => true | _ => false) && seqs.contains o.gseq
    let s1 := ms.foldl (fun (s : State) x =>
      let m := s.mats.getD x.coreRef default
      let n := ((m.waiting ++ m.accepted).filter (mine x)).length
      let cancel (l : List MatOp) : List MatOp := l.map (fun o => if mine x o then { o with cancelled := true } else o)
      if n = 0 then s
      else
        ({ s with mats := s.mats.set x.coreRef { m with waiting := cancel m.waiting, accepted := cancel m.accepted } }.modGroup x (fun y =>
          { y with sp := { y.sp with gang := y.sp.gang ||| (1 <<< 33) } })).count x.coreRef 7 9 n) s
    let ws := s1.gangs.filter (fun w => w.g = r)
    { s1.modGroup r (fun g => (ws.foldl (fun g w => g.unmarkK w.toWaiter) g).abandon (ws.map (·.entry))) with
      gangs := s1.gangs.filter (fun w => w.g ≠ r) }

/-! ### Groups and blocks end -/

/-- A name that no resident group has: operations of an ended group complete as agents under it (05 R136, R153). -/
def detached (r : GRef) : GRef := { r with slot := r.slot + 1000 }

/-- Engine operations of a group that ends keep running; their register results are discarded (05 R136, R153). Accepted
accesses to its mailbox registers complete with what the registers hold; what they write is discarded (01 R21). -/
def State.detach (s : State) (r : GRef) : State :=
  let d (x : GRef) : GRef := if x = r then detached r else x
  let toReg (o : MemOp) (l : LaneAcc) : Bool :=
    match (o.oc l).bind ocDecode with
    | some x => x.kind == 2 && !r.home && x.die == r.die && x.core == r.core && x.off / 0x1000 == r.slot
    | none => false
  let land (o : MemOp) (l : LaneAcc) : LaneAcc :=
    if toReg o l && !l.isDone then { l with status := .performed, reply := s.ocRead ((o.oc l).getD 0) o.size } else l
  { s with
    ops := s.ops.map (fun o => { o with g := d o.g, lanes := o.lanes.map (land o) }),
    mbox := (s.mbox.filter (fun w => w.g ≠ r)).map (fun w => { w with src := d w.src }),
    quadWrites := s.quadWrites.map (fun w => { w with g := d w.g }),
    packs := (s.packs.filter (fun p => p.g ≠ r)).map (fun p => { p with reqs := p.reqs.map (fun q => { q with g := d q.g }) }),
    barMsgs := s.barMsgs.filter (fun m => m.g ≠ r),
    mats := s.mats.map (fun x => (x.1, { x.2 with
      waiting := x.2.waiting.map (fun o => { o with g := d o.g }),
      accepted := x.2.accepted.map (fun o => { o with g := d o.g }) })),
    gangs := s.gangs.filter (fun w => w.g ≠ r),
    regions := s.regions.map (fun x => (x.1, { x.2 with
      fill := x.2.fill.map (fun t => { t with g := t.g.map d }),
      out := x.2.out.map (fun t => { t with g := t.g.map d }) })),
    cmbs := s.cmbs.map (fun m => { m with reqs := m.reqs.map (fun q => { q with g := d q.g }) }),
    queues := s.queues.map (fun x => (x.1, x.2.map (fun q => { q with g := d q.g }))),
    replies := s.replies.map (fun x => { x with req := { x.req with g := d x.req.g } }),
    censuses := s.censuses.map (fun c => { c with g := d c.g }),
    moves := s.moves.map (fun m => { m with g := d m.g }),
    migrs := s.migrs.map (fun m => { m with g := d m.g, held := m.held.map (fun h => { h with
      src := h.src.map (fun x => match x with | .lane g l => .lane (d g) l | x => x) }) }),
    objs := s.objs.map (fun (o : Obj) => { o with delBy := o.delBy.filter (fun w => w.g ≠ r) }),
    steps := s.steps.map (fun (x : StepReg) => { x with waiting := x.waiting.filter (fun w => w.1.g ≠ r) }),
    dir := s.dir.map (fun x => (x.1, { x.2 with waiter := x.2.waiter.filter (fun w => w.1.g ≠ r) })),
    launches := s.launches.map (fun (l : Launch) => { l with change := l.change.map (fun ch => { ch with g := d ch.g }) }),
    faults := s.faults.map (fun (f : FaultRec) => { f with joined := f.joined.filter (fun q =>
      match q with | .parked g _ | .fetch g _ => g ≠ r | _ => true) }),
    sched := s.sched.map (fun x =>
      if x.1 = (r.coreRef, partOf r) then
        (x.1, { x.2 with sel := x.2.sel.filter (fun y => y.1 ≠ r.slot), yield := x.2.yield.filter (· ≠ r.slot) })
      else x) }

/-- The block has a resident responder, or one that is still to start (13 R385, R398). -/
def State.hasResponder (s : State) (lid blk : Nat) : Bool :=
  s.groups.any (fun g => g.lid = lid && g.blk = blk && (match g.kind with | .responder .. => true | _ => false)) ||
  s.censuses.any (fun x => x.cores.any (fun k => k.spawn.any (fun e =>
    match s.dir.get? (k.c, e) with | some d => d.lid == lid && d.blk == blk | none => false)))

/-- Accepted accesses to the storage of a block are outstanding (01 R21). -/
def State.accessed (s : State) (b : Block) : Bool :=
  let r := match s.launch? b.lid with | some l => l.lrec | none => LaunchRec.zero
  let inBlock (x : OcAddr) : Bool :=
    x.die == b.die && x.core == b.core &&
    (match x.kind with
     | 0 => decide (b.scratchBase ≤ x.off) && decide (x.off < b.scratchBase + r.scratch)
     | 1 => decide (b.accBase * 0x8000 ≤ x.off) && decide (x.off < (b.accBase + r.accb) * 0x8000)
     | 3 => decide (b.tileBase * 0x2000 ≤ x.off) && decide (x.off < (b.tileBase + r.tiles) * 0x2000)
     | _ => false)
  s.ops.any (fun o => o.lanes.any (fun l => !l.isDone && (match (o.oc l).bind ocDecode with | some x => inBlock x | none => false)))

/-- A closed block gives up its storage once its responders have ended, its merge buffer is empty and the accesses to it
and its write-outs have completed (01 R21, 04 R96, 10 R297, 13 R398). -/
def State.releaseBlocks (s : State) (lid : Nat) : State :=
  { s with blocks := s.blocks.filter (fun b =>
      !(b.lid = lid && b.closed && b.merged && !s.accessed b &&
        s.regions.all (fun x => !(x.2.lid = b.lid && x.2.blk = b.idx))) ||
      s.hasResponder b.lid b.idx) }

/-- A launch whose blocks have all been placed and have all exited is DRAINING (04 R96); the last epoch of a piste
launch ends with it (01 R13). -/
def State.drainCheck (s : State) (lid : Nat) : State :=
  match s.launch? lid with
  | none => s
  | some l =>
    if (l.state = .running || l.state = .placing) && l.unplaced.isEmpty &&
        s.blocks.all (fun b => b.lid ≠ lid || b.closed) then
      let s1 := if l.lrec.piste then s.epochEnd lid none else s
      (s1.modLaunch lid (fun l => { l with state := .draining })).releaseBlocks lid
    else s.releaseBlocks lid

/-- A block's last ordinary group has exited (01 R21, 10 R297, 13 R398). -/
def State.blockEnd (s : State) (lid blk : Nat) : State :=
  let s1 := (s.windowsClose lid blk).dirPurge lid blk
  s1.modBlock lid blk (fun b => { b with closed := true, latch := none, task := none })

/-- A group ends: it leaves its slot and counts as arrived at every later phase of its barriers (01 R13); its block and
its launch may end with it. -/
def State.groupEnd (s : State) (r : GRef) : State :=
  match s.group? r with
  | none => s
  | some g =>
    let s1 := s.gangDissolve g
    let s2 := s1.detach r
    let s3 := { s2 with groups := s2.groups.filter (fun x => x.ref ≠ r) }
    if g.kind = .ordinary then
      let last := s3.groups.all (fun x => !(x.lid = g.lid && x.blk = g.blk && x.kind = .ordinary))
      let s4 := if last then s3.blockEnd g.lid g.blk else s3.epochArrive g.lid g.blk
      (s4.completeBars g.lid).drainCheck g.lid
    else
      let s4 := match g.kind with | .responder n _ _ => s3.responderEnd n r.coreRef | _ => s3
      s4.releaseBlocks g.lid

/-- A group ended by FATALNEST or UNCORRECTED counts in TRAPPED (04 R97, 05 R136). -/
def State.groupTrapped (s : State) (r : GRef) : State :=
  match s.group? r with
  | none => s
  | some g =>
    let s1 := if g.kind = .ordinary then s.modLaunch g.lid (fun l => { l with trapped := l.trapped + 1 }) else s
    s1.groupEnd r

end Sys2Proof.Machine
end

