-- ==== Sys2Proof/Machine/LegalAcc.lean ====
section
/-! DEFINITION. Which field values of the ACC words are legal (02 R43, R46; 03 R67; 08 R229, R235 to R249; 12 R366). -/

namespace Sys2Proof

/-- Bytes of a plain size code 000 to 100 (02 R46). -/
def plainSize (sz : BitVec 3) : Bool := decide (sz.toNat ≤ 4)

/-- ORD on a load or a store (03 R67): a size of 4 or 8 bytes, no release on a load, no acquire on a store. -/
def ordLegal (store : Bool) (o : OpM) : Bool :=
  o.ord == 0 || ((o.size == 2 || o.size == 3) && !o.ord.getLsbD (if store then 0 else 1))

/-- A v register run of an access of a size (08 R229). -/
def vRun (d : BitVec 9) (size : Nat) : Bool := isVDst d && dataRunLegal (dstNum d) size

/-- LDG, STG, LDS, STS, LDW, STW (08 R229, R235, R236). -/
def legalLdst (store useScope evict : Bool) (o : OpM) : Bool :=
  o.g.legal && plainSize o.size && ordLegal store o && baseLegal o.a && indexLegal o.b && vRun o.d (sizeBytes o.size) &&
  (useScope || o.scope == 0) && (evict || o.evict == 0)

/-- LDK and STK (08 R237). -/
def legalLdkStk (store : Bool) (o : OpM) : Bool :=
  o.g.legal && plainSize o.size && ordLegal store o && o.a.kReg && o.b.kOrInt && isKDst o.d &&
  (o.size != 4 || dstNum o.d % 2 == 0)

/-- GTHR and SCTR (08 R238). -/
def legalPacket (o : OpM) : Bool :=
  o.g.legal && isPacket o.size && o.ord == 0 && o.off == 0 && o.a.kReg && indexLegal o.b && vRun o.d (sizeBytes o.size)

/-- PREF, WBK, INV (08 R240): no form uses SCOPE, and WBK and INV do not use EVICT (02 R43). -/
def legalMaint (pref : Bool) (o : OpM) : Bool :=
  o.g.legal && plainSize o.size && o.ord == 0 && o.scope == 0 && (pref || o.evict == 0) && o.d == 0 && baseLegal o.a && indexLegal o.b

/-- FNC (08 R241). -/
def legalFnc (o : OpM) : Bool :=
  o.g.always && o.d == 0 && o.a.unused && o.b.unused && o.evict == 0 && o.size == 0 && o.off == 0 && o.ord != 0

/-- SBND and SUNB (08 R242). -/
def legalBind (even : Bool) (o : OpS) : Bool :=
  o.g.always && isKDst o.d && o.a.kReg && (!even || o.a.kNum % 2 == 0) && o.imm == 0 && o.sub == 0 && o.m == 0

/-- Words of the destination and of operand B of an atomic; none where AOP or SIZE is illegal (08 R245, R248, R249). -/
structure AtomShape where
  dw : Nat
  bw : Nat
  deriving DecidableEq, Repr, Inhabited

/-- One register or a pair, by SIZE 4 or 8. -/
def bySize (o : OpM) : Option AtomShape :=
  if o.size == 2 then some ⟨1, 1⟩ else if o.size == 3 then some ⟨2, 2⟩ else none

/-- A shape that requires a SIZE. -/
def needSize (o : OpM) (sz : BitVec 3) (d b : Nat) : Option AtomShape := if o.size == sz then some ⟨d, b⟩ else none

/-- AADD. -/
def aaddShape (o : OpM) : Option AtomShape :=
  match o.evict.toNat with | 0 | 2 | 3 => needSize o 2 1 1 | 1 => needSize o 3 2 2 | _ => none
/-- AFAD. -/
def afadShape (o : OpM) : Option AtomShape := if o.evict.toNat < 3 then needSize o 2 1 1 else none
/-- ACAD. -/
def acadShape (o : OpM) : Option AtomShape := if o.evict == 0 then needSize o 2 2 2 else none
/-- AMNX. -/
def amnxShape (o : OpM) : Option AtomShape :=
  if o.evict.toNat / 2 < 2 then needSize o 2 1 1 else needSize o 3 2 2
/-- AFMX. -/
def afmxShape (o : OpM) : Option AtomShape := if o.evict.toNat / 2 < 3 then needSize o 2 1 1 else none
/-- AMXI. -/
def amxiShape (o : OpM) : Option AtomShape :=
  if o.evict.toNat / 2 < 3 && o.evict.toNat % 2 == 0 then needSize o 3 2 2 else none
/-- ALOP. -/
def alopShape (o : OpM) : Option AtomShape := if o.evict.toNat < 3 then bySize o else none
/-- AXCH. -/
def axchShape (o : OpM) : Option AtomShape := if o.evict == 0 then bySize o else none
/-- ACAS. -/
def acasShape (o : OpM) : Option AtomShape :=
  if o.evict == 0 then (bySize o).map (fun x => ⟨x.dw, 2 * x.bw⟩) else none
/-- AINC. -/
def aincShape (o : OpM) : Option AtomShape := if o.evict.toNat < 2 then needSize o 2 1 1 else none
/-- ARED. -/
def aredShape (o : OpM) : Option AtomShape :=
  match o.evict.toNat with | 0 | 2 | 3 | 4 => needSize o 2 0 1 | 1 => needSize o 3 0 2 | 5 => needSize o 2 0 2 | _ => none
/-- WAITA: ORD 00 or 01, SCOPE die or wider. -/
def waitaShape (o : OpM) : Option AtomShape :=
  if o.evict.toNat < 4 && o.ord.toNat < 2 && 2 ≤ o.scope.toNat then bySize o else none

/-- A source of w words: a v run from a multiple of w, or a k register for one or two words. -/
def runSrc (b : Src) (w : Nat) : Bool :=
  b.bitsLegal && match srcK b.opnd with | .v n => n % w == 0 && n + w ≤ 320 | .k _ => w < 4 | _ => false

/-- Atomics and WAITA (08 R244, R245, R248, R249; 03 R67). -/
def legalAtom (shape : OpM → Option AtomShape) (o : OpM) : Bool :=
  o.g.legal && baseLegal o.a &&
  (match shape o with
   | none => false
   | some x => runSrc o.b x.bw &&
     (if x.dw = 0 then o.d == 0 else isVDst o.d && dstNum o.d % x.dw == 0 && dstNum o.d + x.dw ≤ 320))

end Sys2Proof
end

