-- ==== Sys2Proof/Machine/LegalHome.lean ====
section
/-! DEFINITION. Which field values of the home, census, launch and port words are legal (12 R345 to R372, 13 R381 to R395,
04 R90, R109, 14 R413, R425). -/

namespace Sys2Proof

/-- An F-S word with the always guard and a zero MOD, its SUB, its D a k register or zero, its A a k register (even, for a
pair) or zero. -/
def legalPlainS (sub : Nat) (kd ka even : Bool) (o : OpS) : Bool :=
  o.g.always && o.m == 0 && o.imm == 0 && o.sub.toNat == sub && (if kd then isKDst o.d else o.d == 0) &&
  (if ka then o.a.kReg && (!even || o.a.kNum % 2 == 0) else o.a.unused)

/-- Words of an argument or reply run by its size code (12 R348). -/
def runWords (code : Nat) : Nat := match code with | 0 => 1 | 1 => 2 | _ => 4

/-- A v run of w words at a register: aligned by w and within the file (12 R348, 09 R254). -/
def vRunAt (n w : Nat) : Bool := n % w == 0 && decide (n + w ≤ 320)

/-- CMB and CMB.nt (12 R348). -/
def legalCmb (nt : Bool) (o : OpS) : Bool :=
  let asz := mfield o.m 9 8
  let rsz := mfield o.m 7 6
  o.g.legal && o.imm.toNat < 64 && o.sub.toNat == (if nt then 1 else 0) && asz != 3 && rsz != 3 && mfield o.m 5 3 == 0 &&
  (if nt then mfield o.m 2 0 != 7 else mfield o.m 2 0 == 0) &&
  isVDst o.d && vRunAt (dstNum o.d) (runWords rsz) && o.a.isV && vRunAt o.a.vNum (runWords asz)

/-- CMBR (12 R355): the run's alignment is checked when it is performed. -/
def legalCmbr (o : OpS) : Bool :=
  o.g.always && o.d == 0 && o.imm == 0 && o.sub == 0 && o.m == 0 && o.a.isV

/-- Operand B of GADD (12 R366): F32 in a v register, the low word of a k register, or a float constant. -/
def gaddSrc (b : Src) : Bool :=
  b.bitsLegal && match srcK b.opnd with | .v _ | .k _ | .flt _ => true | _ => false

/-- Glide instructions (12 R366). -/
def legalGlide (gop acq : Nat) (dReg : OpM → Bool) (bOk : Src → Bool) (o : OpM) : Bool :=
  o.g.legal && o.size == 3 && (o.scope == 0 || o.scope == 2 || o.scope == 3) && (o.evict.toNat &&& gop) == o.evict.toNat &&
  (o.ord == 0 || o.ord.toNat == acq) && baseLegal o.a && bOk o.b && (if dReg o then isVDst o.d else o.d == 0)

/-- GLD. -/
def legalGld (o : OpM) : Bool := legalGlide 0 1 (fun _ => true) indexLegal o
/-- GADD. -/
def legalGadd (o : OpM) : Bool := legalGlide 1 2 (fun o => o.evict.getLsbD 0) gaddSrc o
/-- GMRG. -/
def legalGmrg (o : OpM) : Bool := legalGlide 1 2 (fun o => o.evict.getLsbD 0) (fun b => runSrc b 2) o
/-- GSET. -/
def legalGset (o : OpM) : Bool := legalGlide 2 2 (fun _ => false) (fun b => runSrc b 2) o

/-- Words of a census result by its combine op (13 R387). -/
def cenWidth (op : Nat) : Nat := match op with | 1 | 3 => 2 | 4 => 3 | _ => 1

/-- Alignment of a run by the registers it occupies (09 R254). -/
def expRun (n w : Nat) : Bool := n % (if w = 3 then 4 else w) == 0 && decide (n + w ≤ 320)

/-- SOL (13 R381). -/
def legalSol (o : OpS) : Bool :=
  o.g.always && o.imm.toNat < 4 && o.sub.toNat ≤ 6 && mfield o.m 9 7 ≤ 4 && mfield o.m 6 4 ≤ 5 && mfield o.m 2 0 == 0 &&
  isVDst o.d && expRun (dstNum o.d) (cenWidth o.sub.toNat) && o.a.kReg && o.a.kNum % 4 == 0

/-- SOLW and SOLR (13 R393). -/
def legalSolx (kd : Bool) (o : OpS) : Bool :=
  o.g.always && o.imm.toNat < 4 && o.sub == 0 && o.m == 0 && o.a.unused && (if kd then isKDst o.d else o.d == 0)

/-- RSP (13 R386): the run is checked when it is performed. -/
def legalRsp (o : OpS) : Bool :=
  o.g.legal && o.d == 0 && o.imm == 0 && o.sub == 0 && o.m == 0 && o.a.bitsLegal &&
  (match srcK o.a.opnd with | .reserved => false | _ => true)

end Sys2Proof
end

