-- ==== Sys2Proof/Machine/LegalMat.lean ====
section
/-! DEFINITION. The subfields of SHP and which field values of the MAT words are legal (11 R317, R326, R328, R333). -/

namespace Sys2Proof

/-- KB: the k register of the base. -/
def OpT.kb (o : OpT) : Nat := bits o.shp.toNat 21 16

/-- KS: the k register of the row stride. -/
def OpT.ks (o : OpT) : Nat := bits o.shp.toNat 15 10

/-- SP: the base is a scratchpad offset. -/
def OpT.sp (o : OpT) : Bool := o.shp.getLsbD 9

/-- VREG: the first v register of a run. -/
def OpT.vreg (o : OpT) : Nat := bits o.shp.toNat 21 13

/-- Registers of the run. -/
def OpT.nreg (o : OpT) : Nat := bits o.shp.toNat 12 9 + 1

/-- LINE. -/
def OpT.line (o : OpT) : Nat := bits o.shp.toNat 8 0

/-- NBLK. -/
def OpT.nblk (o : OpT) : Nat := bits o.shp.toNat 3 0

/-- INIT. -/
def OpT.init (o : OpT) : Bool := o.shp.getLsbD 0

/-- n of MFCT and MTRS. -/
def OpT.n (o : OpT) : Nat := bits o.shp.toNat 5 0 + 1

/-- r of MTRS. -/
def OpT.r (o : OpT) : Nat := bits o.shp.toNat 11 6 + 1

/-- UPLO of MTRS. -/
def OpT.uplo (o : OpT) : Bool := o.shp.getLsbD 12

/-- PERM of MTRS. -/
def OpT.perm (o : OpT) : Bool := o.shp.getLsbD 13

/-- BBLK of MTRS. -/
def OpT.bblk (o : OpT) : Nat := bits o.shp.toNat 16 14

/-- Fields that a form does not use are zero (02 R43), and the guard is always (11 R317). -/
def OpT.only (o : OpT) (td ta tb res acc ts : Bool) : Bool :=
  o.g.always && (td || o.td == 0) && (ta || o.ta == 0) && (tb || o.tb == 0) && (res || !o.res) && (acc || o.acc == 0) &&
  (ts || o.ts == 0)

/-- SHP in layout MEM. -/
def OpT.mem (o : OpT) : Bool := bits o.shp.toNat 8 0 == 0

/-- SHP in layout MOVE: the run stays within v0 to v319. -/
def OpT.move (o : OpT) : Bool := decide (o.vreg + o.nreg ≤ 320)

/-- TLD. -/
def legalTld (o : OpT) : Bool := o.only true false false false false false && o.mem && o.m == 0
/-- TST. -/
def legalTst (o : OpT) : Bool := o.only false true false false false false && o.mem && o.m == 0
/-- TZRO of a tile. -/
def legalTzro (o : OpT) : Bool := o.only true false false false false false && o.shp == 0 && o.m == 0
/-- TZRO of accumulator blocks. -/
def legalTzroAcc (o : OpT) : Bool :=
  o.only false false false false true false && bits o.shp.toNat 21 4 == 0 && 1 ≤ o.nblk && o.nblk ≤ 8 && o.m == 0
/-- TMVV of a tile. -/
def legalTmvv (o : OpT) : Bool := o.only false true false false false false && o.move && o.m == 0
/-- TMVV of accumulator memory. -/
def legalTmvvAcc (o : OpT) : Bool := o.only false false false false true false && o.move && o.m == 1
/-- TMVT to a tile. -/
def legalTmvt (o : OpT) : Bool := o.only true false false false false false && o.move && o.m == 0
/-- TMVT to accumulator memory. -/
def legalTmvtAcc (o : OpT) : Bool := o.only false false false false true false && o.move && o.m == 1
/-- TTRN. -/
def legalTtrn (o : OpT) : Bool := o.only true true false false false false && o.shp == 0 && o.m == 0
/-- TSCL: RND 111 is reserved (11 R311). -/
def legalTscl (o : OpT) : Bool :=
  o.only true true false false false true && o.shp == 0 && mzero o.m 0x70 && rndOf o.m != 7
/-- WLD. -/
def legalWld (o : OpT) : Bool := o.only false true false false false true && o.shp == 0 && o.m == 0
/-- ALD. -/
def legalAld (o : OpT) : Bool := o.only false true false true true false && o.mem && o.m == 0
/-- AST. -/
def legalAst (o : OpT) : Bool :=
  o.only false true false true true false && o.mem && mzero o.m 0x7E && rndOf o.m != 7
/-- MMA and MMAG. -/
def legalMma (o : OpT) : Bool := o.only false true false true true true && bits o.shp.toNat 21 1 == 0 && o.m == 0
/-- MFCT. -/
def legalMfct (o : OpT) : Bool := o.only true false false false true false && bits o.shp.toNat 21 6 == 0 && o.m == 0
/-- MTRS. -/
def legalMtrs (o : OpT) : Bool :=
  o.only true false true false true false && bits o.shp.toNat 21 17 == 0 && (o.perm || o.tb == 0) && o.m == 0

/-- MFEN, MEST and GANG: SUB, whether D is a k register or zero, whether A is. -/
def legalMatS (sub : Nat) (kd ka : Bool) (o : OpS) : Bool :=
  o.g.always && o.m == 0 && o.imm == 0 && o.sub.toNat == sub && (if kd then isKDst o.d else o.d == 0) &&
  (if ka then o.a.kReg else o.a.unused)

end Sys2Proof
end

