-- ==== Sys2Proof/Machine/Ops.lean ====
section
/-! DEFINITION. The shared path of every issued slot (05 R112, 02 R28, R44, 05 R125, R131) and taking an exception
(05 R131 to R136). -/

namespace Sys2Proof.Machine

open Sys2Proof

/-! ### Taking an exception -/

/-- The handler's address (04 R88 HANDLER, 05 R145). -/
def State.handlerOf (s : State) (g : Group) : Nat :=
  match s.launch? g.lid with | some l => (l.base + l.lrec.handler) % 2 ^ 56 | none => 0

/-- The launch has a handler (04 R88 HEN). -/
def State.hasHandler (s : State) (g : Group) : Bool :=
  match s.launch? g.lid with | some l => l.lrec.hen | none => false

/-- `%tcause` of a trap (05 R132). -/
def tcauseOf (c : Cause) (detail : Nat) (nested : Bool) : BitVec 32 :=
  BitVec.ofNat 32 (detail % 2 ^ 16 * 2 ^ 16 + (if nested then 2 ^ 8 else 0) + causeCode c)

/-- The other splits of a depth become HELD at the end of their clause (05 R133 step 1): at once when they are not inside
one. -/
def Group.holdOthers (g : Group) (es : List Nat) : Group :=
  { g with splits := g.splits.mapIdx (fun i (sp : Split) =>
      if es.contains i && (sp.state = .ready || sp.state = .blocked) && !sp.inClause then
        { sp with state := .held, wait := .handler } else sp) }

/-- The split that raised the trap being handled (05 R114). -/
def Split.suspend (sp : Split) : Split :=
  { sp with state := .suspended, wait := .none, started := false, prog := none, trap := none }

/-- Handler entry of a trap of kind S or D raised by an ordinary split (05 R133). -/
def Group.enter (g : Group) (e : Nat) (c : Cause) (detail tpc handler now : Nat) : Group :=
  let m := (g.split e).mask
  let g1 : Group := (g.modSplit e Split.suspend).holdOthers ((List.range 8).filter (· ≠ e))
  { g1.modSplit 8 (fun _ => Split.start m 0 0x1F handler 0 now) with
    sp := { g1.sp with tcause := tcauseOf c detail false, tpc := BitVec.ofNat 64 tpc },
    depth := 1, suspended := some e, tpcSet := BitVec.ofNat 64 tpc, cause1 := c }

/-- Handler entry of a trap of kind A (05 R133 step 3): every lane that has neither exited nor is parked. `%tpc` is the next header
of the lowest-index split (R131): for one HELD inside a clause, the header after it. -/
def Group.enterA (g : Group) (c : Cause) (handler now : Nat) : Group :=
  let first := (List.range 8).find? (fun e => (g.split e).state != .free)
  let tpc := match first with
    | some e => if (g.split e).inClause then (g.split e).nextHdr else (g.split e).hdr
    | none => 0
  let m := ~~~(g.exited ||| g.parkedMask)
  let g1 : Group := g.holdOthers (List.range 8)
  { g1.modSplit 8 (fun _ => Split.start m 0 0x1F handler 0 now) with
    sp := { g1.sp with tcause := tcauseOf c 0 false, tpc := BitVec.ofNat 64 tpc },
    depth := 1, suspended := none, tpcSet := BitVec.ofNat 64 tpc, cause1 := c }

/-- A trap of the depth-1 handler nests (05 R135); its other split is HELD at the end of its clause (R114). -/
def Group.nest (g : Group) (e : Nat) (c : Cause) (detail tpc handler now : Nat) : Group :=
  let sp := g.split e
  { ((g.holdOthers [17 - e]).modSplit 10 (fun _ => { sp with trap := none })).modSplit e (fun _ => Split.start sp.mask 0 0x1F handler 0 now) with
    shadowCause := g.sp.tcause, shadowTpc := g.sp.tpc,
    sp := { g.sp with tcause := tcauseOf c detail true, tpc := BitVec.ofNat 64 tpc },
    depth := 2, nestEntry := e, deep := [], tpcSet2 := BitVec.ofNat 64 tpc, cause2 := c }

/-- TAKING AN EXCEPTION: the trap of cause c raised by split e of group r (05 R131, R133, R135, R136). While another split
is in a handler the trap is not taken: the split is HELD at its slot. A responder and a pack wave have no handler: their trap waits for RESPONDER_FAULT or METHOD_FAULT (13 R385, 12 R357). -/
def State.takeTrap (s : State) (r : GRef) (e : Nat) (c : Cause) (detail tpc : Nat) : State :=
  match s.group? r with
  | none => s
  | some g =>
    match g.kind with
    | .ordinary =>
      if g.handles e then
        if g.depth = 1 && c ≠ g.cause1 then
          (s.modReady r (fun g => g.nest e c detail tpc (s.handlerOf g) s.nextId)).count r.coreRef 1 0x13
        else s.groupTrapped r
      else if 0 < g.depth then
        s.modSplit r e (fun sp => { sp with state := .held, wait := .handler, trap := none })
      else if s.hasHandler g then
        (s.modReady r (fun g => g.enter e c detail tpc (s.handlerOf g) s.nextId)).count r.coreRef 1 0x13
      else s.groupTrapped r
    | _ => s.modSplit r e (fun sp => { sp with state := .blocked, wait := .reply, trap := some ⟨c, detail, tpc⟩ })

/-! ### Returning from an exception (05 R134, R135, R140) -/

/-- A split HELD for the handler is READY again; inside a clause it tests its wait slots before it goes on (02 R35). -/
def Split.unheld (sp : Split) : Split :=
  if sp.state = .held && sp.wait = .handler then { sp with state := .ready, wait := .none, started := false } else sp

/-- The splits HELD for the handler are READY again. -/
def Group.unhold (g : Group) : Group := { g with splits := g.splits.map Split.unheld }

/-- The handler split may execute TRET (05 R134): it is the only live split at its depth and no deferred part waits; lanes
that parked at that depth count as live (log 33). -/
def Group.mayReturn (g : Group) (e : Nat) : Bool :=
  g.handles e && !g.parked.any (fun p => p.valid && p.hdepth = g.depth) &&
  [8, 9].all (fun i => i = e || (g.split i).state = .free || !g.handles i) &&
  ([14, 15].all (fun r => match g.joins[r]? with
    | some j => !(j.valid && j.defer) || (r = 14 && g.depth = 2)
    | none => true))

/-- TRET at depth 1 (05 R134): `%tpc` equal to its value at entry resumes the split where it stands. The splits held for the
handler stay HELD for a PREEMPT that waits. -/
def Group.returnOuter (g : Group) : Group :=
  let g1 := { (g.modSplit 8 (fun _ => Split.free)).modSplit 9 (fun _ => Split.free) with
    joins := modNth g.joins 14 (fun _ => Join.free), depth := 0, suspended := none, deep := [] }
  let g2 := match g.suspended with
    | none => g1
    | some e => g1.modSplit e (fun sp =>
        if g.sp.tpc = g.tpcSet then { sp with state := .ready, wait := .none, started := false }
        else sp.goto g.sp.tpc.toNat)
  if g.prepend || g.preemptReq then g2 else g2.unhold

/-- TRET of a handler entered on resume (05 R140): its lanes continue as one split at `%tpc`. -/
def Group.returnResume (g : Group) (e now : Nat) : Group :=
  let sp := g.split e
  let g1 := (g.modSplit 8 (fun _ => Split.free)).modSplit 9 (fun _ => Split.free)
  { g1.modSplit 0 (fun _ => Split.start sp.mask sp.dorm 0x1F (g.sp.tpc.toNat % 2 ^ 56) 0 now) with
    joins := modNth g.joins 14 (fun _ => Join.free), depth := 0, suspended := none
    sp := { g.sp with tcause := g.sp.tcause &&& ~~~0x400#32 } }

/-- TRET at depth 2 (05 R135). -/
def Group.returnInner (g : Group) : Group :=
  let saved := g.split 10
  let back := if g.sp.tpc = g.tpcSet2 then { saved with state := .ready, wait := .none, started := false }
    else saved.goto g.sp.tpc.toNat
  let g1 := (g.deep.foldl (fun (g : Group) e => g.modSplit e (fun _ => Split.free)) g)
  { (((g1.modSplit 8 Split.unheld).modSplit 9 Split.unheld).modSplit g.nestEntry (fun _ => back)).modSplit 10 (fun _ => Split.free) with
    joins := modNth g.joins 15 (fun _ => Join.free), depth := 1, deep := [],
    sp := { g.sp with tcause := g.shadowCause &&& ~~~0x100#32, tpc := g.shadowTpc } }

/-! ### Issuing a slot -/

/-- Operations of the engines that bring data to a v register of a group, by their numbers: accesses, combine replies, census
results, tile moves (01 R27, 05 R126). -/
def State.bringers (s : State) (r : GRef) (n : Nat) : List Nat :=
  let run (d w : Nat) : Bool := decide (d ≤ n && n < d + w)
  let reqs := s.cmbs.flatMap (·.reqs) ++ s.queues.flatMap (·.2) ++ s.packs.flatMap (·.reqs) ++ s.replies.map (·.req)
  let moves (o : MatOp) : Bool := o.g == r && !o.cancelled &&
    (match o.ins with | .tmvv q | .tmvvAcc q => run q.vreg q.nreg | _ => false)
  (s.ops.filter (fun o => o.g == r && o.kind != .waita && o.dests.contains n)).map (·.id) ++
  (reqs.filter (fun q => q.g == r && run q.dest (runWords q.rsz))).map (·.op) ++
  (s.censuses.filter (fun x => x.g == r && !x.complete && !x.foreign && run x.dest (cenWidth x.op))).map (·.prodId) ++
  ((s.mats.flatMap (fun m => m.2.waiting ++ m.2.accepted)).filter moves).map (·.id)

/-- A write of group `src` to mailbox register n of group `tgt` that it issued before some number has not landed: a message, an
atomic through the map, or data for a register of its own (01 R16). -/
def State.mboxPending (s : State) (src tgt : GRef) (n before : Nat) : Bool :=
  s.mbox.any (fun w => w.src == src && w.g == tgt && w.reg == n && decide (w.op < before)) ||
  (src == tgt && (s.bringers src n).any (· < before)) ||
  s.ops.any (fun p => p.g == src && decide (p.id < before) && (p.kind == .atomic || p.kind == .ared) &&
    p.lanes.any (fun l => !l.isDone && (match ((p.oc l).bind ocDecode).bind s.ocMbox with
      | some (g, m, _) => g.ref == tgt && m == n
      | none => false)))

/-- A register that a slot reads in the slot's active lanes: its L and E bits (02 R44). -/
structure Rd where
  isK : Bool
  n : Nat
  last : Bool
  etrap : Bool
  deriving DecidableEq, Repr, Inhabited

/-- What a meaning knows: the state and group when the slot issues, the same after its L bits took effect, who issues,
the split, and the lanes that take part. -/
structure Ctx where
  s0 : State
  s : State
  g : Group
  sp : Split
  r : GRef
  e : Nat
  m : Mask
  deriving Repr

/-- How a slot ends. -/
inductive SlotRes where
  /-- it completes -/
  | ok (s : State)
  /-- it completes with its literal word -/
  | ok2 (s : State)
  /-- it raises a trap, `%tpc` at the slot, and has no effect -/
  | trap (c : Cause) (detail : Nat)
  /-- it raises a trap whose `%tpc` is another header, where the split then stands -/
  | trapAt (s : State) (c : Cause) (detail tpc : Nat)
  /-- the split stays at the slot, BLOCKED -/
  | block (s : State) (w : Wait)
  /-- the split stays at the slot, HELD -/
  | held (s : State) (w : Wait)
  /-- it ends the clause at another header -/
  | jump (s : State) (tgt : Nat)
  /-- it has placed the group's splits itself -/
  | done (s : State)
  /-- it has placed the group's splits itself, and they stay at the slot -/
  | stay (s : State)
  deriving Repr

/-- Address of the slot a split stands at (02 R32). -/
def Split.pc (sp : Split) : Nat := sp.hdr + 8 + 8 * sp.slot

/-- The launch is a DEBUG launch (04 R88). -/
def State.debugOf (s : State) (g : Group) : Bool := (s.recOf g).debug

/-- The lanes of a register that hold no data: dead, or the register was never written (05 R125). A mailbox register
has none (R125). -/
def deadLanes (s : State) (g : Group) (n : Nat) : Mask :=
  if s.isMbox g n then 0
  else let r := g.vreg n; if r.mapped then r.dead else Mask.all

/-- A register is empty to a reader of these lanes (02 R28, 01 R16, R27): dead lanes count as full (05 R125). A slot that
is executed again for lanes that parked at it reads what lies beneath its own mark (05 R121): `replay` is the access that
made it. -/
def regEmpty (s : State) (g : Group) (isK : Bool) (n : Nat) (m : Mask) (replay : Nat) : Bool :=
  if isK then !(g.kreg n).full && (replay = 0 || (g.kreg n).prod ≠ replay)
  else if s.isMbox g n then !(g.vreg n).full && replay = 0
  else (g.vreg n).pending &&& m &&& ~~~(deadLanes s g n) &&& ~~~(if replay = 0 then 0 else (g.vreg n).prodMask replay) != 0

/-- The word of a lane as a reader sees it: 0 in dead lanes (05 R125). -/
def Group.readLane (s : State) (g : Group) (n l : Nat) : Word :=
  if (deadLanes s g n).has l then 0 else (g.vreg n).lane l

/-- Physical registers of a partition (05 R124, 12 R342). -/
def physTotal (c : CoreRef) : Nat := if c.home then 512 else 1024

/-- The registers of a group that occupy the physical file. -/
def Group.physUsed (g : Group) : Nat := (g.vregs.filter (fun x => x.2.mapped && !x.2.spilled)).length

/-- Physical registers in use in a partition. -/
def State.physUsed (s : State) (c : CoreRef) (p : Nat) : Nat :=
  (s.groups.filter (fun g => g.ref.coreRef = c && partOf g.ref = p && g.phase ≠ .preempted && g.phase ≠ .spilled)).foldl
    (fun n g => n + g.physUsed) 0

/-- L bits take effect in the lanes that read (05 R125, 01 R16): a renamed register's reading lanes become dead, and it is freed when no live
lane is left; a mailbox register becomes empty. -/
def applyLast (s : State) (m : Mask) (g : Group) (rds : List Rd) : Group :=
  rds.foldl (fun g rd =>
    if !rd.last || rd.isK || m = 0 then g
    else if s.isMbox g rd.n then g.setV rd.n { g.vreg rd.n with full := false }
    else
      let r := g.vreg rd.n
      if !r.mapped then g
      else
        let d := r.dead ||| m
        g.setV rd.n (if (d ||| g.exited) = Mask.all then { r with dead := d }.freed else { r with dead := d })) g

/-- What a slot does with its result. A refused expectation is counted (07 R227). -/
def slotEnd (c : Ctx) (res : SlotRes) : State :=
  match res with
  | .ok s => s.finishSlot c.r c.e
  | .ok2 s => s.finishSlot c.r c.e 2
  | .trap ca d => (c.s0.count c.r.coreRef 3 4 (if ca = .barovf then 1 else 0)).takeTrap c.r c.e ca d c.sp.pc
  | .trapAt s ca d tpc =>
    if 0 < c.g.depth && !c.g.handles c.e then c.s0.takeTrap c.r c.e ca d tpc
    else (s.modGroup c.r (fun g => g.modSplit c.e (fun sp => sp.goto tpc))).takeTrap c.r c.e ca d tpc
  | .block s w => s.modSplit c.r c.e (fun sp => { sp with state := .blocked, wait := w })
  | .held s w => s.modSplit c.r c.e (fun sp => { sp with state := .held, wait := w })
  | .jump s tgt => (s.modReady c.r (fun g => g.jump c.e tgt)).count c.r.coreRef 1 1
  | .done s => s.count c.r.coreRef 1 1
  | .stay s => s

/-- The failed mark that a slot meets first: of its first marked source, in the lowest lane (05 R131 kind D). -/
def failMet (g : Group) (m : Mask) (rds : List Rd) : Option (Cause × Nat) :=
  rds.findSome? (fun rd => if rd.isK then none else
    m.toLanes.findSome? (fun l => (g.vreg rd.n).fails.get? l))

/-- The trap of kind D clears the marks of the lanes that the slot reads (05 R131). -/
def clearFails (g : Group) (m : Mask) (rds : List Rd) : Group :=
  rds.foldl (fun g rd => if rd.isK || (g.vreg rd.n).fails.isEmpty then g else g.setV rd.n ((g.vreg rd.n).unfail m)) g

/-- The checks a slot passes before it acts, in the order of their ranks (05 R131): EMPTYREAD, a stall on an empty
register, DEADREAD, marks of kind D, a spilled register, the group's own writes on their way to a mailbox register (01 R16), a
free physical register for every renamed register it writes (05 R124, R126); `dsts` are the v registers it writes. None: it
may act. -/
def issueCheck (s : State) (g : Group) (r : GRef) (e : Nat) (m : Mask) (pc : Nat) (rds : List Rd) (dsts : List Nat) :
    Option State :=
  let empty (rd : Rd) : Bool := m != 0 && regEmpty s g rd.isK rd.n m (g.split e).replay
  match rds.find? (fun rd => rd.etrap && empty rd) with
  | some _ => some (s.takeTrap r e .emptyread 0 pc)
  | none =>
  match rds.find? empty with
  | some rd => some (s.modSplit r e (fun sp => { sp with state := .blocked, wait := .empty rd.isK rd.n m }))
  | none =>
  match rds.find? (fun rd => !rd.isK && s.debugOf g && deadLanes s g rd.n &&& m != 0) with
  | some _ => some (s.takeTrap r e .deadread 0 pc)
  | none =>
  match failMet g m rds with
  | some (c, d) =>
    let waits := 0 < g.depth && !g.handles e
    some ((if waits then s else s.modGroup r (fun g => clearFails g m rds)).takeTrap r e c d pc)
  | none =>
  match (rds.filter (fun rd => !rd.isK)).map (·.n) ++ (if m = Mask.all then [] else dsts) |>.find?
      (fun n => (g.vreg n).spilled) with
  | some n => some (s.modSplit r e (fun sp => { sp with state := .blocked, wait := .reload n }))
  | none =>
  if m ≠ 0 && dsts.any (fun n => s.isMbox g n && s.mboxPending r r n s.nextId) then
    some (s.modSplit r e (fun sp => { sp with state := .blocked, wait := .retest }))
  else
  let need := (dsts.filter (fun n => !s.isMbox g n)).dedup.length
  if m ≠ 0 && decide (physTotal r.coreRef < s.physUsed r.coreRef (partOf r) + need) then
    some (s.modSplit r e (fun sp => { sp with state := .blocked, wait := .phys need }))
  else none

/-- THE ISSUE OF A SLOT whose operands are read in the lanes `lanesOf` gives. A word that no split issues has no
meaning: the fault noIssuer. -/
def slotOn (s : State) (lanesOf : Group → Split → Mask) (rds : List Rd) (dsts : List Nat) (body : Ctx → SlotRes) : Out :=
  match s.cur with
  | none => .fault .noIssuer
  | some i =>
    match s.group? i.g with
    | none => .fault .noIssuer
    | some g =>
      let sp := g.split i.e
      let m := lanesOf g sp
      match issueCheck s g i.g i.e m sp.pc rds dsts with
      | some s' => .next s'
      | none =>
        let zeros := (rds.filter (fun rd => !rd.isK)).foldl (fun n rd => n + (deadLanes s g rd.n &&& m).card) 0
        let s1 := (s.modGroup i.g (fun g => applyLast s m g rds)).count i.g.coreRef 1 0x12 zeros
        let c : Ctx := { s0 := s, s := s1, g := g, sp := sp, r := i.g, e := i.e, m := m }
        .next (slotEnd c (body c))

/-- The issue of a slot with a guard: the lanes of the split's mask in which it holds take part (02 R42). -/
def slot (s : State) (gd : Guard) (rds : List Rd) (dsts : List Nat) (body : Ctx → SlotRes) : Out :=
  slotOn s (fun g sp => g.guardMask gd sp.mask) rds dsts body

/-- The guard that is always true. -/
def Guard.yes : Guard := { neg := false, idx := 7 }

/-! ### Reading operands -/

/-- The registers a source names, `w` consecutive v registers or `w` consecutive k registers. -/
def srcRds (a : Src) (w : Nat := 1) : List Rd :=
  match srcK a.opnd with
  | .v n => (List.range w).map (fun i => ⟨false, n + i, a.last, a.etrap⟩)
  | .k n => [⟨true, n, false, a.etrap⟩]
  | _ => []

/-- A k register run. -/
def kRds (a : Src) (w : Nat) : List Rd :=
  match srcK a.opnd with
  | .k n => (List.range w).map (fun i => ⟨true, n + i, false, a.etrap⟩)
  | _ => []

/-- The logical core and wave of a group (01 R17, 04 R105): 0 outside piste launches. -/
def State.logicalOf (s : State) (g : Group) : Nat × Nat :=
  let r := s.recOf g
  if r.piste then (g.blk / r.pwaves, g.blk % r.pwaves) else (0, 0)

/-- The place of a copy of the step register that a core reads (12 R364). -/
def placeOf (c : CoreRef) : Place := if c.home then .home c.die c.core else .compute c.die c.core

/-- The step register's value at a place (12 R364): the last change it has adopted; 0 at the ASID's creation. -/
def State.stepAt (s : State) (asid : Nat) (p : Place) : Word :=
  match s.steps.find? (fun x => x.asid = asid) with
  | none => 0
  | some x =>
    match x.adopted.getD p 0 with
    | 0 => 0
    | n + 1 => x.history.getD n 0

/-- A special register by its index (01 R17); per-lane registers take the lane. -/
def State.special (s : State) (g : Group) (sp : Split) (i lane : Nat) : DWord :=
  let n (x : Nat) : DWord := BitVec.ofNat 64 x
  let r := s.recOf g
  match i with
  | 0x00 => n lane
  | 0x01 => n g.gidx
  | 0x02 => n g.blk
  | 0x03 => n g.ref.core
  | 0x04 => n (quadOf g.ref.core)
  | 0x05 => n g.ref.die
  | 0x06 => n s.pkg
  | 0x07 => n s.pod
  | 0x08 => sp.mask.setWidth 64
  | 0x09 => g.sp.rmode
  | 0x0A => g.sp.seed
  | 0x0B => g.sp.draw
  | 0x0C => (s.stepAt (s.asidOf g) (placeOf g.ref.coreRef)).setWidth 64
  | 0x0D => g.sp.tcause.setWidth 64
  | 0x0E => g.sp.tpc
  | 0x0F => g.sp.gang
  | 0x20 => g.sp.pivot
  | 0x21 => g.sp.mbudget.setWidth 64
  | 0x22 => g.sp.caoff
  | 0x23 => n (s.logicalOf g).1
  | 0x24 => n (s.logicalOf g).2
  | 0x25 => g.ctl.value
  | 0x26 => g.mtl.value
  | 0x27 => g.sp.key
  | 0x28 => g.sp.kloc
  | 0x29 =>
    match g.kind with
    | .pack _ => 0
    | _ =>
      if r.stack = 0 then 0
      else
        let u := (g.ref.die * 48 + g.ref.core) * 64 + g.ref.slot + (if r.span = 2 then s.pkg * 12288 else 0)
        n (r.stack + (u * 32 + lane) * r.stksz)
  | k => if 0x10 ≤ k && k < 0x20 then g.sp.tc.getD (k - 0x10) 0 else 0

/-- The F32 pattern of floating constant i (02 R48). -/
def fltConst (i : Nat) : Nat :=
  [0x3F000000, 0xBF000000, 0x3F800000, 0xBF800000, 0x40000000, 0xC0000000, 0x40800000, 0xC0800000].getD i 0

/-- The half-word of floating constant i in a 16-bit format (02 R48). -/
def fltHalf (f16 : Bool) (i : Nat) : Nat :=
  let base := (if f16 then [0x3800, 0x3C00, 0x4000, 0x4400] else [0x3F00, 0x3F80, 0x4000, 0x4080]).getD (i / 2) 0
  base + (if i % 2 = 1 then 0x8000 else 0)

/-- A k register's value at issue. -/
def Ctx.k (c : Ctx) (n : Nat) : DWord := (c.g.kreg n).val

/-- A v register's word in a lane, as read at issue. -/
def Ctx.v (c : Ctx) (n l : Nat) : Word := c.g.readLane c.s0 n l

/-- A 32-bit source operand in a lane (02 R48), constants by the type of the instruction. `%emask` is that of the issuing split,
in every lane of a cross-lane slot (log 44). -/
def Ctx.w (c : Ctx) (ty : Ty) (a : Src) (l : Nat) : Word :=
  match srcK a.opnd with
  | .v n => c.v n l
  | .k n => (c.k n).lo
  | .lane => BitVec.ofNat 32 l
  | .zero => 0
  | .ones => 0xFFFFFFFF
  | .special i => (c.s0.special c.g c.sp i l).lo
  | .emask => c.sp.mask
  | .int n => BitVec.ofNat 32 (if ty.packed then n + n * 2 ^ 16 else n)
  | .flt i =>
    match ty with
    | .f16x2 => BitVec.ofNat 32 (fltHalf true i * (2 ^ 16 + 1))
    | .bf16x2 => BitVec.ofNat 32 (fltHalf false i * (2 ^ 16 + 1))
    | _ => BitVec.ofNat 32 (fltConst i)
  | .reserved => 0

/-- A 64-bit source operand in a lane: a v pair, all of a k register, or a zero-extended value (02 R48). -/
def Ctx.w64 (c : Ctx) (a : Src) (l : Nat) : DWord :=
  match srcK a.opnd with
  | .v n => pair64 (c.v n l) (c.v (n + 1) l)
  | .k n => c.k n
  | _ => (c.w .b32 a l).setWidth 64

/-- A uniform operand (05 R128). -/
def Ctx.u (c : Ctx) (a : Src) : DWord :=
  match srcK a.opnd with
  | .k n => c.k n
  | .special i => if i = 2 then BitVec.ofNat 64 (c.g.blk % 2 ^ 32) else c.s0.special c.g c.sp i 0
  | _ => (c.w .b32 a 0).setWidth 64

/-- The predicate of a code (05 R155) as a set of lanes. -/
def Ctx.pcode (c : Ctx) (n : Nat) : Mask :=
  if n < 8 then c.g.pred n else if c.g.qs.getD (n - 8) false then Mask.all else 0

/-! ### Writing results -/

/-- A v register written in lanes by the slot (05 R124, 01 R16), counting a mailbox overwritten while full. -/
def Ctx.putV (c : Ctx) (s : State) (n : Nat) (m : Mask) (f : Nat → Word) : State :=
  let lost := c.s0.isMbox c.g n && m != 0 && (match s.group? c.r with | some g => (g.vreg n).full | none => false)
  let s1 := (s.modGroup c.r (fun g => g.writeV n m f)).count c.r.coreRef 1 0x16 (if lost then 1 else 0)
  if c.s0.isMbox c.g n then s1.watch else s1

/-- A k register written by the slot. -/
def Ctx.putK (c : Ctx) (s : State) (n : Nat) (x : DWord) : State := s.modGroup c.r (fun g => g.writeK n x)

/-- A k register whose value the slot's reply brings: empty from its issue on, so that a later producer supersedes it and a
later reader waits (01 R29, 05 R119); the split knows the reply by its number. -/
def Ctx.awaitK (c : Ctx) (s : State) (n : Nat) : Waiter × State :=
  let (id, s1) := s.fresh
  (⟨c.r, c.e, n, id⟩, s1.modGroup c.r (fun g => (g.markK n id).modSplit c.e (fun sp => { sp with prog := some id })))

/-- A v pair written in lanes by the slot. -/
def Ctx.putV64 (c : Ctx) (s : State) (n : Nat) (m : Mask) (f : Nat → DWord) : State :=
  c.putV (c.putV s n m (fun l => (f l).lo)) (n + 1) m (fun l => (f l).hi)

/-- A p or q destination written with a set of lanes: p in the given lanes, q true when the value holds. -/
def Ctx.putPred (c : Ctx) (s : State) (d : BitVec 9) (m v : Mask) : State :=
  match dstK d with
  | .p n => s.modGroup c.r (fun g => g.writeP n m v)
  | .q n => s.modGroup c.r (fun g => g.writeQ n (v != 0))
  | _ => s

/-- The special registers of the issuing group changed. -/
def Ctx.modSp (c : Ctx) (s : State) (f : Specials → Specials) : State :=
  s.modGroup c.r (fun g => { g with sp := f g.sp })

/-! ### Synchronising slots (05 R120) -/

/-- A split stands at this slot of this clause. -/
def Split.atSlot (sp : Split) (hdr slot : Nat) : Bool := sp.state != .free && sp.hdr == hdr && sp.slot == slot

/-- The splits of a group HELD at the slot, the issuing one included. -/
def Group.syncers (g : Group) (e : Nat) : List Nat :=
  let me := g.split e
  (List.range 8).filter (fun i => i = e ||
    ((g.split i).atSlot me.hdr me.slot && (g.split i).state = .held && (g.split i).wait = .syncSlot))

/-- Every non-exited lane of the group has reached the slot. -/
def Group.allReached (g : Group) (e : Nat) : Bool :=
  ((g.syncers e).foldl (fun m i => m ||| (g.split i).mask) 0) ||| g.exited == Mask.all

/-- The splits held at the slot that share a JREF merge into the lowest of their entries (05 R120). -/
def Group.mergeSync (g : Group) (e : Nat) : Group :=
  let es := g.syncers e
  es.foldl (fun g i =>
    match es.find? (fun j => j < i && (g.split j).state != .free && (g.split j).jref = (g.split i).jref) with
    | none => g
    | some j =>
      let x := g.split i
      (g.modSplit j (fun y => { y with mask := y.mask ||| x.mask, dorm := y.dorm ||| x.dorm })).modSplit i
        (fun _ => Split.free)) g

/-- A synchronising slot: the split is HELD until every non-exited lane has reached it; then `act` is performed once.
Its answer is the state with the effect, and whether the splits complete the slot or stay with progress p. The L bits of
the slot take effect when it is performed. -/
def Ctx.syncAny (c : Ctx) (act : State → (Cause × Nat) ⊕ (State × Option Nat) ⊕ State) : SlotRes :=
  if c.g.inHandler c.e then .trap .illop 3
  else if c.g.allReached c.e then
    match act c.s with
    | .inl (ca, d) => .trap ca d
    | .inr (.inr _) => .held c.s0 .syncSlot
    | .inr (.inl (s, p)) =>
      let es := c.g.syncers c.e
      let all (f : Group → Nat → Group) : State := s.modReady c.r (fun g =>
        es.foldl (fun g i => if (g.split i).state = .free then g else f g i) (g.mergeSync c.e))
      match p with
      | none => .done (all (fun g i => g.finish i))
      | some ph => .stay (all (fun g i => g.modSplit i (fun sp => { sp with state := .blocked, wait := .retest, prog := some ph })))
  else .held c.s0 .syncSlot

/-- The group is a census responder (13 R384). -/
def Group.isResponder (g : Group) : Bool := match g.kind with | .responder .. => true | _ => false

/-- The group is a pack wave (12 R353). -/
def Group.isPack (g : Group) : Bool := match g.kind with | .pack _ => true | _ => false

/-- A synchronising slot other than RSP: in a responder it raises ILLOP with DETAIL 0x0003 (13 R385). -/
def Ctx.sync (c : Ctx) (act : State → (Cause × Nat) ⊕ (State × Option Nat) ⊕ State) : SlotRes :=
  if c.g.isResponder then .trap .illop 3 else c.syncAny act

end Sys2Proof.Machine
end

