-- ==== Sys2Proof/Machine/Faults.lean ====
section
/-! DEFINITION. The fault queue (14 R410, R411), the module table and the instruction caches (05 R143 to R145). -/

namespace Sys2Proof.Machine

open Sys2Proof

/-! ### Fault records -/

/-- Bytes written at an ASID 0 virtual address: through to memory, since FQBASE lies on a gather-direct page
(14 R410). -/
def State.sysWrite (s : State) (va : Nat) (bs : List Byte) : State := s.homeWrite 0 0 va bs

/-- TAIL of the fault queue (14 R410). -/
def State.fqTail (s : State) : Nat := (s.homeRead64 0 0 s.regs.fqbase.toNat).toNat

/-- The fault queue has room (14 R410). -/
def State.fqRoom (s : State) : Bool := decide (s.fqTail - s.regs.fqhead.toNat < 4096)

/-- A record written at TAIL, and TAIL advanced as a release (14 R410, R411). The fault queue's ASID 0 page must be
mapped for the words to land. -/
def State.fqPut (s : State) (w0 w1 w2 w3 : Nat) : State :=
  let t := s.fqTail
  let at_ := s.regs.fqbase.toNat + 0x80 + 32 * (t % 4096)
  let s1 := s.sysWrite at_ (natToBytes 8 w0 ++ natToBytes 8 w1 ++ natToBytes 8 w2 ++ natToBytes 8 w3)
  s1.sysWrite s1.regs.fqbase.toNat (natToBytes 8 (t + 1))

/-- The lowest free fault identifier from the next one on (14 R411, log 11). -/
def State.pickFid (s : State) : Nat :=
  let used (f : Nat) : Bool := s.faults.any (fun x => x.fid = f)
  let cands := (List.range 65535).map (fun i => (s.nextFid - 1 + i) % 65535 + 1)
  (cands.find? (fun f => !used f)).getD 1

/-- The die of a requester; an engine's is in SRC (14 R411). -/
def Requester.die (w : Requester) (src : Nat) : Nat :=
  match w with
  | .parked g _ | .fetch g _ => g.die
  | .chunk q => q.c.die
  | .matOp c _ => c.die
  | .pcol _ | .engine => src / 2 ^ 6 % 4

/-- FAULT_RECORD (14 R411, R412): a fault joins an unanswered record of the same address space, 64 KiB page and kind, or
writes one. None while the queue has no room: the request waits at its controller. -/
def State.recordFault (s : State) (asid va kind : Nat) (entry : DWord) (level sclass src : Nat) (who : Requester) :
    Option State :=
  let page := va / 2 ^ 16
  if kind = 8 then none
  else
  match s.faults.find? (fun f => f.asid = asid && f.page = page && f.kind = kind) with
  | some f =>
    if f.joined.contains who then some s
    else
      let s1 : State := { s with faults := s.faults.map (fun (x : FaultRec) =>
        if x.fid = f.fid then { x with joined := x.joined ++ [who] } else x) }
      some (s1.countPort (who.die src) 3)
  | none =>
    if !s.fqRoom then none
    else
      let fid := s.pickFid
      let s1 := s.fqPut (va % 2 ^ 56) (asid * 2 ^ 52 + kind * 2 ^ 48 + fid * 2 ^ 32 + sclass * 2 ^ 30 + src) entry.toNat level
      let s2 : State := { s1 with faults := s1.faults ++ [⟨fid, asid, page, kind, [who]⟩], nextFid := fid % 65535 + 1 }
      some (s2.countPort (who.die src) 2)

/-- SRC of a record of an engine at a core: die and core (14 R411). -/
def engineSrc (c : CoreRef) : Nat := c.die * 2 ^ 6 + c.core

/-- Bits [31:12] of the requester word (12 R349), which SRC holds in [29:10] for a group (14 R411). -/
def requesterHi (g : GRef) (lane : Nat) : Nat :=
  g.die * 2 ^ 18 + (if g.home then 2 ^ 17 else 0) + g.core * 2 ^ 11 + g.slot * 2 ^ 5 + lane

/-- The first byte of a range that an engine cannot reach (store: for writing), with its fault. -/
def State.rangeFault (s : State) (die asid va n : Nat) (store : Bool) : Option (Nat × Nat × DWord × Nat) :=
  let tries := va :: ((List.range (n / 2 ^ 16 + 2)).map (fun i => (va / 2 ^ 16 + 1 + i) * 2 ^ 16)).filter (· < va + n)
  tries.findSome? (fun a =>
    match s.xlate die asid a with
    | .fault k e l => some (a, k, e, l)
    | .ok x => if store && !leafW x.leaf then some (a, 2, x.leaf, x.level) else none)

/-- An engine's access waits for its pages: the fault is recorded in SCLASS 11, or none is found. -/
def State.engineFault (s : State) (c : CoreRef) (asid va n : Nat) (store : Bool) : Option State :=
  match s.rangeFault c.die asid va n store with
  | none => none
  | some (a, k, e, l) => some ((s.recordFault asid a k e l 3 (engineSrc c) .engine).getD s)

/-! ### Code modules (05 R145) -/

/-- A module table entry: valid, base, length. -/
structure ModEnt where
  valid : Bool
  base : Nat
  len : Nat
  deriving DecidableEq, Repr, Inhabited

/-- The address of a module table entry: where its MODL put it, else by MODTAB (05 R145, R148). -/
def State.modEntAddr (s : State) (asid idx : Nat) : Nat :=
  (match s.modAt.get? (asid, idx) with | some x => x.tab | none => s.modTab.toNat) + asid * 0x1000 + 16 * idx

/-- A module table entry, read through ASID 0's translation (05 R148). -/
def State.modEnt (s : State) (die asid idx : Nat) : ModEnt :=
  let a := s.modEntAddr asid idx
  let w0 := (s.homeRead64 die 0 a).toNat
  let w1 := (s.homeRead64 die 0 (a + 8)).toNat
  { valid := bits w0 63 63 == 1, base := bits w0 55 0, len := bits w1 31 0 }

/-- A module table entry written: what MODL installs goes to the table that MODTAB names (05 R148). -/
def State.putModEnt (s : State) (die asid idx : Nat) (m : ModEnt) : State :=
  s.homeWrite die 0 (s.modEntAddr asid idx)
    (natToBytes 8 ((if m.valid then 2 ^ 63 else 0) + m.base) ++ natToBytes 8 m.len)

/-- The installed module of an address space that holds an address (05 R143). -/
def State.moduleAt (s : State) (die asid va : Nat) : Option ModEnt :=
  ((List.range 256).map (fun i => s.modEnt die asid i)).find? (fun m => m.valid && m.base ≤ va && va < m.base + m.len)

/-- Some byte of an address's line lies in an installed module of the address space (05 R143, R165). -/
def State.lineInModule (s : State) (die asid va : Nat) : Bool :=
  (List.range 256).any (fun i => let m := s.modEnt die asid i; m.valid && meet m.base m.len (va / 128 * 128) 128)

/-! ### Instruction caches (05 R143) -/

/-- Lines of L0: 16 KiB per partition of a core, 8 KiB of a home core (12 R342). -/
def l0Lines (c : CoreRef) : Nat := if c.home then 64 else 128

/-- The line of an address held by an instruction cache. -/
def icFind (ls : List ILine) (asid va : Nat) : Option ILine := ls.find? (fun l => l.asid = asid && l.line = va / 128)

/-- A line filled into an instruction cache of a capacity; the oldest line leaves (log 18). -/
def icPut (ls : List ILine) (cap : Nat) (l : ILine) : List ILine :=
  (l :: ls.filter (fun x => !(x.asid = l.asid && x.line = l.line))).take cap

/-- The quad whose L2 a core fetches through: a home core uses that of the core above (12 R342). -/
def icQuad (c : CoreRef) : Nat × Nat := (c.die, quadOf c.core)

/-- A code line as a fetch that misses every cache finds it: what memory holds, or what it held at some time since the module
was installed; the choice is free (05 R144, log 99). -/
def State.codeLine (s : State) (c : CoreRef) (asid va : Nat) : ILine :=
  let l := va / 128
  let now := s.codeWords c.die asid l
  let old := s.codeHist.getD (s.codeKey c.die asid va) []
  { asid := asid, line := l, words := if old.isEmpty then now else (now :: old).getD (Config.freePick s.tick % (old.length + 1)) now }

/-- The line of an address as the nearest level that holds it gives it, else as memory does (05 R143, R144). -/
def State.icLine (s : State) (c : CoreRef) (asid va : Nat) : ILine :=
  match icFind (s.icL1.getD c []) asid va with
  | some l => l
  | none =>
    match icFind (s.icL2.getD (icQuad c) []) asid va with
    | some l => l
    | none => s.codeLine c asid va

/-- A line on its way to a level fills each level that it missed: the quad's L2, the core's L1 (a home core has none), the
partition's L0 (05 R143). -/
def State.icFill (s : State) (c : CoreRef) (p : Nat) (asid va : Nat) (upTo : Nat) : State :=
  let l := s.icLine c asid va
  let q := icQuad c
  let miss (ls : List ILine) : Bool := (icFind ls asid va).isNone
  let miss1 := miss (s.icL1.getD c [])
  let s1 := if miss (s.icL2.getD q []) && (miss1 || 1 < upTo) then
      { s with icL2 := s.icL2.set q (icPut (s.icL2.getD q []) 8192 l) } else s
  let s2 := if upTo ≤ 1 && !c.home && miss1 then { s1 with icL1 := s1.icL1.set c (icPut (s1.icL1.getD c []) 1024 l) } else s1
  if upTo = 0 && miss (s2.icL0.getD (c, p) []) then
    { s2 with icL0 := s2.icL0.set (c, p) (icPut (s2.icL0.getD (c, p) []) (l0Lines c) l) } else s2

/-- A code line is requested for a partition unless it is there or on its way, or lies in no installed module
(05 R143). -/
def State.requestLine (s : State) (c : CoreRef) (p asid va : Nat) : State :=
  let here := (icFind (s.icL0.getD (c, p) []) asid va).isSome ||
    s.ifills.any (fun f => f.c = c && f.p = p && f.asid = asid && f.line = va / 128)
  if here || !s.lineInModule c.die asid va then s
  else { s with nextId := s.nextId + 1, ifills := s.ifills ++ [⟨s.nextId, c, p, asid, va / 128⟩] }

/-- The code of a range leaves every instruction cache of the package (05 R166). -/
def State.icInvalidate (s : State) (asid base len : Nat) : State :=
  let keep (l : ILine) : Bool := !(l.asid = asid && decide (base < (l.line + 1) * 128) && decide (l.line * 128 < base + len))
  { s with
    icL0 := s.icL0.map (fun x => (x.1, x.2.filter keep)),
    icL1 := s.icL1.map (fun x => (x.1, x.2.filter keep)),
    icL2 := s.icL2.map (fun x => (x.1, x.2.filter keep)) }

end Sys2Proof.Machine
end

