-- ==== Sys2Proof/Machine/Flags.lean ====
section
/-! DEFINITION. Conditions and comparisons. The machine keeps no arithmetic or floating-point flags (05 R128, 06 R179);
these tests write predicates and masks. -/

namespace Sys2Proof.Machine

open Sys2Proof

/-- A relation by code: eq ne lt le gt ge. -/
def relOf (cc : Nat) (o : Ordering) : Bool :=
  match cc with
  | 0 => o == .eq | 1 => o != .eq | 2 => o == .lt | 3 => o != .gt | 4 => o == .gt | _ => o != .lt

/-- KCMP (05 R160): codes 0-5 signed, 6-9 unsigned lt le gt ge. -/
def kcmp (cc : Nat) (a b : DWord) : Bool :=
  if cc < 6 then relOf cc (compare a.toInt b.toInt) else relOf (cc - 4) (compare a.toNat b.toNat)

/-- ICMP of two w-bit patterns (06 R188). -/
def icmp (signed : Bool) (w cc a b : Nat) : Bool :=
  relOf cc (if signed then compare (sInt w a) (sInt w b) else compare a b)

/-- FCMP of two patterns (06 R192). -/
def fcmp (f : Fmt) (cc a b : Nat) : Bool :=
  let x := decodeF f a; let y := decodeF f b
  let un := x.isNan || y.isNan
  match cc with
  | 6 => !un
  | 7 => un
  | 1 => un || relOf 1 (x.cmp y)
  | 8 => un || relOf 0 (x.cmp y)
  | n => if n < 6 then !un && relOf n (x.cmp y) else un || relOf (n - 7) (x.cmp y)

/-- The class mask of FCLS (06 R193). -/
def fclass (f : Fmt) (x : Nat) : Nat :=
  match decodeF f x with
  | .nan => if bits x (f.mbits - 1) (f.mbits - 1) = 0 then 1 else 2
  | .inf n => if n then 4 else 512
  | .zero n => if n then 32 else 64
  | .num n m _ _ =>
    let normal := decide (2 ^ f.mbits ≤ m)
    if n then (if normal then 8 else 16) else if normal then 256 else 128

/-- A bitwise table of three inputs (05 R159, 06 R186): result bit i is lut[4a + 2b + c]. -/
def lut3 {w : Nat} (lut : Nat) (a b c : BitVec w) : BitVec w :=
  let term (n : Nat) (x : BitVec w) : BitVec w := if lut.testBit n then x else 0
  term 0 (~~~a &&& ~~~b &&& ~~~c) ||| term 1 (~~~a &&& ~~~b &&& c) ||| term 2 (~~~a &&& b &&& ~~~c) |||
  term 3 (~~~a &&& b &&& c) ||| term 4 (a &&& ~~~b &&& ~~~c) ||| term 5 (a &&& ~~~b &&& c) |||
  term 6 (a &&& b &&& ~~~c) ||| term 7 (a &&& b &&& c)

end Sys2Proof.Machine
end

