-- ==== Sys2Proof/Machine/Sequencer.lean ====
section
/-! DEFINITION. The group sequencer's control, mask, predicate and uniform instructions (05 R149 to R163). -/

namespace Sys2Proof.Machine

open Sys2Proof

/-! ### Accesses of a group that are not yet performed -/

/-- Every access of the group is performed, and what it wrote has reached its point of order or its mailbox (03 R66, R72):
write-throughs of a quad unit, writes that a migration holds and messages are no longer on their way. -/
def State.groupDrained (s : State) (r : GRef) : Bool :=
  s.ops.all (fun o => o.g != r || o.kind == .maint || o.kind == .waita || o.lanes.all LaneAcc.isDone) &&
  s.mbox.all (fun w => w.src != r) && s.quadWrites.all (fun w => w.g != r) &&
  s.migrs.all (fun m => m.held.all (fun h => !h.src.any (fun x => match x with | .lane g _ => g == r | _ => false)))

/-! ### Control -/

/-- NOP (05 R149) has no effect. -/
def execNop (o : OpS) (s : State) : Out := slot s o.g [] [] (fun c => .ok c.s)

/-- YIELD (05 R149): the partition starts another ready group's clause first (04 R101). -/
def execYield (o : OpS) (s : State) : Out :=
  slot s o.g [] [] (fun c =>
    let k := (c.r.coreRef, partOf c.r)
    .ok { c.s with sched := c.s.sched.set k { c.s.sched.getD k default with yield := some c.r.slot } })

/-- GSYNC (05 R149): release and acquire at core scope over all memory; at that scope the earlier accesses are performed and
nothing is invalidated (03 R66, R72). -/
def execGsync (o : OpS) (s : State) : Out :=
  slot s o.g [] [] (fun c => c.sync (fun s =>
    if s.groupDrained c.r then .inr (.inl (s, none)) else .inr (.inr s)))

/-- DIVERGE (05 R116): taken lanes t and the others of the split part at a join record, or are serialised. -/
def diverge (c : Ctx) (s : State) (t n : Mask) (tgt next : Nat) (j : Option Nat) : SlotRes :=
  match j with
  | none => .trap .illop 1
  | some jaddr =>
    let inH := c.g.inHandler c.e
    let recs := if !inH then List.range 14 else if c.g.depth = 1 then [14] else [15]
    match recs.find? (fun r => match c.g.joins[r]? with | some x => !x.valid | none => false) with
    | none => .trap .illop 2
    | some r =>
      let es := if !inH then List.range 8 else if c.g.depth = 1 then [9] else []
      let sp := c.sp
      let jr : Join := { mask := sp.mask ||| sp.dorm, arrived := sp.dorm, valid := true, outer := sp.jref, defer := false,
                         j := jaddr % 2 ^ 56, dmask := 0, dpc := 0 }
      match c.g.freeEntry es with
      | some e =>
        let s1 := s.modGroup c.r (fun g =>
          let g1 := { g with joins := modNth g.joins r (fun _ => jr) }
          let g2 := g1.modSplit e (fun _ => Split.start t 0 r (tgt % 2 ^ 56) 0 s.nextId)
          (((g2.modSplit c.e (fun sp => { sp.goto next with mask := n, dorm := 0, jref := r })).holdAtEnd c.e).holdAtEnd e))
        .done (s1.count c.r.coreRef 1 0x0D)
      | none =>
        let jd := { jr with defer := true, dmask := n, dpc := next % 2 ^ 56 }
        let s1 := s.modGroup c.r (fun g =>
          let g1 := { g with joins := modNth g.joins r (fun _ => jd) }
          (g1.modSplit c.e (fun sp => { sp.goto tgt with mask := t, dorm := 0, jref := r })).holdAtEnd c.e)
        .done ((s1.count c.r.coreRef 1 0x0B).count c.r.coreRef 1 0x0D)

/-- The effect of a branch (05 R150); a call writes k63 when some lane takes it (R151). A literal word is a slot issued with the
branch's own (R147). -/
def branch (o : OpB) (off : Int) (isCall : Bool) (lits : Nat) (s : State) : Out :=
  slot s Guard.yes [] [] (fun c0 =>
    let c := { c0 with s := c0.s.count c0.r.coreRef 1 1 lits }
    let pc := c.sp.pc
    let m := c.sp.mask
    let next := c.sp.nextHdr
    let tgt := (((pc : Int) + off) % (2 ^ 64 : Nat)).toNat
    let j : Option Nat := if o.joff = 0 then none else some (((pc : Int) + 8 * o.joff.toInt) % (2 ^ 64 : Nat)).toNat
    let t : Mask :=
      if o.qen then (if c.g.qs.getD o.qidx.toNat false then m else 0)
      else if o.uni then (if (c.g.guardMask o.g m).has m.lowest then m else 0)
      else c.g.guardMask o.g m
    let n := m &&& ~~~t
    if t = 0 then .jump c.s next
    else if tgt % 8 ≠ 0 then .trap .misalign 0
    else
      let s1 := if isCall then c.putK c.s 63 (BitVec.ofNat 64 next) else c.s
      if n = 0 then .jump s1 tgt else diverge c s1 t n tgt next j)

/-- BRA (05 R150). -/
def execBra (o : OpB) (s : State) : Out := branch o (8 * o.toff.toInt) false 0 s
/-- BRX (05 R150): the literal is a signed byte offset. -/
def execBrx (o : OpBL) (s : State) : Out := branch o.b o.lit.toInt false 1 s
/-- CALL (05 R151). -/
def execCall (o : OpB) (s : State) : Out := branch o (8 * o.toff.toInt) true 0 s
/-- CALLX (05 R151). -/
def execCallx (o : OpBL) (s : State) : Out := branch o.b o.lit.toInt true 1 s

/-- A transfer of the whole split to a header in a k register (05 R152). -/
def jumpK (n : Nat) (etrap : Bool) (s : State) : Out :=
  slot s Guard.yes [⟨true, n, false, etrap⟩] [] (fun c =>
    let tgt := (c.k n).toNat
    if tgt % 8 ≠ 0 then .trap .misalign 0 else .jump c.s tgt)

/-- RET (05 R152). -/
def execRet (_o : OpS) (s : State) : Out := jumpK 63 false s
/-- JMPK (05 R152). -/
def execJmpk (o : OpS) (s : State) : Out := jumpK o.a.kNum o.a.etrap s

/-- Registers whose every live lane is dead are freed (05 R125). -/
def Group.freeDead (g : Group) : Group :=
  { g with vregs := g.vregs.map (fun x =>
      if x.2.mapped && (x.2.dead ||| g.exited) == Mask.all then (x.1, x.2.freed) else x) }

/-- Whether a responder or a pack wave may still exit: after its RSP or its CMBR (13 R385, 12 R355). -/
def mayExit (s : State) (g : Group) : Bool :=
  match g.kind with
  | .ordinary => true
  | .responder _ _ done => done
  | .pack id => match s.packs.find? (fun p => p.id = id) with | some p => p.committed | none => true

/-- EXIT (05 R153): the lanes of the split whose guard holds end (R118); the group ends with its last lane. -/
def execExit (o : OpS) (s : State) : Out :=
  slot s o.g [] [] (fun c =>
    if c.g.inHandler c.e || (c.m ≠ 0 && !mayExit c.s0 c.g) then .trap .illop 3
    else if c.m = 0 then .jump c.s c.sp.nextHdr
    else
      let rest := c.sp.mask &&& ~~~c.m
      let s1 := c.s.modGroup c.r (fun g =>
        let g1 := (g.exitLanes c.m c.s.nextId).freeDead
        let g2 := if rest = 0 then g1 else g1.jump c.e c.sp.nextHdr
        (List.range 8).foldl (fun g e => g.holdAtEnd e) g2)
      match s1.group? c.r with
      | some g => if g.exited = Mask.all then .done (s1.groupEnd c.r) else .done s1
      | none => .done s1)

/-- MASKR (05 R154). -/
def execMaskr (o : OpS) (s : State) : Out :=
  slot s o.g [] [] (fun c =>
    let m := match o.sub.toNat with
      | 0 => c.sp.mask | 1 => c.sp.dorm | 2 => c.g.parkedMask | _ => c.g.exited
    .ok (c.putK c.s (dstNum o.d) (m.setWidth 64)))

/-- MASKW (05 R154, R122). -/
def execMaskw (o : OpS) (s : State) : Out :=
  slot s o.g (srcRds o.a) [] (fun c =>
    let w := (c.k o.a.kNum).lo
    let m := c.sp.mask &&& w
    if m = 0 then .trap .maskself 0
    else .ok (c.s.modSplit c.r c.e (fun sp => { sp with mask := m, dorm := sp.dorm ||| (c.sp.mask &&& ~~~w) })))

/-- VOTE (05 R155). -/
def execVote (o : OpR) (s : State) : Out :=
  slot s o.g [] (if isVDst o.d then [dstNum o.d] else []) (fun c =>
    let p := c.pcode o.a.opnd.toNat
    let p := (if mbit o.m 3 then ~~~p else p) &&& c.sp.mask
    let all := p == c.sp.mask
    match mfield o.m 2 1 with
    | 0 =>
      if isVDst o.d then .ok (c.putV c.s (dstNum o.d) c.m (fun _ => p))
      else .ok (c.putK c.s (dstNum o.d) (p.setWidth 64))
    | 1 => .ok (c.putPred c.s o.d c.m (if all then Mask.all else 0))
    | 2 => .ok (c.putPred c.s o.d c.m (if p != 0 then Mask.all else 0))
    | _ => .ok (c.putPred c.s o.d c.m (if all || p == 0 then Mask.all else 0)))

/-- PLOP (05 R156): a q destination is computed once. -/
def execPlop (o : OpR) (s : State) : Out :=
  slot s o.g [] [] (fun c =>
    let x := lut3 (mfield o.m 8 1) (c.pcode o.a.opnd.toNat) (c.pcode o.b.opnd.toNat) (c.pcode o.c.opnd.toNat)
    .ok (c.putPred c.s o.d c.m x))

/-- The lanes in which a register's value has landed (05 R157): dead and unmapped registers count as full. -/
def landedLanes (s : State) (g : Group) (a : Src) : Mask :=
  match srcK a.opnd with
  | .v n =>
    if s.isMbox g n then (if (g.vreg n).full then Mask.all else 0)
    else ~~~((g.vreg n).pending &&& ~~~(deadLanes s g n))
  | .k n => if (g.kreg n).full then Mask.all else 0
  | _ => Mask.all

/-- CHKF (05 R157). -/
def execChkf (o : OpS) (s : State) : Out :=
  slot s o.g [] [] (fun c =>
    let f := landedLanes c.s0 c.g o.a
    if isQDst o.d then .ok (c.putPred c.s o.d c.m (if c.sp.mask &&& ~~~f = 0 then Mask.all else 0))
    else .ok (c.putPred c.s o.d c.m f))

/-- WAITF (05 R157). -/
def execWaitf (o : OpS) (s : State) : Out :=
  slot s o.g [] [] (fun c =>
    if c.sp.mask &&& ~~~(landedLanes c.s0 c.g o.a) = 0 then .ok c.s
    else match srcK o.a.opnd with
      | .k n => .block c.s (.empty true n c.sp.mask)
      | _ => .block c.s (.empty false o.a.vNum c.sp.mask))

/-! ### Uniform instructions (05 R158 to R162) -/

/-- Operand B of a uniform R/I word (02 R51). -/
def Ctx.ub (c : Ctx) (o : OpRI) : DWord :=
  match o.bsrc with | some b => c.u b | none => o.imm.signExtend 64

/-- The registers of a two-source uniform word. -/
def uniRds (o : OpRI) : List Rd :=
  srcRds o.a ++ (match o.bsrc with | some b => srcRds b | none => [])

/-- A two-source uniform operation into a k register. -/
def uni2 (o : OpRI) (f : DWord → DWord → DWord) (s : State) : Out :=
  slot s o.g (uniRds o) [] (fun c => .ok (c.putK c.s (dstNum o.d) (f (c.u o.a) (c.ub o))))

/-- A three-source uniform operation into a k register. -/
def uni3 (o : OpR) (f : DWord → DWord → DWord → DWord) (s : State) : Out :=
  slot s o.g (srcRds o.a ++ srcRds o.b ++ srcRds o.c) [] (fun c =>
    .ok (c.putK c.s (dstNum o.d) (f (c.u o.a) (c.u o.b) (c.u o.c))))

/-- KMOV (05 R158). -/
def execKmov (o : OpR) (s : State) : Out :=
  slot s o.g (srcRds o.a) [] (fun c => .ok (c.putK c.s (dstNum o.d) (c.u o.a)))
/-- KMOVI (05 R158). -/
def execKmovi (o : OpW) (s : State) : Out :=
  slot s o.g [] [] (fun c => .ok (c.putK c.s (dstNum o.d) (o.imm.signExtend 64)))
/-- KLIT (05 R158). -/
def execKlit (o : OpWL) (s : State) : Out :=
  slot s o.w.g [] [] (fun c => .ok2 (c.putK c.s (dstNum o.w.d) o.lit))
/-- KADD (05 R159). -/
def execKadd (o : OpRI) (s : State) : Out := uni2 o (fun a b => a + b) s
/-- KSUB (05 R159). -/
def execKsub (o : OpRI) (s : State) : Out := uni2 o (fun a b => a - b) s
/-- KMUL (05 R159). -/
def execKmul (o : OpRI) (s : State) : Out := uni2 o (fun a b => a * b) s
/-- KMAD (05 R159). -/
def execKmad (o : OpR) (s : State) : Out := uni3 o (fun a b c => a * b + c) s
/-- KSHL (05 R159). -/
def execKshl (o : OpRI) (s : State) : Out := uni2 o (fun a b => if b.toNat < 64 then a <<< b.toNat else 0) s
/-- KSHR (05 R159). -/
def execKshr (o : OpRI) (s : State) : Out :=
  uni2 o (fun a b => if mbit o.m 1 then a.sshiftRight (min b.toNat 63) else if b.toNat < 64 then a >>> b.toNat else 0) s
/-- KLOP (05 R159). -/
def execKlop (o : OpR) (s : State) : Out := uni3 o (fun a b c => lut3 (mfield o.m 8 1) a b c) s
/-- KMNX (05 R159). -/
def execKmnx (o : OpRI) (s : State) : Out :=
  uni2 o (fun a b => match mfield o.m 2 1 with
    | 0 => if b.slt a then b else a
    | 1 => if a.slt b then b else a
    | 2 => if b.ult a then b else a
    | _ => if a.ult b then b else a) s

/-- KCMP (05 R160). -/
def execKcmp (o : OpRI) (s : State) : Out :=
  slot s o.g (uniRds o) [] (fun c =>
    let r := kcmp (mfield o.m 4 1) (c.u o.a) (c.ub o)
    if isQDst o.d then .ok (c.putPred c.s o.d c.m (if r then Mask.all else 0))
    else .ok (c.putK c.s (dstNum o.d) (if r then 1 else 0)))

/-- KSEL (05 R160). -/
def execKsel (o : OpR) (s : State) : Out :=
  slot s o.g (srcRds o.a ++ srcRds o.b) [] (fun c =>
    let q := c.g.qs.getD (mfield o.m 2 1) false
    let q := if mbit o.m 3 then !q else q
    .ok (c.putK c.s (dstNum o.d) (if q then c.u o.a else c.u o.b)))

/-- KRDS (05 R161, 01 R17). -/
def execKrds (o : OpS) (s : State) : Out :=
  slot s o.g [] [] (fun c =>
    let v := c.s0.special c.g c.sp o.imm.toNat 0
    let v := if o.imm.toNat = 2 then BitVec.ofNat 64 (c.g.blk % 2 ^ 32) else v
    .ok (c.putK c.s (dstNum o.d) v))

/-- A special register written (01 R17, R18, 11 R327): `%gang` changes only MFAULT, GERR and GCANCEL. `%tcause` keeps every bit
written, [15:11] and [9] too, which 05 R132 calls zero and RW (log 129). -/
def Specials.write (sp : Specials) (i : Nat) (x : DWord) : Specials :=
  match i with
  | 0x09 => { sp with rmode := x }
  | 0x0A => { sp with seed := x }
  | 0x0B => { sp with draw := x }
  | 0x0D => { sp with tcause := x.setWidth 32 }
  | 0x0E => { sp with tpc := x }
  | 0x0F => { sp with gang := (sp.gang &&& ~~~0xE00000000#64) ||| (x &&& 0xE00000000#64) }
  | 0x20 => { sp with pivot := x }
  | 0x21 => { sp with mbudget := x.setWidth 32 }
  | 0x22 => { sp with caoff := x }
  | k => if 0x10 ≤ k && k < 0x20 then { sp with tc := modNth sp.tc (k - 0x10) (fun _ => x) } else sp

/-- KWRS (05 R161). -/
def execKwrs (o : OpS) (s : State) : Out :=
  slot s o.g (srcRds o.a) [] (fun c => .ok (c.modSp c.s (fun sp => sp.write o.imm.toNat (c.k o.a.kNum))))

/-- KRDF (05 R162, R129): only the lowest lane of the split's mask is read. -/
def execKrdf (o : OpR) (s : State) : Out :=
  let n := o.a.vNum
  slotOn s (fun _ sp => (1 : Mask) <<< sp.mask.lowest) (srcRds o.a (if mbit o.m 1 then 2 else 1)) [] (fun c =>
    let l := c.sp.mask.lowest
    .ok (c.putK c.s (dstNum o.d) (if mbit o.m 1 then pair64 (c.v n l) (c.v (n + 1) l) else (c.v n l).setWidth 64)))

/-! ### Software traps (05 R163) -/

/-- A trap with a code, `%tpc` at the next header. -/
def codeTrap (o : OpS) (ca : Cause) (s : State) : Out :=
  slot s o.g [] [] (fun c => .trapAt c.s ca o.imm.toNat c.sp.nextHdr)

/-- TRAP (05 R163). -/
def execTrap (o : OpS) (s : State) : Out := codeTrap o .swtrap s
/-- BRK (05 R163). -/
def execBrk (o : OpS) (s : State) : Out := codeTrap o .brk s

end Sys2Proof.Machine
end

