-- ==== Sys2Proof/Machine/Save.lean ====
section
/-! DEFINITION. Group start (04 R99), spill images (05 R127, R142), TRET, TDONE, forced save, pre-emption and resume
(05 R134 to R141), and system registers (05 R148, R169). -/

namespace Sys2Proof.Machine

open Sys2Proof

/-! ### The state of a group at its start (04 R99) -/

/-- The mailbox registers of a launch: empty and pinned (01 R16, 04 R99); their contents are 0 (log 2). -/
def mboxStart (mbox : Nat) : AMap Nat VReg :=
  (List.range (8 * mbox)).map (fun i => (320 - 8 * mbox + i, { VReg.unmapped with mapped := true }))

/-- The k registers at a start: the given words, then 0, all full. -/
def kStart (ws : List DWord) : AMap Nat KReg :=
  (List.range 64).map (fun i => (i, { KReg.zero with val := ws.getD i 0 }))

/-- Special registers at a start (01 R17, 04 R99). -/
def spStart (r : LaunchRec) : Specials :=
  { rmode := r.rmode, seed := r.seed, draw := 0, tcause := 0, tpc := 0, gang := 0, tc := List.replicate 16 0, pivot := 0,
    mbudget := r.mbudget, caoff := 0, key := 0, kloc := 0 }

/-- A group at its start: split 0 with every lane at an entry (05 R113, 04 R99). -/
def Group.fresh (r : GRef) (kind : GKind) (phase : GPhase) (l : Launch) (blk gidx entry : Nat) (ks : List DWord)
    (now : Nat) : Group :=
  { ref := r, kind := kind, phase := phase, lid := l.lid, blk := blk, gidx := gidx,
    vregs := if kind = .ordinary then mboxStart l.lrec.mbox else [],
    kregs := kStart ks, preds := List.replicate 7 0, qs := List.replicate 4 false, sp := spStart l.lrec,
    ctl := ⟨0, 0, []⟩, mtl := ⟨0, 0, []⟩,
    splits := Split.start Mask.all 0 0x1F entry 0 now :: List.replicate 10 Split.free,
    joins := List.replicate 16 Join.free, parked := List.replicate 8 Parked.free, exited := 0, depth := 0,
    suspended := none, tpcSet := 0, tpcSet2 := 0, shadowCause := 0, shadowTpc := 0, nestEntry := 8, deep := [], cause1 := .fatalnest,
    cause2 := .fatalnest, prepend := false, preemptReq := false, uncorr := false,
    ctr := ⟨0, 0, 0, 0, 0, 0⟩, census := List.replicate 4 ⟨0, false, false, 0, 0, 0, 0, []⟩, cookie := 0, age := now,
    lastStart := now, klass := l.lrec.prio, clauses := 0, imgAt := none, fenceRel := List.replicate 32 none, engSeen := 0 }

/-! ### Whole images (05 R142) -/

/-- The code of a split state (05 R113). -/
def stateCode : SplitState → Nat
  | .free => 0 | .ready => 1 | .blocked => 2 | .held => 3 | .suspended => 4

/-- The 32 bytes of a split entry (05 R113). -/
def splitBytes (sp : Split) : List Byte :=
  natToBytes 8 (sp.mask.toNat * 2 ^ 32 + sp.dorm.toNat) ++
  natToBytes 8 (stateCode sp.state * 2 ^ 61 + sp.jref * 2 ^ 56 + sp.hdr % 2 ^ 56) ++
  natToBytes 8 (sp.slot * 2 ^ 60) ++ natToBytes 8 0

/-- The 32 bytes of a join record (05 R115). -/
def joinBytes (j : Join) : List Byte :=
  natToBytes 8 (j.mask.toNat * 2 ^ 32 + j.arrived.toNat) ++
  natToBytes 8 ((if j.valid then 2 ^ 63 else 0) + j.outer * 2 ^ 58 + (if j.defer then 2 ^ 57 else 0) + j.j % 2 ^ 56) ++
  natToBytes 8 (j.dmask.toNat * 2 ^ 32) ++ natToBytes 8 (j.dpc % 2 ^ 56)

/-- The 32 bytes of a parked set (05 R121). -/
def parkedBytes (p : Parked) : List Byte :=
  natToBytes 8 (p.mask.toNat * 2 ^ 32 + p.dorm.toNat) ++
  natToBytes 8 ((if p.valid then 2 ^ 63 else 0) + (if p.served then 2 ^ 62 else 0) + p.jref * 2 ^ 57 + p.hdr % 2 ^ 56) ++
  natToBytes 8 (p.slot * 2 ^ 60) ++ natToBytes 8 0

/-- The first word of an image (05 R142). -/
def imgHead (g : Group) (forced : Bool) : Nat :=
  2 ^ 56 + (if forced then 8 else 0) + (if g.prepend || (g.preemptReq && decide (0 < g.depth)) then 4 else 0) + g.depth

/-- Bytes 0x000 to 0x13FF of a forced image apart from the format bytes (05 R142). -/
def imgBytes (g : Group) : List Byte :=
  let w (x : DWord) : List Byte := natToBytes 8 x.toNat
  natToBytes 8 (imgHead g true) ++
  natToBytes 8 (g.shadowCause.toNat * 2 ^ 32 + g.sp.tcause.toNat) ++ w g.sp.tpc ++ w g.shadowTpc ++
  w g.sp.rmode ++ w g.sp.seed ++ w g.sp.draw ++ w g.sp.gang ++ w g.sp.pivot ++ w g.sp.caoff ++ w g.ctl.value ++
  w g.mtl.value ++ natToBytes 8 g.sp.mbudget.toNat ++
  natToBytes 8 (bytesToNat [] + (g.qs.zipIdx.foldl (fun n x => if x.1 then n + 2 ^ x.2 else n) 0)) ++
  natToBytes 8 ((List.range 64).foldl (fun n i => if (g.kreg i).full then n + 2 ^ i else n) 0) ++ w g.cookie ++
  g.sp.tc.flatMap w ++ (List.range 64).flatMap (fun i => w (g.kreg i).val) ++
  g.preds.flatMap (fun p => natToBytes 4 p.toNat) ++ natToBytes 0xE4 0 ++
  g.splits.flatMap splitBytes ++ g.joins.flatMap joinBytes ++ g.parked.flatMap parkedBytes

/-- The image of a save that begins: in the spill region that SPILLBASE names now (05 R142, R148). -/
def State.saveBegin (s : State) (g : Group) : State :=
  s.modGroup g.ref (fun g => { g with imgAt := some (s.imgNow g.ref) })

/-- A forced save writes the complete image, registers that were spilled before among it (05 R139, R142). -/
def State.saveAll (s0 : State) (g : Group) : State :=
  let s := s0.saveBegin g
  let a := s.imgAddr g.ref
  let s1 := s.homeWrite g.ref.die 0 a (imgBytes g)
  let s2 := s1.homeWrite g.ref.die 0 (a + 0x9A0) (natToBytes 0x60 0)
  let s3 := s2.homeWrite g.ref.die 0 (a + 0xA00)
    ((List.range 320).flatMap (fun n => natToBytes 4 (g.vreg n).dead.toNat))
  let s4 := s3.homeWrite g.ref.die 0 (a + 0xF00)
    ((List.range 320).flatMap (fun n => natToBytes 4 (g.vreg n).pending.toNat))
  let s5 := s4.homeWrite g.ref.die 0 (a + 0xB400) (natToBytes 0xC00 0)
  (List.range 320).foldl (fun (s : State) n => s.imgPutReg g.ref (s.isMbox g n) n (g.vreg n)) s5

/-- TDONE writes the header word, COOKIE and the declared mailbox registers (05 R138). -/
def State.saveCookie (s0 : State) (g : Group) (cookie : DWord) : State :=
  let s := s0.saveBegin g
  let a := s.imgAddr g.ref
  let s1 := s.homeWrite g.ref.die 0 a (natToBytes 8 (imgHead g false))
  let s2 := s1.homeWrite g.ref.die 0 (a + 0x78) (natToBytes 8 cookie.toNat)
  (List.range 320).foldl (fun (s : State) n =>
    if s.isMbox g n then s.imgPutReg g.ref true n (g.vreg n) else s) s2

/-- The word at an offset of an image. -/
def State.imgWord (s : State) (r : GRef) (off : Nat) : DWord := s.homeRead64 r.die 0 (s.imgAddr r + off)

/-- A HELD split of an image whose hold is over or has to be found again: one HELD for a handler which does not run, and one at a
PHA, whose phase may have completed meanwhile (05 R140, 07 R217). -/
def Split.holdOver (depth : Nat) (sp : Split) : Bool :=
  match sp.wait with | .handler => depth = 0 | .phase _ _ => true | _ => false

/-- A split entry read from its 32 bytes (05 R113): its clause is fetched again, a BLOCKED split tests its condition again (R140). -/
def splitOf (depth : Nat) (old : Split) (w0 w1 w2 : Nat) : Split :=
  let st : SplitState := match bits w1 63 61 with
    | 0 => .free | 3 => if old.holdOver depth then .ready else .held | 4 => .suspended | _ => .ready
  let same := old.hdr = bits w1 55 0 && old.slot = bits w2 63 60
  { Split.free with
    mask := BitVec.ofNat 32 (w0 / 2 ^ 32), dorm := BitVec.ofNat 32 w0, state := st, jref := bits w1 60 56,
    hdr := bits w1 55 0, slot := bits w2 63 60, wait := if st = .held then old.wait else .none,
    prog := if same then old.prog else none, replay := if same then old.replay else 0, trap := if same then old.trap else none,
    since := old.since, counted := same && old.counted, paired := same && old.paired }

/-- A join record read from its 32 bytes (05 R115). -/
def joinOf (w0 w1 w2 w3 : Nat) : Join :=
  { mask := BitVec.ofNat 32 (w0 / 2 ^ 32), arrived := BitVec.ofNat 32 w0, valid := bits w1 63 63 == 1,
    outer := bits w1 62 58, defer := bits w1 57 57 == 1, j := bits w1 55 0, dmask := BitVec.ofNat 32 (w2 / 2 ^ 32),
    dpc := bits w3 55 0 }

/-- A parked set read from its 32 bytes (05 R121). A fault served while the group was saved stays served (R141). -/
def parkedOf (old : Parked) (w0 w1 w2 : Nat) : Parked :=
  { mask := BitVec.ofNat 32 (w0 / 2 ^ 32), dorm := BitVec.ofNat 32 w0, valid := bits w1 63 63 == 1,
    served := bits w1 62 62 == 1 || old.served, refused := old.refused, jref := bits w1 61 57, hdr := bits w1 55 0,
    slot := bits w2 63 60, hdepth := old.hdepth, prod := old.prod }

/-- The v registers of an image; a code that is never written raises UNCORRECTED (05 R127). A lane that the image shows as
pending waits for its producer, that of the parked set which holds the lane, or for none that comes (05 R137, R140); a
register that is not mapped keeps its DEAD mask. -/
def State.imgRegs (s : State) (g : Group) : AMap Nat VReg × Bool :=
  let a := s.imgAddr g.ref
  let mask (off n : Nat) : Mask := BitVec.ofNat 32 (bytesToNat (s.homeRead g.ref.die 0 (a + off + 4 * n) 4))
  let parker (l : Nat) : Nat := match g.parked.find? (fun p => p.valid && p.mask.has l) with | some p => max p.prod 1 | none => 1
  (List.range 320).foldl (fun acc n =>
    match s.imgGetReg g.ref n with
    | none => (acc.1, true)
    | some v =>
      let dead := mask 0xA00 n
      let pend := mask 0xF00 n
      let old (l : Nat) : Nat := (g.vreg n).prod.getD l 0
      let prod := perLane (fun l => if !pend.has l then 0 else if old l ≠ 0 then old l else parker l)
      let r : VReg := { v with dead := dead, prod := prod, fails := (g.vreg n).fails }
      if !v.mapped && dead = 0 then acc
      else (acc.1.set n (if v.mapped then r else r.freed), acc.2)) ([], false)

/-- A forced-saved group is restored from its image, its registers all at once (05 R140, R142, log 118). A gang that was dissolved
meanwhile stays dissolved (11 R328). -/
def State.restoreAll (s : State) (g : Group) : Group :=
  let w (off : Nat) : Nat := (s.imgWord g.ref off).toNat
  let d (off : Nat) : DWord := s.imgWord g.ref off
  let vr := s.imgRegs g
  { g with
    phase := .running, vregs := vr.1, uncorr := g.uncorr || vr.2,
    prepend := bits (w 0) 2 2 == 1, depth := bits (w 0) 1 0,
    shadowCause := BitVec.ofNat 32 (w 8 / 2 ^ 32), shadowTpc := d 0x18,
    sp := { g.sp with
      tcause := BitVec.ofNat 32 (w 8), tpc := d 0x10, rmode := d 0x20, seed := d 0x28, draw := d 0x30,
      gang := if gangSize g.sp.gang = 0 then d 0x38 &&& 0x1FFFFFFFFFFFFFFF else d 0x38,
      pivot := d 0x40, caoff := d 0x48, mbudget := BitVec.ofNat 32 (w 0x60),
      tc := (List.range 16).map (fun i => d (0x80 + 8 * i)) },
    ctl := { g.ctl with value := d 0x50 }, mtl := { g.mtl with value := d 0x58 },
    qs := (List.range 4).map (fun i => (w 0x68).testBit i), cookie := d 0x78,
    kregs := (List.range 64).map (fun i => (i, { g.kreg i with val := d (0x100 + 8 * i), full := (w 0x70).testBit i })),
    preds := (List.range 7).map (fun i => BitVec.ofNat 32 (bytesToNat (s.homeRead g.ref.die 0 (s.imgAddr g.ref + 0x300 + 4 * i) 4))),
    splits := (List.range 11).map (fun i => let o := 0x400 + 32 * i; splitOf (bits (w 0) 1 0) (g.split i) (w o) (w (o + 8)) (w (o + 16))),
    joins := (List.range 16).map (fun i => let o := 0x560 + 32 * i; joinOf (w o) (w (o + 8)) (w (o + 16)) (w (o + 24))),
    parked := (List.range 8).map (fun i => let o := 0x760 + 32 * i
                parkedOf (g.parked.getD i Parked.free) (w o) (w (o + 8)) (w (o + 16))) }

/-- A group saved by TDONE starts again in its handler (05 R140): state as at group start, k0 := COOKIE, its mailbox
registers from the image, CAUSE PREEMPT with RESUME = 1 and `%tpc` 0. -/
def State.restoreCookie (s : State) (g : Group) (l : Launch) : Group :=
  let f := Group.fresh g.ref .ordinary .running l g.blk g.gidx 0 [] s.nextId
  let kval (i : Nat) : DWord :=
    if i = 0 then s.imgWord g.ref 0x78
    else if i < 16 && l.lrec.kargs ≠ 0 then s.homeRead64 g.ref.die l.lrec.asid (l.lrec.kargs + 8 * i)
    else 0
  let ks := (List.range 64).map (fun i => (i, { KReg.zero with val := kval i }))
  let regs : AMap Nat VReg := f.vregs.map (fun x =>
    match s.imgGetReg g.ref x.1 with | some v => (x.1, { v with mapped := true }) | none => x)
  let bad := f.vregs.any (fun x => (s.imgGetReg g.ref x.1).isNone)
  let h := { f with
    vregs := regs, kregs := ks, exited := g.exited, uncorr := bad, depth := 1, cause1 := .preempt,
    splits := List.replicate 11 Split.free, sp := { f.sp with tcause := 0x412 } }
  h.modSplit 8 (fun _ => Split.start (~~~g.exited) 0 0x1F ((l.base + l.lrec.handler) % 2 ^ 56) 0 s.nextId)

/-! ### TRET and TDONE (05 R134 to R138, R164) -/

/-- RESUME of `%tcause` (05 R132). -/
def Group.resumed (g : Group) : Bool := g.sp.tcause.getLsbD 10

/-- TRET (05 R134, R135, R140). After the handler of UNCORRECTED the group ends (R136). -/
def execTret (o : OpS) (s : State) : Out :=
  slot s o.g [] [] (fun c =>
    if !c.g.mayReturn c.e then .trap .illop 3
    else if c.g.causeNow = .uncorrected then .done (c.s.groupTrapped c.r)
    else if c.g.depth = 1 && c.g.resumed then
      if c.g.sp.tpc = 0 then .trap .illop 3
      else if c.g.sp.tpc.toNat % 8 ≠ 0 then .trap .misalign 0
      else .done (c.s.modReady c.r (fun g => g.returnResume c.e c.s.nextId))
    else if c.g.sp.tpc.toNat % 8 ≠ 0 then .trap .misalign 0
    else .done (c.s.modReady c.r (fun g => if c.g.depth = 1 then g.returnOuter else g.returnInner)))

/-- Every wait counter is 0 (05 R138). -/
def Counters.zero (c : Counters) : Bool :=
  c.copy == 0 && c.mat == 0 && c.cmb == 0 && c.cen == 0 && c.st == 0 && c.ld == 0

/-- What a group saved by TDONE keeps: its place, its mailbox registers and its slot; parked sets are discarded, and so is
a WAITA or GANG that waits (05 R138, 08 R249, 11 R330). -/
def Group.asPreempted (s : State) (g : Group) (cookie : DWord) : Group :=
  { g with
    phase := .preempted, cookie := cookie, vregs := g.vregs.filter (fun x => s.isMbox g x.1),
    splits := List.replicate 11 Split.free, joins := List.replicate 16 Join.free,
    parked := List.replicate 8 Parked.free, depth := 0, suspended := none, prepend := false, preemptReq := false }

/-- TDONE (05 R138): legal while PREEMPT is being handled or is pending; it waits until every wait counter is 0. -/
def execTdone (o : OpS) (s : State) : Out :=
  slot s o.g (srcRds o.a) [] (fun c =>
    let handling := c.g.inHandler c.e && (c.g.cause1 = .preempt || c.g.prepend || c.g.preemptReq)
    if c.g.handles c.e && c.g.causeNow = .uncorrected then .done (c.s.groupTrapped c.r)
    else if !handling then .trap .illop 3
    else if !c.g.ctr.zero then .block c.s .retest
    else
      let cookie := c.k o.a.kNum
      let s1 := c.s.saveCookie c.g cookie
      let s2 : State := { s1 with
        ops := s1.ops.filter (fun o => !(o.g = c.r && o.kind = .waita)), gangs := s1.gangs.filter (fun w => w.g ≠ c.r),
        faults := s1.faults.map (fun (f : FaultRec) => { f with joined := f.joined.filter (fun q =>
          match q with | .parked g _ | .fetch g _ => g ≠ c.r | _ => true) }) }
      .done (s2.modGroup c.r (fun g => g.asPreempted c.s0 cookie)))

/-! ### System registers (05 R148, R169) -/

/-- SREG.rd. -/
def execSregRd (o : OpS) (s : State) : Out :=
  slot s o.g [] [] (fun c =>
    if !c.s0.privileged c.g then .trap .access 0
    else
      let v : DWord := match o.imm.toNat with
        | 0 => c.s0.spillBase.getD c.r.coreRef 0
        | 1 => c.s0.preBudget.setWidth 64
        | 4 => c.s0.modTab
        | _ => 0
      .ok (c.putK c.s (dstNum o.d) v))

/-- SREG.wr of SPILLBASE, PREBUDGET and MODTAB. A package has one PREBUDGET and one MODTAB, divided into partitions (14 R402) or
not (DESIGN CHOICE, log 134). -/
def execSregWr (o : OpS) (s : State) : Out :=
  slot s o.g (srcRds o.a) [] (fun c =>
    let x := c.k o.a.kNum
    if !c.s0.privileged c.g then .trap .access 0
    else match o.imm.toNat with
      | 0 => if x.toNat % 2 ^ 22 ≠ 0 then .trap .illop 0
             else .ok { c.s with
               spillBase := c.s.spillBase.set c.r.coreRef x,
               spillPrev := match c.s.spillBase.get? c.r.coreRef with
                 | some y => (c.r.coreRef, y) :: c.s.spillPrev.filter (· ≠ (c.r.coreRef, y))
                 | none => c.s.spillPrev }
      | 1 => .ok { c.s with preBudget := x.setWidth 32 }
      | _ => if x.toNat % 2 ^ 20 ≠ 0 then .trap .illop 0 else .ok { c.s with modTab := x })

/-- An uncompleted WAITA is abandoned: it has no effect, and its split stays at the slot to issue it again (08 R249). -/
def State.abandonWaita (s : State) (r : GRef) : State :=
  let mine (o : MemOp) : Bool := o.g == r && o.kind == .waita && !o.lanes.all (fun l => l.status == .performed)
  let es := (s.ops.filter mine).map (·.entry)
  { s.modReady r (fun g => g.abandon es) with ops := s.ops.filter (fun o => !mine o) }

/-- What a request for pre-emption and a forced save abandon (05 R137, R139, 08 R249, 11 R330). -/
def State.abandonWaits (s : State) (r : GRef) : State := (s.abandonWaita r).mmagCancel r

/-- PREEMPTREQ (05 R137): the distributor places no further block of the launch, and each of its groups is asked to
stop, one that has not started yet included. A request that finds a handler running stays pending (R135). -/
def execPreemptreq (o : OpS) (s : State) : Out :=
  slot s o.g (srcRds o.a) [] (fun c =>
    if !c.s0.privileged c.g then .trap .access 0
    else
      let lid := (c.k o.a.kNum).toNat % 2 ^ 32
      let s1 := c.s.modLaunch lid (fun l => { l with preempted := true })
      let rs := (s1.groups.filter (fun g => g.lid = lid && g.kind = .ordinary && (g.phase = .running || g.phase = .placed))).map (·.ref)
      .ok (rs.foldl (fun (s : State) r => (s.abandonWaits r).modGroup r (fun g =>
        if 0 < g.depth then { g with prepend := true } else { g with preemptReq := true })) s1))

/-- A saved group is restored: one saved by TDONE enters its handler, which is counted (05 R140, R147). -/
def State.resumeGroup (s : State) (g : Group) : State :=
  match g.phase with
  | .spilled => s.modReady g.ref (fun _ => s.restoreAll g)
  | .preempted =>
    match s.launch? g.lid with
    | some l => (s.modReady g.ref (fun _ => s.restoreCookie g l)).count g.ref.coreRef 1 0x13
    | none => s
  | _ => s

/-- RESUMEREQ (05 R140): every saved group of the launch is restored in the slot it left; placement goes on. -/
def execResumereq (o : OpS) (s : State) : Out :=
  slot s o.g (srcRds o.a) [] (fun c =>
    if !c.s0.privileged c.g then .trap .access 0
    else
      let lid := (c.k o.a.kNum).toNat % 2 ^ 32
      let s1 := c.s.modLaunch lid (fun l => { l with preempted := false })
      .ok ((s1.groups.filter (fun g => g.lid = lid)).foldl (fun (s : State) g => s.resumeGroup g) s1))

/-! ### Pre-emption events (05 R137, R139) -/

/-- No split is inside a clause that goes on: one HELD at a slot stays HELD there (05 R137 step 1, 06 R204). -/
def Group.atBoundary (g : Group) : Bool :=
  (List.range 10).all (fun e => let sp := g.split e
    !(sp.inClause && (sp.state == .ready || sp.state == .blocked)))

/-- Every write in flight to the group's registers has landed, what parked lanes wait for apart (05 R137 step 2). -/
def Group.landed (g : Group) : Bool :=
  g.vregs.all (fun x => x.2.pending &&& ~~~g.parkedMask &&& ~~~g.exited == 0) &&
  g.kregs.all (fun x => x.2.full || g.parked.any (fun p => p.valid && p.prod == x.2.prod))

/-- PREEMPT_TRAP (05 R137): a group asked to stop takes PREEMPT between clauses, after an UNCORRECTED trap that waits
(R131); a pending one is taken after the handler. A WAITA or GANG begun since the request is abandoned too. With HEN = 0 the
forced save follows instead. -/
def execPreemptTrap (g : GRef) (s : State) : Out :=
  match s.group? g with
  | none => .next s
  | some x0 =>
    if x0.depth = 0 && x0.phase = .running && (x0.preemptReq || x0.prepend) && !x0.uncorr && s.hasHandler x0 then
      let s1 := s.abandonWaits g
      match s1.group? g with
      | none => .next s
      | some x =>
        if x.atBoundary && x.landed then
          let s2 := s1.modReady g (fun x => { x.enterA .preempt (s.handlerOf x) s.nextId with preemptReq := false, prepend := false })
          .next (s2.count g.coreRef 1 0x13)
        else .next s1
    else .next s

/-- FORCED_SAVE (05 R139): TDONE has not come in PREBUDGET cycles, or the launch has no handler; held MMAGs are cancelled
(11 R330), the group's writes and wait counters are waited for, then the complete image is written. A handler that runs
because the group was resumed counts as PREEMPT's handler (log 113). Without a handler it comes once the group is between
clauses (R137), or after PREBUDGET cycles within one; cycles are free (log 6). -/
def execForcedSave (g : GRef) (s : State) : Out :=
  match s.group? g with
  | none => .next s
  | some x =>
    let asked := (x.preemptReq || x.prepend) && !s.hasHandler x && x.depth = 0
    let due := (0 < x.depth && x.cause1 = .preempt) || asked
    if x.phase ≠ .running || x.kind ≠ .ordinary || !due then .next s
    else
      let s1 := s.abandonWaits g
      match s1.group? g with
      | none => .next s
      | some y =>
        if !y.landed || !y.ctr.zero then .next s1
        else
          let s2 := s1.saveAll y
          .next ((s2.modGroup g (fun y => { y with phase := .spilled, preemptReq := false })).count g.coreRef 1 0x14)

/-- TRAP_ENTRY (05 R133, R135): a trap found by a verdict or a refusal is taken; that of a split outside the handler that runs
waits for the handler's end. -/
def execTrapEntry (g : GRef) (e : Nat) (s : State) : Out :=
  match s.group? g with
  | none => .next s
  | some x =>
    match (x.split e).trap with
    | none => .next s
    | some t =>
      if x.kind ≠ .ordinary then .next s
      else if 0 < x.depth && !x.handles e then .next (s.modSplit g e (fun sp => { sp with state := .held, wait := .handler }))
      else .next ((s.modSplit g e (fun sp => { sp with trap := none, state := .ready, wait := .none })).takeTrap g e t.cause t.detail t.tpc)

end Sys2Proof.Machine
end

