-- ==== Sys2Proof/Machine/Modules.lean ====
section
/-! DEFINITION. Code modules, code prefetch and counters (05 R145, R146, R165 to R168). -/

namespace Sys2Proof.Machine

open Sys2Proof

/-- A code line is in an installed module and its page is there (05 R165). -/
def State.codeReachable (s : State) (c : CoreRef) (asid va : Nat) : Bool :=
  s.lineInModule c.die asid va && (match s.xlate c.die asid va with | .ok _ => true | .fault _ _ _ => false)

/-- IPRF (05 R165): lines outside the modules of the address space, or lines that fault, are dropped and counted. -/
def execIprf (o : OpS) (s : State) : Out :=
  slot s o.g (srcRds o.a) [] (fun c =>
    let va := (c.k o.a.kNum).toNat
    let asid := c.s0.asidOf c.g
    .ok ((List.range o.imm.toNat).foldl (fun (s : State) i =>
      let a := (va / 128 + i) * 128
      if a < 2 ^ 56 && s.codeReachable c.r.coreRef asid a then s.icFill c.r.coreRef (partOf c.r) asid a o.sub.toNat
      else s.count c.r.coreRef 1 0x17) c.s))

/-- A live launch of the die's partition, from QUEUED to DRAINING, names a module of an address space (05 R166, 04 R96, 14
R402). -/
def State.moduleBusy (s : State) (die asid idx : Nat) : Bool :=
  s.launches.any (fun l => l.part = s.partIdx die && l.lrec.asid = asid && l.lrec.mdl = idx && l.state ≠ .done)

/-- The header of a module image (05 R145): CODEOFF and CODELEN when it is well formed. -/
def imageHeader (ws : List DWord) : Option (Nat × Nat) :=
  let w (i : Nat) : Nat := (ws.getD i 0).toNat
  if w 0 = 2 ^ 32 + 0x4C444F4D && w 1 % 128 = 0 && decide (64 ≤ w 1) && decide (w 2 < 2 ^ 32) && w 2 % 8 = 0 && w 2 ≠ 0 &&
      (ws.drop 3).all (fun x => x == 0) then some (w 1, w 2)
  else none

/-- Two ranges of bytes overlap. -/
def rangesMeet (a n b m : Nat) : Bool := decide (a < b + m) && decide (b < a + n)

/-- The header words at an image. -/
def State.imageWords (s : State) (die asid img : Nat) : List DWord :=
  (List.range 8).map (fun i => s.homeRead64 die asid (img + 8 * i))

/-- The bytes of an image: its header, and its code when the header is well formed. -/
def imageLen (ws : List DWord) : Nat := match imageHeader ws with | some (off, len) => off + len | none => 64

/-- A module recorded as installed by the table that MODTAB names now; its lines begin a new history (05 R144, R148). -/
def State.recordModule (s : State) (die asid idx base len : Nat) : State :=
  let ks := ((List.range (len / 128 + 2)).map (fun i => (base / 128 + i) * 128)).filter (fun a => a < base + len)
  { s with
    modAt := s.modAt.set (asid, idx) ⟨s.modTab.toNat, base, len⟩,
    codeHist := s.codeHist.filter (fun x => !(ks.map (s.codeKey die asid)).contains x.1) }

/-- A module installed from the image at an address (05 R166): its status and the new state. -/
def State.installModule (s : State) (die asid idx img : Nat) : Nat × State :=
  let old := s.modEnt die asid idx
  if old.valid && s.moduleBusy die asid idx then (1, s)
  else
    match imageHeader (s.imageWords die asid img) with
    | none => (2, s)
    | some (off, len) =>
      let base := (img + off) % 2 ^ 56
      if (List.range 256).any (fun i => let m := s.modEnt die asid i; i != idx && m.valid && rangesMeet base len m.base m.len) then
        (3, s)
      else
        let s1 := if old.valid then s.icInvalidate asid old.base old.len else s
        (0, ((s1.icInvalidate asid base len).recordModule die asid idx base len).putModEnt die asid idx
          { valid := true, base := base, len := len })

/-- A module removed (05 R167): its status and the new state. -/
def State.removeModule (s : State) (die asid idx : Nat) : Nat × State :=
  let old := s.modEnt die asid idx
  if s.moduleBusy die asid idx then (1, s)
  else if !old.valid then (4, s)
  else (0, (s.icInvalidate asid old.base old.len).putModEnt die asid idx { old with valid := false })

/-- MODL (05 R166): an acquire over the whole image, then the checks. The address is 56 bits wide (log 34). The pages of the
image's header and of the module table are waited for when they fault (log 49). -/
def execModl (o : OpS) (s : State) : Out :=
  slot s o.g (srcRds o.a) [] (fun c =>
    let idx := o.imm.toNat
    let asid := c.s0.asidOf c.g
    let img := (c.k o.a.kNum).toNat % 2 ^ 56
    if 255 < idx then .trap .illop 0
    else
      match c.s.engineFault c.r.coreRef asid img 64 false with
      | some s1 => .block s1 .retest
      | none =>
        match c.s.engineFault c.r.coreRef 0 (c.s.modTab.toNat + asid * 0x1000) 4096 true with
        | some s1 => .block s1 .retest
        | none =>
          let s0 := c.s.l1Acquire c.r.coreRef asid (some [(img, 64)])
          let s1 := s0.l1Acquire c.r.coreRef asid (some [(img, imageLen (s0.imageWords c.r.die asid img))])
          let x := s1.installModule c.r.die asid idx img
          .ok (c.putK x.2 (dstNum o.d) (BitVec.ofNat 64 x.1)))

/-- MODU (05 R167). -/
def execModu (o : OpS) (s : State) : Out :=
  slot s o.g [] [] (fun c =>
    let asid := c.s0.asidOf c.g
    match c.s.engineFault c.r.coreRef 0 (c.s.modEntAddr asid o.imm.toNat) 16 true with
    | some s1 => .block s1 .retest
    | none =>
      let x := c.s.removeModule c.r.die asid o.imm.toNat
      .ok (c.putK x.2 (dstNum o.d) (BitVec.ofNat 64 x.1)))

/-- Where a counter that a core names is kept: the distributor's (04 R108 events 0 to 3) once per partition; those of a
slice and its home core (engine 8, 12 R374) under the core above them; those of the ports (engine 10, 14 R435) once per
partition. -/
def State.counterKey (s : State) (c : CoreRef) (i : Nat) : CoreRef × Nat :=
  if i < 4 then ({ home := false, die := (s.partitionOf c.die).1, core := 0 }, i)
  else if i / 256 = 8 then ({ c with home := false }, i)
  else if i / 256 = 10 then ({ home := false, die := (s.partitionOf c.die).1, core := 0 }, i)
  else (c, i)

/-- Counters whose number, or part of it, the spec leaves to timing or to hardware of its own choice, so that a read adds a
free number to what the model counts (log 17): STALL_OPERAND, the cycle counters XLANE_HOLD, SYN_WAIT, VERDICT_WAIT,
XTRE_HOLD, COPY_WAIT, LIFT_WAIT and TOUCH_WAIT; and of the ports TRANS_HIT, TRANS_WALK and REMAP_HIT, where the model counts the
misses of lanes and the number of translations that the engines, the tables' walks and the instruction caches ask for is free,
DL_REQS, whose spill transfers take no time here, and KL_FLITS (05 R147, 06 R209, 07 R227, 08 R250, 09 R272, 10 R298, 11 R339, 14 R435). -/
def openCounter (i : Nat) : Bool :=
  [0x106, 0x204, 0x307, 0x409, 0x505, 0x609, 0x704, 0x708, 0x809, 0x906, 0x907, 0xA00, 0xA01, 0xA04, 0xA06, 0xA0B].contains i

/-- CNTR (05 R168). -/
def execCntr (o : OpS) (s : State) : Out :=
  slot s o.g [] [] (fun c =>
    let i := o.imm.toNat
    let key := c.s.counterKey c.r.coreRef i
    let x := c.s.counters.getD key 0 + BitVec.ofNat 64 (Config.freePick c.s.tick)
    if 11 ≤ i / 256 then .trap .illop 0
    else if openCounter i then .ok (c.putK { c.s with counters := c.s.counters.set key x } (dstNum o.d) x)
    else .ok (c.putK c.s (dstNum o.d) (c.s.counters.getD key 0)))

/-- CNTC (05 R168): privileged. -/
def execCntc (o : OpS) (s : State) : Out :=
  slot s o.g [] [] (fun c =>
    if !c.s0.privileged c.g then .trap .access 0
    else .ok { c.s with counters := c.s.counters.erase (c.s.counterKey c.r.coreRef o.imm.toNat) })

/-- CNTC.all (05 R168): every counter that CNTR reads on the core. -/
def execCntcAll (o : OpS) (s : State) : Out :=
  slot s o.g [] [] (fun c =>
    if !c.s0.privileged c.g then .trap .access 0
    else .ok { c.s with counters := c.s.counters.filter (fun x => x.1 ≠ c.s.counterKey c.r.coreRef x.1.2) })

end Sys2Proof.Machine
end

