-- ==== Sys2Proof/Machine/Lane.lean ====
section
/-! DEFINITION. The lane engine's integer, floating-point, move and conversion instructions (06 R182 to R202). -/

namespace Sys2Proof.Machine

open Sys2Proof

/-! ### Rounding control and random bits of a slot -/

/-- The effective rounding mode of a slot (06 R175); none for the reserved MODE. -/
def Ctx.mode (c : Ctx) (rnd : Nat) : Option Rm := rmOf (if rnd = 0 then bits c.g.sp.rmode.toNat 2 0 else rnd)

/-- Results are flushed (06 R178). -/
def Ctx.ftz (c : Ctx) (nof : Bool) : Bool := c.g.sp.rmode.getLsbD 4 && !nof

/-- The logical lane index of a lane (06 R180, 04 R105). -/
def lambdaOf (s : State) (g : Group) (l : Nat) : Nat := ((g.blk * ((s.recOf g).groups + 1) + g.gidx) * 32 + l) % 2 ^ 64

/-- The launch identifier the generator takes: 0 in a piste launch (06 R180). -/
def genLid (s : State) (g : Group) : Nat := if s.pisteOf g then 0 else g.lid

/-- The key of stochastic rounding: `%seed` xor SRKEY in the high word (06 R180). -/
def srKey (seed rmode : DWord) : DWord := seed ^^^ (rmode &&& 0xFFFFFFFF00000000)

/-- The SR bits of a domain and index for a group's slot (06 R180). -/
def Ctx.srDom (c : Ctx) (dom idx : Nat) : Nat :=
  srBits (gen (srKey c.g.sp.seed c.g.sp.rmode) dom (genLid c.s0 c.g) (BitVec.ofNat 64 idx) c.g.sp.draw)

/-- The SR bits of element h of a lane's result in a LANE slot (06 R180); 0 in the other modes. -/
def Ctx.sr (c : Ctx) (md : Rm) (l h : Nat) : Nat :=
  if md = Rm.sr then c.srDom 1 (2 * lambdaOf c.s0 c.g l + h) else 0

/-- Splits of a group that are not FREE. -/
def Group.liveSplits (g : Group) : Nat := (g.splits.filter (fun (sp : Split) => sp.state != .free)).length

/-! ### Results -/

/-- A lane's result word with what the counters of 06 R209 count. -/
structure LaneOut where
  w : Word
  flushed : Nat
  sat : Nat
  nan : Nat
  deriving DecidableEq, Repr, Inhabited

/-- A result that counts nothing. -/
def LaneOut.plain (w : Word) : LaneOut := ⟨w, 0, 0, 0⟩

/-- A result made of one element, or of two halves under a packed type. -/
def LaneOut.ofEls (packed : Bool) (f : Nat → Elem) : LaneOut :=
  let n (b : Bool) : Nat := if b then 1 else 0
  let e := f 0
  if packed then
    let e1 := f 1
    ⟨BitVec.ofNat 32 (e.b % 2 ^ 16 + 2 ^ 16 * e1.b), n e.flushed + n e1.flushed, n e.sat + n e1.sat, n e.nan + n e1.nan⟩
  else ⟨BitVec.ofNat 32 e.b, n e.flushed, n e.sat, n e.nan⟩

/-- What the lane engine counts of results (06 R209). -/
def countOuts (s : State) (c : CoreRef) (os : List LaneOut) : State :=
  let sum (f : LaneOut → Nat) : Nat := os.foldl (fun n o => n + f o) 0
  ((s.count c 2 1 (sum (·.flushed))).count c 2 6 (sum (·.nan))).count c 2 7 (sum (·.sat))

/-- Lane results written to a v register in the slot's lanes, and counted. -/
def Ctx.putLanes (c : Ctx) (d : Nat) (f : Nat → LaneOut) : State :=
  let os := perLane (fun l => if c.m.has l then f l else default)
  countOuts (c.putV c.s d c.m (fun l => (os.getD l default).w)) c.r.coreRef os

/-- Pair results written and counted: the words of the even and of the odd register. -/
def Ctx.putLanes2 (c : Ctx) (d : Nat) (f : Nat → LaneOut × LaneOut) : State :=
  let os := perLane (fun l => if c.m.has l then f l else default)
  let s1 := c.putV c.s d c.m (fun l => (os.getD l default).1.w)
  let s2 := c.putV s1 (d + 1) c.m (fun l => (os.getD l default).2.w)
  countOuts (countOuts s2 c.r.coreRef (os.map (·.1))) c.r.coreRef (os.map (·.2))

/-- What every LANE slot counts, and the advance of `%draw` (06 R181, R209, 05 R123). -/
def laneTail (c : Ctx) (sr draws : Bool) (s : State) : State :=
  let core := c.r.coreRef
  let s1 := (s.count core 2 0).count core 1 0x0F (ceilDiv c.sp.mask.card 8)
  let s2 := if sr then s1.count core 2 2 else s1
  if sr || draws then c.modSp s2 (fun sp => { sp with draw := sp.draw + 1 }) else s2

/-- Why a LANE slot has no effect: the reserved MODE where the slot rounds by its effective mode (06 R175), or a draw in
a piste launch whose group has several live splits (06 R181) or is a responder (13 R385). Otherwise the mode it rounds in. -/
def Ctx.laneMode (c : Ctx) (rnd : Option Nat) (draws : Bool) : Rm ⊕ (Cause × Nat) :=
  match (match rnd with | none => some Rm.rne | some r => c.mode r) with
  | none => .inr (.illop, 0x10)
  | some md =>
    if ((rnd.isSome && md == Rm.sr) || draws) && c.s0.pisteOf c.g && (c.g.isResponder || 1 < c.g.liveSplits) then .inr (.illpiste, 0) else .inl md

/-- THE LANE SLOT: `rnd` is the RND code of an instruction that rounds by its effective mode, `draws` marks RAND. -/
def laneSlot (gd : Guard) (rds : List Rd) (dsts : List Nat) (rnd : Option Nat) (draws : Bool) (act : Ctx → Rm → State)
    (s : State) : Out :=
  slot s gd rds dsts (fun c =>
    match c.laneMode rnd draws with
    | .inr (ca, d) => .trap ca d
    | .inl md => .ok (laneTail c (rnd.isSome && md == Rm.sr) draws (act c md)))

/-! ### Operands -/

/-- IMM22 as operand B (02 R51). -/
def immWord (ty : Ty) (imm : BitVec 22) : Word :=
  match ty with
  | .f32 => BitVec.ofNat 32 (imm.toNat * 2 ^ 10)
  | .b32 | .s32 | .n32 => imm.signExtend 32
  | _ => BitVec.ofNat 32 (imm.toNat % 2 ^ 16 * (2 ^ 16 + 1))

/-- Operand B of an R/I word in a lane. -/
def Ctx.lb (c : Ctx) (o : OpRI) (l : Nat) : Word :=
  match o with | .r x => c.w (tyOf x.m) x.b l | .i x => immWord (tyOf x.m) x.imm

/-- The registers an R/I word reads. -/
def riRds (o : OpRI) : List Rd := srcRds o.a ++ (match o.bsrc with | some b => srcRds b | none => [])

/-- Element h of a word: a half under a packed type. -/
def elOf (ty : Ty) (w : Word) (h : Nat) : Nat := if ty.packed then halfOf w.toNat h else w.toNat

/-- Element h read as an integer of the type (06 R184). -/
def ivOf (ty : Ty) (w : Word) (h : Nat) : Int := if ty.signed then sInt ty.w (elOf ty w h) else (elOf ty w h : Int)

/-- The floating format of a type. -/
def fmtT (ty : Ty) : Fmt := match ty with | .f16x2 => .f16 | .bf16x2 => .bf16 | _ => .f32

/-! ### Integer instructions (06 R184 to R188) -/

/-- An exact integer narrowed to a type (06 R184). -/
def narrow (ty : Ty) (sat : Bool) (x : Int) : Elem :=
  let w := ty.w
  let lo : Int := if ty.signed then -(2 ^ (w - 1) : Nat) else 0
  let hi : Int := if ty.signed then (2 ^ (w - 1) : Nat) - 1 else (2 ^ w : Nat) - 1
  let y := if sat then clampI x lo hi else x
  ⟨wrapN w y, false, sat && y != x, false⟩

/-- A two-source integer instruction. -/
def intOp2 (o : OpRI) (f : Int → Int → Int) (s : State) : Out :=
  laneSlot o.g (riRds o) [dstNum o.d] none false (fun c _ =>
    let ty := tyOf o.m
    c.putLanes (dstNum o.d) (fun l =>
      let a := c.w ty o.a l; let b := c.lb o l
      LaneOut.ofEls ty.packed (fun h => narrow ty (satOf o.m) (f (ivOf ty a h) (ivOf ty b h))))) s

/-- IADD (06 R184). -/
def execIadd (o : OpRI) (s : State) : Out := intOp2 o (fun a b => a + b) s
/-- ISUB (06 R184). -/
def execIsub (o : OpRI) (s : State) : Out := intOp2 o (fun a b => a - b) s
/-- IMUL (06 R184). -/
def execImul (o : OpRI) (s : State) : Out := intOp2 o (fun a b => a * b) s
/-- IMNX (06 R184). -/
def execImnx (o : OpRI) (s : State) : Out := intOp2 o (fun a b => if mbit o.m 1 then max a b else min a b) s

/-- An F-R lane instruction computed lane by lane. -/
def laneR (o : OpR) (n : Nat) (f : Ctx → Nat → LaneOut) (s : State) : Out :=
  laneSlot o.g (((srcRds o.a) ++ (if 2 ≤ n then srcRds o.b else []) ++ (if 3 ≤ n then srcRds o.c else []))) [dstNum o.d] none
    false (fun c _ => c.putLanes (dstNum o.d) (f c)) s

/-- IMULH (06 R184): the floor of the product over 2^32. -/
def execImulh (o : OpR) (s : State) : Out :=
  laneR o 2 (fun c l =>
    let ty := tyOf o.m
    LaneOut.ofEls false (fun _ => narrow ty false (ivOf ty (c.w ty o.a l) 0 * ivOf ty (c.w ty o.b l) 0 / 2 ^ 32))) s

/-- IMAD (06 R184). -/
def execImad (o : OpR) (s : State) : Out :=
  laneR o 3 (fun c l =>
    let ty := tyOf o.m
    let a := c.w ty o.a l; let b := c.w ty o.b l; let x := c.w ty o.c l
    LaneOut.ofEls ty.packed (fun h => narrow ty (satOf o.m) (ivOf ty a h * ivOf ty b h + ivOf ty x h))) s

/-- IABS (06 R184). -/
def execIabs (o : OpR) (s : State) : Out :=
  laneR o 1 (fun c l =>
    let ty := tyOf o.m
    let a := c.w ty o.a l
    LaneOut.ofEls ty.packed (fun h => narrow ty (satOf o.m) ((ivOf ty a h).natAbs : Int))) s

/-- A shift (06 R185): element and amount, both unsigned. -/
def shiftOp (o : OpRI) (f : Nat → Nat → Nat → Nat) (s : State) : Out :=
  laneSlot o.g (riRds o) [dstNum o.d] none false (fun c _ =>
    let ty := tyOf o.m
    c.putLanes (dstNum o.d) (fun l =>
      let a := c.w ty o.a l; let b := c.lb o l
      LaneOut.ofEls ty.packed (fun h => Elem.plain (f ty.w (elOf ty a h) (elOf ty b h))))) s

/-- SHL (06 R185). -/
def execShl (o : OpRI) (s : State) : Out := shiftOp o (fun w a n => if n < w then a * 2 ^ n % 2 ^ w else 0) s
/-- SHR (06 R185). -/
def execShr (o : OpRI) (s : State) : Out := shiftOp o (fun w a n => if n < w then a / 2 ^ n else 0) s
/-- SAR (06 R185). -/
def execSar (o : OpRI) (s : State) : Out := shiftOp o (fun w a n => wrapN w (sInt w a / (2 ^ min n (w - 1) : Nat))) s

/-- LOP3 (06 R186). -/
def execLop3 (o : OpR) (s : State) : Out :=
  laneR o 3 (fun c l => .plain (lut3 (mfield o.m 8 1) (c.w .b32 o.a l) (c.w .b32 o.b l) (c.w .b32 o.c l))) s

/-- POPC (06 R186). -/
def execPopc (o : OpR) (s : State) : Out :=
  laneR o 1 (fun c l => .plain (BitVec.ofNat 32 (Mask.card (c.w .b32 o.a l)))) s

/-- CLZ (06 R186). -/
def execClz (o : OpR) (s : State) : Out :=
  laneR o 1 (fun c l => .plain (BitVec.ofNat 32 (32 - bitLen (c.w .b32 o.a l).toNat))) s

/-- Position and width of a bit field (06 R187). -/
def fieldOf (ctl : Word) : Nat × Nat :=
  let pos := bits ctl.toNat 7 0
  let len := bits ctl.toNat 15 8
  (pos, if 32 ≤ pos || len = 0 then 0 else min (pos + len) 32 - pos)

/-- BFX (06 R187). -/
def bfx (signed : Bool) (a ctl : Word) : Word :=
  let (pos, width) := fieldOf ctl
  if width = 0 then 0
  else
    let f := a.toNat / 2 ^ pos % 2 ^ width
    if signed then BitVec.ofNat 32 (wrapN 32 (sInt width f)) else BitVec.ofNat 32 f

/-- BFI (06 R187). -/
def bfi (a b ctl : Word) : Word :=
  let (pos, width) := fieldOf ctl
  if width = 0 then b
  else
    let mask : Word := BitVec.ofNat 32 ((2 ^ width - 1) * 2 ^ pos)
    (b &&& ~~~mask) ||| ((a <<< pos) &&& mask)

/-- BFX (06 R187): ctl stands in B. -/
def execBfx (o : OpR) (s : State) : Out :=
  laneR o 2 (fun c l => .plain (bfx (tyOf o.m).signed (c.w .b32 o.a l) (c.w .b32 o.b l))) s

/-- BFI (06 R187): b stands in B and ctl in C. -/
def execBfi (o : OpR) (s : State) : Out :=
  laneR o 3 (fun c l => .plain (bfi (c.w .b32 o.a l) (c.w .b32 o.b l) (c.w .b32 o.c l))) s

/-- The result of a comparison (06 R188): the active lanes of a p destination, or all-ones elements of a v one. -/
def Ctx.putCmp (c : Ctx) (d : BitVec 9) (packed : Bool) (f : Nat → Nat → Bool) : State :=
  if isPDst d then c.putPred c.s d c.m (maskOf (fun l => c.m.has l && f l 0))
  else c.putLanes (dstNum d) (fun l =>
    LaneOut.ofEls packed (fun h => Elem.plain (if f l h then (if packed then 0xFFFF else 0xFFFFFFFF) else 0)))

/-- The v registers a comparison writes. -/
def cmpDsts (d : BitVec 9) : List Nat := if isVDst d then [dstNum d] else []

/-- ICMP (06 R188). -/
def execIcmp (o : OpRI) (s : State) : Out :=
  laneSlot o.g (riRds o) (cmpDsts o.d) none false (fun c _ =>
    let ty := tyOf o.m
    c.putCmp o.d ty.packed (fun l h =>
      icmp ty.signed ty.w (mfield o.m 6 3) (elOf ty (c.w ty o.a l) h) (elOf ty (c.lb o l) h))) s

/-! ### Floating-point instructions (06 R189 to R193) -/

/-- The rounding of an element of a floating result. -/
def Ctx.rc (c : Ctx) (m : BitVec 10) (md : Rm) (l h : Nat) : RndCtl :=
  { mode := md, sat := satOf m, ftz := c.ftz (nofOf m), nanov := false, u := c.sr md l h }

/-- A two-source floating instruction rounded once (06 R189). -/
def fltOp2 (o : OpRI) (f : Rm → FV → FV → FV) (s : State) : Out :=
  laneSlot o.g (riRds o) [dstNum o.d] (some (rndOf o.m)) false (fun c md =>
    let ty := tyOf o.m
    c.putLanes (dstNum o.d) (fun l =>
      let a := c.w ty o.a l; let b := c.lb o l
      LaneOut.ofEls ty.packed (fun h =>
        roundF (fmtT ty) (c.rc o.m md l h) (f md (decodeF (fmtT ty) (elOf ty a h)) (decodeF (fmtT ty) (elOf ty b h)))))) s

/-- FADD (06 R189). -/
def execFadd (o : OpRI) (s : State) : Out := fltOp2 o (fun md a b => FV.add md a b) s
/-- FSUB (06 R189). -/
def execFsub (o : OpRI) (s : State) : Out := fltOp2 o (fun md a b => FV.add md a b.negate) s
/-- FMUL (06 R189). -/
def execFmul (o : OpRI) (s : State) : Out := fltOp2 o (fun _ a b => FV.mul a b) s

/-- An F-R floating instruction rounded once in its effective mode. -/
def fltR (o : OpR) (n : Nat) (f : Rm → FV → FV → FV → FV) (s : State) : Out :=
  laneSlot o.g (((srcRds o.a) ++ (if 2 ≤ n then srcRds o.b else []) ++ (if 3 ≤ n then srcRds o.c else []))) [dstNum o.d]
    (some (rndOf o.m)) false (fun c md =>
    let ty := tyOf o.m
    c.putLanes (dstNum o.d) (fun l =>
      let a := c.w ty o.a l; let b := c.w ty o.b l; let x := c.w ty o.c l
      let dec (w : Word) (h : Nat) : FV := decodeF (fmtT ty) (elOf ty w h)
      LaneOut.ofEls ty.packed (fun h => roundF (fmtT ty) (c.rc o.m md l h) (f md (dec a h) (dec b h) (dec x h))))) s

/-- FFMA (06 R189), fused. -/
def execFfma (o : OpR) (s : State) : Out := fltR o 3 (fun md a b x => FV.add md (FV.mul a b) x) s
/-- FRCP (06 R189). -/
def execFrcp (o : OpR) (s : State) : Out := fltR o 1 (fun _ a _ _ => FV.div (.num false 1 0 false) a) s
/-- FSQRT (06 R189). -/
def execFsqrt (o : OpR) (s : State) : Out := fltR o 1 (fun _ a _ _ => a.sqrt) s
/-- FDIV (06 R189). -/
def execFdiv (o : OpR) (s : State) : Out := fltR o 2 (fun _ a b _ => FV.div a b) s

/-- FSCL (06 R189): b is an integer. -/
def execFscl (o : OpR) (s : State) : Out :=
  laneSlot o.g (srcRds o.a ++ srcRds o.b) [dstNum o.d] (some (rndOf o.m)) false (fun c md =>
    let ty := tyOf o.m
    c.putLanes (dstNum o.d) (fun l =>
      let a := c.w ty o.a l; let b := c.w ty o.b l
      LaneOut.ofEls ty.packed (fun h =>
        roundF (fmtT ty) (c.rc o.m md l h) ((decodeF (fmtT ty) (elOf ty a h)).scale (sInt ty.w (elOf ty b h)))))) s

/-- A function rounded RNE whatever the mode (06 R190). -/
def fltUnary (o : OpR) (f : FV → FV) (s : State) : Out :=
  laneR o 1 (fun c l =>
    let ty := tyOf o.m
    let a := c.w ty o.a l
    LaneOut.ofEls ty.packed (fun h => roundF (fmtT ty) (c.rc o.m .rne l h) (f (decodeF (fmtT ty) (elOf ty a h))))) s

/-- FRSQ (06 R190). -/
def execFrsq (o : OpR) (s : State) : Out := fltUnary o FV.rsqrt s
/-- FEX2 (06 R190). -/
def execFex2 (o : OpR) (s : State) : Out := fltUnary o FV.exp2 s
/-- FLG2 (06 R190). -/
def execFlg2 (o : OpR) (s : State) : Out := fltUnary o FV.log2 s
/-- FSIN (06 R190). -/
def execFsin (o : OpR) (s : State) : Out := fltUnary o FV.sin s
/-- FCOS (06 R190). -/
def execFcos (o : OpR) (s : State) : Out := fltUnary o FV.cos s

/-- An element of FMNX, counted when it is a canonical NaN the instruction made (06 R191, R209). -/
def fmnxEl (f : Fmt) (isMax nanp : Bool) (a b : Nat) : Elem :=
  let x := (decodeF f a).isNan; let y := (decodeF f b).isNan
  ⟨fmnx f isMax nanp a b, false, false, (x && y) || (nanp && (x || y))⟩

/-- FMNX (06 R191). -/
def execFmnx (o : OpRI) (s : State) : Out :=
  laneSlot o.g (riRds o) [dstNum o.d] none false (fun c _ =>
    let ty := tyOf o.m
    c.putLanes (dstNum o.d) (fun l =>
      let a := c.w ty o.a l; let b := c.lb o l
      LaneOut.ofEls ty.packed (fun h => fmnxEl (fmtT ty) (mbit o.m 1) (mbit o.m 4) (elOf ty a h) (elOf ty b h)))) s

/-- FCMP (06 R192). -/
def execFcmp (o : OpRI) (s : State) : Out :=
  laneSlot o.g (riRds o) (cmpDsts o.d) none false (fun c _ =>
    let ty := tyOf o.m
    c.putCmp o.d ty.packed (fun l h =>
      fcmp (fmtT ty) (mfield o.m 6 3) (elOf ty (c.w ty o.a l) h) (elOf ty (c.lb o l) h))) s

/-- FCLS (06 R193). -/
def execFcls (o : OpR) (s : State) : Out :=
  laneSlot o.g (srcRds o.a ++ srcRds o.b) (cmpDsts o.d) none false (fun c _ =>
    let ty := tyOf o.m
    let f (l h : Nat) : Nat := fclass (fmtT ty) (elOf ty (c.w ty o.a l) h) &&& elOf ty (c.w ty o.b l) h
    if isPDst o.d then c.putPred c.s o.d c.m (maskOf (fun l => c.m.has l && f l 0 != 0))
    else c.putLanes (dstNum o.d) (fun l => LaneOut.ofEls ty.packed (fun h => Elem.plain (f l h)))) s

/-! ### Moves, conversions and quantisation (06 R194 to R202) -/

/-- A pair of results of a 64-bit value. -/
def outs64 (x : DWord) : LaneOut × LaneOut := (.plain x.lo, .plain x.hi)

/-- MOV (06 R194). -/
def execMov (o : OpR) (s : State) : Out :=
  let d := dstNum o.d
  if mbit o.m 1 then
    laneSlot o.g (srcRds o.a 2) [d, d + 1] none false (fun c _ => c.putLanes2 d (fun l => outs64 (c.w64 o.a l))) s
  else laneR o 1 (fun c l => .plain (c.w .b32 o.a l)) s

/-- MOVI (06 R194). -/
def execMovi (o : OpW) (s : State) : Out :=
  laneSlot o.g [] [dstNum o.d] none false (fun c _ => c.putLanes (dstNum o.d) (fun _ => .plain o.imm)) s

/-- SEL (06 R195). -/
def execSel (o : OpR) (s : State) : Out :=
  let d := dstNum o.d
  let wide := mbit o.m 2
  let w := if wide then 2 else 1
  laneSlot o.g (srcRds o.a w ++ srcRds o.b w) (if wide then [d, d + 1] else [d]) none false (fun c _ =>
    let p := c.pcode o.c.opnd.toNat
    let p := if mbit o.m 1 then ~~~p else p
    if wide then c.putLanes2 d (fun l => outs64 (if p.has l then c.w64 o.a l else c.w64 o.b l))
    else c.putLanes d (fun l => .plain (if p.has l then c.w .b32 o.a l else c.w .b32 o.b l))) s

/-- A format of CVT (06 R196). -/
inductive CFmt where
  | flt (f : Fmt)
  | e8m0
  | int (signed : Bool) (w : Nat)
  deriving DecidableEq, Repr, Inhabited

/-- The format of a code (06 R196). -/
def cfmtOf (n : Nat) : CFmt :=
  match n with
  | 0 => .flt .f32 | 1 => .flt .f16 | 2 => .flt .bf16 | 3 => .flt .e4m3 | 4 => .flt .e5m2 | 5 => .flt .e2m1 | 6 => .e8m0
  | 8 => .int true 8 | 9 => .int true 16 | 10 => .int true 32 | 11 => .int true 64
  | 12 => .int false 8 | 13 => .int false 16 | 14 => .int false 32 | _ => .int false 64

/-- The exact value of a pattern in a format (06 R196). -/
def CFmt.value (f : CFmt) (x : Nat) : FV :=
  match f with
  | .flt g => decodeF g (x % 2 ^ g.width)
  | .e8m0 => if x % 256 = 255 then .nan else .num false 1 ((x % 256 : Nat) - 127) false
  | .int sg w => ofInt .rne (if sg then sInt w x else (x % 2 ^ w : Nat)) 0

/-- A positive value rounded to a power of two: the exponent (06 R196). -/
def pow2Round (c : RndCtl) (m : Nat) (e : Int) : Int :=
  let l := bitLen m
  let k := e + (l : Int) - 1
  let rem := m - 2 ^ (l - 1)
  let up : Bool :=
    if rem = 0 then false
    else match c.mode with
      | .rne => decide (2 ^ (l - 1) < 2 * rem) || (2 * rem == 2 ^ (l - 1) && decide ((k + 127) % 2 ≠ 0))
      | .rtz | .rdn => false
      | .rup => true
      | .rna => decide (2 ^ (l - 1) ≤ 2 * rem)
      | .sr => decide (c.u * 2 ^ (l - 1) < rem * 2 ^ 32)
  if up then k + 1 else k

/-- A value clamped to an integer format, counted when it was outside. -/
def intClamp (sg : Bool) (w : Nat) (x : Int) : Elem :=
  let lo : Int := if sg then -(2 ^ (w - 1) : Nat) else 0
  let hi : Int := if sg then (2 ^ (w - 1) : Nat) - 1 else (2 ^ w : Nat) - 1
  let y := clampI x lo hi
  ⟨wrapN w y, false, y != x, false⟩

/-- The conversion of 06 R196 of a value to a format. -/
def convTo (f : CFmt) (c : RndCtl) (x : FV) : Elem :=
  match f with
  | .flt g => roundF g c x
  | .e8m0 =>
    match x with
    | .num false m e _ =>
      let k := pow2Round c m e + 127
      let y := clampI k 0 0xFE
      ⟨y.toNat, false, y != k, false⟩
    | _ => ⟨0xFF, false, false, true⟩
  | .int sg w =>
    match x with
    | .nan => Elem.plain 0
    | .inf n => intClamp sg w (if n then -(2 ^ 80 : Nat) else (2 ^ 80 : Nat))
    | .zero _ => Elem.plain 0
    | y => intClamp sg w (y.toInt c.mode c.u)

/-- CVT of one value (06 R196). -/
def cvtEl (dst src : Nat) (c : RndCtl) (x : Nat) : Elem :=
  match cfmtOf dst, cfmtOf src with
  | .int sg w, .int sg' w' =>
    let v : Int := if sg' then sInt w' x else (x % 2 ^ w' : Nat)
    if c.sat then intClamp sg w v else Elem.plain (wrapN w v)
  | d, f => convTo d c (f.value x)

/-- A converted element in its word or pair: S8 and S16 sign-extended, others zero-extended (06 R196). -/
def cvtExtend (dst : Nat) (x : Nat) : DWord :=
  match cfmtOf dst with
  | .int true 8 => BitVec.ofNat 64 (wrapN 32 (sInt 8 x))
  | .int true 16 => BitVec.ofNat 64 (wrapN 32 (sInt 16 x))
  | _ => BitVec.ofNat 64 x

/-- CVT (06 R196). -/
def execCvt (o : OpR) (s : State) : Out :=
  let d := dstNum o.d
  let dc := cvtDst o
  let sc := cvtSrc o
  let wide := cvtWide dc
  let rnd := if cvtInt dc && cvtInt sc then none else some (rndOf o.m)
  laneSlot o.g (srcRds o.a (if cvtWide sc then 2 else 1)) (if wide then [d, d + 1] else [d]) rnd false (fun c md =>
    let el (l : Nat) : Elem :=
      let x := if cvtWide sc then (c.w64 o.a l).toNat else (c.w .b32 o.a l).toNat
      cvtEl dc sc ⟨md, satOf o.m, c.ftz (nofOf o.m), mbit o.m 1, c.sr md l 0⟩ x
    let out (l : Nat) : LaneOut × LaneOut :=
      let e := el l
      let x := cvtExtend dc e.b
      ({ LaneOut.ofEls false (fun _ => e) with w := x.lo }, .plain x.hi)
    if wide then c.putLanes2 d out else c.putLanes d (fun l => (out l).1)) s

/-- The format of a pack code (06 R197). -/
def packFmt (n : Nat) : CFmt :=
  match n with
  | 0 => .flt .f16 | 1 => .flt .bf16 | 2 => .flt .e4m3 | 3 => .flt .e5m2 | 4 => .flt .e2m1 | 5 => .int true 16
  | _ => .int false 16

/-- Bits of an element of a pack code. -/
def packBits (n : Nat) : Nat := match n with | 2 => 8 | 3 => 8 | 4 => 4 | _ => 16

/-- A word with the elements 2·pos and 2·pos + 1 of a width replaced (06 R197). -/
def mergeEls (w pos : Nat) (old : Word) (e0 e1 : Nat) : Word :=
  let lo := 2 * pos * w
  let keep : Word := ~~~(BitVec.ofNat 32 ((2 ^ (2 * w) - 1) * 2 ^ lo))
  (old &&& keep) ||| BitVec.ofNat 32 ((e0 % 2 ^ w + e1 % 2 ^ w * 2 ^ w) * 2 ^ lo)

/-- Two elements merged into a word, with what they count. -/
def outMerge (w pos : Nat) (old : Word) (e0 e1 : Elem) : LaneOut :=
  let n (b : Bool) : Nat := if b then 1 else 0
  ⟨mergeEls w pos old e0.b e1.b, n e0.flushed + n e1.flushed, n e0.sat + n e1.sat, n e0.nan + n e1.nan⟩

/-- PACK (06 R197). -/
def execPack (o : OpR) (s : State) : Out :=
  let fmt := mfield o.m 9 7
  let isInt := decide (5 ≤ fmt)
  let merged := if packBits fmt = 16 then [] else srcRds o.c
  laneSlot o.g (srcRds o.a ++ srcRds o.b ++ merged) [dstNum o.d] (if isInt then none else some (rndOf o.m)) false
    (fun c md =>
      let el (l h : Nat) (x : Word) : Elem :=
        let rc : RndCtl := ⟨md, satOf o.m, c.ftz (nofOf o.m), false, c.sr md l h⟩
        match packFmt fmt with
        | .int sg w =>
          let v : Int := if sg then x.toInt else x.toNat
          if satOf o.m then intClamp sg w v else Elem.plain (wrapN w v)
        | f => convTo f rc (decodeF .f32 x.toNat)
      c.putLanes (dstNum o.d) (fun l =>
        let old := if packBits fmt = 16 then 0 else c.w .b32 o.c l
        outMerge (packBits fmt) (mfield o.m 1 0) old (el l 0 (c.w .b32 o.a l)) (el l 1 (c.w .b32 o.b l)))) s

/-- An element of a packed word as an exact F32 pattern or an extended integer (06 R197 UNPK). -/
def unpackEl (fmt : Nat) (x : Nat) : Elem :=
  match packFmt fmt with
  | .int sg w => Elem.plain (wrapN 32 (if sg then sInt w x else (x : Int)))
  | f => roundF .f32 RndCtl.rne (f.value x)

/-- UNPK (06 R197). -/
def execUnpk (o : OpR) (s : State) : Out :=
  let fmt := mfield o.m 9 7
  let d := dstNum o.d
  laneSlot o.g (srcRds o.a) [d, d + 1] none false (fun c _ =>
    c.putLanes2 d (fun l =>
      let x := (c.w .b32 o.a l).toNat
      let w := packBits fmt
      let el (k : Nat) : Elem := unpackEl fmt (x / 2 ^ (w * (2 * mfield o.m 1 0 + k)) % 2 ^ w)
      (LaneOut.ofEls false (fun _ => el 0), LaneOut.ofEls false (fun _ => el 1)))) s

/-- PRMB (06 R198). -/
def prmb (a b c : Word) : Word :=
  let pair := (pair64 a b).toNat
  let byte (i : Nat) : Nat :=
    let s := bits c.toNat (4 * i + 3) (4 * i)
    let x := pair / 2 ^ (8 * (s % 8)) % 256
    if s < 8 then x else if 128 ≤ x then 255 else 0
  BitVec.ofNat 32 (byte 0 + byte 1 * 2 ^ 8 + byte 2 * 2 ^ 16 + byte 3 * 2 ^ 24)

/-- PRMB (06 R198). -/
def execPrmb (o : OpR) (s : State) : Out :=
  laneR o 3 (fun c l => .plain (prmb (c.w .b32 o.a l) (c.w .b32 o.b l) (c.w .b32 o.c l))) s

/-- CLMP of an element (06 R199). -/
def clmpEl (ty : Ty) (a lo hi : Nat) : Elem :=
  if ty.isFloat then
    let f := (fmtT ty)
    let x := fmnx f true false a lo
    ⟨fmnx f false false x hi, false, false, (decodeF f x).isNan && (decodeF f hi).isNan⟩
  else
    let v (x : Nat) : Int := if ty.signed then sInt ty.w x else x
    Elem.plain (wrapN ty.w (min (max (v a) (v lo)) (v hi)))

/-- CLMP (06 R199). -/
def execClmp (o : OpR) (s : State) : Out :=
  laneR o 3 (fun c l =>
    let ty := tyOf o.m
    let a := c.w ty o.a l; let b := c.w ty o.b l; let x := c.w ty o.c l
    LaneOut.ofEls ty.packed (fun h => clmpEl ty (elOf ty a h) (elOf ty b h) (elOf ty x h))) s

/-- The scale operand of QNT and DQNT (06 R200): an E8M0 exponent or an F32 value; NaN for an E8M0 of 0xFF. -/
def scaleVal (f32 : Bool) (s : Word) : FV :=
  if f32 then decodeF .f32 s.toNat else CFmt.value .e8m0 s.toNat

/-- The floating format of a QNT code (06 R200). -/
def qntF (o : OpR) : Fmt := match mfield o.m 9 8 with | 0 => .e4m3 | 1 => .e5m2 | _ => .e2m1

/-- QNT (06 R200). -/
def execQnt (o : OpR) (s : State) : Out :=
  laneSlot o.g (srcRds o.a 2 ++ srcRds o.b ++ srcRds o.c) [dstNum o.d] (some (rndOf o.m)) false (fun c md =>
    c.putLanes (dstNum o.d) (fun l =>
      let a := c.w64 o.a l
      let sc := scaleVal (mbit o.m 7) (c.w .b32 o.b l)
      let el (k : Nat) (x : Word) : Elem :=
        roundF (qntF o) ⟨md, satOf o.m, false, false, c.sr md l k⟩ (FV.div (decodeF .f32 x.toNat) sc)
      outMerge (packBits (qntFmt o)) (mfield o.m 1 0) (c.w .b32 o.c l) (el 0 a.lo) (el 1 a.hi))) s

/-- DQNT (06 R200). -/
def execDqnt (o : OpR) (s : State) : Out :=
  let d := dstNum o.d
  laneSlot o.g (srcRds o.a ++ srcRds o.b) [d, d + 1] (some (rndOf o.m)) false (fun c md =>
    c.putLanes2 d (fun l =>
      let x := (c.w .b32 o.a l).toNat
      let w := packBits (qntFmt o)
      let sc := scaleVal (mbit o.m 7) (c.w .b32 o.b l)
      let el (k : Nat) : Elem :=
        roundF .f32 ⟨md, satOf o.m, c.ftz (nofOf o.m), false, c.sr md l k⟩
          (FV.mul (decodeF (qntF o) (x / 2 ^ (w * (2 * mfield o.m 1 0 + k)) % 2 ^ w)) sc)
      (LaneOut.ofEls false (fun _ => el 0), LaneOut.ofEls false (fun _ => el 1)))) s

/-- RAND (06 R201). -/
def execRand (o : OpR) (s : State) : Out :=
  let d := dstNum o.d
  let wide := mbit o.m 1
  laneSlot o.g [] (if wide then [d, d + 1] else [d]) none true (fun c _ =>
    let z (l : Nat) : DWord := gen c.g.sp.seed 0 (genLid c.s0 c.g) (BitVec.ofNat 64 (lambdaOf c.s0 c.g l)) c.g.sp.draw
    let s1 :=
      if wide then c.putLanes2 d (fun l => outs64 (z l))
      else if tyOf o.m = .f32 then
        c.putLanes d (fun l => LaneOut.ofEls false (fun _ => roundF .f32 RndCtl.rne (ofInt .rne (bits (z l).toNat 63 40) (-24))))
      else c.putLanes d (fun l => .plain (z l).lo)
    s1.count c.r.coreRef 2 3) s

/-- RDSR (06 R202). -/
def execRdsr (o : OpS) (s : State) : Out :=
  let d := dstNum o.d
  laneSlot o.g [] (if o.sub = 1 then [d, d + 1] else [d]) none false (fun c _ =>
    let v (l : Nat) : DWord := c.s0.special c.g c.sp o.imm.toNat l
    if o.sub = 1 then c.putLanes2 d (fun l => outs64 (v l)) else c.putLanes d (fun l => .plain (v l).lo)) s

end Sys2Proof.Machine
end

