-- ==== Sys2Proof/Machine/Windows.lean ====
section
/-! DEFINITION. The windows of the region tables as scratchpad accesses see them (10 R280 to R284), and writes that land
in mailbox registers (01 R16, R22). -/

namespace Sys2Proof.Machine

open Sys2Proof

/-- The region entry of a core. -/
def State.region (s : State) (k : CoreRef × Nat) : Region := s.regions.getD k default

/-- A region entry replaced. -/
def State.setRegion (s : State) (k : CoreRef × Nat) (r : Region) : State := { s with regions := s.regions.set k r }

/-- Chunks of a window (10 R280). -/
def Region.chunks (r : Region) : Nat := r.len / 512

/-- Chunk k has arrived. -/
def Region.has (r : Region) (k : Nat) : Bool := r.arrived.getLsbD k

/-- Chunk k was aborted. -/
def Region.lost (r : Region) (k : Nat) : Bool := r.aborted.getLsbD k

/-- A set of chunks with chunk k. -/
def setChunk (m : BitVec 128) (k : Nat) : BitVec 128 := m ||| BitVec.ofNat 128 (2 ^ k)

/-- The bound window with fills that covers an offset of a block's scratchpad allocation, and the chunk (10 R284). -/
def State.windowAt (s : State) (c : CoreRef) (lid blk off : Nat) : Option ((CoreRef × Nat) × Nat) :=
  match s.regions.find? (fun x =>
      x.1.1 = c && x.2.state != .free && x.2.lid = lid && x.2.blk = blk && x.2.dir != 1 &&
      x.2.woff ≤ off && off < x.2.woff + x.2.len) with
  | some x => some (x.1, (off - x.2.woff) / 512)
  | none => none

/-- A touch of chunk k waits: the chunk may still come (10 R284). -/
def Region.waits (r : Region) (k : Nat) : Bool :=
  !r.has k && !r.lost k &&
  (r.state == .absent || r.state == .filling || (match r.fill with | some t => t.flight.contains k | none => false))

/-- A fill begins with a chunk, the others following in increasing number (10 R282, R283). -/
def Region.begin (r : Region) (first : Nat) (g : Option GRef) (batch seq : Nat) : Region :=
  { r with
    state := .filling, arrived := 0, aborted := 0, fills := r.fills + 1,
    fill := some { g := g, batch := batch, seq := seq, todo := first :: (List.range r.chunks).filter (· ≠ first), flight := [],
                   done := [] } }

/-- The first touch of an ABSENT window with TOUCH = 1 begins its fill (10 R284). -/
def State.touchFill (s : State) (k : CoreRef × Nat) (chunk : Nat) : State :=
  let r := s.region k
  if r.state = .absent && r.touch then (s.setRegion k (r.begin chunk none 0 s.nextId)).count k.1 6 1 else s

/-- A lane waits on a chunk of a window. -/
def State.touchWaits (s : State) (op lane : Nat) : Bool :=
  s.regions.any (fun x => x.2.waiting.any (fun t => t.op = op && t.lane = lane))

/-! ### The order of an engine's chunks (10 R274) -/

/-- The engine of a die that serves a region entry's context, four contexts an engine (10 R274). -/
def engineOf (c : CoreRef) (r : Region) : Nat × Nat := (c.die, bits r.handle 15 8 / 4)

/-- A request of an engine is still in flight. -/
def State.engLive (s : State) (e : Nat × Nat) (q : EngReq) : Bool :=
  let r := s.region (q.c, q.n)
  engineOf q.c r == e && (match (if q.out then r.out else r.fill) with | some t => t.flight.contains q.k | none => false)

/-- The chunk waits for the answer to a fault record (10 R287, 14 R412). -/
def State.chunkAsks (s : State) (q : EngReq) : Bool := s.faults.any (fun f => f.joined.contains (.chunk q))

/-- Every chunk requested of the engine before this one is done, aborted, or waits for a page fault: an engine serves the
chunks of its contexts in the order of their requests (10 R274, R287, R288). -/
def State.engTurn (s : State) (q : EngReq) : Bool :=
  let e := engineOf q.c (s.region (q.c, q.n))
  ((s.engines.getD e []).takeWhile (· ≠ q)).all (fun p => !s.engLive e p || s.chunkAsks p)

/-! ### Serving touches -/

/-- The touches that wait on some chunks of a window are served (10 R284): their lanes may be performed, each in the order
its own accesses have. Loads served after an abort are counted. -/
def State.serveTouches (s : State) (k : CoreRef × Nat) (which : Nat → Bool) : State :=
  let r := s.region k
  let ts := r.waiting.filter (fun t => which t.chunk)
  let s1 := s.setRegion k { r with waiting := r.waiting.filter (fun t => !which t.chunk) }
  let loads := (ts.filter (fun t => r.lost t.chunk && s.ops.any (fun o => o.id = t.op && o.kind = .load))).length
  s1.count k.1 6 6 loads

end Sys2Proof.Machine
end

