-- ==== Sys2Proof/Machine/Access.lean ====
section
/-! DEFINITION. The access engine: what an access is, where it is performed and how it is issued (08 R229 to R249,
03 R62 to R76, 04 R106, R107, 12 R354). -/

namespace Sys2Proof.Machine

open Sys2Proof

/-! ### Forms -/

/-- The access a word makes: kind, space, whether B is an index, words of operand B, of data read from D and of the
destination, the wait counter, and the bytes of the access. -/
structure AccForm where
  o : OpM
  kind : AccKind
  space : Space
  idx : Bool
  bw : Nat
  dataW : Nat
  dataK : Bool
  destW : Nat
  destK : Bool
  ctr : Nat
  n : Nat
  deriving DecidableEq, Repr, Inhabited

/-- v registers of a size. -/
def vWords (n : Nat) : Nat := max 1 (n / 4)

/-- A load into v registers. -/
def loadForm (o : OpM) (k : AccKind) (sp : Space) : AccForm :=
  let n := sizeBytes o.size; ⟨o, k, sp, true, 0, 0, false, vWords n, false, 6, n⟩

/-- A store from v registers. -/
def storeForm (o : OpM) (k : AccKind) (sp : Space) : AccForm :=
  let n := sizeBytes o.size; ⟨o, k, sp, true, 0, vWords n, false, 0, false, 5, n⟩

/-- An atomic of a shape. -/
def atomForm (o : OpM) (k : AccKind) (sh : Option AtomShape) (ctr : Nat) : AccForm :=
  let x := sh.getD ⟨0, 0⟩
  ⟨o, k, .global, false, x.bw, 0, false, x.dw, false, ctr, sizeBytes o.size⟩

/-- RET of GADD and GMRG (12 R366). -/
def retBit (o : OpM) : Bool := o.evict.getLsbD 0

/-- The access a word makes (08 R229, R245, 12 R366). -/
def accForm (i : Instr) : Option AccForm :=
  match i with
  | .ldg o => some (loadForm o .load .global)
  | .lds o => some (loadForm o .load .scratch)
  | .ldw o => some (loadForm o .load .onchip)
  | .gthr o => some (loadForm o .gather .global)
  | .stg o => some (storeForm o .store .global)
  | .sts o => some (storeForm o .store .scratch)
  | .stw o => some (storeForm o .store .onchip)
  | .sctr o => some (storeForm o .scatter .global)
  | .ldk o => let n := sizeBytes o.size; some ⟨o, .ldk, .global, true, 0, 0, false, max 1 (n / 8), true, 6, n⟩
  | .stk o => let n := sizeBytes o.size; some ⟨o, .stk, .global, true, 0, max 1 (n / 8), true, 0, false, 5, n⟩
  | .wbk o | .inv o | .pref o => some ⟨o, .maint, .global, true, 0, 0, false, 0, false, 5, sizeBytes o.size⟩
  | .aadd o => some (atomForm o .atomic (aaddShape o) 6)
  | .afad o => some (atomForm o .atomic (afadShape o) 6)
  | .acad o => some (atomForm o .atomic (acadShape o) 6)
  | .amnx o => some (atomForm o .atomic (amnxShape o) 6)
  | .afmx o => some (atomForm o .atomic (afmxShape o) 6)
  | .amxi o => some (atomForm o .atomic (amxiShape o) 6)
  | .alop o => some (atomForm o .atomic (alopShape o) 6)
  | .axch o => some (atomForm o .atomic (axchShape o) 6)
  | .acas o => some (atomForm o .atomic (acasShape o) 6)
  | .ainc o => some (atomForm o .atomic (aincShape o) 6)
  | .ared o => some (atomForm o .ared (aredShape o) 5)
  | .waita o => some (atomForm o .waita (waitaShape o) 0)
  | .gld o => some ⟨o, .glide, .global, true, 0, 0, false, 1, false, 6, 8⟩
  | .gadd o => some ⟨o, .glide, .global, false, 1, 0, false, if retBit o then 1 else 0, false, if retBit o then 6 else 5, 8⟩
  | .gmrg o => some ⟨o, .glide, .global, false, 2, 0, false, if retBit o then 1 else 0, false, if retBit o then 6 else 5, 8⟩
  | .gset o => some ⟨o, .glide, .global, false, 2, 0, false, 0, false, 5, 8⟩
  | _ => none

/-- The registers an access reads (02 R44, R46). -/
def AccForm.rds (f : AccForm) : List Rd :=
  srcRds f.o.a 2 ++ srcRds f.o.b (if f.idx then 1 else f.bw) ++
    (List.range f.dataW).map (fun i => ⟨f.dataK, dstNum f.o.d + i, false, false⟩)

/-- The v registers an access writes. -/
def AccForm.dests (f : AccForm) : List Nat :=
  if f.destK then [] else (List.range f.destW).map (fun i => dstNum f.o.d + i)

/-- The access changes memory. -/
def AccForm.writes (f : AccForm) : Bool :=
  match f.kind with
  | .store | .scatter | .stk | .atomic | .ared => true
  | .glide => f.ctr == 5 || f.bw != 0
  | _ => false

/-- Instruction GLD. -/
def isGld (i : Instr) : Bool := match i with | .gld _ => true | _ => false

/-- The operation changes memory. -/
def MemOp.writes (o : MemOp) : Bool := match accForm o.ins with | some f => f.writes | none => false

/-- The address of a lane (02 R46; 08 R244 for atomics). -/
def Ctx.accAddr (c : Ctx) (f : AccForm) (l : Nat) : Nat :=
  let base : Int := (c.w64 f.o.a l).toNat
  let ix : Int := if f.idx then (c.w .b32 f.o.b l).toInt else 0
  ((base + (ix + f.o.off.toInt) * (f.n : Int)) % (2 ^ 64 : Int)).toNat

/-- The operand bytes of a lane: the data of a store, or operand B of an atomic. -/
def Ctx.accData (c : Ctx) (f : AccForm) (l : Nat) : List Byte :=
  if f.dataW ≠ 0 then
    ((List.range f.dataW).flatMap (fun i =>
      if f.dataK then natToBytes 8 (c.k (dstNum f.o.d + i)).toNat else natToBytes 4 (c.v (dstNum f.o.d + i) l).toNat)).take f.n
  else if f.idx then []
  else
    match srcK f.o.b.opnd with
    | .v n => (List.range f.bw).flatMap (fun i => natToBytes 4 (c.v (n + i) l).toNat)
    | .k n => natToBytes (4 * f.bw) (c.k n).toNat
    | _ => natToBytes (4 * f.bw) (c.w .f32 f.o.b l).toNat

/-! ### Addresses -/

/-- The pack of a pack wave. -/
def State.packOf (s : State) (g : Group) : Option Pack :=
  match g.kind with | .pack id => s.packs.find? (fun p => p.id = id) | _ => none

/-- A range lies in the state range of a pack (12 R354). -/
def Pack.covers (p : Pack) (a n : Nat) : Bool := decide (p.home ≤ a && a + n ≤ p.home + p.slen)

/-- The form updates a compensated pair (08 R246, R248): ACAD alone reads a pair of 4-byte words into a pair. -/
def AccForm.isPair (f : AccForm) : Bool :=
  (f.kind == .atomic && f.n == 4 && f.destW == 2) || (f.kind == .ared && f.o.evict == 5)

/-- The check of R230 that a lane's address fails first (08 R230, R244, 12 R354, R366). -/
def State.accCheck (s : State) (g : Group) (f : AccForm) (a : Nat) : Option Cause :=
  let scr := (s.recOf g).scratch
  let reach := match f.space with
    | .global =>
      if f.kind = .atomic || f.kind = .ared || f.kind = .waita then
        decide (a < 2 ^ 56) && (!apertureVa a || s.ocLegal g.lid (a % 2 ^ 40) f.n)
      else globalVa a
    | .scratch => decide (a < scr)
    | .onchip => decide (a < 2 ^ 40) && s.ocLegal g.lid a f.n
  let pair := f.isPair && g.sp.caoff != 0 && g.sp.caoff.toNat % 2 ^ 32 == 0
  let a2 := if apertureVa a then 2 ^ 56 - 2 ^ 40 + (a + g.sp.caoff.toNat) % 2 ^ 40 else (a + g.sp.caoff.toNat) % 2 ^ 64
  let reach2 := !pair || (decide (a2 < 2 ^ 56) && (!apertureVa a2 || s.ocLegal g.lid (a2 % 2 ^ 40) 4))
  let own := match s.packOf g with
    | some p => p.committed || !f.writes || (p.covers a f.n && (!pair || p.covers a2 4))
    | none => true
  if !reach || !reach2 then some .access
  else if f.kind ≠ .maint && a % f.n ≠ 0 then some .misalign
  else if !own then some .access
  else none

/-- Some byte of a range lies in the state range of a pack that has committed (12 R355). -/
def State.lateAccess (s : State) (g : Group) (as : List Nat) (n : Nat) : Bool :=
  match s.packOf g with
  | some p => p.committed && as.any (fun a => decide (a < p.home + p.slen && p.home < a + n))
  | none => false

/-- The trap of a slot whose lanes have these addresses: of the causes its lanes raise, the one of the lowest rank
(05 R131). -/
def State.accTrap (s : State) (g : Group) (f : AccForm) (as : List Nat) : Option Cause :=
  let cs := as.filterMap (s.accCheck g f)
  if cs.contains .misalign then some .misalign else if cs.contains .access then some .access else none

/-! ### Order within a lane (03 R61 to R64) -/

/-- The access updates a compensated pair (08 R246, R248). -/
def MemOp.isPair (o : MemOp) : Bool :=
  match o.ins with | .acad _ => true | .ared q => q.evict == 5 | _ => false

/-- The ranges of bytes of a lane's access: two words for a compensated pair (08 R246). -/
def MemOp.spans (o : MemOp) (l : LaneAcc) : List (Nat × Nat) :=
  let a := (o.oc l).getD l.addr
  if o.isPair then
    [(a, 4), (if (o.oc l).isSome then (a + o.caoff.toNat) % 2 ^ 40 else (a + o.caoff.toNat) % 2 ^ 64, 4)]
  else [(a, o.size)]

/-- Two lanes' accesses touch a byte in common. -/
def touchSame (o : MemOp) (l : LaneAcc) (p : MemOp) (k : LaneAcc) : Bool :=
  (o.oc l).isSome == (p.oc k).isSome && (o.spans l).any (fun x => (p.spans k).any (fun y => meet x.1 x.2 y.1 y.2))

/-- The lane's earlier accesses to the same bytes are performed, a write of them that a migration holds included
(03 R61, R63, 14 R414). -/
def State.laneClear (s : State) (o : MemOp) (l : LaneAcc) : Bool :=
  s.ops.all (fun p => !(p.g == o.g && decide (p.id < o.id)) ||
    p.lanes.all (fun k => k.lane != l.lane || k.isDone || !touchSame o l p k)) &&
  ((o.oc l).isSome || (o.spans l).all (fun x => !s.heldOf o.g l.lane o.asid x.1 x.2))

/-- Writes of a group's lane are still on their way: to the home slice from a quad unit, or held by a migration. -/
def State.laneSending (s : State) (g : GRef) (lane : Nat) : Bool :=
  s.quadWrites.any (fun w => w.g == g && w.lanes.contains lane) ||
  s.migrs.any (fun m => m.held.any (fun h => h.src.contains (.lane g lane)))

/-- Every earlier access of the lane is performed, and what it wrote has reached its point of order or its mailbox
(03 R66, R72). -/
def State.laneDrained (s : State) (o : MemOp) (l : LaneAcc) : Bool :=
  s.ops.all (fun p => !(p.g == o.g && decide (p.id < o.id)) || p.lanes.all (fun k => k.lane != l.lane || k.isDone)) &&
  !s.laneSending o.g l.lane && s.mbox.all (fun w => !(w.src == o.g && decide (w.op < o.id)))

/-- What an engine operation issued at `before` reads in some ranges is written: every earlier write of the group there is
performed, and has reached the home slice or its storage (03 R75). `chip` tells whether the ranges are on-chip. -/
def State.sourcesDone (s : State) (r : GRef) (chip : Bool) (rs : List (Nat × Nat)) (before : Nat) : Bool :=
  let hit (a n : Nat) : Bool := rs.any (fun y => meet a n y.1 y.2)
  s.ops.all (fun p => !(p.g == r && p.writes && decide (p.id < before)) ||
    p.lanes.all (fun k => k.isDone || (p.oc k).isSome != chip || !(p.spans k).any (fun x => hit x.1 x.2))) &&
  (if chip then s.mbox.all (fun w => !(w.src == r && decide (w.op < before)))
   else s.quadWrites.all (fun w => !(w.g == r && hit w.addr w.bytes.length)) &&
     s.migrs.all (fun m => m.held.all (fun h => !h.src.any (fun x => match x with | .lane g _ => g == r | _ => false) ||
       !rs.any (fun y => h.touches (s.primary r.die h.asid y.1) y.2))))

/-! ### Bindings (03 R68, R69) -/

/-- The bindings a core uses: the old set until the change reaches it. -/
def State.bindingsAt (s : State) (lid : Nat) (c : CoreRef) : List Binding :=
  match s.launch? lid with
  | none => []
  | some l => match l.change with
    | some ch => if ch.left.contains c then ch.old else l.bindings
    | none => l.bindings

/-- The binding set of an object at a scope; none is all memory (03 R68). -/
def bindRanges (bs : List Binding) (obj scope : Nat) : Option (List (Nat × Nat)) :=
  match bs.filter (fun b => b.obj = obj && scope ≤ b.scope) with
  | [] => none
  | xs => some (xs.map (fun b => (b.base, b.len)))

/-- The object of a sync word (08 R243). -/
def syncObj (a : Nat) : Nat := 7 * 2 ^ 20 + bits a 16 7

/-- The work of a release at a scope (03 R72): nothing at core scope. -/
def State.releaseAt (s : State) (c : CoreRef) (asid scope : Nat) (rs : Option (List (Nat × Nat))) : State :=
  if scope = 0 || !hasL1 c then s else s.l1Release c asid rs

/-- The work of an acquire at a scope (03 R72, R75 for an engine's release). -/
def State.acquireAt (s : State) (c : CoreRef) (asid scope : Nat) (rs : Option (List (Nat × Nat))) (engine : Bool) : State :=
  if (scope = 0 && !engine) || !hasL1 c then s else s.l1Acquire c asid rs

/-- A lane's access releases: by its ORD or by an FNC before it (03 R66, R76). -/
def MemOp.releases (o : MemOp) (l : LaneAcc) : Bool := o.writes && (2 ≤ o.ord || l.fence.isSome)

/-- The release work of a lane's access (03 R72). A sync word in a scratchpad is of the class of its address in the on-chip map
(DEDUCED, log 138). -/
def State.releaseFor (s : State) (o : MemOp) (l : LaneAcc) : State :=
  let c := o.g.coreRef
  let s1 := match l.fence with | some sc => s.releaseAt c o.asid sc none | none => s
  if 2 ≤ o.ord && o.writes then
    s1.releaseAt c o.asid o.scope (bindRanges (s.bindingsAt o.lid c) (syncObj l.addr) o.scope)
  else s1

/-- A lane has read a word that an engine's signal wrote last: what it read is what the word's place holds (03 R75). -/
def State.sawEngine (s : State) (o : MemOp) (l : LaneAcc) (reply : List Byte) : Bool :=
  !s.engWords.isEmpty && (o.oc l).isNone &&
  (let k := s.primary o.g.die o.asid l.addr
   s.engWords.any (fun w => w.1 == k.1 && meet w.2 8 k.2 o.size) && decide (reply = s.homeRead o.g.die o.asid l.addr o.size))

/-- Lanes of an access that have landed: those that saw an engine's signal are remembered for an FNC acquire (03 R75, R76;
log 124). -/
def State.engLanded (s : State) (o : MemOp) (ls : List LaneAcc) : State :=
  if ls.all (fun l => !l.eng) then s
  else s.modGroup o.g (fun g => { g with
    engSeen := ls.foldl (fun m l => if l.eng then m ||| BitVec.ofNat 32 (2 ^ l.lane) else m) g.engSeen })

/-- The acquire work of an access whose lanes have landed (03 R72): at core scope nothing is invalidated unless the lane saw
an engine's release (R75). -/
def State.acquireFor (s : State) (o : MemOp) : State :=
  if o.ord % 2 = 1 then
    o.lanes.foldl (fun (s : State) l =>
      s.acquireAt o.g.coreRef o.asid o.scope (bindRanges (s.bindingsAt o.lid o.g.coreRef) (syncObj l.addr) o.scope) l.eng) s
  else s

/-! ### Where an access is performed (03 R58, R73) -/

/-- Places that perform accesses. -/
inductive PlaceK where
  /-- on-chip storage -/
  | chip
  /-- the view of the issuing pack (12 R354) -/
  | view
  /-- plain, through the L1D -/
  | cache
  /-- the merge buffer of a piste block (04 R106, R107) -/
  | merge
  /-- the L1 atomic unit -/
  | l1
  | quad | home | port
  /-- the base die of a stack -/
  | stack
  /-- the port register block -/
  | regs
  deriving DecidableEq, Repr, Inhabited

/-- A port register as a group reads it (14 R430); the registers that are only written read 0. A privileged group reads as
the owner. -/
def State.portReg (s : State) (off : Nat) : DWord :=
  let r := s.regs
  let b (x : Bool) (n : Nat) : Nat := if x then n else 0
  match off with
  | 0x000 => BitVec.ofNat 64 (b r.ready 1 + b r.fwfail 2 + b r.pfail 4 + r.failStage * 16 + (s.parts.length - 1) * 256)
  | 0x008 | 0x018 => BitVec.ofNat 64 r.owner
  | 0x020 => r.partcfg.setWidth 64
  | 0x028 => r.ctxbase
  | 0x030 => r.fqbase
  | 0x038 => r.fqhead
  | 0x050 => r.shootva
  | 0x058 => r.shootlen
  | 0x060 => r.shootdone
  | 0x068 => r.dlmax
  | 0x078 => r.route
  | 0x090 => r.nonowner
  | _ => 0

/-- Bytes of the port registers from an address. -/
def State.portBytes (s : State) (va n : Nat) : List Byte :=
  (List.range n).map (fun i =>
    let a := (va + i) % 2 ^ 16
    (natToBytes 8 (s.portReg (a / 8 * 8)).toNat).getD (a % 8) 0)

/-- Bytes written to the port registers: one write of each register they touch, on its way (14 R429, R430). -/
def State.portSend (s : State) (op va : Nat) (bs : List Byte) : State :=
  let a := va % 2 ^ 16
  let offs := (List.range (bs.length / 8 + 2)).map (fun i => a / 8 * 8 + 8 * i) |>.filter (fun x => x < a + bs.length)
  let word (x : Nat) : DWord :=
    let old := natToBytes 8 (s.portReg x).toNat
    BitVec.ofNat 64 (bytesToNat ((List.range 8).map (fun i =>
      if a ≤ x + i && x + i < a + bs.length then bs.getD (x + i - a) 0 else old.getD i 0)))
  { s with portWrites := s.portWrites ++ offs.map (fun x => ⟨op, x, word x⟩) }

/-- The access is an atomic in the sense of 03 R73. -/
def MemOp.isAtomic (o : MemOp) : Bool :=
  match o.kind with | .atomic | .ared | .glide | .waita => true | _ => false

/-- A float or `.cadd` ARED, which a piste launch holds in its merge buffer (04 R107). -/
def MemOp.isFloatAred (o : MemOp) : Bool := match o.ins with | .ared q => decide (2 ≤ q.evict.toNat) | _ => false

/-- The access stores without ORD: STG, SCTR or STK with ORD 00, fenced or not. STK obeys every other rule of STG
(08 R236, R237), the merge buffer of a piste block among them (log 125). -/
def MemOp.plainStore (o : MemOp) : Bool := o.ord == 0 && (o.kind == .store || o.kind == .scatter || o.kind == .stk)

/-- The place of a lane's access. An access with ORD and an atomic are performed at their own SCOPE; a plain store that an
FNC makes a release is performed at the fence's (03 R73, R76; log 111), in a piste launch in the merge buffer (04 R106). -/
def State.placeFor (s : State) (o : MemOp) (l : LaneAcc) : PlaceK :=
  if o.isFloatAred && o.piste then .merge
  else if (o.oc l).isSome then .chip
  else if portBlock o.asid l.addr then .regs
  else
    let pk := match s.group? o.g with | some g => s.packOf g | none => none
    let inView := match pk with | some p => !p.committed && p.covers l.addr o.size | none => false
    if inView then .view
    else
      let gd := match s.xlate o.g.die o.asid l.addr with | .ok x => leafGd x.leaf | _ => false
      let sync := o.ord ≠ 0 || l.fence.isSome || o.isAtomic
      if o.plainStore && o.piste then .merge
      else if o.kind = .gather || (o.kind = .scatter && gd && !sync) then .stack
      else if !sync then .cache
      else
        match (if o.ord = 0 && !o.isAtomic then l.fence.getD o.scope else o.scope) with
        | 0 => if hasL1 o.g.coreRef then .l1 else .home
        | 1 => if hasL1 o.g.coreRef then .quad else .home
        | 2 | 3 => .home
        | _ => .port

/-- What an access does to lines (08 R235, 03 R82): whether the L1D allocates, its priority there and in the slice, whether
the page's policy overrides EVICT, whether the access is the last use. -/
structure Policy where
  alloc : Bool
  l1 : Nat
  sl : Nat
  conflict : Bool
  last : Bool
  deriving DecidableEq, Repr, Inhabited

/-- EVICT under the page's policy (08 R235, 03 R82). -/
def policyOf (pol ev : Nat) : Policy :=
  if ev = 0 then ⟨pol ≠ 6, codePrio pol, codePrio pol, false, false⟩
  else if pol = 6 && ev ≤ 5 then ⟨false, codePrio ev, codePrio ev, true, false⟩
  else if pol = 1 && (ev = 4 || ev = 5) then ⟨true, 0, 0, true, false⟩
  else ⟨ev ≠ 6 && pol ≠ 6, codePrio ev, codePrio ev, false, decide (ev = 7)⟩

/-- The policy of an access to an address: atomics follow the page's default (08 R244). -/
def State.policyAt (s : State) (o : MemOp) (a : Nat) : Policy :=
  let pol := match s.xlate o.g.die o.asid a with | .ok x => leafPol x.leaf | _ => 0
  policyOf pol (if o.isAtomic then 0 else o.evict)

/-- A line's replacement priority after an access to it, at most 6 of a set's 8 ways kept (08 R235); after its last use a
dirty line is written back before it is demoted (03 R82). -/
def State.touchPrio (s : State) (c : CoreRef) (asid a : Nat) (p : Policy) : State :=
  let ways := (s.l1Lines c).filter (fun l => l1Set l.line = l1Set (a / 128) && !(l.asid = asid && l.line = a / 128))
  if (findLine (s.l1Lines c) asid a).isNone then s
  else
    let s1 := if p.last then s.l1WriteBack c asid a false else s
    s1.setL1 c (modLine (s1.l1Lines c) asid a (fun l => { l with prio := keepPrio ways 6 p.l1 }))

/-! ### The merge buffer of a piste block (04 R106 to R108) -/

/-- mix of R108. -/
def mixDigest (a : Nat) (v : Byte) : DWord :=
  let z : DWord := BitVec.ofNat 64 (a % 2 ^ 56 * 256 + v.toNat)
  let z := (z ^^^ (z >>> 30)) * 0x9A3C5E71D2B40F63
  let z := (z ^^^ (z >>> 27)) * 0xC7E12B956F0D83A5
  z ^^^ (z >>> 31)

/-- Sectors that hold entries of a block's merge buffer. -/
def Block.sectors (b : Block) : List Nat :=
  ((b.merge.map (fun (m : MergeByte) => m.addr / 16)) ++ (b.areds.map (fun (h : HeldAred) => h.addr / 16))).dedup

/-- Sectors of the buffered stores and AREDs of a block that have not been performed yet. -/
def State.pendingSectors (s : State) (lid blk : Nat) : List Nat :=
  s.ops.flatMap (fun o => match s.group? o.g with
    | some g =>
      if g.lid = lid && g.blk = blk then
        (o.lanes.filter (fun l => !l.isDone && s.placeFor o l == .merge)).map (fun l => l.addr / 16)
      else []
    | none => [])

/-- The buffer has room for the sectors of some addresses (04 R106). -/
def State.mergeRoom (s : State) (g : Group) (as : List Nat) : Bool :=
  match s.blockOf g with
  | none => true
  | some b => decide ((b.sectors ++ s.pendingSectors g.lid g.blk ++ as.map (· / 16)).dedup.length ≤ 512)

/-- Bytes committed to the merge buffer of a group's block: a lane's last store is kept, and the digest of the open
task takes each byte (04 R106, R108). The operand of a held ARED is not folded: R108 speaks of bytes committed to the buffer,
and what an ARED adds is made only at the epoch's end (log 126). -/
def Block.commit (b : Block) (a lam : Nat) (bs : List Byte) : Block :=
  (bs.zipIdx).foldl (fun (b : Block) x =>
    let e : MergeByte := { addr := a + x.2, val := x.1, lam := lam, task := b.task }
    { b with
      merge := b.merge.filter (fun m => !(m.addr = e.addr && m.lam = lam && m.task = b.task)) ++ [e],
      dig := if b.task.isSome then b.dig + mixDigest e.addr x.1 else b.dig }) b

/-- The byte that some entries hold at an address: the one of the highest λ, the latest of a lane (04 R106). -/
def mergedByte (ms : List MergeByte) (a : Nat) : Option Byte :=
  (ms.filter (fun m => m.addr = a)).foldl (fun (best : Option MergeByte) m =>
    match best with | some y => if y.lam ≤ m.lam then some m else best | none => some m) none |>.map (·.val)

/-- The byte of the block's own buffer at an address: of the current epoch, else of the latest one that has ended and is not
merged yet (04 R106). -/
def Block.ownByte (b : Block) (a : Nat) : Option Byte :=
  ((b.epochs.map (·.bytes)) ++ [b.merge]).reverse.findSome? (fun ms => mergedByte ms a)

/-- The bytes of a load with those of its block's merge buffer over them (04 R106): an atomic does not see the buffer
(R107). -/
def State.overlay (s : State) (o : MemOp) (a : Nat) (bs : List Byte) : List Byte :=
  match o.kind with
  | .load | .ldk | .gather =>
    match s.group? o.g with
    | none => bs
    | some g =>
      if s.pisteOf g then
        match s.blockOf g with
        | some b => (bs.zipIdx).map (fun x => (b.ownByte (a + x.2)).getD x.1)
        | none => bs
      else bs
  | _ => bs

/-! ### Reading and writing at a place -/

/-- The quad atomic unit keeps exactly this word. -/
def State.quadKept (s : State) (q : Nat × Nat) (asid a n : Nat) : Option QuadCopy :=
  (s.quadCopies.getD q []).find? (fun x => x.asid = asid && x.addr = a && x.bytes.length = n)

/-- A word of a quad atomic unit: its copy, else the home slice's, which fills the copy at first use (03 R73). -/
def State.quadRead (s : State) (q : Nat × Nat) (asid a n : Nat) : List Byte :=
  match s.quadKept q asid a n with
  | some x => x.bytes
  | none => s.homeRead q.1 asid a n

/-- A word kept by a quad atomic unit, in place of what it kept of those bytes. -/
def State.quadPut (s : State) (q : Nat × Nat) (asid a : Nat) (bs : List Byte) : State :=
  let s1 := s.quadForget q asid a bs.length
  { s1 with quadCopies := s1.quadCopies.set q (⟨asid, a, bs⟩ :: s1.quadCopies.getD q []) }

/-- While a module is installed, what a store leaves in an L1D's line is kept for a later fetch, as what was stored (05 R144). -/
def State.codeSee (s : State) (c : CoreRef) (asid a : Nat) : State :=
  if s.modAt.isEmpty then s
  else s.codeKeep (s.codeKey c.die asid a) ((List.range 16).map (fun i =>
    BitVec.ofNat 64 (bytesToNat (s.l1Read c asid (a / 128 * 128 + 8 * i) 8))))

/-- A store in the L1D (08 R232): the bytes become valid and dirty; under no-allocate a miss goes to the slice, and a
gather-direct page is written through with the line kept clean (R239), without the bytes while a migration holds the write
(14 R414). What goes beyond the L1D is not kept by the quad's unit any longer (03 R61, R82; log 110). -/
def State.l1Store (s : State) (c : CoreRef) (asid a : Nat) (bs : List Byte) (p : Policy) (leaf : DWord) : State :=
  let put (s : State) (f : Line → Nat → Byte → Line) : State :=
    (bs.zipIdx).foldl (fun (s : State) x =>
      s.setL1 c (modLine (s.l1Lines c) asid (a + x.2) (fun l => f l ((a + x.2) % 128) x.1))) s
  let moves := match s.xlate c.die asid a with | .ok x => (s.migrOf (s.memKey x)).isSome | _ => false
  let through (l : Line) (off : Nat) (b : Byte) : Line :=
    { l with dirty := bmErase l.dirty off, clean := if moves then bmErase l.clean off else bmSet l.clean off b }
  let whole (s : State) : State :=
    if bs.length = 16 then s.setL1 c (modLine (s.l1Lines c) asid a (fun l =>
      { l with poison := l.poison.filter (· ≠ a % 128 / 16) })) else s
  if !hasL1 c then (s.homeWrite c.die asid a bs).sliceTouch c.die asid a p.sl p.last
  else if leafGd leaf || !p.alloc then
    (((put s through).quadForget (c.die, quadOf c.core) asid a bs.length).homeWrite c.die asid a bs).sliceTouch c.die asid a p.sl p.last
  else ((whole (put (s.l1Alloc c asid a p.l1 leaf) Line.putDirty)).touchPrio c asid a p).codeSee c asid a

/-- The leaf of an address; a writable page's when no translation is found. -/
def State.leafOr (s : State) (die asid a : Nat) : DWord :=
  match s.xlate die asid a with | .ok x => x.leaf | _ => 0x13

/-- The filter of the 32 most recently filled read-only pages of a core (08 R233). -/
def State.roFilled (s : State) (c : CoreRef) (asid a : Nat) (leaf : DWord) : State :=
  if leafW leaf then s
  else
    let pages := (asid, a / 2 ^ 16) :: (s.roFilter.getD c []).filter (fun x => x ≠ (asid, a / 2 ^ 16))
    { s with roFilter := s.roFilter.set c (pages.take 32) }

/-- The sector of an address is filled into the slice and the L1D: the bytes fetched replace every byte of the sector that
is not dirty (08 R232, 03 R65), and the line takes the access's priority in both (08 R235). -/
def State.l1Fill (s : State) (c : CoreRef) (asid a : Nat) (p : Policy) : State :=
  let s1 := (s.sliceFill c.die asid a p.sl).sliceTouch c.die asid a p.sl p.last
  if !hasL1 c || !p.alloc then s1
  else
    let leaf := s.leafOr c.die asid a
    let s2 := s1.l1Alloc c asid a p.l1 leaf
    let base := a / 16 * 16
    let s3 := s2.setL1 c (modLine (s2.l1Lines c) asid a (fun l =>
      (List.range 16).foldl (fun l i => l.putClean (base % 128 + i) (s2.homeByte c.die asid (base + i))) l))
    (s3.roFilled c asid a leaf).touchPrio c asid a p

/-- The peer that a load miss to a page of the filter probes first: the core of the quad that last supplied a line of a
page, else core xor 1 (08 R233). -/
def State.peerOf (s : State) (c : CoreRef) : CoreRef :=
  { c with core := match s.lastPeer.get? c with
    | some p => if quadOf p = quadOf c.core && p ≠ c.core then p else c.core ^^^ 1
    | none => c.core ^^^ 1 }

/-- PEER FILL (08 R233): a load miss to a read-only page of the filter whose line a peer holds, the bytes asked for
included and no sector of it poisoned, is filled from the peer; none when it goes to the home slice. The rule says only 'if the
peer holds the line': a line with not all the bytes, or a poisoned one, counts as not held (log 127). An access that allocates
nothing is served and counted, and its L1D takes no line. -/
def State.peerFill (s : State) (c : CoreRef) (asid a n : Nat) (p : Policy) : Option State :=
  if !hasL1 c || s.l1Holds c asid a n || !(s.roFilter.getD c []).contains (asid, a / 2 ^ 16) then none
  else
    let peer := s.peerOf c
    match findLine (s.l1Lines peer) asid a with
    | none => none
    | some ln =>
      if !ln.ro || !ln.poison.isEmpty || !s.l1Holds peer asid a n then none
      else if !p.alloc then some ({ s with lastPeer := s.lastPeer.set c peer.core }.count c 4 4)
      else
        let leaf := s.leafOr c.die asid a
        let s1 := s.l1Alloc c asid a p.l1 leaf
        let s2 := s1.setL1 c (modLine (s1.l1Lines c) asid a (fun x =>
          (List.range 128).foldl (fun x i => match ln.byte? i with | some b => x.putClean i b | none => x) x))
        some (((({ s2 with lastPeer := s2.lastPeer.set c peer.core }.roFilled c asid a leaf).touchPrio c asid a p)).count c 4 4)

/-- n bytes at a place. -/
def State.placeRead (s : State) (o : MemOp) (p : PlaceK) (a n : Nat) : List Byte :=
  let c := o.g.coreRef
  match p with
  | .chip => s.ocRead a n
  | .view =>
    let buf := match s.group? o.g with | some g => ((s.packOf g).map (·.buf)).getD [] | none => []
    (List.range n).map (fun i => (bmGet? buf (a + i)).getD (s.homeByte c.die o.asid (a + i)))
  | .cache | .l1 => s.overlay o a (s.l1Read c o.asid a n)
  | .quad => s.overlay o a (s.quadRead (c.die, quadOf c.core) o.asid a n)
  | .home | .port => s.overlay o a (s.homeRead c.die o.asid a n)
  | .merge => []
  | .regs => s.portBytes a n
  | .stack =>
    match s.xlate c.die o.asid a with
    | .ok x => s.overlay o a (memRead s.hbm (s.memKey x) n)
    | _ => List.replicate n 0

/-- Bytes written at a place, by the lanes whose access it is. -/
def State.placeWrite (s : State) (o : MemOp) (p : PlaceK) (a : Nat) (bs : List Byte) (lanes : List Nat) : State :=
  let c := o.g.coreRef
  match p with
  | .chip => s.ocStore a bs
  | .view =>
    match s.group? o.g with
    | some g => match g.kind with
      | .pack id => { s with packs := s.packs.map (fun k =>
          if k.id = id then { k with buf := (bs.zipIdx).foldl (fun m x => bmSet m (a + x.2) x.1) k.buf } else k) }
      | _ => s
    | none => s
  | .cache => s.l1Store c o.asid a bs (s.policyAt o a) (s.leafOr c.die o.asid a)
  | .merge =>
    match s.group? o.g with
    | some g => s.modBlock g.lid g.blk (fun b =>
        if o.isFloatAred then
          { b with areds := b.areds ++ [{ lam := o.lam0 + lanes.headD 0, addr := a, ins := o.ins, data := bs, caoff := o.caoff,
                                          rmode := o.rmode, task := b.task }] }
        else b.commit a (o.lam0 + lanes.headD 0) bs)
    | none => s
  | .l1 => s.l1Store c o.asid a bs { s.policyAt o a with alloc := true } (s.leafOr c.die o.asid a)
  | .quad =>
    let q := (c.die, quadOf c.core)
    let (id, s2) := (s.quadPut q o.asid a bs).fresh
    { s2 with quadWrites := s2.quadWrites ++ [⟨id, q.1, q.2, o.asid, a, bs, o.g, lanes⟩] }
  | .home | .port | .stack =>
    (s.homeWrite c.die o.asid a bs).sliceTouch c.die o.asid a (s.policyAt o a).sl (s.policyAt o a).last
  | .regs => s.portSend o.id a bs

/-! ### What an access makes of a word -/

/-- The random bits of element h of a lane's float atomic (06 R180 domain 6). -/
def MemOp.rnd (o : MemOp) (lane h : Nat) : Nat :=
  srBits (gen (srKey o.seed o.rmode) 6 o.glid (BitVec.ofNat 64 (2 * (o.lam0 + lane) + h)) o.draw)

/-- The rounding mode sampled at issue (06 R175). -/
def MemOp.mode (o : MemOp) : Rm := (rmOf (bits o.rmode.toNat 2 0)).getD .rne

/-- A float add of an atomic with the control sampled at issue (08 R245, R248). -/
def MemOp.fadd (o : MemOp) (code lane old b : Nat) : Nat :=
  atomFadd (fmtCode code) o.mode (o.rmode.getLsbD 4) (o.rnd lane) old b

/-- The new bytes an access leaves in place of the old ones, none for a read, and its reply (08 R236, R245 to R249,
12 R367 to R370). The pair atomics are performed by `performPair`. -/
def MemOp.apply (o : MemOp) (l : LaneAcc) (step : Word) (ft : List Word) (old : List Byte) : Option (List Byte) × List Byte :=
  let x := bytesToNat old
  let b := bytesToNat l.data
  let w (v : Nat) : Option (List Byte) × List Byte := (some (natToBytes o.size v), old)
  match o.ins with
  | .aadd q => w (atomAdd q.evict.toNat o.size x b)
  | .afad q => w (o.fadd q.evict.toNat l.lane x b)
  | .amnx q => w (atomMnx q.evict.toNat o.size x b)
  | .afmx q => w (atomFmx q.evict.toNat x b)
  | .amxi q => w (atomMxi q.evict.toNat x b)
  | .alop q => w (atomLop q.evict.toNat x b)
  | .axch _ => w b
  | .acas _ => w (atomCas o.size x b)
  | .ainc q => w (atomInc q.evict.toNat x b)
  | .ared q =>
    match q.evict.toNat with
    | 0 => w (atomAdd 0 4 x b)
    | 1 => w (atomAdd 1 8 x b)
    | k => w (o.fadd (k - 2) l.lane x b)
  | .gld _ => (none, natToBytes 4 (decayTo x step.toNat ft))
  | .gadd _ => let v := glideAdd x b step.toNat ft; (some (natToBytes 8 v), natToBytes 4 (gValue v))
  | .gmrg _ => let v := glideMerge x b ft; (some (natToBytes 8 v), natToBytes 4 (gValue v))
  | .gset q => (some (natToBytes 8 (glideSet b step.toNat (q.evict.getLsbD 1))), [])
  | _ => if o.writes then (some l.data, []) else (none, old)

/-- The step register's copy at a place (12 R364). -/
def State.stepFor (s : State) (o : MemOp) (p : PlaceK) (a : Nat) : Word :=
  match p with
  | .home | .port => let h := s.homeOf o.g.die o.asid a; s.stepAt o.asid (.slice h.1 h.2)
  | _ => s.stepAt o.asid (placeOf o.g.coreRef)

/-- The factor table a glide operation of a group uses (12 R363): its launch's, or the registering launch's in a pack
wave (12 R353). -/
def State.factorsOf (s : State) (o : MemOp) : List Word :=
  match s.launch? o.lid with | some l => l.ft | none => []

/-- The bytes of an address lie in a slice's line. -/
def State.sliceHolds (s : State) (die asid a n : Nat) : Bool :=
  match findLine (s.sliceLines (s.homeOf die asid a)) asid a with
  | some ln => (List.range n).all (fun i => (ln.byte? ((a + i) % 128)).isSome)
  | none => false

/-- A load miss of `lanes` lanes is filled: by a peer, or from the home slice, which counts the misses it serves
(08 R232, R233, R250). An atomic's miss never uses a peer. -/
def State.missFill (s : State) (o : MemOp) (a n lanes : Nat) (p : Policy) : State :=
  let c := o.g.coreRef
  match (if o.isAtomic || o.writes then none else s.peerFill c o.asid a n p) with
  | some s1 => s1
  | none => (s.count c 4 5 (if s.sliceHolds c.die o.asid a n then lanes else 0)).l1Fill c o.asid a p

/-- What a place does before it performs an access to some bytes: the L1 atomic unit fetches the line; beyond the L1D, the
core's own copy of the bytes goes home and leaves, and the quad unit fills its copy or, when the access is performed
elsewhere, gives it up (03 R61, R63, R73; log 110). -/
def State.reach (s : State) (o : MemOp) (p : PlaceK) (a n : Nat) : State :=
  let c := o.g.coreRef
  let q := (c.die, quadOf c.core)
  match p with
  | .l1 => if s.l1Holds c o.asid a n then s else s.missFill o a n 1 { s.policyAt o a with alloc := true }
  | .quad =>
    let s1 := s.l1Sync c o.asid a n
    if (s1.quadKept q o.asid a n).isSome then s1 else s1.quadPut q o.asid a (s1.homeRead c.die o.asid a n)
  | .home | .port | .stack => if hasL1 c then (s.l1Sync c o.asid a n).quadForget q o.asid a n else s
  | _ => s

/-- The priority that an access which only reads gives to the line it touches: in the L1D, or in the slice when it is
performed beyond the L1D (08 R235). -/
def State.readTouch (s : State) (o : MemOp) (p : PlaceK) (a : Nat) : State :=
  let c := o.g.coreRef
  let pol := s.policyAt o a
  match p with
  | .cache | .l1 => s.touchPrio c o.asid a pol
  | .home | .quad | .port => s.sliceTouch c.die o.asid a pol.sl pol.last
  | _ => s

/-- The lanes of an operation that are performed with a lane: those of a load or store that have not been and have its
address, in increasing order (03 R62); each atomic, and each store of a merge buffer, alone. -/
def MemOp.mates (o : MemOp) (p : PlaceK) (l : LaneAcc) : List LaneAcc :=
  if o.isAtomic || p == .merge then [l] else o.lanes.filter (fun k => k.addr == l.addr && k.status != .performed)

/-- Those whose write a lane's access is: the lanes performed with it, and those combined into it (03 R80). -/
def State.writersOf (s : State) (o : MemOp) (p : PlaceK) (l : LaneAcc) : List WriteSrc :=
  (o.mates p l).map (fun k => .lane o.g k.lane) ++
  l.joined.filterMap (fun j => (s.ops.find? (fun x => x.id = j.1)).map (fun x => .lane x.g j.2))

/-- A lane's access performed at a place: one indivisible step there (03 R73, R77), after its release work (03 R72). -/
def State.performAt (s : State) (o : MemOp) (p : PlaceK) (l : LaneAcc) : State × LaneAcc :=
  let a := (o.oc l).getD l.addr
  let ls := (o.mates p l).map (·.lane)
  let s0 := (o.spans l).foldl (fun (s : State) x => s.reach o p x.1 x.2) (s.releaseFor o l)
  if p = .merge then (s0.placeWrite o p l.addr l.data ls, { l with status := .performed })
  else if o.isPair then
    let a2 := ((o.spans l).getD 1 (0, 4)).1
    let h := s0.placeRead o p a 4
    let lo := s0.placeRead o p a2 4
    let b := bytesToNat l.data
    let r := atomCad (bytesToNat h) (bytesToNat lo) (b % 2 ^ 32) (b / 2 ^ 32)
    let s1 := (s0.placeWrite o p a (natToBytes 4 r.1) ls).placeWrite o p a2 (natToBytes 4 r.2) ls
    (s1.ownHeld s0 (s0.writersOf o p l), { l with status := .performed, reply := h ++ lo })
  else
    let old := s0.placeRead o p a o.size
    let r := o.apply l (s0.stepFor o p a) (s0.factorsOf o) old
    let s1 := match r.1 with
      | some bs => s0.placeWrite o p a bs ls
      | none => s0.readTouch o p a
    (s1.ownHeld s0 (s0.writersOf o p l), { l with status := .performed, reply := r.2, eng := s0.sawEngine o l old })

/-- An operation replaced. -/
def State.setOp (s : State) (o : MemOp) : State := { s with ops := s.ops.map (fun p => if p.id = o.id then o else p) }

/-- A lane of an operation performed, with the lanes combined into it (03 R80). -/
def State.setLane (s : State) (id : Nat) (l : LaneAcc) : State :=
  { s with ops := s.ops.map (fun p =>
    { p with lanes := p.lanes.map (fun k =>
        if p.id = id && k.lane = l.lane then l
        else if l.joined.contains (p.id, k.lane) then { k with status := .performed } else k) }) }

/-- Poison that a core's read of some bytes would land (14 R418): the containment, whether the copy was dirty, the PA. -/
def State.readPoison (s : State) (c : CoreRef) (asid a n : Nat) : Option (Nat × Bool × Nat) :=
  match findLine (s.l1Lines c) asid a with
  | some ln =>
    if ln.poison.contains (a % 128 / 16) then
      some (ln.own, true, match s.xlate c.die asid a with | .ok x => x.pa | _ => 0)
    else if s.l1Holds c asid a n then none
    else s.poisonAt c.die asid a n
  | none => s.poisonAt c.die asid a n

/-- Poison that a lane's read would land, in either word of a compensated pair (14 R418). -/
def State.lanePoison (s : State) (o : MemOp) (l : LaneAcc) : Option (Nat × Bool × Nat) :=
  if (o.oc l).isSome || o.kind = .store || o.kind = .stk || o.kind = .scatter || o.kind = .maint then none
  else (o.spans l).findSome? (fun x => s.readPoison o.g.coreRef o.asid x.1 x.2)

/-- The controller that serves a lane's access when it misses every cache on its way (14 R403). -/
def State.laneCtl (s : State) (o : MemOp) (l : LaneAcc) : Option Nat :=
  let h := s.homeOf o.g.die o.asid l.addr
  let held (ls : List Line) : Bool := match findLine ls o.asid l.addr with
    | some ln => (List.range o.size).all (fun i => (ln.byte? ((l.addr + i) % 128)).isSome)
    | none => false
  if (o.oc l).isSome || portBlock o.asid l.addr || s.l1Holds o.g.coreRef o.asid l.addr o.size || held (s.sliceLines h) then none
  else some (ctlOf h)

/-- No write-through of the core's quad unit to the sectors of a lane's access is in transit, unless the unit performs it on
the copy it keeps (03 R61, R63; log 110). -/
def State.quadClear (s : State) (o : MemOp) (l : LaneAcc) : Bool :=
  let c := o.g.coreRef
  let q := (c.die, quadOf c.core)
  !hasL1 c || (o.oc l).isSome || s.quadWrites.isEmpty ||
  (o.spans l).all (fun x =>
    if s.placeFor o l = .quad then (s.quadKept q o.asid x.1 x.2).isSome || !s.quadTransit q o.asid x.1 x.2
    else !s.quadTransit q o.asid (x.1 / 16 * 16) 16)

/-- A lane's access goes to a mailbox register. -/
def MemOp.toMbox (o : MemOp) (l : LaneAcc) : Bool :=
  match (o.oc l).bind ocDecode with | some x => x.kind == 2 | none => false

/-- The group's earlier writes to the mailbox register of a lane's access have landed (01 R16). -/
def State.mboxTurn (s : State) (o : MemOp) (l : LaneAcc) : Bool :=
  !o.toMbox l ||
  (match ((o.oc l).bind ocDecode).bind s.ocMbox with
   | some (g, n, _) => !s.mboxPending o.g g.ref n o.id
   | none => true)

/-- No write that a migration holds lies in what an atomic reads: the atomics of a word are performed one after another on what
the word's place holds, and there such a write comes first (03 R73, 14 R414). -/
def State.atomClear (s : State) (o : MemOp) (l : LaneAcc) : Bool :=
  !o.isAtomic || s.migrs.isEmpty || (o.oc l).isSome || (o.spans l).all (fun x => !s.rangeHeld o.g.die o.asid x.1 x.2)

/-- The order of memory lets a lane's access be performed: its earlier accesses to the bytes are performed, a release comes
after all of them (03 R61 to R66). -/
def State.inOrder (s : State) (o : MemOp) (l : LaneAcc) : Bool :=
  s.laneClear o l && s.quadClear o l && s.mboxTurn o l && s.atomClear o l && (!o.releases l || s.laneDrained o l)

/-- A lane's access is accepted, no touch holds it, its order allows it, it is not combined into another (03 R80) and it meets
no poison. -/
def State.laneHere (s : State) (o : MemOp) (l : LaneAcc) : Bool :=
  l.status == .accepted && !s.touchWaits o.id l.lane && s.inOrder o l && (s.lanePoison o l).isNone &&
  !s.ops.any (fun p => p.lanes.any (fun k => k.joined.contains (o.id, l.lane)))

/-- A deadline request stands unserved at its controller: a lane of the access still needs it, the chunk's turn has come, the
matrix operation is the next of its core, the collective is open; none of them waits for the answer to a fault record
(14 R412, R416). -/
def State.dlHere (s : State) (d : DlReq) : Bool :=
  match d.who with
  | .op id => s.ops.any (fun o => o.id = id && o.lanes.any (fun l => s.laneCtl o l == some d.ctl && s.laneHere o l))
  | .chunk q => s.engLive (engineOf q.c (s.region (q.c, q.n))) q && s.engTurn q && !s.chunkAsks q
  | .mat c id => (match (s.mats.getD c default).accepted with | o :: _ => o.id == id | [] => false) &&
      !s.faults.any (fun f => f.joined.contains (.matOp c id))
  | .col id => s.cols.any (fun x => x.id = id && (!x.left.isEmpty || !x.todo.isEmpty)) && !s.faults.any (fun f => f.joined.contains (.pcol id))

/-- A request to some controllers is served after the first overdue deadline request that stands at one of them: those among
themselves go in the order of their arrival (14 R416). -/
def State.dlYields (s : State) (who : DlWho) (ks : List Nat) : Bool :=
  !s.dls.isEmpty && ks.any (fun k =>
    match s.dls.find? (fun d => d.overdue && d.ctl = k && s.dlHere d) with
    | some d => d.who != who
    | none => false)

/-- Requests of deadline class arrive at some controllers and are counted; those that are served stand there no more (14 R416,
R435). A spill-region transfer takes no time here and is not one of them (log 143). -/
def State.dlEnter (s : State) (who : DlWho) (ks : List Nat) : State :=
  ks.foldl (fun (s : State) k =>
    let (id, s1) := s.fresh
    ({ s1 with dls := s1.dls ++ [⟨id, who, k, false⟩] } : State).countPort (k / 2) 6) s

/-- The requests of an agent whose work is done leave their controllers. -/
def State.dlLeave (s : State) (who : DlWho) : State := { s with dls := s.dls.filter (fun d => d.who != who) }

/-- The controllers of the pages of deadline class among some addresses that an engine of a die reaches; `all` for requests that
are of that class whatever the page (14 R403, R416). -/
def State.dlCtls (s : State) (die asid : Nat) (all : Bool) (as : List Nat) : List Nat :=
  ((as.filter (fun a => all || (match s.xlate die asid a with | .ok x => leafDl x.leaf | _ => false))).map
    (fun a => ctlOf (s.homeOf die asid a))).dedup

/-- A lane's access is ready, and no overdue deadline request goes first. -/
def State.laneReady (s : State) (o : MemOp) (l : LaneAcc) : Bool :=
  s.laneHere o l && !s.dlYields (.op o.id) (s.laneCtl o l).toList

/-- A lane's access may be performed now: lanes of one load or store that have one address are performed together, those of an
atomic in increasing order (03 R62). -/
def State.mayPerform (s : State) (o : MemOp) (l : LaneAcc) : Bool :=
  s.laneReady o l &&
  (if o.isAtomic then
    o.lanes.all (fun k => !decide (k.lane < l.lane) || k.isDone || l.joined.contains (o.id, k.lane) || !touchSame o l o k)
   else o.lanes.all (fun k => k.addr != l.addr || k.isDone || s.laneReady o k))

/-! ### Performing (03 R62, R73) -/

/-- The operation with this identifier. -/
def State.op? (s : State) (id : Nat) : Option MemOp := s.ops.find? (fun o => o.id = id)

/-- A lane performed at its place with its mates: a load reads once for all of them; of a store the highest lane's bytes remain
and the others are never observed, after the release work of every one (03 R62). -/
def State.performMates (s : State) (o : MemOp) (p : PlaceK) (l : LaneAcc) : State :=
  let ms := o.mates p l
  let r := (ms.dropLast.foldl (fun (s : State) k => s.releaseFor o k) s).performAt o p (ms.getLast?.getD l)
  (if o.isAtomic || p == .merge then [r.2] else ms.map (fun k => { k with status := .performed, reply := r.2.reply, eng := r.2.eng })).foldl
    (fun (s : State) k => s.setLane o.id k) r.1

/-- A load miss is filled before it is performed; with the sector, all the lanes of the slot that miss it there are served
(08 R232, R233, R250). -/
def State.fillFor (s : State) (o : MemOp) (l : LaneAcc) : State :=
  let c := o.g.coreRef
  if s.l1Holds c o.asid l.addr o.size then s
  else
    let p := s.policyAt o l.addr
    let with_ (k : LaneAcc) : Bool := !k.isDone && (k.addr == l.addr || (p.alloc && k.addr / 16 == l.addr / 16)) &&
      !s.l1Holds c o.asid k.addr o.size
    s.missFill o l.addr o.size (o.lanes.filter with_).length p

/-- Places whose accesses an event of their own performs. -/
def PlaceK.remote : PlaceK → Bool
  | .quad | .home | .port | .stack => true
  | _ => false

/-- A lane whose place needs no event of its own is performed, its line filled first. -/
def State.performLocal (s : State) (o : MemOp) (l : LaneAcc) : State :=
  let p := s.placeFor o l
  if !s.mayPerform o l || p.remote || (o.kind = .store && o.toMbox l) then s
  else (if p = .cache && (o.kind = .load || o.kind = .ldk) then s.fillFor o l else s).performMates o p l

/-- The lanes of an operation in increasing order, each as the operation then stands. -/
def State.eachLane (s : State) (id : Nat) (f : State → MemOp → LaneAcc → State) : State :=
  match s.op? id with
  | none => s
  | some o => o.lanes.foldl (fun (s : State) l =>
      match s.op? id with | some o => f s o ((o.lanes.find? (fun k => k.lane = l.lane)).getD l) | none => s) s

/-- Every lane of an operation that can be performed without an event of its own is, in increasing lane order. -/
def State.performAll (s : State) (id : Nat) : State := s.eachLane id State.performLocal

/-! ### Issue -/

/-- The lanes of an access that hit the L1D, and the stores that miss it and are performed in a slice that holds the line
(08 R250). A load hits when the L1D holds its bytes, a store when it holds the sector. -/
def State.hitCounts (s : State) (o : MemOp) (ls : List LaneAcc) : Nat × Nat :=
  let c := o.g.coreRef
  let sector (l : LaneAcc) : Bool := hasL1 c && (match findLine (s.l1Lines c) o.asid l.addr with
    | some ln => (List.range 16).any (fun i => (ln.byte? (l.addr % 128 / 16 * 16 + i)).isSome)
    | none => false)
  let hit (l : LaneAcc) : Bool :=
    if o.writes && !o.isAtomic then sector l else (o.spans l).all (fun x => s.l1Holds c o.asid x.1 x.2)
  let miss := ls.filter (fun l => !hit l)
  let inSlice (l : LaneAcc) : Bool :=
    !(s.policyAt o l.addr).alloc && (findLine (s.sliceLines (s.homeOf c.die o.asid l.addr)) o.asid l.addr).isSome
  (ls.length - miss.length, if o.writes && !o.isAtomic then (miss.filter inSlice).length else 0)

/-- Extra bank cycles of a scratchpad slot (08 R234). -/
def bankExtra (as : List Nat) (n : Nat) : Nat :=
  let ws := (as.flatMap (fun a => (List.range (vWords n)).map (fun i => a / 4 + i))).dedup
  (List.range 32).foldl (fun m b => max m (ws.filter (fun w => w % 32 = b)).length) 0 - 1

/-- Messages that carry an STW to mailbox registers: one for each register, with the highest lane's bytes (01 R16,
03 R62). -/
def State.mboxSend (s : State) (o : MemOp) : State :=
  let targets := o.lanes.filterMap (fun l =>
    match (o.oc l).bind ocDecode with
    | some x => if x.kind = 2 then (s.ocMbox x).map (fun t => (t.1.ref, t.2.1, t.2.2, l.data)) else none
    | none => none)
  ((targets.map (fun t => (t.1, t.2.1))).dedup).foldl (fun (s : State) k =>
    let bs := (targets.filter (fun t => t.1 = k.1 && t.2.1 = k.2)).foldl (fun (m : ByteMap) t =>
      (t.2.2.2.zipIdx).foldl (fun m x => bmSet m (t.2.2.1 + x.2) x.1) m) []
    let (id, s1) := s.fresh
    { s1 with mbox := s1.mbox ++ [⟨id, k.1, k.2, bs, o.g, o.id⟩] }) s

/-- The destination of an access marked empty (01 R27); a mailbox register becomes empty as a whole. -/
def State.markDest (s : State) (r : GRef) (f : AccForm) (m : Mask) (id : Nat) : State :=
  if m = 0 then s
  else if f.destK then s.modGroup r (fun g => (List.range f.destW).foldl (fun g i => g.markK (dstNum f.o.d + i) id) g)
  else
    f.dests.foldl (fun (s : State) n => s.modGroup r (fun g =>
      if s.isMbox g n then g.setV n { g.vreg n with full := false } else g.markV n m id)) s

/-- The touches of a scratchpad slot (10 R284): CHUNKABORT, or the state with fills begun and the waiting lanes. -/
def State.touchAll (s : State) (g : Group) (ls : List (Nat × Nat)) : Option State × List (Nat × (CoreRef × Nat) × Nat) :=
  let hits (s : State) := ls.filterMap (fun x => (s.windowAt g.ref.coreRef g.lid g.blk x.2).map (fun w => (x.1, w.1, w.2)))
  if (hits s).any (fun x => (s.region x.2.1).lost x.2.2) then (none, [])
  else
    let s1 := (hits s).foldl (fun (s : State) x => s.touchFill x.2.1 x.2.2) s
    (some s1, (hits s1).filter (fun x => (s1.region x.2.1).waits x.2.2))

/-- Extra bank cycles of the lanes of a slot that reach a scratchpad, at the core that holds it, both words of a pair among
them (08 R234). -/
def State.countBanks (s : State) (o : MemOp) : State :=
  let at_ := (o.lanes.filter (fun l => (o.oc l).isSome)).flatMap (fun l => (o.spans l).filterMap (fun y => (ocDecode y.1).bind (fun x =>
    if x.kind = 0 then some (({ home := false, die := x.die, core := x.core } : CoreRef), x.off) else none)))
  ((at_.map (·.1)).dedup).foldl (fun (s : State) c =>
    s.count c 4 0x0B (bankExtra ((at_.filter (fun y => y.1 = c)).map (·.2)) (if o.isPair then 4 else o.size))) s

/-- The wider of two fences' scopes. -/
def maxScope (a b : Option Nat) : Option Nat :=
  match a, b with | some x, some y => some (max x y) | some x, none => some x | none, y => y

/-- The FNC releases of some lanes have taken effect in their store or atomic (03 R76). -/
def Group.unfence (g : Group) (m : Mask) : Group :=
  { g with fenceRel := g.fenceRel.mapIdx (fun l x => if m.has l then none else x) }

/-- THE ISSUE OF AN ACCESS (08 R229 to R231, R236, R244): its traps in the order of their ranks (05 R131), those of its
addresses before `pre`; home cores have no scratchpad and no map accesses (12 R342). A global access leaves the split at the slot until every lane
has its verdict; an access to on-chip storage completes at once. The L bits of a slot that waits for
verdicts take effect in its accepted lanes, and so does the FNC release before it (03 R76); its destination is empty from the
issue on (01 R27). A full wait counter stalls the slot (02 R34). -/
def issueAccess (i : Instr) (pre : Ctx → Option (Cause × Nat)) (post : Ctx → State → State) (s : State) : Out :=
  match accForm i with
  | none => .next s
  | some f =>
    slot s f.o.g f.rds f.dests (fun c =>
      let core := c.r.coreRef
      if f.space ≠ .global && core.home then .trap .illop 3
      else
        let single := f.kind = .ldk || f.kind = .stk
        let ls := if single then (if c.m = 0 then [] else [c.m.lowest]) else c.m.toLanes
        let blk := c.s0.blockOf c.g
        let phys (l : Nat) : Nat :=
          match f.space with
          | .scratch => ocEncode core.die core.core 0 (((blk.map (·.scratchBase)).getD 0) + c.accAddr f l)
          | _ => c.accAddr f l
        match c.s0.accTrap c.g f (ls.map (c.accAddr f)) with
        | some ca => .trap ca 0
        | none =>
        if f.space = .global && c.s0.lateAccess c.g (ls.map (c.accAddr f)) f.n then .trap .illop 3
        else
        match pre c with
        | some (ca, d) => .trap ca d
        | none =>
        if f.ctr ≠ 0 && 65535 ≤ c.g.ctr.sel f.ctr then .block c.s0 .room
        else
        let fenced := f.writes && c.m.toLanes.any (fun l => (c.g.fenceRel.getD l none).isSome)
        let held := c.s0.pisteOf c.g && (match i with | .ared q => decide (2 ≤ q.evict.toNat) | _ => false)
        let buffered := held || (c.s0.pisteOf c.g && (f.kind = .store || f.kind = .scatter || f.kind = .stk) && f.space = .global &&
          f.o.ord == 0)
        if buffered && !c.s0.mergeRoom c.g (ls.map (c.accAddr f)) then .trap .illpiste 0
        else
        let tw := if f.space = .scratch then c.s.touchAll c.g (ls.map (fun l => (l, c.accAddr f l))) else (some c.s, [])
        match tw.1 with
        | none => .trap .chunkabort 0
        | some sT =>
        let slotEv := if f.kind = .store || f.kind = .scatter || f.kind = .stk then some 1
          else if f.kind = .load || f.kind = .gather || f.kind = .ldk || f.kind = .waita then some 0 else none
        let s0 := match slotEv with | some e => sT.count core 4 e | none => sT
        let s1 := if f.kind = .atomic || f.kind = .ared then s0.count core 4 6 ls.length else s0
        let s2 := post c s1
        if ls = [] then .ok s2
        else
          let (id, s3) := s2.fresh
          let lanes : List LaneAcc := ls.map (fun l =>
            { lane := l, addr := phys l, data := c.accData f l, reply := [], joined := [],
              fence := if !f.writes then none
                else if single then c.m.toLanes.foldl (fun x k => maxScope x (c.g.fenceRel.getD k none)) none
                else c.g.fenceRel.getD l none,
              eng := false,
              status := if f.space = .global && (held || !apertureVa (c.accAddr f l)) then .waiting else .accepted })
          let op : MemOp :=
            { id := id, g := c.r, entry := c.e, ins := i, asid := c.s0.asidOf c.g, kind := f.kind, space := f.space,
              size := f.n, ord := f.o.ord.toNat, scope := f.o.scope.toNat, evict := f.o.evict.toNat,
              dest := dstNum f.o.d, destK := f.destK, lanes := lanes, rmode := c.g.sp.rmode, seed := c.g.sp.seed,
              draw := c.g.sp.draw, caoff := c.g.sp.caoff, lid := c.g.lid, glid := genLid c.s0 c.g,
              lam0 := lambdaOf c.s0 c.g 0, met := false, dests := f.dests, act := c.m, piste := c.s0.pisteOf c.g }
          let waits := lanes.any (fun l => l.status = .waiting) || f.kind = .waita
          let s3 := if waits then s3.modGroup c.r (fun g => { g with vregs := c.g.vregs }) else s3
          let s4 := if f.kind = .waita then s3 else s3.markDest c.r f c.m id
          let s5 := ({ s4 with ops := s4.ops ++ [op] }.countBanks op).watch
          let s6 := s5.modGroup c.r (fun g =>
            let g1 := if f.ctr = 0 then g else g.incCtr f.ctr
            if fenced && !waits then g1.unfence c.m else g1)
          if waits then .block s6 (.verdict id)
          else
            let s7 := tw.2.foldl (fun (s : State) x =>
              let r := s.region x.2.1
              s.setRegion x.2.1 { r with waiting := r.waiting ++ [⟨id, x.1, x.2.2⟩] }) s6
            let s9 := if f.space = .scratch && f.kind = .store then
                (s7.performAll id).count core 6 5 (tw.2.map (·.1)).length
              else if f.kind = .store then s7.mboxSend op
              else s7
            if op.ord % 2 = 1 then .block s9 .reply else .ok s9)

/-- No check of its own. -/
def noCheck (_ : Ctx) : Option (Cause × Nat) := none

/-- No further effect. -/
def noPost (_ : Ctx) (s : State) : State := s

/-! ### Loads and stores (08 R236 to R238) -/

/-- LDG. -/
def execLdg (o : OpM) (s : State) : Out := issueAccess (.ldg o) noCheck noPost s
/-- STG. -/
def execStg (o : OpM) (s : State) : Out := issueAccess (.stg o) noCheck noPost s
/-- LDS. -/
def execLds (o : OpM) (s : State) : Out := issueAccess (.lds o) noCheck noPost s
/-- STS. -/
def execSts (o : OpM) (s : State) : Out := issueAccess (.sts o) noCheck noPost s
/-- LDW. -/
def execLdw (o : OpM) (s : State) : Out := issueAccess (.ldw o) noCheck noPost s
/-- STW. -/
def execStw (o : OpM) (s : State) : Out := issueAccess (.stw o) noCheck noPost s
/-- LDK (08 R237). -/
def execLdk (o : OpM) (s : State) : Out := issueAccess (.ldk o) noCheck noPost s
/-- STK (08 R237). -/
def execStk (o : OpM) (s : State) : Out := issueAccess (.stk o) noCheck noPost s
/-- GTHR (08 R238). -/
def execGthr (o : OpM) (s : State) : Out := issueAccess (.gthr o) noCheck noPost s
/-- SCTR (08 R238). -/
def execSctr (o : OpM) (s : State) : Out := issueAccess (.sctr o) noCheck noPost s

/-! ### Maintenance and fences (08 R240, R241) -/

/-- The lanes' addresses of a maintenance slot. -/
def Ctx.maintAddrs (c : Ctx) (f : AccForm) : List Nat := c.m.toLanes.map (c.accAddr f)

/-- PREF: lines whose addresses reach no page are dropped and counted. A sector with a write of the quad's unit in transit is not
fetched (03 R63; log 110). -/
def execPref (o : OpM) (s : State) : Out :=
  let f : AccForm := ⟨o, .maint, .global, true, 0, 0, false, 0, false, 0, sizeBytes o.size⟩
  slot s o.g f.rds [] (fun c =>
    let core := c.r.coreRef
    let asid := c.s0.asidOf c.g
    .ok ((c.maintAddrs f).foldl (fun (s : State) a =>
      if !globalVa a then s.count core 4 0x0C
      else
        match s.xlate core.die asid a with
        | .fault _ _ _ => s.count core 4 0x0C
        | .ok x =>
          let p := policyOf (leafPol x.leaf) o.evict.toNat
          let s := s.count core 4 7 (if p.conflict then 1 else 0)
          (List.range 8).foldl (fun (s : State) i =>
            let b := a / 128 * 128 + 16 * i
            if hasL1 core && s.quadTransit (core.die, quadOf core.core) asid b 16 then s else s.l1Fill core asid b p) s) c.s))

/-- A lane has earlier writes to some global bytes that are accepted and not performed. -/
def State.storesPending (s : State) (r : GRef) (lane asid a n : Nat) : Bool :=
  s.ops.any (fun p => p.g == r && p.writes && p.asid == asid && p.lanes.any (fun k =>
    k.lane == lane && !k.isDone && (p.oc k).isNone && (p.spans k).any (fun x => meet x.1 x.2 a n)))

/-- WBK and INV: the dirty bytes go home; the writes are acknowledged through `st`. They follow the lane's earlier stores to
the line (03 R61). -/
def maintain (i : Instr) (o : OpM) (act : State → CoreRef → Nat → Nat → State) (s : State) : Out :=
  let f : AccForm := ⟨o, .maint, .global, true, 0, 0, false, 0, false, 5, sizeBytes o.size⟩
  slot s o.g f.rds [] (fun c =>
    let core := c.r.coreRef
    let asid := c.s0.asidOf c.g
    if 65535 ≤ c.g.ctr.st then .block c.s0 .room
    else if (c.maintAddrs f).any (fun a => !globalVa a) then .trap .access 0
    else if c.m = 0 then .ok c.s
    else if c.m.toLanes.any (fun l => c.s.storesPending c.r l asid (c.accAddr f l / 128 * 128) 128) then .block c.s0 .retest
    else
      let s1 := (c.maintAddrs f).foldl (fun (s : State) a => act s core asid a) c.s
      let (id, s2) := s1.fresh
      let lanes : List LaneAcc := c.m.toLanes.map (fun l =>
        { lane := l, addr := c.accAddr f l, data := [], reply := [], status := .performed, joined := [], fence := none, eng := false })
      let op : MemOp := { (default : MemOp) with
        id := id, g := c.r, entry := c.e, ins := i, asid := asid, kind := .maint, lanes := lanes, lid := c.g.lid }
      .ok ({ s2 with ops := s2.ops ++ [op] }.modGroup c.r (fun g => g.incCtr 5)))

/-- WBK. -/
def execWbk (o : OpM) (s : State) : Out := maintain (.wbk o) o State.l1WriteBack s
/-- INV. -/
def execInv (o : OpM) (s : State) : Out := maintain (.inv o) o State.l1Invalidate s

/-- The lane has an earlier load or atomic that has not landed. -/
def State.loadsPending (s : State) (r : GRef) (m : Mask) : Bool :=
  s.ops.any (fun o => o.g == r && (match accForm o.ins with | some f => f.ctr == 6 | none => false) &&
    o.lanes.any (fun l => m.has l.lane))

/-- FNC (03 R76): the earlier load or atomic becomes an acquire, which invalidates at core scope too when it saw an engine's
release (R75); the next store or atomic of each lane a release. -/
def execFnc (o : OpM) (s : State) : Out :=
  slot s o.g [] [] (fun c =>
    let sc := o.scope.toNat
    if o.ord.getLsbD 0 && c.s.loadsPending c.r c.m then .block c.s0 .retest
    else
      let saw := c.g.engSeen &&& c.m != 0
      let s1 := if o.ord.getLsbD 0 then
          (if saw then c.s.modGroup c.r (fun g => { g with engSeen := g.engSeen &&& ~~~c.m }) else c.s).acquireAt c.r.coreRef
            (c.s0.asidOf c.g) sc none saw
        else c.s
      .ok (if o.ord.getLsbD 1 then
          s1.modGroup c.r (fun g => { g with fenceRel := g.fenceRel.mapIdx (fun l x =>
            if c.m.has l then some (max sc (x.getD 0)) else x) })
        else s1))

/-! ### Bindings (08 R242, 03 R68, R69, 07 R224) -/

/-- The hardware-barrier level is legal in a launch, with its identifiers (07 R211). -/
def barLegal (r : LaunchRec) (level id : Nat) : Bool :=
  match level with
  | 0 => decide (id < 16)
  | 1 => r.cohort && decide (id < 8)
  | 2 => r.persist && decide (id < 16)
  | 3 => r.persist && decide (1 ≤ r.span) && decide (id < 16)
  | 4 => r.persist && decide (2 ≤ r.span) && decide (id < 8)
  | _ => false

/-- An object identifier names an object of the launch (07 R224, 08 R242, R243). One whose bits [19:10] are not zero names no
object, BADOBJ (DESIGN CHOICE, log 136). -/
def objNamed (r : LaunchRec) (obj : Nat) : Bool :=
  let ix := bits obj 9 0
  bits obj 19 10 == 0 &&
  (match bits obj 23 20 with
   | 1 => ix < 128 && barLegal r (ix / 16) (ix % 16)
   | 2 => ix < 32
   | 3 => ix < 16
   | 4 => ix < r.ntl
   | 5 | 6 => ix == 0
   | 7 => true
   | _ => false)

/-- A binding entry of two words (08 R242); none when malformed. -/
def bindingOf (w0 w1 : Nat) : Option Binding :=
  let base := bits w0 55 0
  let len := bits w1 39 0
  if bits w0 63 59 ≠ 0 || 6 ≤ bits w0 58 56 || (len ≠ 0 && (2 ^ 56 < base + len || 2 ^ 56 - 2 ^ 40 < base + len)) then none
  else some { obj := bits w1 63 40, base := base, len := len, scope := bits w0 58 56 }

/-- The cores that hold groups of a launch. -/
def State.coresOf (s : State) (lid : Nat) : List CoreRef :=
  ((s.groups.filter (fun g => g.lid = lid)).map (fun g => g.ref.coreRef)).dedup

/-- A binding change of SBND or SUNB (08 R242, 03 R69): its status is written once every core of the launch holds it. A
change under way is waited for. -/
def changeBindings (o : OpS) (rds : List Rd) (f : Ctx → Launch → Nat × List Binding) (s : State) : Out :=
  slot s o.g rds [] (fun c =>
    match c.s.launch? c.g.lid with
    | none => .ok (c.putK c.s (dstNum o.d) 2)
    | some l =>
      if l.change.isSome then .block c.s0 .retest
      else
        let r := f c l
        if r.1 ≠ 0 || r.2 = l.bindings then .ok (c.putK c.s (dstNum o.d) (BitVec.ofNat 64 r.1))
        else
          let (w, s1) := c.awaitK c.s (dstNum o.d)
          .block (s1.modLaunch l.lid (fun l =>
            { l with bindings := r.2, change := some { toWaiter := w, old := l.bindings, left := s1.coresOf l.lid, status := 0 } })) .reply)

/-- SBND. A binding of no byte uses no entry, so that it answers 0 beside 64 bindings (DEDUCED, log 137). -/
def execSbnd (o : OpS) (s : State) : Out :=
  changeBindings o (kRds o.a 2) (fun c l =>
    match bindingOf (c.k o.a.kNum).toNat (c.k (o.a.kNum + 1)).toNat with
    | none => (3, l.bindings)
    | some b =>
      if !objNamed l.lrec b.obj then (2, l.bindings)
      else if b.len = 0 then (0, l.bindings)
      else if 64 ≤ l.bindings.length then (1, l.bindings)
      else (0, l.bindings ++ [b])) s

/-- SUNB. -/
def execSunb (o : OpS) (s : State) : Out :=
  changeBindings o (kRds o.a 1) (fun c l =>
    let w := (c.k o.a.kNum).toNat
    let obj := bits w 23 0
    if w / 2 ^ 24 ≠ 0 then (3, l.bindings)
    else if !objNamed l.lrec obj then (2, l.bindings)
    else if l.bindings.all (fun b => b.obj ≠ obj) then (4, l.bindings)
    else (0, l.bindings.filter (fun b => b.obj ≠ obj))) s

end Sys2Proof.Machine
end

