-- ==== Sys2Proof/Machine/Verdicts.lean ====
section
/-! DEFINITION. The access engine's events: verdicts and parking (08 R231, 05 R121), landing and acknowledgment (08 R236),
the places that perform atomics (03 R73, 12 R343, 14 R422), gateways (03 R80), packets (14 R415), WAITA (08 R249). -/

namespace Sys2Proof.Machine

open Sys2Proof

/-- A closed block gives up its storage once no accepted access to it is outstanding (01 R21). -/
def State.releaseClosed (s : State) : State :=
  (((s.blocks.filter (·.closed)).map (·.lid)).dedup).foldl (fun (s : State) l => s.releaseBlocks l) s

/-- An operation that is over: its wait counter falls (02 R34). -/
def State.closeOp (s : State) (o : MemOp) : State :=
  let s1 : State := { s with ops := s.ops.filter (fun p => p.id ≠ o.id), dls := s.dls.filter (fun d => d.who ≠ .op o.id) }
  let s2 := if o.lanes.any (fun l => (o.oc l).isSome) then s1.releaseClosed else s1
  match accForm o.ins with
  | some f => if f.ctr = 0 then s2 else s2.modGroup o.g (fun g => g.decCtr f.ctr)
  | none => s2

/-- The lanes of an operation. -/
def MemOp.mask (o : MemOp) : Mask := o.lanes.foldl (fun m l => m ||| BitVec.ofNat 32 (2 ^ l.lane)) 0

/-! ### Verdicts -/

/-- A system-scope atomic that PCIe can carry (14 R408). -/
def pcieAtomic (o : MemOp) : Bool :=
  match o.ins with
  | .aadd q => q.evict.toNat ≤ 1
  | .axch _ | .acas _ => true
  | _ => false

/-- The page's attributes permit the access; otherwise the fault kind (14 R408). -/
def attrFault (o : MemOp) (w gd : Bool) (own : Nat) : Option Nat :=
  if o.writes && !w then some 2
  else if o.kind = .gather && !gd then some 3
  else if (o.kind = .atomic || o.kind = .ared) && o.scope = 5 && own = 3 && !pcieAtomic o then some 6
  else none

/-- A held line permits the access (08 R231). -/
def linePermits (o : MemOp) (ls : List Line) (a : Nat) : Bool :=
  match findLine ls o.asid a with
  | some l => (attrFault o (!l.ro) l.gd l.own).isNone
  | none => false

/-- The verdict of an address: none when accepted, else the fault's kind, table entry and level (08 R231). A line held by
the L1D or by the home slice decides at once; a packet is decided at the controller (R238). -/
def State.addrFault (s : State) (o : MemOp) (a : Nat) : Option (Nat × DWord × Nat) :=
  let c := o.g.coreRef
  if portBlock o.asid a then none
  else if o.kind ≠ .gather && (linePermits o (s.l1Lines c) a || linePermits o (s.sliceLines (s.homeOf c.die o.asid a)) a) then none
  else
    match s.xlate c.die o.asid a with
    | .fault k e l => some (k, e, l)
    | .ok x => (attrFault o (leafW x.leaf) (leafGd x.leaf) (leafOwn x.leaf)).map (fun k => (k, x.leaf, x.level))

/-- The verdict of a lane: of both words for a compensated pair (08 R246). A fault comes with its address (14 R411). -/
def State.laneFault (s : State) (o : MemOp) (l : LaneAcc) : Option (Nat × Nat × DWord × Nat) :=
  if (o.oc l).isSome then none
  else
    (l.addr :: (if o.isPair then [(l.addr + o.caoff.toNat) % 2 ^ 64] else [])).findSome? (fun a =>
      (s.addrFault o a).map (fun f => (a, f)))

/-- The L bits of a slot take effect in its accepted lanes (02 R44, 01 R16): those of its destination's registers fell with
the registers' old contents. -/
def State.takeRegs (s : State) (o : MemOp) (m : Mask) : State :=
  match accForm o.ins with
  | none => s
  | some f => s.modGroup o.g (fun g => applyLast s m g (f.rds.filter (fun rd => rd.isK || !f.dests.contains rd.n || o.kind = .waita)))

/-- Whether the split waits at the slot after the verdict: for an acquire to land, or for a WAITA (03 R66, 08 R249). -/
def MemOp.holds (o : MemOp) : Bool := o.kind == .waita || o.ord % 2 == 1

/-- A plain store is performed at its acceptance: in the L1D, the slice or the pack's view when its order allows it, and in the
merge buffer always; so is an ARED that the merge buffer holds (08 R231, R236, 04 R106, R107). -/
def State.acceptStores (s : State) (o : MemOp) : State :=
  if o.kind = .store || o.kind = .scatter || o.kind = .stk || o.kind = .ared then
    s.eachLane o.id (fun (s : State) o l =>
      let p := s.placeFor o l
      if !l.isDone && (p = .merge || ((p = .cache || p = .view) && s.mayPerform o l)) then s.performMates o p l else s)
  else s

/-- The lanes of an operation that reach pages of deadline class become requests at their controllers (14 R416). -/
def State.dlArrive (s : State) (o : MemOp) : State :=
  let dl (l : LaneAcc) : Bool := match s.xlate o.g.die o.asid l.addr with | .ok x => leafDl x.leaf | _ => false
  s.dlEnter (.op o.id) ((o.lanes.filter dl).filterMap (fun l => s.laneCtl o l)).dedup

/-- The stacks that the packets of an access address (08 R238, 14 R415). -/
def State.packetStacks (s : State) (o : MemOp) : List Nat :=
  ((o.lanes.filter (fun l => s.placeFor o l == .stack)).filterMap (fun l =>
    match s.xlate o.g.die o.asid l.addr with | .ok x => some (s.stackOf o.g.die x.pa) | _ => none)).dedup

/-- Before a WAITA's word is tested or read at its place, the core's own copy of it goes home and leaves, as for any access
performed there (03 R61, R63). -/
def State.waitaReach (s : State) (o : MemOp) : State :=
  if o.kind = .waita then
    o.lanes.foldl (fun (s : State) l => (o.spans l).foldl (fun (s : State) x => s.reach o (s.placeFor o l) x.1 x.2) s) s
  else s

/-- The FNC releases before a store or atomic belong to it from its acceptance on, in the lanes of the slot that were accepted
(03 R76). -/
def State.unfenceFor (s : State) (o : MemOp) : State :=
  if o.writes then s.modGroup o.g (fun g => if g.fenceRel.all Option.isNone then g else g.unfence o.act) else s

/-- The translations of lanes that miss every cache on their way are counted, from a translation cache or by a walk, and the
misses that a remap filter forwards (14 R409, R435). -/
def State.transCounts (s : State) (o : MemOp) : State :=
  let die := o.g.die
  let ls := o.lanes.filter (fun l => (s.laneCtl o l).isSome)
  let far (l : LaneAcc) : Bool := (s.remapped (s.homeOf die o.asid l.addr) o.asid l.addr).isSome
  let hit (l : LaneAcc) : Bool := (tlbFind (s.tlb.getD ((s.laneCtl o l).getD 0) []) o.asid l.addr).isSome
  let near := ls.filter (fun l => !far l)
  let hits := (near.filter hit).length
  (((s.countPort die 0 hits).countPort die 1 (near.length - hits)).countPort die 4 (ls.length - near.length)).remapUse die o.asid
    ((ls.filter far).map (·.addr))

/-- The lanes of an operation are accepted: the slot is complete for them (08 R231). -/
def State.acceptOp (s : State) (o : MemOp) : State :=
  let c := o.g.coreRef
  let glob := o.lanes.filter (fun l => (o.oc l).isNone)
  let cached := glob.filter (fun l => s.placeFor o l == .cache || s.placeFor o l == .l1)
  let h := s.hitCounts o cached
  let conf := (glob.filter (fun l => (s.policyAt o l.addr).conflict)).length
  let s1 := ((((s.count c 4 2 h.1).count c 4 3 (cached.length - h.1)).count c 4 5 h.2).count c 4 7 conf).count c 4 8
    (s.packetStacks o).length
  let o1 := { o with lanes := o.lanes.map (fun l => { l with status := .accepted }) }
  let s2 := (((((s1.transCounts o1).dlArrive o1).setOp o1).waitaReach o1).unfenceFor o1).watch
  let s3 := ((if o.kind = .waita then s2 else s2.takeRegs o1 o1.mask)).acceptStores o1
  if o.holds then s3.modSplit o.g o.entry (fun sp => { sp with wait := .reply }) else s3.finishSlot o.g o.entry

/-- The fault of a lane is recorded for a parked set (14 R411). None while the fault queue has no room. -/
def State.recordLane (s : State) (o : MemOp) (set : Nat) (x : LaneAcc × Nat × Nat × DWord × Nat) : Option State :=
  s.recordFault o.asid x.2.1 x.2.2.1 x.2.2.2.1 x.2.2.2.2 0 (requesterHi o.g x.1.lane * 2 ^ 10) (.parked o.g set)

/-- Until the lanes of an access park, their requests are those of a set that has no place in the table. -/
def MemOp.awaited (o : MemOp) : Nat := 8 + o.id

/-- Requests that join a fault record for each faulted lane (14 R411, R412), as far as the fault queue has room; whether all
have one, so that they stand for the parked set: until then the slot's verdict waits (R410). A record that is answered meanwhile
is left aside (DESIGN CHOICE, log 139). -/
def State.recordLanes (s : State) (o : MemOp) (set : Nat) (bad : List (LaneAcc × Nat × Nat × DWord × Nat)) : State × Bool :=
  let r := bad.foldl (fun (acc : State × Bool) x =>
    match acc.1.recordLane o o.awaited x with
    | some s => (s, acc.2)
    | none => (acc.1, false)) (s, true)
  if r.2 then
    ({ r.1 with faults := r.1.faults.map (fun (f : FaultRec) => { f with joined := f.joined.map (fun w =>
        if w = .parked o.g o.awaited then .parked o.g set else w) }) }, true)
  else r

/-- PARK_LANES (05 R121): lanes of a split move to a parked set; their destination stays empty by access `id`. -/
def Group.park (g : Group) (e i : Nat) (m : Mask) (id : Nat) : Group :=
  let sp := g.split e
  let whole := m = sp.mask
  let p : Parked := { mask := m, dorm := if whole then sp.dorm else 0, valid := true, served := false, refused := false,
                      jref := sp.jref, hdr := sp.hdr, slot := sp.slot, prod := id,
                      hdepth := if 8 ≤ e then g.depth else 0 }
  { g.modSplit e (fun sp => if whole then Split.free else { sp with mask := sp.mask &&& ~~~m }) with
    parked := modNth g.parked i (fun _ => p) }

/-- A lane of a store, atomic or WAITA may be accepted: its earlier accesses to the bytes are performed; a release that enters
the merge buffer follows all of them (03 R61, R66). -/
def State.mayAccept (s : State) (o : MemOp) (l : LaneAcc) : Bool :=
  s.laneClear o l && s.quadClear o l && s.mboxTurn o l &&
  (s.placeFor o l != .merge || !o.releases l || s.laneDrained o l)

/-- ACCESS_VERDICT (08 R231): every lane of the slot has its verdict; faulted lanes park (05 R121), the others are
accepted. -/
def execAccessVerdict (op : Nat) (s : State) : Out :=
  match s.op? op with
  | none => .next s
  | some o =>
    match s.group? o.g with
    | none => .next s
    | some g =>
      if (g.split o.entry).wait ≠ .verdict op then .next s
      else if (o.writes || o.kind = .waita) && !o.lanes.all (s.mayAccept o) then .next s
      else
        let bad := o.lanes.filterMap (fun l => (s.laneFault o l).map (fun f => (l, f)))
        if bad = [] then .next (s.acceptOp o)
        else
          match (List.range 8).find? (fun i => !(g.parked.getD i Parked.free).valid) with
          | none =>
            .next ((s.closeOp o).modSplit o.g o.entry (fun sp => { sp with wait := .retest, replay := o.id }))
          | some i =>
            match s.recordLanes o i bad with
            | (s1, false) => .next s1
            | (s1, true) =>
              let single := o.kind = .ldk || o.kind = .stk
              let fm : Mask := if single then (g.split o.entry).mask
                else bad.foldl (fun m x => m ||| BitVec.ofNat 32 (2 ^ x.1.lane)) 0
              let n := if single then fm.card else bad.length
              let s2 := ((s1.modGroup o.g (fun g => g.park o.entry i fm o.id)).count o.g.coreRef 4 0x0A n).count o.g.coreRef 1 0x15
              let rest := if single then [] else o.lanes.filter (fun l => !fm.has l.lane)
              if rest = [] then
                let s3 := s2.closeOp o
                .next (if fm = (g.split o.entry).mask then s3 else s3.finishSlot o.g o.entry)
              else .next (s2.acceptOp { o with lanes := rest, act := o.act &&& ~~~fm })

/-- PARKED_SET_REPLAY (05 R121): a served set takes the lowest free entry, 9 for lanes that parked in the handler, and
re-executes its slot; one that parked at depth 2 stays a split of that depth. A refused one raises ACCESS there (14 R412). Other sets take an entry only after TRET (05 R133). -/
def execParkedSetReplay (g : GRef) (i : Nat) (s : State) : Out :=
  match s.group? g with
  | none => .next s
  | some x =>
    let p := x.parked.getD i Parked.free
    if !p.valid || !p.served || !x.isRunning || p.hdepth ≠ x.depth then .next s
    else
      match x.freeEntry (if 0 < x.depth then [9] else List.range 8) with
      | none => .next s
      | some e =>
        let pc := p.hdr + 8 + 8 * p.slot
        let sp := { Split.start p.mask p.dorm p.jref p.hdr p.slot s.nextId with
                    replay := p.prod,
                    trap := if p.refused then some ⟨.access, 0xA0, pc⟩ else none,
                    state := if p.refused then .blocked else .ready,
                    wait := if p.refused then .reply else .none }
        .next (s.modReady g (fun x => { x.modSplit e (fun _ => sp) with
          parked := modNth x.parked i (fun _ => Parked.free),
          deep := if x.depth = 2 && e ≠ x.nestEntry then [e] else x.deep }))

/-! ### Performing, landing and acknowledging -/

/-- Words of a reply, zero-extended to a register (08 R229). -/
def replyWord (bs : List Byte) (i : Nat) : Word := BitVec.ofNat 32 (bytesToNat ((bs.drop (4 * i)).take 4))

/-- Data of performed lanes land in their destination (01 R16, R27, 08 R229); lanes that have exited get none (05 R153). -/
def State.landLanes (s : State) (o : MemOp) (ls : List LaneAcc) : State :=
  match accForm o.ins with
  | none => s
  | some f =>
    let m : Mask := ls.foldl (fun m l => m ||| BitVec.ofNat 32 (2 ^ l.lane)) 0
    let word (i lane : Nat) : Word :=
      match ls.find? (fun l => l.lane = lane) with | some l => replyWord l.reply i | none => 0
    if ls = [] then s
    else if f.destK then
      let bs := match ls with | l :: _ => l.reply | [] => []
      s.modGroup o.g (fun g => (List.range f.destW).foldl (fun g i =>
        g.landK (o.dest + i) o.id (BitVec.ofNat 64 (bytesToNat ((bs.drop (8 * i)).take 8)))) g)
    else
      (List.range f.destW).foldl (fun (s : State) i =>
        match s.group? o.g with
        | none => s
        | some g =>
          if s.isMbox g (o.dest + i) then
            s.mboxDeliver o.g (o.dest + i) ((ls.filter (fun l => !g.exited.has l.lane)).flatMap (fun l =>
              ((natToBytes 4 (word i l.lane).toNat).zipIdx).map (fun b => (4 * l.lane + b.2, b.1))))
          else s.modGroup o.g (fun g => g.landV (o.dest + i) m o.id (word i))) s

/-- LOAD_DATA_LAND (08 R236, R244): the data of the lanes performed so far land; with the last one the operation is over,
and an acquire is made (03 R66). -/
def execLoadDataLand (op : Nat) (s : State) : Out :=
  match s.op? op with
  | none => .next s
  | some o0 =>
    match accForm o0.ins with
    | none => .next s
    | some f =>
      let held := (match s.group? o0.g with | some g => (g.split o0.entry).wait == .verdict op | none => false)
      if f.ctr ≠ 6 || held then .next s
      else
        let s1 := s.performAll op
        match s1.op? op with
        | none => .next s1
        | some o =>
          let ready := o.lanes.filter LaneAcc.isDone
          let s2 := (s1.landLanes o ready).engLanded o ready
          let rest := o.lanes.filter (fun l => !l.isDone)
          if o.holds then
            if rest = [] then .next ((s2.acquireFor o).closeOp o |>.finishSlot o.g o.entry) else .next s1
          else if rest = [] then .next (s2.closeOp o)
          else .next (s2.setOp { o with lanes := rest })

/-- A write of the operation waits in a migration (14 R414): it is acknowledged only at the new copy. -/
def State.heldByMigr (s : State) (o : MemOp) : Bool :=
  o.lanes.any (fun l => (o.spans l).any (fun x => s.heldOf o.g l.lane o.asid x.1 x.2))

/-- STORE_ACK (08 R236): the operation's stores are performed at their places; `st` falls (02 R34). -/
def execStoreAck (op : Nat) (s : State) : Out :=
  match s.op? op with
  | none => .next s
  | some o0 =>
    match accForm o0.ins with
    | none => .next s
    | some f =>
      let held := (match s.group? o0.g with | some g => (g.split o0.entry).wait == .verdict op | none => false)
      if f.ctr ≠ 5 || held then .next s
      else
        let s1 := s.performAll op
        match s1.op? op with
        | none => .next s1
        | some o =>
          let done (l : LaneAcc) : Bool := l.isDone || (o.toMbox l && s1.mbox.all (fun w => w.op ≠ op))
          if o.lanes.all done && !s1.heldByMigr o && s1.portWrites.all (fun w => w.op ≠ op) then
            .next (if o.holds then ((s1.acquireFor o).closeOp o).finishSlot o.g o.entry else s1.closeOp o)
          else .next s1

/-- An STW's message may land: the accesses that go before it in its lanes are performed, and the group's earlier writes to the
register have landed (01 R16, 03 R61, R66). -/
def State.mboxClear (s : State) (w : MboxWrite) : Bool :=
  match s.op? w.op with
  | some o => o.lanes.all (fun l => !o.toMbox l ||
      (s.laneClear o l && !s.mboxPending o.g w.g w.reg o.id && (!o.releases l || s.laneDrained o l)))
  | none => true

/-- The release work of the lanes that a message carries (03 R72). -/
def State.mboxRelease (s : State) (w : MboxWrite) : State :=
  match s.op? w.op with
  | some o => (o.lanes.filter (fun l => o.toMbox l && o.releases l)).foldl (fun (s : State) l => s.releaseFor o l) s
  | none => s

/-- MAILBOX_WRITE_LAND (01 R16, R22): writes of one group to one register land in issue order. -/
def execMailboxWriteLand (n : Nat) (s : State) : Out :=
  match s.mbox.find? (fun w => w.id = n) with
  | none => .next s
  | some w =>
    if s.mbox.any (fun x => x.id < n && x.g = w.g && x.reg = w.reg && x.src = w.src) || !s.mboxClear w then .next s
    else .next ({ s.mboxRelease w with mbox := s.mbox.filter (fun x => x.id ≠ n) }.mboxDeliver w.g w.reg w.bytes)

/-! ### Places with events of their own -/

/-- A lane of an operation performed at a place, if that is its place; the lanes of a load or store that have
its address are performed with it (03 R62). -/
def performLane (p : PlaceK) (op lane : Nat) (s : State) : State :=
  match s.op? op with
  | none => s
  | some o =>
    match o.lanes.find? (fun l => l.lane = lane) with
    | none => s
    | some l =>
      if s.placeFor o l = p && o.kind ≠ .waita && s.mayPerform o l then s.performMates o p l else s

/-- A home unit counts what it has performed: HOME_ATOMICS, or GLIDE_OPS (12 R374). -/
def State.homeCount (s : State) (op lane : Nat) (s' : State) : State :=
  match s.op? op, s'.op? op with
  | some o, some o' =>
    match o.lanes.find? (fun l => l.lane = lane), o'.lanes.find? (fun l => l.lane = lane) with
    | some l, some l' =>
      if !l.isDone && l'.isDone then s'.countHome o.g.die o.asid l.addr (if o.kind = .glide then 7 else 0) else s'
    | _, _ => s'
  | _, _ => s'

/-- HOME_ATOMIC (12 R343). -/
def execHomeAtomic (op lane : Nat) (s : State) : Out := .next (s.homeCount op lane (performLane .home op lane s))

/-- PORT_ATOMIC (14 R422): counted where it is performed, at the port of the package that holds the word (R435). -/
def execPortAtomic (op lane : Nat) (s : State) : Out :=
  let s' := performLane .port op lane s
  let isDone (s : State) : Bool := match (s.op? op).bind (fun o => o.lanes.find? (fun l => l.lane = lane)) with
    | some l => l.isDone
    | none => false
  let here (o : MemOp) : Bool := o.lanes.any (fun l => l.lane = lane && (match s.xlate o.g.die o.asid l.addr with
    | .ok x => leafOwn x.leaf == 3 || bits x.pa 51 44 == s.pkg
    | _ => false))
  .next (match s.op? op with
    | some o => if !isDone s && isDone s' && here o then s'.countPort o.g.die 0xE else s'
    | none => s')

/-- The quad unit may have replaced its copy of the bytes, unless a write-through of them is in transit (03 R73; which
words it replaces is free, log 17). -/
def State.quadReplace (s : State) (q : Nat × Nat) (asid a n : Nat) : State :=
  if Config.freePick s.tick % 2 = 1 then s.quadYield q asid a n else s

/-- QUAD_ATOMIC (03 R73). -/
def execQuadAtomic (op lane : Nat) (s : State) : Out :=
  match s.op? op with
  | none => .next s
  | some o =>
    match o.lanes.find? (fun l => l.lane = lane) with
    | none => .next s
    | some l =>
      .next (performLane .quad op lane (s.quadReplace (o.g.die, quadOf o.g.core) o.asid l.addr o.size))

/-- QUAD_WRITE_THROUGH_ARRIVE (03 R73): the words of one unit enter a word's order in the unit's own order, under the page's
default policy (08 R244). A migration that holds the write holds it for the lanes whose atomic it is (14 R414). -/
def execQuadWriteThroughArrive (n : Nat) (s : State) : Out :=
  match s.quadWrites.find? (fun w => w.id = n) with
  | none => .next s
  | some w =>
    if s.quadWrites.any (fun x => x.id < n && x.die = w.die && x.quad = w.quad && x.asid = w.asid &&
        meet x.addr x.bytes.length w.addr w.bytes.length) then .next s
    else
      let s1 : State := { s with quadWrites := s.quadWrites.filter (fun x => x.id ≠ n) }
      .next ((s1.homeWriteDef w.die w.asid w.addr w.bytes).ownHeld s1 (w.lanes.map (fun l => .lane w.g l)))

/-- The outbound gateway that an access from a core leaves its die through (01 R8): the die beyond it, and which of the
edge's two gateways; none when the word's home lies on the core's die. A package that is not the core's is reached through
the gateways of the die of its home slice, with number 2 beyond (log 112). -/
def State.gatewayOf (s : State) (o : MemOp) (l : LaneAcc) : Option (Nat × Nat) :=
  let src := o.g.die
  let dst := (s.homeOf src o.asid l.addr).1
  let abroad := match s.xlate src o.asid l.addr with | .ok x => bits x.pa 51 44 != s.pkg && leafOwn x.leaf != 3 | _ => false
  let next := if src % 2 ≠ dst % 2 then src / 2 * 2 + dst % 2 else dst
  if src = dst then (if abroad then some (src, 2) else none)
  else some (next, if src % 2 ≠ dst % 2 then (if o.g.core / 8 < 3 then 0 else 1) else if o.g.core % 8 < 4 then 0 else 1)

/-- ARED_GATEWAY_COMBINE (03 R80, 01 R8): at one gateway the second ARED's operand joins the first's, exactly for integers, rounded by the first's
mode for floats (not in piste mode); `.cadd` never combines. -/
def execAredGatewayCombine (op1 lane1 op2 lane2 : Nat) (s : State) : Out :=
  match s.op? op1, s.op? op2 with
  | some o1, some o2 =>
    match o1.lanes.find? (fun l => l.lane = lane1), o2.lanes.find? (fun l => l.lane = lane2), o1.ins, o2.ins with
    | some l1, some l2, .ared q1, .ared q2 =>
      let fits (o : MemOp) (l : LaneAcc) : Bool :=
        l.status == .accepted && (s.placeFor o l == .home || s.placeFor o l == .port) && (s.gatewayOf o l).isSome && !o.releases l
      let free := !s.ops.any (fun o => o.lanes.any (fun l => l.joined.contains (op2, lane2) || l.joined.contains (op1, lane1)))
      let piste := match s.launch? o1.lid with | some x => x.lrec.piste | none => false
      let float := 2 ≤ q1.evict.toNat
      if (op1 == op2 && lane1 == lane2) || !fits o1 l1 || !fits o2 l2 || o1.g.die ≠ o2.g.die || s.gatewayOf o1 l1 ≠ s.gatewayOf o2 l2 ||
          s.placeFor o1 l1 ≠ s.placeFor o2 l2 || o1.asid ≠ o2.asid ||
          l1.addr ≠ l2.addr || q1.evict ≠ q2.evict || 5 ≤ q1.evict.toNat || (float && piste) || !free then .next s
      else
        let a := bytesToNat l1.data
        let b := bytesToNat l2.data
        let v := match q1.evict.toNat with
          | 0 => atomAdd 0 4 a b | 1 => atomAdd 1 8 a b | k => o1.fadd (k - 2) lane1 a b
        let l1' := { l1 with data := natToBytes o1.size v, joined := l1.joined ++ (op2, lane2) :: l2.joined }
        let s1 : State := { s with ops := s.ops.map (fun (o : MemOp) => { o with lanes := o.lanes.map (fun (l : LaneAcc) =>
          if o.id = op2 && l.lane = lane2 then { l with joined := [] } else l) }) }
        .next { s1 with ops := s1.ops.map (fun (o : MemOp) => { o with lanes := o.lanes.map (fun (l : LaneAcc) =>
          if o.id = op1 && l.lane = lane1 then l1' else l) }) }
    | _, _, _, _ => .next s
  | _, _ => .next s

/-- GATHER_PACKET_EXPAND (14 R415): a stack's gather unit serves the next elements of a packet, in increasing lane order; how many
before another access comes between is free (log 69). -/
def execGatherPacketExpand (op stack : Nat) (s : State) : Out :=
  match s.op? op with
  | none => .next s
  | some o =>
    let mine (l : LaneAcc) : Bool :=
      !l.isDone && s.placeFor o l == .stack &&
      (match s.xlate o.g.die o.asid l.addr with | .ok x => s.stackOf o.g.die x.pa == stack | _ => false)
    let next := (o.lanes.filter mine).takeWhile (fun l => s.mayPerform o l)
    .next ((next.take (Config.freePick s.tick % next.length + 1)).foldl (fun (s : State) l => performLane .stack op l.lane s) s)

/-- PEER_FILL (08 R233): the line of a lane's load miss comes from a peer. -/
def execPeerFill (op lane : Nat) (s : State) : Out :=
  match s.op? op with
  | none => .next s
  | some o =>
    match o.lanes.find? (fun l => l.lane = lane && l.status = .accepted) with
    | none => .next s
    | some l =>
      if !(o.kind = .load || o.kind = .ldk) || s.placeFor o l ≠ .cache || !s.mayPerform o l then .next s
      else .next ((s.peerFill o.g.coreRef o.asid l.addr o.size (s.policyAt o l.addr)).getD s)

/-! ### WAITA (08 R249) -/

/-- A WAITA's word of a lane as it reads it at its place. -/
def State.waitaRead (s : State) (o : MemOp) (l : LaneAcc) : List Byte :=
  if (o.oc l).isNone && portBlock o.asid l.addr then s.portBytes l.addr o.size else s.waitaWord o l

/-- A WAITA whose condition held completes: its sources are read, and every active lane reads its word (01 R16, 08 R249). -/
def State.waitaDone (s0 : State) (o : MemOp) : State :=
  let s := s0.waitaReach o
  let ls := o.lanes.map (fun l => (l.lane, s.waitaRead o l))
  let word (i lane : Nat) : Word := match ls.find? (fun x => x.1 = lane) with | some x => replyWord x.2 i | none => 0
  let s1 := (List.range (o.size / 4)).foldl (fun (s : State) i =>
    match s.group? o.g with
    | none => s
    | some g =>
      if s.isMbox g (o.dest + i) then
        s.mboxDeliver o.g (o.dest + i) (o.mask.toLanes.flatMap (fun l =>
          ((natToBytes 4 (word i l).toNat).zipIdx).map (fun b => (4 * l + b.2, b.1))))
      else s.modGroup o.g (fun g => g.writeV (o.dest + i) o.mask (word i))) (s.takeRegs o o.mask)
  let o1 := { o with lanes := o.lanes.map (fun l => { l with eng := s.sawEngine o l (s.waitaRead o l) }) }
  let s2 := o.lanes.foldl (fun (s : State) l => if s0.placeFor o l = .home then s.countHome o.g.die o.asid l.addr 0 else s) s1
  (((s2.engLanded o1 o1.lanes).acquireFor o1).closeOp o).finishSlot o.g o.entry

/-- The condition of a WAITA on port registers, which it reads at any moment. -/
def State.waitaPort (s : State) (o : MemOp) : Bool :=
  o.lanes.any (fun l => (o.oc l).isNone && portBlock o.asid l.addr &&
    waitaHolds o.evict (bytesToNat (s.waitaRead o l)) (bytesToNat l.data))

/-- WAITA_RETEST (08 R249): a WAITA whose condition held at a test, at its issue or when a write reached the word,
completes. -/
def execWaitaRetest (op : Nat) (s : State) : Out :=
  match s.op? op with
  | none => .next s
  | some o =>
    match s.group? o.g with
    | none => .next s
    | some g =>
      if o.kind = .waita && (g.split o.entry).wait = .reply && o.lanes.all (fun l => l.status = .accepted) &&
          o.lanes.all (fun l => (s.lanePoison o l).isNone) && (o.met || s.waitaPort o) then .next (s.waitaDone o)
      else .next s

/-! ### Binding changes (03 R69) -/

/-- BINDING_CHANGE_PROPAGATE: a core holds the new set; with the last core, SBND or SUNB writes its status. -/
def execBindingChangePropagate (lid : Nat) (c : CoreRef) (s : State) : Out :=
  match s.launch? lid with
  | none => .next s
  | some l =>
    match l.change with
    | none => .next s
    | some ch =>
      let left := ch.left.filter (· ≠ c)
      if left = [] then
        let s1 := s.modLaunch lid (fun l => { l with change := none })
        .next (s1.answer ch.toWaiter (BitVec.ofNat 64 ch.status))
      else .next (s.modLaunch lid (fun l => { l with change := some { ch with left := left } }))

/-! ### UNCORRECTED (05 R131 kind A, R136) -/

/-- What a split waits for never comes, because poison was met in its place (14 R418): data of an access, its own acquire, or
its code. -/
def State.bereft (s : State) (g : Group) (e : Nat) : Bool :=
  let sp := g.split e
  let lost (p : MemOp → Bool) : Bool := s.ops.any (fun o => o.g == g.ref && p o && o.lanes.any (fun l => (s.lanePoison o l).isSome))
  match sp.wait with
  | .empty true r _ => lost (fun o => (g.kreg r).prod == o.id)
  | .empty false r m => lost (fun o => if s.isMbox g r then o.dests.contains r else (g.vreg r).prodMask o.id &&& m != 0)
  | .reply => lost (fun o => o.entry == e && o.holds)
  | .fetch => (s.poisonAt g.ref.die (s.asidOf g) (sp.hdr / 128 * 128) 256).isSome
  | _ => false

/-- A split holds its group's UNCORRECTED trap back: it is inside a clause and not HELD there, and can still finish it
(05 R112, R131 kind A). One that waits for what the error took can not (log 120). -/
def State.finishing (s : State) (g : Group) (e : Nat) : Bool :=
  let sp := g.split e
  sp.inClause && (sp.state == .ready || (sp.state == .blocked && !s.bereft g e))

/-- UNCORRECTED_TRAP (05 R131 kind A, R136): taken at a clause boundary; without a handler the group ends. -/
def execUncorrectedTrap (g : GRef) (s : State) : Out :=
  match s.group? g with
  | none => .next s
  | some x =>
    if !x.uncorr || x.phase ≠ .running then .next s
    else if x.kind ≠ .ordinary then
      .next (s.modGroup g (fun x => { x with uncorr := false, splits := x.splits.map (fun sp =>
        if sp.state = .free then sp else { sp with state := .blocked, wait := .reply, trap := some ⟨.uncorrected, 0, sp.hdr⟩ }) }))
    else if (List.range 10).any (s.finishing x) then .next s
    else if x.depth = 0 then
      if s.hasHandler x then
        .next ((s.modReady g (fun x => { x.enterA .uncorrected (s.handlerOf x) s.nextId with uncorr := false })).count g.coreRef 1 0x13)
      else .next (s.groupTrapped g)
    else if x.depth = 1 && x.cause1 ≠ .uncorrected then
      let e := if (x.split 8).state ≠ .free then 8 else 9
      .next ((s.modReady g (fun x => { x.nest e .uncorrected 0 (x.split e).hdr (s.handlerOf x) s.nextId with uncorr := false })).count
        g.coreRef 1 0x13)
    else .next (s.groupTrapped g)

/-! ### Register spills (05 R126) -/

/-- Data are still to come to a v register of a group: from an engine, or by the replay of a parked set (05 R126). -/
def State.bringsTo (s : State) (r : GRef) (n : Nat) : Bool :=
  !(s.bringers r n).isEmpty ||
  (match s.group? r with | some g => g.parked.any (fun p => p.valid && (g.vreg n).prodMask p.prod != 0) | none => false)

/-- REGISTER_SPILL: a split waits for physical registers; the victim goes to its slot of the image. -/
def execRegisterSpill (c : CoreRef) (p : Nat) (s : State) : Out :=
  let mine := s.groups.filter (fun g => g.ref.coreRef = c && partOf g.ref = p && g.phase = .running)
  let lacks (n : Nat) : Bool := decide (physTotal c < s.physUsed c p + n)
  let needs := mine.any (fun g => g.splits.any (fun (sp : Split) => sp.state == .blocked &&
    (match sp.wait with | .phys n => lacks n | .reload _ => lacks 1 | _ => false)))
  let order := sortBy (fun (x y : Group) => x.lastStart ≤ y.lastStart) mine
  let victimOf (g : Group) : Option Nat :=
    ((List.range 320).reverse).find? (fun n =>
      let v := g.vreg n
      v.mapped && !v.spilled && v.pending = 0 && !s.isMbox g n && !s.bringsTo g.ref n)
  match order.findSome? (fun g => (victimOf g).map (fun n => (g, n))) with
  | none => .next s
  | some (g, n) =>
    if !needs then .next s
    else
      .next ((s.imgSpill g.ref n).count c 1 0x10)

/-- REGISTER_RELOAD: a spilled register a split waits for comes back as it was spilled (05 R142); the DEAD mask stayed in the rename
map. -/
def execRegisterReload (g : GRef) (r : Nat) (s : State) : Out :=
  match s.group? g with
  | none => .next s
  | some x =>
    let wanted := x.splits.any (fun sp => sp.state == .blocked && sp.wait == .reload r)
    if !wanted || !(x.vreg r).spilled || physTotal g.coreRef ≤ s.physUsed g.coreRef (partOf g) then .next s
    else
      let s1 := s.modGroup g (fun x => x.setV r { x.vreg r with spilled := false })
      .next ((s1.modReady g (fun x => { x with splits := x.splits.map (fun sp =>
        if sp.state = .blocked && sp.wait = .reload r then { sp with state := .ready, wait := .none } else sp) })).count g.coreRef 1 0x11)

end Sys2Proof.Machine
end

