-- ==== Sys2Proof/Machine/Atomics.lean ====
section
/-! DEFINITION. Issue of the atomics, ARED and WAITA (08 R244 to R249, 04 R107, 06 R181). -/

namespace Sys2Proof.Machine

open Sys2Proof

/-- The mode an atomic that rounds samples (06 R175); the reserved one raises ILLOP with DETAIL 0x0010. -/
def modeCheck (c : Ctx) : Option (Cause × Nat) :=
  if (c.mode 0).isNone then some (.illop, 0x10) else none

/-- Returning float atomics are illegal in a piste launch (04 R107). -/
def noPiste (c : Ctx) : Option (Cause × Nat) := if c.s0.pisteOf c.g then some (.illpiste, 0) else none

/-- `%caoff` of a compensated pair (08 R246). -/
def caoffCheck (c : Ctx) : Option (Cause × Nat) :=
  if c.g.sp.caoff = 0 || c.g.sp.caoff.toNat % 2 ^ 32 ≠ 0 then some (.illop, 0x30) else none

/-- The first trap of several checks. -/
def firstOf (fs : List (Ctx → Option (Cause × Nat))) (c : Ctx) : Option (Cause × Nat) := fs.findSome? (fun f => f c)

/-- `%draw` advances at the issue of a float atomic that rounds in SR (06 R181). -/
def drawPost (c : Ctx) (s : State) : State :=
  if c.mode 0 = some .sr then c.modSp s (fun sp => { sp with draw := sp.draw + 1 }) else s

/-- AADD. -/
def execAadd (o : OpM) (s : State) : Out := issueAccess (.aadd o) noCheck noPost s
/-- AFAD. -/
def execAfad (o : OpM) (s : State) : Out := issueAccess (.afad o) (firstOf [noPiste, modeCheck]) drawPost s
/-- ACAD (08 R246). -/
def execAcad (o : OpM) (s : State) : Out := issueAccess (.acad o) (firstOf [noPiste, caoffCheck]) noPost s
/-- AMNX. -/
def execAmnx (o : OpM) (s : State) : Out := issueAccess (.amnx o) noCheck noPost s
/-- AFMX. -/
def execAfmx (o : OpM) (s : State) : Out := issueAccess (.afmx o) noCheck noPost s
/-- AMXI (08 R247). -/
def execAmxi (o : OpM) (s : State) : Out := issueAccess (.amxi o) noCheck noPost s
/-- ALOP. -/
def execAlop (o : OpM) (s : State) : Out := issueAccess (.alop o) noCheck noPost s
/-- AXCH. -/
def execAxch (o : OpM) (s : State) : Out := issueAccess (.axch o) noCheck noPost s
/-- ACAS. -/
def execAcas (o : OpM) (s : State) : Out := issueAccess (.acas o) noCheck noPost s
/-- AINC. -/
def execAinc (o : OpM) (s : State) : Out := issueAccess (.ainc o) noCheck noPost s

/-- The launch of the issuing split is a piste launch. -/
def State.curPiste (s : State) : Bool :=
  match s.cur with
  | some i => (match s.group? i.g with | some g => s.pisteOf g | none => false)
  | none => false

/-- ARED (08 R248). A piste launch holds the float and `.cadd` forms in its merge buffer, to be added RNE (04 R107). -/
def execAred (o : OpM) (s : State) : Out :=
  let aop := o.evict.toNat
  if s.curPiste && 2 ≤ aop then issueAccess (.ared o) (if aop = 5 then caoffCheck else noCheck) noPost s
  else
    issueAccess (.ared o) (if aop = 5 then caoffCheck else if 2 ≤ aop then modeCheck else noCheck)
      (if 2 ≤ aop && aop ≤ 4 then drawPost else noPost) s

/-- WAITA (08 R249): the first test follows the verdict. -/
def execWaita (o : OpM) (s : State) : Out := issueAccess (.waita o) noCheck noPost s

end Sys2Proof.Machine
end

