-- ==== Sys2Proof/Machine/LegalSyn.lean ====
section
/-! DEFINITION. Which field values of the SYN words are legal (07 R212, R217, R220 to R222, R226). -/

namespace Sys2Proof

/-- An F-S word of the SYN class: its guard is always and MOD is zero (07 R226). -/
def OpS.syn (o : OpS) : Bool := o.g.always && o.m == 0

/-- A barrier operand (07 R212). -/
def barOperand (imm : BitVec 16) : Bool :=
  let x := imm.toNat
  let lv := bits x 15 13
  lv ≤ 4 && bits x 12 4 == 0 && !((lv == 1 || lv == 4) && 8 ≤ bits x 3 0)

/-- BAR, BARA and BARW. -/
def legalBar (kd ka : Bool) (o : OpS) : Bool :=
  o.syn && o.sub == 0 && barOperand o.imm && (if kd then isKDst o.d else o.d == 0) && (if ka then o.a.kReg else o.a.unused)

/-- PHA, PHX, PHW (07 R217): SUB, operand A, destination. -/
def legalPh (sub : Nat) (ka kd : Bool) (o : OpS) : Bool :=
  o.syn && o.sub.toNat == sub && o.imm.toNat < 32 && (if ka then o.a.kOrInt else o.a.unused) && (if kd then isKDst o.d else o.d == 0)

/-- PHW: SUB is the parity. -/
def legalPhw (o : OpS) : Bool := o.syn && o.sub.toNat < 2 && o.imm.toNat < 32 && o.a.unused && o.d == 0

/-- TKG. -/
def legalTkg (o : OpS) : Bool := o.syn && o.sub == 0 && o.imm.toNat < 16 && o.a.unused && isKDst o.d

/-- TKW. -/
def legalTkw (o : OpS) : Bool := o.syn && o.sub == 0 && o.imm.toNat < 16 && o.a.kReg && o.d == 0

/-- TKS.set and TKS.inc. -/
def legalTks (inc : Bool) (o : OpS) : Bool :=
  o.syn && o.sub.toNat == (if inc then 1 else 0) && o.imm.toNat < 16 && o.d == 0 && (if inc then o.a.unused else o.a.kOrInt)

/-- A timeline operand (07 R222). -/
def tlOperand (named : Bool) (imm : BitVec 16) : Bool :=
  let x := imm.toNat
  let sel := bits x 15 14
  sel < 3 && bits x 13 10 == 0 && (sel == 0 || (bits x 9 0 == 0 && !named))

/-- TLW, TLR, TLS. -/
def legalTl (kd named : Bool) (o : OpS) : Bool :=
  o.syn && o.sub == 0 && tlOperand named o.imm && (if kd then isKDst o.d && o.a.unused else o.d == 0 && o.a.kOrInt)

end Sys2Proof
end

