-- ==== Sys2Proof/Machine/Barrier.lean ====
section
/-! DEFINITION. The barrier and ticket unit (07): hardware barriers, phase barriers, tickets, timelines. -/

namespace Sys2Proof.Machine

open Sys2Proof

/-! ### Releases by a whole group (03 R72) -/

/-- The group's release of an object at a scope. -/
def Ctx.release (c : Ctx) (s : State) (obj scope : Nat) : State :=
  s.releaseAt c.r.coreRef (s.asidOf c.g) scope (bindRanges (s.bindingsAt c.g.lid c.r.coreRef) obj scope)

/-- A group's acquire of an object at a scope. -/
def State.acquireObj (s : State) (g : Group) (obj scope : Nat) (engine : Bool) : State :=
  s.acquireAt g.ref.coreRef (s.asidOf g) scope (bindRanges (s.bindingsAt g.lid g.ref.coreRef) obj scope) engine

/-- A synchronising slot that releases: it is performed once every earlier access of the group is (03 R72, 05 R120). -/
def Ctx.syncRelease (c : Ctx) (act : State → (Cause × Nat) ⊕ (State × Option Nat) ⊕ State) : SlotRes :=
  c.sync (fun s => if s.groupDrained c.r then act s else .inr (.inr s))

/-- A value mod 2^32 has passed another: the difference lies in [1, 2^31 - 1] (07 R214). -/
def phasePassed (c p : Word) : Bool := let d := (c - p).toNat; decide (1 ≤ d && d < 2 ^ 31)

/-- The issue of an instruction that is illegal in a pack wave (12 R358). -/
def synSlot (s : State) (gd : Guard) (rds : List Rd) (dsts : List Nat) (body : Ctx → SlotRes) : Out :=
  slot s gd rds dsts (fun c => if c.g.isPack then .trap .illop 3 else body c)

/-! ### Hardware barriers (07 R211 to R214) -/

/-- LEVEL of a barrier operand. -/
def barLevel (o : OpS) : Nat := bits o.imm.toNat 15 13

/-- ID of a barrier operand. -/
def barId (o : OpS) : Nat := bits o.imm.toNat 3 0

/-- The object identifier of a barrier (07 R224). -/
def barObj (level id : Nat) : Nat := 2 ^ 20 + level * 16 + id

/-- The completed-phase count of a barrier; 0 when nothing has arrived yet. -/
def State.barCount (s : State) (lid level inst id : Nat) : Word :=
  match s.bars.find? (fun b => b.lid = lid && b.level = level && b.inst = inst && b.id = id) with
  | some b => b.c
  | none => 0

/-- The barrier listed, with no arrivals when it was not. -/
def State.barEnsure (s : State) (lid level inst id : Nat) : State :=
  if s.bars.any (fun b => b.lid = lid && b.level = level && b.inst = inst && b.id = id) then s
  else { s with bars := s.bars ++ [⟨lid, level, inst, id, 0, []⟩] }

/-- Progress of a BAR or BARA whose arrival is on its way. -/
def inTransit : Nat := 2 ^ 32

/-- The phase of the group's earlier arrival at a barrier has not completed (07 R213). -/
def State.stillArrived (s : State) (r : GRef) (lid level inst id : Nat) : Bool :=
  s.barMsgs.any (fun m => m.g = r && m.lid = lid && m.level = level && m.inst = inst && m.bar = id) ||
  s.bars.any (fun b => b.lid = lid && b.level = level && b.inst = inst && b.id = id && b.arrived.contains r)

/-- The arrival of BAR and BARA (07 R214): performed once for the group, releasing for every lane, and HELD while the phase of
an earlier arrival has not completed. The open task of the block is tested when the arrival is made (04 R109). -/
def arrive (o : OpS) (kd : Option Nat) (s : State) : Out :=
  synSlot s o.g [] [] (fun c =>
    let lv := barLevel o
    let r := c.s0.recOf c.g
    let inst := barInst lv c.g
    let task := match c.s0.blockOf c.g with | some b => b.task.isSome | none => false
    if !barLegal r lv (barId o) then .trap .illop 0x20
    else
      match c.sp.prog with
      | some p =>
        if p ≠ inTransit && phasePassed (c.s0.barCount c.g.lid lv inst (barId o)) (BitVec.ofNat 32 p) then
          .ok (c.s.acquireObj c.g (barObj lv (barId o)) lv false)
        else .block c.s .retest
      | none =>
        if r.piste && lv = spanLevel r && task then .trap .illpiste 0
        else c.syncRelease (fun s =>
          if s.stillArrived c.r c.g.lid lv inst (barId o) then .inr (.inr s)
          else
            let s1 := (c.release s (barObj lv (barId o)) lv).barEnsure c.g.lid lv inst (barId o)
            let w : Option Waiter × State := match kd with
              | some n => let x := c.awaitK s1 n; (some x.1, x.2)
              | none => (none, s1)
            let (id, s2) := w.2.fresh
            let m : BarMsg := ⟨id, c.g.lid, lv, inst, barId o, c.r, c.e, w.1⟩
            let s3 : State := { s2 with barMsgs := s2.barMsgs ++ [m] }
            .inr (.inl (s3.count c.r.coreRef 3 0, some inTransit))))

/-- BAR. -/
def execBar (o : OpS) (s : State) : Out := arrive o none s

/-- BARA. -/
def execBara (o : OpS) (s : State) : Out := arrive o (some (dstNum o.d)) s

/-- BARW: phase ka has completed, or the split waits for it. -/
def execBarw (o : OpS) (s : State) : Out :=
  synSlot s o.g (srcRds o.a) [] (fun c =>
    let lv := barLevel o
    let ka := (c.k o.a.kNum).lo
    if !barLegal (c.s0.recOf c.g) lv (barId o) then .trap .illop 0x20
    else if phasePassed (c.s0.barCount c.g.lid lv (barInst lv c.g) (barId o)) ka then
      .ok (c.s.acquireObj c.g (barObj lv (barId o)) lv false)
    else .block (c.s.modSplit c.r c.e (fun sp => { sp with prog := some ka.toNat })) .retest)

/-- The splits of a group whose arrival is on its way. -/
def Group.arriving (g : Group) : List Nat :=
  (List.range 8).filter (fun e => (g.split e).state != .free && (g.split e).prog == some inTransit)

/-- BARRIER_ARRIVAL (07 R213, R214): the arrival reaches the barrier's place and counts into the current phase. BARA writes the
phase and goes on; BAR waits for it, and so it does in the image of a group saved meanwhile (R225). A block of a piste launch
whose groups have all arrived at the span's level ends its merge epoch (04 R106). -/
def execBarrierArrival (n : Nat) (s : State) : Out :=
  match s.barMsgs.find? (fun m => m.id = n) with
  | none => .next s
  | some m =>
    let isB (b : HBar) : Bool := b.lid = m.lid && b.level = m.level && b.inst = m.inst && b.id = m.bar
    match s.bars.find? isB, s.group? m.g with
    | some b, some g =>
      if b.arrived.contains m.g then .next s
      else
        let p := b.c.toNat
        let s1 := { s with
          barMsgs := s.barMsgs.filter (fun x => x.id ≠ n)
          bars := s.bars.map (fun x => if isB x then { x with arrived := x.arrived ++ [m.g] } else x) }
        let s2 := match m.waiter with
          | some w =>
            g.arriving.foldl (fun (s : State) e => s.finishSlot m.g e)
              (s1.modGroup m.g (fun g => g.landK w.kd w.id (BitVec.ofNat 64 p)))
          | none => g.arriving.foldl (fun (s : State) e => s.modSplit m.g e (fun sp => { sp with prog := some p })) s1
        .next ((s2.epochArrive m.lid g.blk).completeBars m.lid)
    | _, _ => .next s

/-- BARRIER_COMPLETION_NOTIFY (07 R213, R214): a waiting split sees its phase completed and acquires. The arrivals of other
packages at a pod barrier may have come meanwhile. -/
def execBarrierCompletionNotify (g : GRef) (e : Nat) (s0 : State) : Out :=
  match s0.group? g with
  | none => .next s0
  | some x =>
    let s := s0.completeBars x.lid
    let sp := x.split e
    match sp.clause.bind (fun c => c.slots[sp.slot]?), sp.prog with
    | some w, some p =>
      let op := bits w.toNat 63 56
      let imm := bits w.toNat 31 16
      let lv := bits imm 15 13
      if x.isRunning && sp.state = .blocked && sp.wait = .retest && (op = 0xB0 || op = 0xB2) && p < inTransit &&
          phasePassed (s.barCount x.lid lv (barInst lv x) (bits imm 3 0)) (BitVec.ofNat 32 p) then
        .next ((s.acquireObj x (barObj lv (bits imm 3 0)) lv false).finishSlot g e)
      else .next s
    | _, _ => .next s

/-! ### Phase barriers (07 R215 to R219) -/

/-- The phase barriers of a block at its start (07 R215). -/
def PhaseBar.start (groups : Nat) : PhaseBar := { p := false, arr := 0, exp := groups + 1, pend := 0 }

/-- PHASE_COMPLETE (07 R216). -/
def PhaseBar.eval (b : PhaseBar) : PhaseBar × Bool :=
  if b.arr = b.exp && b.pend = 0 then ({ b with p := !b.p, arr := 0 }, true) else (b, false)

/-- Progress of a PHW that found P equal to its parity, and of one whose phase has completed since (07 R219). -/
def phwWaits (n par : Nat) : Nat := 2 ^ 70 + 4 * n + 2 * par

/-- The PHWs of a block's groups that wait at a barrier see the parity it has now (07 R217). -/
def State.phwSee (s : State) (lid blk n : Nat) (p : Bool) : State :=
  let par := if p then 0 else 1
  let see (sp : Split) : Split := if sp.prog = some (phwWaits n par) then { sp with prog := some (phwWaits n par + 1) } else sp
  { s with groups := s.groups.map (fun g => if g.lid = lid && g.blk = blk then { g with splits := g.splits.map see } else g) }

/-- The phase barrier as it is after a change and its evaluation, and the PHWs that see its phase complete (07 R216, R217). -/
def State.putPhase (s : State) (lid blk n : Nat) (f : PhaseBar → PhaseBar) : State :=
  match s.block? lid blk with
  | none => s
  | some b =>
    let r := (f (b.phase.getD n (PhaseBar.start 0))).eval
    let s1 := (s.modBlock lid blk (fun b => { b with phase := modNth b.phase n (fun _ => r.1) })).count
      { home := false, die := b.die, core := b.core } 3 2 (if r.2 then 1 else 0)
    if r.2 then s1.phwSee lid blk n r.1.p else s1

/-- The chunks that a split HELD at a PHA of barrier n posts (07 R217). -/
def Split.phaPosts (sp : Split) (n : Nat) : Option Nat :=
  match sp.state, sp.wait with
  | .held, .phase m k => if m = n then some k else none
  | _, _ => none

/-- A group HELD at a PHA counts into the phase that has begun, and its splits go on; an expectation that overflows PEND traps
(07 R217, R218). -/
def State.phaseCount (s : State) (g : Group) (lid blk n k : Nat) (b : PhaseBar) : State :=
  let es := (List.range 8).filter (fun e => ((g.split e).phaPosts n).isSome)
  if (1048575 : Int) < b.pend + k then
    let s1 := s.modGroup g.ref (fun g => es.foldl (fun g e => g.modSplit e (fun sp => { sp with wait := .syncSlot })) g)
    match es with
    | e :: _ => (s1.count g.ref.coreRef 3 4).takeTrap g.ref e .barovf 0 (g.split e).pc
    | [] => s1
  else es.foldl (fun (s : State) e => s.finishSlot g.ref e)
    (s.putPhase lid blk n (fun b => { b with pend := b.pend + k, arr := b.arr + 1 }))

/-- After a phase has completed, the groups of the block that were HELD at a PHA of the barrier count into the next one while
there is room for arrivals (07 R217), in the order of their slots. -/
def State.phaseTake (s : State) (lid blk n : Nat) : Nat → State
  | 0 => s
  | fuel + 1 =>
    match s.block? lid blk with
    | none => s
    | some b =>
      let x := b.phase.getD n (PhaseBar.start 0)
      if x.arr = x.exp then s
      else
        match s.groups.findSome? (fun g => if g.lid = lid && g.blk = blk && g.isRunning then
            ((g.splits.findSome? (fun sp => sp.phaPosts n))).map (fun k => (g, k)) else none) with
        | some (g, k) => (s.phaseCount g lid blk n k x).phaseTake lid blk n fuel
        | none => s

/-- A phase barrier of a block changed, then evaluated (07 R216); arrivals that waited for the next phase count into it. -/
def State.modPhase (s : State) (lid blk n : Nat) (f : PhaseBar → PhaseBar) : State :=
  (s.putPhase lid blk n f).phaseTake lid blk n s.groups.length

/-- The phase barrier of a group's block. -/
def State.phaseOf (s : State) (g : Group) (n : Nat) : PhaseBar :=
  match s.blockOf g with | some b => b.phase.getD n (PhaseBar.start 0) | none => PhaseBar.start 0

/-- A landing chunk may decrement PEND (07 R216). -/
def State.phaseRoom (s : State) (lid blk n : Nat) : Bool :=
  match s.block? lid blk with
  | some b => decide (-1048576 < (b.phase.getD n (PhaseBar.start 0)).pend)
  | none => true

/-- A chunk counted into a phase barrier of a block (07 R216). -/
def State.phaseChunk (s : State) (lid blk n : Nat) : State :=
  match s.block? lid blk with
  | none => s
  | some b =>
    (s.modPhase lid blk n (fun p => { p with pend := p.pend - 1 })).count { home := false, die := b.die, core := b.core } 3 3

/-- The object of a phase barrier (07 R224). -/
def phaseObj (n : Nat) : Nat := 2 * 2 ^ 20 + n

/-- A group whose PHA found ARR = EXP is HELD until the phase completes (07 R217). -/
def SlotRes.heldForPhase (r : SlotRes) (c : Ctx) (n k : Nat) : SlotRes :=
  let hold (sp : Split) : Split :=
    if sp.state = .blocked && sp.wait = .retest && sp.prog = some inTransit && sp.atSlot c.sp.hdr c.sp.slot then
      { sp with state := .held, wait := .phase n k, prog := none } else sp
  match r with
  | .stay s => .stay (s.modGroup c.r (fun g => { g with splits := g.splits.map hold }))
  | r => r

/-- PHA and PHA.expect: `ka` chunks are posted, then the group arrives (07 R217, R218). An arrival that finds ARR = EXP waits
for the phase to complete, and counts into the next one then. -/
def phaseArrive (o : OpS) (ka : Ctx → Nat) (rds : List Rd) (s : State) : Out :=
  synSlot s o.g rds [] (fun c =>
    let n := o.imm.toNat
    let k := ka c
    (c.syncRelease (fun s =>
      let b := s.phaseOf c.g n
      if b.arr = b.exp then .inr (.inl (c.release s (phaseObj n) 0, some inTransit))
      else if (1048575 : Int) < b.pend + k then .inl (.barovf, 0)
      else .inr (.inl ((c.release s (phaseObj n) 0).modPhase c.g.lid c.g.blk n
        (fun b => { b with pend := b.pend + k, arr := b.arr + 1 }), none)))).heldForPhase c n k)

/-- The chunks an expectation posts. -/
def expectK (o : OpS) (c : Ctx) : Nat := (c.u o.a).toNat

/-- PHA. -/
def execPha (o : OpS) (s : State) : Out := phaseArrive o (fun _ => 0) [] s

/-- PHA.expect. -/
def execPhaExpect (o : OpS) (s : State) : Out := phaseArrive o (expectK o) (srcRds o.a) s

/-- PHX.expect. -/
def execPhxExpect (o : OpS) (s : State) : Out :=
  synSlot s o.g (srcRds o.a) [] (fun c =>
    let n := o.imm.toNat
    let k := expectK o c
    if (1048575 : Int) < (c.s0.phaseOf c.g n).pend + k then .trap .barovf 0
    else .ok (c.s.modPhase c.g.lid c.g.blk n (fun b => { b with pend := b.pend + k })))

/-- PHX.init. -/
def execPhxInit (o : OpS) (s : State) : Out :=
  synSlot s o.g (srcRds o.a) [] (fun c =>
    let k := (c.u o.a).toNat
    let b := c.s0.phaseOf c.g o.imm.toNat
    if k < 1 || 1024 < k || b.arr ≠ 0 || b.pend ≠ 0 then .trap .illop 0x21
    else .ok (c.s.modPhase c.g.lid c.g.blk o.imm.toNat (fun b => { b with exp := k })))

/-- The word of R215. -/
def PhaseBar.word (b : PhaseBar) : DWord :=
  BitVec.ofNat 64 ((if b.p then 2 ^ 63 else 0) + b.arr * 2 ^ 52 + b.exp * 2 ^ 41 + wrapN 21 b.pend * 2 ^ 20)

/-- PHX.read. -/
def execPhxRead (o : OpS) (s : State) : Out :=
  synSlot s o.g [] [] (fun c => .ok (c.putK c.s (dstNum o.d) (c.s0.phaseOf c.g o.imm.toNat).word))

/-- PHW (07 R217, R219): it waits while P equals the parity, then acquires; the phase's chunks were released by the copy
engines (03 R79). A phase that completes after its first test is seen. -/
def execPhw (o : OpS) (s : State) : Out :=
  synSlot s o.g [] [] (fun c =>
    let n := o.imm.toNat
    let par := o.sub.toNat
    if (c.s0.phaseOf c.g n).p ≠ (par = 1) || c.sp.prog = some (phwWaits n par + 1) then .ok (c.s.acquireObj c.g (phaseObj n) 0 true)
    else .block (c.s.modSplit c.r c.e (fun sp => { sp with prog := some (phwWaits n par) })) .retest)

/-! ### Tickets (07 R220, R221) -/

/-- The block whose ticket slot a group uses: the cohort's first block, or its own (07 R220). -/
def State.ticketBlk (s : State) (g : Group) : Nat := if (s.recOf g).cohort then g.blk / 4 * 4 else g.blk

/-- A ticket that has not been used. -/
def Ticket.start (lid blk tk : Nat) : Ticket := { lid := lid, blk := blk, tk := tk, next := 0, serv := 0, seen := [], queue := [] }

/-- A ticket. -/
def State.ticket (s : State) (lid blk tk : Nat) : Ticket :=
  (s.tickets.find? (fun t => t.lid = lid && t.blk = blk && t.tk = tk)).getD (Ticket.start lid blk tk)

/-- A ticket replaced. -/
def State.setTicket (s : State) (t : Ticket) : State :=
  if s.tickets.any (fun x => x.lid = t.lid && x.blk = t.blk && x.tk = t.tk) then
    { s with tickets := s.tickets.map (fun x => if x.lid = t.lid && x.blk = t.blk && x.tk = t.tk then t else x) }
  else { s with tickets := s.tickets ++ [t] }

/-- The object of a ticket (07 R224). -/
def ticketObj (n : Nat) : Nat := 3 * 2 ^ 20 + n

/-- TKG. -/
def execTkg (o : OpS) (s : State) : Out :=
  synSlot s o.g [] [] (fun c =>
    if c.s0.pisteOf c.g then .trap .illpiste 0
    else
      let t := c.s0.ticket c.g.lid (c.s0.ticketBlk c.g) o.imm.toNat
      .ok ((c.putK (c.s.setTicket { t with next := t.next + 1 }) (dstNum o.d) (t.next.setWidth 64)).count c.r.coreRef 3 5))

/-- The now-serving value a core sees serves a ticket number. -/
def ticketServed (seen ka : Word) : Bool := decide ((seen - ka).toNat < 2 ^ 31)

/-- Progress of a TKW that waits. -/
def tkwWaits (tk : Nat) (ka : Word) : Nat := 2 ^ 71 + tk * 2 ^ 32 + ka.toNat

/-- TKW. -/
def execTkw (o : OpS) (s : State) : Out :=
  synSlot s o.g (srcRds o.a) [] (fun c =>
    let t := c.s0.ticket c.g.lid (c.s0.ticketBlk c.g) o.imm.toNat
    let ka := (c.k o.a.kNum).lo
    if ticketServed (t.seen.getD c.r.core 0) ka then .ok (c.s.acquireObj c.g (ticketObj o.imm.toNat) 1 false)
    else .block (c.s.modSplit c.r c.e (fun sp => { sp with prog := some (tkwWaits o.imm.toNat ka) })) .retest)

/-- TKS.set and TKS.inc: the now-serving value changes and is broadcast to the quad's cores. -/
def serve (o : OpS) (rds : List Rd) (f : Ctx → Word → Word) (s : State) : Out :=
  synSlot s o.g rds [] (fun c => c.syncRelease (fun s =>
    let t := s.ticket c.g.lid (s.ticketBlk c.g) o.imm.toNat
    let v := f c t.serv
    let q := (quadCores (quadOf c.r.core)).foldl (fun (q : AMap Nat (List Word)) k => q.set k (q.getD k [] ++ [v])) t.queue
    .inr (.inl ((c.release s (ticketObj o.imm.toNat) 1).setTicket { t with serv := v, queue := q }, none))))

/-- TKS.set. -/
def execTksSet (o : OpS) (s : State) : Out := serve o (srcRds o.a) (fun c _ => (c.u o.a).lo) s

/-- TKS.inc. -/
def execTksInc (o : OpS) (s : State) : Out := serve o [] (fun _ v => v + 1) s

/-- TICKET_SERVE_BROADCAST (07 R220): a served value reaches a core and wakes the TKWs it serves, which acquire. -/
def execTicketServeBroadcast (lid blk tk core : Nat) (s : State) : Out :=
  let t := s.ticket lid blk tk
  match t.queue.getD core [] with
  | [] => .next s
  | v :: rest =>
    let s1 := s.setTicket { t with seen := t.seen.set core v, queue := t.queue.set core rest }
    let served (sp : Split) : Bool := match sp.prog with
      | some p => p / 2 ^ 32 == 2 ^ 39 + tk && (sp.state == .blocked || sp.state == .ready) && ticketServed v (BitVec.ofNat 32 p)
      | none => false
    let woken := s1.groups.flatMap (fun (g : Group) =>
      if g.lid = lid && s1.ticketBlk g = blk && g.ref.core = core && !g.ref.home && g.isRunning then
        ((List.range 10).filter (fun e => served (g.split e))).map (fun e => (g, e))
      else [])
    .next (woken.foldl (fun (s : State) x => (s.acquireObj x.1 (ticketObj tk) 1 false).finishSlot x.1.ref x.2) s1)

/-! ### Timelines (07 R222, R223, 01 R23 to R26) -/

/-- A named timeline's value (01 R23). -/
def State.named (s : State) (lid i : Nat) : DWord :=
  match s.launch? lid with | some l => l.tls.getD i 0 | none => 0

/-- A named timeline raised to a value (01 R25). -/
def State.raiseNamed (s : State) (lid i : Nat) (v : DWord) : State :=
  s.modLaunch lid (fun l => { l with tls := modNth l.tls i (fun x => if x.toNat < v.toNat then v else x) })

/-- The named timelines of a pod-span launch belong to all its parts (04 R94): other packages may have raised this one, at free
moments and to free values (log 22). -/
def State.podTimeline (s : State) (lid i : Nat) : State :=
  match s.launch? lid with
  | some l =>
    if l.lrec.span = 2 && l.lrec.podn ≠ 0 && s.othersCame then s.raiseNamed lid i (BitVec.ofNat 64 (Config.freePick (s.tick + i + 1)))
    else s
  | none => s

/-- SEL and INDEX of a timeline operand. -/
def tlSel (imm : Nat) : Nat := bits imm 15 14

/-- The value of the timeline an operand names, as a group reads it. -/
def State.tlValue (s : State) (g : Group) (imm : Nat) : DWord :=
  match tlSel imm with
  | 0 => s.named g.lid (bits imm 9 0)
  | 1 => g.ctl.value
  | _ => g.mtl.value

/-- The acquire of a TLW: at core scope over an engine's writes for an implicit timeline, at the span's scope for a named
one (01 R26, 03 R66, R75, R78). -/
def State.tlAcquire (s : State) (g : Group) (imm : Nat) : State :=
  match tlSel imm with
  | 0 => s.acquireObj g (4 * 2 ^ 20 + bits imm 9 0) (spanLevel (s.recOf g)) true
  | 1 => s.acquireObj g (5 * 2 ^ 20) 0 true
  | _ => s.acquireObj g (6 * 2 ^ 20) 0 true

/-- The timeline that an operand names, with what other packages made of it. -/
def State.tlSync (s : State) (g : Group) (imm : Nat) : State :=
  if tlSel imm = 0 then s.podTimeline g.lid (bits imm 9 0) else s

/-- A named index at or beyond NTL (07 R222). -/
def Ctx.badIndex (c : Ctx) (o : OpS) : Bool :=
  tlSel o.imm.toNat == 0 && decide ((c.s0.recOf c.g).ntl ≤ bits o.imm.toNat 9 0)

/-- TLW. -/
def execTlw (o : OpS) (s : State) : Out :=
  slot s o.g (srcRds o.a) [] (fun c =>
    let n := (c.u o.a).toNat
    let imm := o.imm.toNat
    let closed := if tlSel imm = 1 then c.g.ctl.closed else c.g.mtl.closed
    if c.badIndex o then .trap .access 0
    else if tlSel imm ≠ 0 && closed < n then .trap .illop 0x22
    else if n ≤ ((c.s.tlSync c.g imm).tlValue c.g imm).toNat then .ok ((c.s.tlSync c.g imm).tlAcquire c.g imm)
    else .block ((c.s.tlSync c.g imm).modSplit c.r c.e (fun sp => { sp with prog := some n })) .retest)

/-- TLR. -/
def execTlr (o : OpS) (s : State) : Out :=
  slot s o.g [] [] (fun c =>
    let s1 := c.s.tlSync c.g o.imm.toNat
    if c.badIndex o then .trap .access 0 else .ok (c.putK s1 (dstNum o.d) (s1.tlValue c.g o.imm.toNat)))

/-- TLS: a value that raises the timeline is a release at the span's scope. -/
def execTls (o : OpS) (s : State) : Out :=
  synSlot s o.g (srcRds o.a) [] (fun c =>
    if c.badIndex o then .trap .access 0
    else c.syncRelease (fun s0 =>
      let v := c.u o.a
      let i := bits o.imm.toNat 9 0
      let s := s0.tlSync c.g o.imm.toNat
      if v.toNat ≤ (s.named c.g.lid i).toNat then .inr (.inl (s, none))
      else
        let s1 := c.release s (4 * 2 ^ 20 + i) (spanLevel (s.recOf c.g))
        .inr (.inl ((s1.raiseNamed c.g.lid i v).count c.r.coreRef 3 6, none))))

/-- TIMELINE_SIGNAL_ARRIVAL (07 R223): a waiting TLW sees its value and acquires. -/
def execTimelineSignalArrival (g : GRef) (e : Nat) (s0 : State) : Out :=
  match s0.group? g with
  | none => .next s0
  | some x =>
    let sp := x.split e
    let s := match sp.clause.bind (fun c => c.slots[sp.slot]?) with
      | some w => if bits w.toNat 63 56 = 0xB9 then s0.tlSync x (bits w.toNat 31 16) else s0
      | none => s0
    match sp.clause.bind (fun c => c.slots[sp.slot]?), sp.prog with
    | some w, some n =>
      let imm := bits w.toNat 31 16
      if x.isRunning && sp.state = .blocked && sp.wait = .retest && bits w.toNat 63 56 = 0xB9 && n ≤ (s.tlValue x imm).toNat then
        .next ((s.tlAcquire x imm).finishSlot g e)
      else .next s
    | _, _ => .next s

end Sys2Proof.Machine
end

