-- ==== Sys2Proof/Machine/Cross.lean ====
section
/-! DEFINITION. Cross-lane slots (06 R203, R204) and the lane engine's exchange instructions (06 R205 to R208). -/

namespace Sys2Proof.Machine

open Sys2Proof

/-! ### Member masks (06 R203, R204) -/

/-- The member mask a source gives (06 R203). -/
def memberMask (g : Group) (sp : Split) (a : Src) : Mask :=
  match srcK a.opnd with
  | .k n => (g.kreg n).val.lo
  | .ones => Mask.all
  | _ => sp.mask

/-- The mask a split HELD at a cross-lane slot waits with. -/
def Split.crossMask (sp : Split) : Option Mask := match sp.wait with | .crossLane m => some m | _ => none

/-- What a cross-lane slot finds at its issue: the member mask, the splits held at the same slot, and whether every
non-exited member has arrived (06 R204). In a handler split the members outside it are absent. -/
structure CrossPlan where
  m : Mask
  held : List Nat
  arrived : Mask
  ready : Bool
  differs : Bool
  deriving DecidableEq, Repr, Inhabited

/-- The plan of a split's cross-lane slot: a split that was HELD there keeps the mask it was HELD with. -/
def crossPlan (g : Group) (e : Nat) (a : Src) : CrossPlan :=
  let sp := g.split e
  let m := match sp.prog with | some x => BitVec.ofNat 32 x | none => memberMask g sp a
  let inH := g.inHandler e
  let held := if inH then [] else (List.range 8).filter (fun i => i != e &&
    (g.split i).atSlot sp.hdr sp.slot && (g.split i).state == .held && (g.split i).crossMask.isSome)
  let arrived := held.foldl (fun x i => x ||| (g.split i).mask) sp.mask
  { m := m, held := held, arrived := arrived,
    ready := inH || (m &&& ~~~g.exited &&& ~~~arrived) == 0,
    differs := held.any (fun i => (g.split i).crossMask != some m) }

/-- The splits that were held complete the slot, each on its own (06 R204). -/
def releaseHeld (s : State) (r : GRef) (es : List Nat) : State := es.foldl (fun s e => s.finishSlot r e) s

/-- THE CROSS-LANE SLOT: `act` is given the participants as the lanes of its context. The mask operand is read first, and waited for
while it is empty (02 R28); the other sources are read when the slot is performed (06 R203, R204), `%emask` as that of the split
that performs it, also in the held splits' lanes (log 44). Performed once for several splits, the slot counts once in LANE_SLOTS
and SR_SLOTS and advances `%draw` once, while each split's slot counts in SLOTS (log 130). -/
def crossSlot (gd : Guard) (mem : Src) (rds : List Rd) (dsts : List Nat) (rnd : Option Nat) (engine : Nat)
    (act : Ctx → Rm → State) (tail : Ctx → Bool → State → State) (s : State) : Out :=
  match s.cur with
  | none => .fault .noIssuer
  | some i =>
    match s.group? i.g with
    | none => .fault .noIssuer
    | some g =>
      let p := crossPlan g i.e mem
      let own (g : Group) (sp : Split) : Mask := g.guardMask gd sp.mask
      let bad (c : Ctx) : Option (Cause × Nat) :=
        match c.laneMode rnd false with
        | .inr t => some t
        | .inl _ =>
          if own c.g c.sp &&& ~~~p.m ≠ 0 then some (.maskself, 1)
          else if p.differs then some (.maskself, 2)
          else none
      let memRds := if (g.split i.e).prog.isSome then [] else srcRds mem
      let md (c : Ctx) : Rm := match c.laneMode rnd false with | .inl x => x | .inr _ => .rne
      if memRds.any (fun rd => regEmpty s g rd.isK rd.n (g.split i.e).mask (g.split i.e).replay) then
        slotOn s (fun _ sp => sp.mask) memRds [] (fun c => .block c.s0 .retest)
      else if p.ready then
        slotOn s (fun g _ => g.guardMask gd (p.m &&& ~~~g.exited &&& p.arrived)) (memRds ++ rds) dsts (fun c =>
          match bad c with
          | some (ca, d) => .trap ca d
          | none =>
            let s1 := act c (md c)
            let s2 :=
              if p.m &&& c.g.exited ≠ 0 then
                (c.modSp s1 (fun sp => { sp with rmode := sp.rmode ||| 0x10000 })).count c.r.coreRef engine 5
              else s1
            .ok (releaseHeld (tail c (rnd.isSome && md c == Rm.sr) s2) c.r p.held))
      else
        slotOn s own memRds [] (fun c =>
          match bad c with
          | some (ca, d) => .trap ca d
          | none => .held (c.s.modSplit c.r c.e (fun sp => { sp with prog := some p.m.toNat })) (.crossLane p.m))

/-- A cross-lane slot of the lane engine. -/
def laneCross (o : OpR) (rds : List Rd) (dsts : List Nat) (rnd : Option Nat) (act : Ctx → Rm → State) (s : State) : Out :=
  crossSlot o.g o.c rds dsts rnd 2 act (fun c sr s => laneTail c sr false s) s

/-! ### Exchange (06 R205 to R208) -/

/-- The lane a lane takes its value from (06 R205). -/
def partner (mode l : Nat) (b : Word) : Option Nat :=
  match mode with
  | 0 => some (b.toNat % 32)
  | 1 => if b.toNat ≤ l then some (l - b.toNat) else none
  | 2 => if l + b.toNat ≤ 31 then some (l + b.toNat) else none
  | _ => some (l ^^^ (b.toNat % 32))

/-- The partner when it is a participant, else the lane itself (06 R205). -/
def sourceLane (m : Mask) (mode l : Nat) (b : Word) : Nat :=
  match partner mode l b with
  | some x => if m.has x then x else l
  | none => l

/-- XSHF (06 R205). -/
def execXshf (o : OpR) (s : State) : Out :=
  let d := dstNum o.d
  let wide := mbit o.m 4
  laneCross o (srcRds o.a (if wide then 2 else 1) ++ srcRds o.b) (if wide then [d, d + 1] else [d]) none (fun c _ =>
    let src (l : Nat) : Nat := sourceLane c.m (mfield o.m 3 1) l (c.w .b32 o.b l)
    if wide then c.putLanes2 d (fun l => outs64 (c.w64 o.a (src l)))
    else c.putLanes d (fun l => .plain (c.w .b32 o.a (src l)))) s

/-- One step of a reduction (06 R206): elements combined by OP; `u` gives the random bits of element h. -/
def combEl (ty : Ty) (op : Nat) (md : Rm) (ftz : Bool) (u : Nat → Nat) (a b : Word) : LaneOut :=
  LaneOut.ofEls ty.packed (fun h =>
    let x := elOf ty a h
    let y := elOf ty b h
    if ty.isFloat then
      match op with
      | 0 => roundF (fmtT ty) ⟨md, false, ftz, false, u h⟩ (FV.add md (decodeF (fmtT ty) x) (decodeF (fmtT ty) y))
      | n => fmnxEl (fmtT ty) (n = 2) false x y
    else
      Elem.plain (match op with
        | 0 => (x + y) % 2 ^ ty.w
        | 1 => wrapN ty.w (min (ivOf ty a h) (ivOf ty b h))
        | 2 => wrapN ty.w (max (ivOf ty a h) (ivOf ty b h))
        | 3 => x &&& y
        | 4 => x ||| y
        | _ => x ^^^ y))

/-- A combination with a value that may be missing (06 R206), and what it counts. -/
def combOpt (f : Word → Word → LaneOut) (a b : Option Word) : Option Word × List LaneOut :=
  match a, b with
  | none, y => (y, [])
  | x, none => (x, [])
  | some x, some y => let r := f x y; (some r.w, [r])

/-- One level of the tree of 06 R206: positions i and i + 2^k combine for every i that is a multiple of 2^(k+1). -/
def treeLevel (f : Nat → Nat → Word → Word → LaneOut) (k : Nat) (ws : List (Option Word)) :
    List (Option Word) × List LaneOut :=
  (List.range (16 / 2 ^ k)).foldl (fun acc j =>
    let i := j * 2 ^ (k + 1)
    let r := combOpt (f k i) (acc.1.getD i none) (acc.1.getD (i + 2 ^ k) none)
    (acc.1.set i r.1, acc.2 ++ r.2)) (ws, [])

/-- The tree of 06 R206: its result and what its steps count. -/
def treeReduce (f : Nat → Nat → Word → Word → LaneOut) (ws : List (Option Word)) : Option Word × List LaneOut :=
  let r := (List.range 5).foldl (fun acc k =>
    let x := treeLevel f k acc.1
    (x.1, acc.2 ++ x.2)) (ws, [])
  (r.1.getD 0 none, r.2)

/-- The identity of a scan (06 R207). -/
def scanIdentity (ty : Ty) (op : Nat) : Word :=
  let el : Nat :=
    match op with
    | 0 => 0
    | 1 => if ty.isFloat then (fmtT ty).infPat else if ty.signed then 2 ^ (ty.w - 1) - 1 else 2 ^ ty.w - 1
    | 2 => if ty.isFloat then (fmtT ty).sign true + (fmtT ty).infPat else if ty.signed then 2 ^ (ty.w - 1) else 0
    | 3 => 2 ^ ty.w - 1
    | _ => 0
  BitVec.ofNat 32 (if ty.packed then el * (2 ^ 16 + 1) else el)

/-- The RND code that matters to XRED and XSCN: only a float add rounds (06 R206). -/
def redRnd (o : OpR) : Option Nat :=
  if (tyOf o.m).isFloat && mfield o.m 3 1 = 0 then some (rndOf o.m) else none

/-- The combination of XRED and XSCN at lane position i and tree step k (06 R180, R206). -/
def Ctx.comb (c : Ctx) (o : OpR) (md : Rm) (k i : Nat) (a b : Word) : LaneOut :=
  combEl (tyOf o.m) (mfield o.m 3 1) md (c.ftz false)
    (fun h => if md = Rm.sr then c.srDom 5 (16 * lambdaOf c.s0 c.g i + 2 * k + h) else 0) a b

/-- XRED (06 R206). -/
def execXred (o : OpR) (s : State) : Out :=
  let d := dstNum o.d
  laneCross o (srcRds o.a) [d] (redRnd o) (fun c md =>
    let ws := perLane (fun l => if c.m.has l then some (c.w (tyOf o.m) o.a l) else none)
    let r := treeReduce (fun k i a b => c.comb o md k i a b) ws
    countOuts (c.putV c.s d c.m (fun _ => r.1.getD 0)) c.r.coreRef r.2) s

/-- The scan of 06 R207 over participants in increasing order: the result of each, and what the steps count. -/
def scanLanes (c : Ctx) (o : OpR) (md : Rm) (excl : Bool) : List (Nat × Word) × List LaneOut :=
  let r := c.m.toLanes.foldl (fun (acc : Option Word × List (Nat × Word) × List LaneOut) l =>
    let x := combOpt (c.comb o md 0 l) acc.1 (some (c.w (tyOf o.m) o.a l))
    let out := if excl then acc.1.getD (scanIdentity (tyOf o.m) (mfield o.m 3 1)) else x.1.getD 0
    (x.1, acc.2.1 ++ [(l, out)], acc.2.2 ++ x.2)) (none, [], [])
  r.2

/-- XSCN (06 R207). -/
def execXscn (o : OpR) (s : State) : Out :=
  let d := dstNum o.d
  laneCross o (srcRds o.a) [d] (redRnd o) (fun c md =>
    let r := scanLanes c o md (mbit o.m 0)
    countOuts (c.putV c.s d c.m (fun l => AMap.getD r.1 l 0)) c.r.coreRef r.2) s

/-- The key of a value (06 R208). -/
def mxixKey (ty : Ty) (v : Word) : Int :=
  match ty with
  | .f32 =>
    if (decodeF .f32 v.toNat).isNan then 2 ^ 40
    else if v.msb then -((v.toNat % 2 ^ 31 : Nat) : Int) - 1 else (v.toNat : Int)
  | .s32 => v.toInt
  | _ => (v.toNat : Int)

/-- The better of two pairs (06 R208): value below index. -/
def mxixBetter (ty : Ty) (isMin : Bool) (x y : DWord) : DWord :=
  let kx := mxixKey ty x.lo
  let ky := mxixKey ty y.lo
  if kx ≠ ky then (if decide (ky < kx) != isMin then x else y)
  else if y.hi < x.hi then y else x

/-- MXIX (06 R208). -/
def execMxix (o : OpR) (s : State) : Out :=
  let d := dstNum o.d
  laneCross o (srcRds o.a 2 ++ srcRds o.b) [d, d + 1] none (fun c _ =>
    c.putLanes2 d (fun l =>
      let own := c.w64 o.a l
      let x := sourceLane c.m (mfield o.m 3 1) l (c.w .b32 o.b l)
      outs64 (if x = l then own else mxixBetter (tyOf o.m) (mbit o.m 0) own (c.w64 o.a x)))) s

end Sys2Proof.Machine
end

