-- ==== Sys2Proof/Machine/LegalExp.lean ====
section
/-! DEFINITION. Which field values of the EXP words are legal (02 R40 step 2; 09 R253 to R259, R266, R267). -/

namespace Sys2Proof

/-- FMT (09 R258): 0 F32, 1 F16, 2 BF16. -/
def xFmt (m : BitVec 10) : Nat := mfield m 9 8
/-- Words of A. -/
def xLa (m : BitVec 10) : Nat := mfield m 7 6 + 1
/-- Words of B. -/
def xLb (m : BitVec 10) : Nat := mfield m 5 4 + 1
/-- Words of D. -/
def xLd (m : BitVec 10) : Nat := mfield m 3 2 + 1

/-- Registers of a run of n words of a format (09 R253). -/
def xRegs (fmt n : Nat) : Nat := if fmt = 0 then n else (n + 1) / 2

/-- A run of registers is aligned and within v0-v319 (09 R254). -/
def xRun (n regs : Nat) : Bool :=
  (match regs with | 1 => true | 2 => n % 2 == 0 | _ => n % 4 == 0) && decide (n + regs ≤ 320)

/-- A floating source of n words (09 R255). -/
def xSrc (fmt n : Nat) (a : Src) : Bool :=
  a.bitsLegal && (match srcK a.opnd with
    | .v r => xRun r (xRegs fmt n)
    | .k _ | .zero | .flt _ => n == 1
    | _ => false)

/-- An integer source, a pair when `wide` (09 R255). -/
def xInt (wide : Bool) (a : Src) : Bool :=
  a.bitsLegal && (match srcK a.opnd with
    | .v r => xRun r (if wide then 2 else 1)
    | .flt _ | .reserved => false
    | _ => true)

/-- A destination run of n words (09 R255). -/
def xDst (fmt n : Nat) (d : BitVec 9) : Bool := isVDst d && xRun (dstNum d) (xRegs fmt n)

/-- TSUM, TDIF, TPRD, FTSM (09 R258, R259). -/
def legalEft (o : OpR) : Bool :=
  let f := xFmt o.m
  o.g.legal && f != 3 && mzero o.m 0x303 && (f != 0 || mfield o.m 1 0 == 0) &&
  xDst f 2 o.d && xSrc f 1 o.a && xSrc f 1 o.b && o.c.unused

/-- TFMA (09 R258, R259). -/
def legalTfma (o : OpR) : Bool :=
  let f := xFmt o.m
  o.g.legal && f != 3 && mzero o.m 0x307 && (f != 0 || mfield o.m 2 0 == 0) &&
  xDst f 3 o.d && xSrc f 1 o.a && xSrc f 1 o.b && xSrc f 1 o.c

/-- XADD, XSUB, XMUL (09 R259). -/
def legalXarith (o : OpR) : Bool :=
  let f := xFmt o.m
  o.g.legal && f != 3 && mfield o.m 1 0 == 0 && xDst f (xLd o.m) o.d && xSrc f (xLa o.m) o.a && xSrc f (xLb o.m) o.b &&
  o.c.unused

/-- XACC (09 R259). -/
def legalXacc (o : OpR) : Bool :=
  let f := xFmt o.m
  o.g.legal && f != 3 && mfield o.m 1 0 == 0 && xLa o.m == xLd o.m && xLb o.m == 1 &&
  xDst f (xLd o.m) o.d && xSrc f (xLa o.m) o.a && xSrc f 1 o.b && xSrc f 1 o.c

/-- XRNM, and XCPR with `le` (09 R259). -/
def legalXnorm (le : Bool) (o : OpR) : Bool :=
  let f := xFmt o.m
  o.g.legal && f != 3 && mfield o.m 1 0 == 0 && (if le then decide (xLd o.m ≤ xLa o.m) else xLa o.m == xLd o.m) &&
  xLb o.m == 1 && xDst f (xLd o.m) o.d && xSrc f (xLa o.m) o.a && o.b.unused && o.c.unused

/-- XCMP (09 R259, R266). -/
def legalXcmp (o : OpR) : Bool :=
  let f := xFmt o.m
  o.g.legal && f != 3 && decide (mfield o.m 3 0 ≤ 5) && (isPDst o.d || isVDst o.d) && xSrc f (xLa o.m) o.a &&
  xSrc f (xLb o.m) o.b && o.c.unused

/-- A format code of XCVT (09 R267). -/
def xcvtCode (n : Nat) : Bool := n ≤ 2 || n == 10 || n == 11 || n == 14 || n == 15

/-- XCVT (09 R259, R267). -/
def legalXcvt (o : OpR) : Bool :=
  let d := cvtDst o
  let a := cvtSrc o
  o.g.legal && xFmt o.m == 0 && mfield o.m 1 0 == 0 && xLb o.m == 1 && !o.b.etrap && xcvtCode d && xcvtCode a &&
  !(cvtInt d && cvtInt a) && o.c.unused &&
  (if cvtInt a then xLa o.m == 1 && xInt (cvtWide a) o.a else xSrc a (xLa o.m) o.a) &&
  (if cvtInt d then xLd o.m == 1 && xDst 0 (if cvtWide d then 2 else 1) o.d else xDst d (xLd o.m) o.d)

/-- XSPL (09 R259). -/
def legalXspl (o : OpR) : Bool :=
  let f := xFmt o.m
  o.g.legal && (f == 1 || f == 2) && mfield o.m 1 0 == 0 && xLb o.m == 1 && xDst f (xLd o.m) o.d &&
  xSrc 0 (xLa o.m) o.a && o.b.unused && o.c.unused

/-- XTRE (09 R259, R270). -/
def legalXtre (o : OpR) : Bool :=
  let f := xFmt o.m
  o.g.legal && f != 3 && mfield o.m 1 0 == 0 && decide (xLa o.m ≤ xLd o.m) && xLb o.m == 1 && xDst f (xLd o.m) o.d &&
  xSrc f (xLa o.m) o.a && o.b.unused && memberSrc o.c

/-- XSCL (09 R259). -/
def legalXscl (o : OpR) : Bool :=
  let f := xFmt o.m
  o.g.legal && f != 3 && mfield o.m 1 0 == 0 && xLa o.m == xLd o.m && xLb o.m == 1 && xDst f (xLd o.m) o.d &&
  xSrc f (xLa o.m) o.a && xInt false o.b && o.c.unused

end Sys2Proof
end

