-- ==== Sys2Proof/Machine/Expansion.lean ====
section
/-! DEFINITION. The expansion engine (09 R252 to R270). -/

namespace Sys2Proof.Machine

open Sys2Proof

/-! ### Words and helpers (09 R256, R257) -/

/-- The format of an FMT code (09 R258). -/
def xfmt (n : Nat) : Fmt := match n with | 0 => .f32 | 1 => .f16 | _ => .bf16

/-- The operand type that gives constants their encoding under an FMT code (09 R255). -/
def xty (n : Nat) : Ty := match n with | 0 => .f32 | 1 => .f16x2 | _ => .bf16x2

/-- Rounding of this engine: RNE, no flushing, no saturation (09 R256). -/
def xround (f : Fmt) (x : FV) : Nat := (roundF f RndCtl.rne x).b

/-- The pattern is finite. -/
def finiteF (f : Fmt) (x : Nat) : Bool := match decodeF f x with | .nan => false | .inf _ => false | _ => true

/-- A pattern with its sign bit flipped. -/
def flipF (f : Fmt) (x : Nat) : Nat := x ^^^ f.sign true

/-- The exact sum of two values (09 R257). -/
def xadd (a b : FV) : FV := FV.add .rne a b

/-- The exact sum of words, by the non-finite rule of 09 R263: NaN, an infinity or the real sum. -/
def xsum (f : Fmt) (ws : List Nat) : FV :=
  match ws with
  | [] => .zero false
  | w :: rest => rest.foldl (fun x y => xadd x (decodeF f y)) (decodeF f w)

/-- The exact value less some words. -/
def xless (f : Fmt) (x : FV) (ws : List Nat) : FV := ws.foldl (fun x w => xadd x (decodeF f w).negate) x

/-- two_sum (09 R257). -/
def twoSum (f : Fmt) (a b : Nat) : Nat × Nat :=
  let x := xadd (decodeF f a) (decodeF f b)
  let s := xround f x
  if finiteF f s then (s, xround f (xless f x [s])) else (s, 0)

/-- two_prod (09 R257). -/
def twoProd (f : Fmt) (a b : Nat) : Nat × Nat :=
  let x := FV.mul (decodeF f a) (decodeF f b)
  let p := xround f x
  if finiteF f p then (p, xround f (xless f x [p])) else (p, 0)

/-- fast_two_sum (09 R257). -/
def fastTwoSum (f : Fmt) (a b : Nat) : Nat × Nat :=
  let s := xround f (xadd (decodeF f a) (decodeF f b))
  if finiteF f s then
    let z := xround f (xless f (decodeF f s) [a])
    (s, xround f (xless f (decodeF f b) [z]))
  else (s, 0)

/-! ### expand and compress (09 R263) -/

/-- Words of greedy rounding of a value: each the rounding of what the words before leave; +0 after an infinity or NaN
(09 R263, R267). -/
def greedy (f : Fmt) (x : FV) (m : Nat) : List Nat :=
  (List.range m).foldl (fun ws _ =>
    match ws with
    | [] => [xround f x]
    | w :: _ => if finiteF f w then ws ++ [xround f (xless f x ws)] else ws ++ [0]) []

/-- The vec-sum pass over terms listed from the least significant one: the carried sum, the words from the least
significant up, and whether a sum was not finite. -/
def vecSum (f : Fmt) (rev : List Nat) : List Nat × Bool :=
  match rev with
  | [] => ([], false)
  | t :: rest =>
    let r := rest.foldl (fun (acc : Nat × List Nat × Bool) x =>
      let p := twoSum f x acc.1
      (p.1, p.2 :: acc.2.1, acc.2.2 || !finiteF f p.1)) (t, [], false)
    (r.1 :: r.2.1, r.2.2)

/-- The compression pass: the words kept, and whether a sum was not finite. -/
def comprPass (f : Fmt) (g : List Nat) : List Nat × Bool :=
  match g with
  | [] => ([], false)
  | u :: rest =>
    let r := rest.foldl (fun (acc : Nat × List Nat × Bool) x =>
      let p := twoSum f acc.1 x
      let nf := acc.2.2 || !finiteF f p.1
      if p.2 % 2 ^ (f.width - 1) ≠ 0 then (p.2, acc.2.1 ++ [p.1], nf) else (p.1, acc.2.1, nf)) (u, [], false)
    (r.2.1 ++ [r.1], r.2.2)

/-- Words padded with +0, or cut, to a length. -/
def padTo (m : Nat) (ws : List Nat) : List Nat := (ws ++ List.replicate m 0).take m

/-- `expand` (09 R263), or `compress` when `merge` is false: m words, and whether the result folded. -/
def expand (f : Fmt) (merge : Bool) (t : List Nat) (m : Nat) : List Nat × Bool :=
  let total := xsum f t
  match total with
  | .nan => (padTo m [f.nan], false)
  | .inf n => (padTo m [f.sign n + f.infPat], false)
  | _ =>
    let key (x : Nat) : Nat := x % 2 ^ (f.width - 1)
    let g := if merge then vecSum f (sortBy (fun a b => decide (key b ≤ key a)) t).reverse else (t, false)
    let y := comprPass f g.1
    let fold := decide (m < y.1.length)
    if g.2 || y.2 then (greedy f total m, fold)
    else if fold then (y.1.take (m - 1) ++ [xround f (xsum f (y.1.drop (m - 1)))], true)
    else (padTo m y.1, false)

/-! ### Reading and writing runs (09 R253) -/

/-- The registers a run source reads. -/
def xRds (fmt n : Nat) (a : Src) : List Rd := srcRds a (match srcK a.opnd with | .v _ => xRegs fmt n | _ => 1)

/-- A one-word operand with its half select. -/
def Ctx.x1 (c : Ctx) (fmt : Nat) (half : Bool) (a : Src) (l : Nat) : Nat :=
  let w := (c.w (xty fmt) a l).toNat
  if fmt = 0 then w else halfOf w (if half then 1 else 0)

/-- The n words of a run in a lane. -/
def Ctx.xs (c : Ctx) (fmt n : Nat) (a : Src) (l : Nat) : List Nat :=
  match srcK a.opnd with
  | .v r => (List.range n).map (fun j =>
      if fmt = 0 then (c.v (r + j) l).toNat else halfOf (c.v (r + j / 2) l).toNat (j % 2))
  | _ => [c.x1 fmt false a l]

/-- The register words that hold m words of a format. -/
def xPack (fmt m : Nat) (ws : List Nat) : List Word :=
  (List.range (xRegs fmt m)).map (fun r =>
    if fmt = 0 then BitVec.ofNat 32 (ws.getD r 0)
    else BitVec.ofNat 32 (ws.getD (2 * r) 0 + (if 2 * r + 1 < m then ws.getD (2 * r + 1) 0 * 2 ^ 16 else 0)))

/-- What an EXP slot's lane gives: its words, and whether it folded, was inexact. -/
structure XOut where
  ws : List Nat
  fold : Bool
  inexact : Bool
  deriving DecidableEq, Repr, Inhabited

/-- Results written to a run in some lanes, and what 09 R272 counts of them. -/
def Ctx.putXs (c : Ctx) (s : State) (fmt m d : Nat) (eft : Bool) (f : Nat → XOut) : State :=
  let os := perLane (fun l => if c.m.has l then f l else default)
  let regs := os.map (fun o => xPack fmt m o.ws)
  let s1 := (List.range (xRegs fmt m)).foldl (fun (s : State) r =>
    c.putV s (d + r) c.m (fun l => (regs.getD l []).getD r 0)) s
  let n (p : XOut → Bool) : Nat := (c.m.toLanes.filter (fun l => p (os.getD l default))).length
  let core := c.r.coreRef
  let s2 := (s1.count core 5 3 (n (·.fold))).count core 5 4 (n (fun o => !finiteF (xfmt fmt) (o.ws.getD 0 0)))
  if eft then (s2.count core 5 1 c.m.card).count core 5 2 (n (·.inexact)) else s2

/-- The registers of a destination run. -/
def xDsts (fmt m d : Nat) : List Nat := (List.range (xRegs fmt m)).map (fun i => d + i)

/-- An EXP slot that completes, with EXP_SLOTS counted (09 R252, R272). -/
def expSlot (g : Guard) (rds : List Rd) (dsts : List Nat) (act : Ctx → State) (s : State) : Out :=
  slot s g rds dsts (fun c => .ok ((act c).count c.r.coreRef 5 0))

/-! ### Error-free transforms (09 R260 to R262) -/

/-- The words miss the exact value of finite operands (09 R272). -/
def eftInexact (f : Fmt) (ins : List Nat) (exact : FV) (ws : List Nat) : Bool :=
  ins.all (finiteF f) &&
  (!ws.all (finiteF f) || (match xless f exact ws with | .zero _ => false | _ => true))

/-- A two-operand transform. -/
def eft2 (o : OpR) (g : Fmt → Nat → Nat → Nat × Nat) (ex : FV → FV → FV) (s : State) : Out :=
  let k := xFmt o.m
  let f := xfmt k
  expSlot o.g (xRds k 1 o.a ++ xRds k 1 o.b) (xDsts k 2 (dstNum o.d)) (fun c =>
    c.putXs c.s k 2 (dstNum o.d) true (fun l =>
      let a := c.x1 k (mbit o.m 0) o.a l
      let b := c.x1 k (mbit o.m 1) o.b l
      let r := g f a b
      ⟨[r.1, r.2], false, eftInexact f [a, b] (ex (decodeF f a) (decodeF f b)) [r.1, r.2]⟩)) s

/-- TSUM (09 R260). -/
def execTsum (o : OpR) (s : State) : Out := eft2 o twoSum xadd s
/-- TDIF (09 R260): the sign bit of b is flipped. -/
def execTdif (o : OpR) (s : State) : Out := eft2 o (fun f a b => twoSum f a (flipF f b)) (fun a b => xadd a b.negate) s
/-- TPRD (09 R261). -/
def execTprd (o : OpR) (s : State) : Out := eft2 o twoProd FV.mul s
/-- FTSM (09 R260). -/
def execFtsm (o : OpR) (s : State) : Out := eft2 o fastTwoSum xadd s

/-- The three words of TFMA (09 R262). -/
def tfma (f : Fmt) (a b x : Nat) : List Nat :=
  let v := xadd (FV.mul (decodeF f a) (decodeF f b)) (decodeF f x)
  let res := xround f v
  if finiteF f res then
    let e1 := xround f (xless f v [res])
    [res, e1, xround f (xless f v [res, e1])]
  else [res, 0, 0]

/-- TFMA (09 R262). -/
def execTfma (o : OpR) (s : State) : Out :=
  let k := xFmt o.m
  let f := xfmt k
  expSlot o.g (xRds k 1 o.a ++ xRds k 1 o.b ++ xRds k 1 o.c) (xDsts k 3 (dstNum o.d)) (fun c =>
    c.putXs c.s k 3 (dstNum o.d) true (fun l =>
      let a := c.x1 k (mbit o.m 0) o.a l
      let b := c.x1 k (mbit o.m 1) o.b l
      let x := c.x1 k (mbit o.m 2) o.c l
      let ws := tfma f a b x
      ⟨ws, false, eftInexact f [a, b, x] (xadd (FV.mul (decodeF f a) (decodeF f b)) (decodeF f x)) ws⟩)) s

/-! ### Expansion arithmetic (09 R264, R265) -/

/-- An instruction that expands a list of terms. -/
def xArith (o : OpR) (merge : Bool) (rds : List Rd) (terms : Ctx → Nat → List Nat) (s : State) : Out :=
  let k := xFmt o.m
  expSlot o.g rds (xDsts k (xLd o.m) (dstNum o.d)) (fun c =>
    c.putXs c.s k (xLd o.m) (dstNum o.d) false (fun l =>
      let r := expand (xfmt k) merge (terms c l) (xLd o.m)
      ⟨r.1, r.2, false⟩)) s

/-- The registers of A and B of an expansion instruction. -/
def xRdsAB (o : OpR) : List Rd := xRds (xFmt o.m) (xLa o.m) o.a ++ xRds (xFmt o.m) (xLb o.m) o.b

/-- XADD (09 R264). -/
def execXadd (o : OpR) (s : State) : Out :=
  let k := xFmt o.m
  xArith o true (xRdsAB o) (fun c l => c.xs k (xLa o.m) o.a l ++ c.xs k (xLb o.m) o.b l) s

/-- XSUB (09 R264). -/
def execXsub (o : OpR) (s : State) : Out :=
  let k := xFmt o.m
  xArith o true (xRdsAB o) (fun c l => c.xs k (xLa o.m) o.a l ++ (c.xs k (xLb o.m) o.b l).map (flipF (xfmt k))) s

/-- The two terms of a product. -/
def prodTerms (f : Fmt) (a b : Nat) : List Nat := let p := twoProd f a b; [p.1, p.2]

/-- XMUL (09 R264). -/
def execXmul (o : OpR) (s : State) : Out :=
  let k := xFmt o.m
  xArith o true (xRdsAB o) (fun c l =>
    (c.xs k (xLa o.m) o.a l).flatMap (fun a => (c.xs k (xLb o.m) o.b l).flatMap (fun b => prodTerms (xfmt k) a b))) s

/-- XACC (09 R264). -/
def execXacc (o : OpR) (s : State) : Out :=
  let k := xFmt o.m
  xArith o true (xRds k (xLa o.m) o.a ++ xRds k 1 o.b ++ xRds k 1 o.c) (fun c l =>
    c.xs k (xLa o.m) o.a l ++ prodTerms (xfmt k) (c.x1 k false o.b l) (c.x1 k false o.c l)) s

/-- XRNM (09 R265). -/
def execXrnm (o : OpR) (s : State) : Out :=
  xArith o true (xRds (xFmt o.m) (xLa o.m) o.a) (fun c l => c.xs (xFmt o.m) (xLa o.m) o.a l) s

/-- XCPR (09 R265). -/
def execXcpr (o : OpR) (s : State) : Out :=
  xArith o false (xRds (xFmt o.m) (xLa o.m) o.a) (fun c l => c.xs (xFmt o.m) (xLa o.m) o.a l) s

/-! ### Comparison, conversion, splitting, scaling (09 R266 to R269) -/

/-- A comparison of two exact sums (09 R266). -/
def xcmp (cc : Nat) (x y : FV) : Bool := if x.isNan || y.isNan then cc == 1 else relOf cc (x.cmp y)

/-- XCMP (09 R266). -/
def execXcmp (o : OpR) (s : State) : Out :=
  let k := xFmt o.m
  expSlot o.g (xRdsAB o) (cmpDsts o.d) (fun c =>
    c.putCmp o.d false (fun l _ =>
      xcmp (mfield o.m 3 0) (xsum (xfmt k) (c.xs k (xLa o.m) o.a l)) (xsum (xfmt k) (c.xs k (xLb o.m) o.b l)))) s

/-- Greedy words of a sum, by the non-finite rule (09 R267). -/
def xGreedy (f : Fmt) (x : FV) (m : Nat) : List Nat := greedy f x m

/-- XCVT (09 R267). -/
def execXcvt (o : OpR) (s : State) : Out :=
  let dc := cvtDst o
  let sc := cvtSrc o
  let d := dstNum o.d
  let rds := if cvtInt sc then srcRds o.a (if cvtWide sc then 2 else 1) else xRds sc (xLa o.m) o.a
  let dsts := if cvtInt dc then (if cvtWide dc then [d, d + 1] else [d]) else xDsts dc (xLd o.m) d
  expSlot o.g rds dsts (fun c =>
    let src (l : Nat) : FV :=
      if cvtInt sc then CFmt.value (cfmtOf sc) (if cvtWide sc then (c.w64 o.a l).toNat else (c.w .b32 o.a l).toNat)
      else xsum (xfmt sc) (c.xs sc (xLa o.m) o.a l)
    if cvtInt dc then
      let v (l : Nat) : DWord := BitVec.ofNat 64 (convTo (cfmtOf dc) RndCtl.rne (src l)).b
      if cvtWide dc then c.putV64 c.s d c.m v else c.putV c.s d c.m (fun l => (v l).lo)
    else c.putXs c.s dc (xLd o.m) d false (fun l => ⟨xGreedy (xfmt dc) (src l) (xLd o.m), false, false⟩)) s

/-- The words of XSPL (09 R268). -/
def xspl (f : Fmt) (x : FV) (m : Nat) : List Nat :=
  match x with
  | .nan => padTo m [f.nan]
  | .inf n => padTo m [f.sign n + f.infPat]
  | _ =>
    let ws := (List.range (m - 1)).foldl (fun ws _ =>
      ws ++ [(roundF f { RndCtl.rne with mode := .rtz } (xless f x ws)).b]) []
    ws ++ [xround f (xless f x ws)]

/-- XSPL (09 R268). -/
def execXspl (o : OpR) (s : State) : Out :=
  let k := xFmt o.m
  expSlot o.g (xRds 0 (xLa o.m) o.a) (xDsts k (xLd o.m) (dstNum o.d)) (fun c =>
    c.putXs c.s k (xLd o.m) (dstNum o.d) false (fun l =>
      ⟨xspl (xfmt k) (xsum .f32 (c.xs 0 (xLa o.m) o.a l)) (xLd o.m), false, false⟩)) s

/-- XSCL (09 R269). -/
def execXscl (o : OpR) (s : State) : Out :=
  let k := xFmt o.m
  expSlot o.g (xRds k (xLa o.m) o.a ++ srcRds o.b) (xDsts k (xLd o.m) (dstNum o.d)) (fun c =>
    c.putXs c.s k (xLd o.m) (dstNum o.d) false (fun l =>
      let n := (c.w .b32 o.b l).toInt
      ⟨(c.xs k (xLa o.m) o.a l).map (fun w => xround (xfmt k) ((decodeF (xfmt k) w).scale n)), false, false⟩)) s

/-! ### Cross-lane sum (09 R270) -/

/-- Two optional expansions added (09 R270), and how many folds that took. -/
def xtreComb (f : Fmt) (m : Nat) (a b : Option (List Nat)) : Option (List Nat) × Nat :=
  match a, b with
  | none, y => (y, 0)
  | x, none => (x, 0)
  | some x, some y => let r := expand f true (x ++ y) m; (some r.1, if r.2 then 1 else 0)

/-- The tree of 09 R270 over the lane positions: the sum and the folds. -/
def xtre (f : Fmt) (m : Nat) (ws : List (Option (List Nat))) : Option (List Nat) × Nat :=
  let r := (List.range 5).foldl (fun (acc : List (Option (List Nat)) × Nat) k =>
    (List.range (16 / 2 ^ k)).foldl (fun (acc : List (Option (List Nat)) × Nat) j =>
      let i := j * 2 ^ (k + 1)
      let x := xtreComb f m (acc.1.getD i none) (acc.1.getD (i + 2 ^ k) none)
      (acc.1.set i x.1, acc.2 + x.2)) acc) (ws, 0)
  (r.1.getD 0 none, r.2)

/-- XTRE (09 R270). -/
def execXtre (o : OpR) (s : State) : Out :=
  let k := xFmt o.m
  crossSlot o.g o.c (xRds k (xLa o.m) o.a) (xDsts k (xLd o.m) (dstNum o.d)) none 2 (fun c _ =>
    let start (l : Nat) : Option (List Nat × Bool) :=
      if c.m.has l then some (expand (xfmt k) true (c.xs k (xLa o.m) o.a l) (xLd o.m)) else none
    let ws := perLane start
    let r := xtre (xfmt k) (xLd o.m) (ws.map (fun x => x.map (·.1)))
    let folds := r.2 + (ws.filter (fun x => match x with | some y => y.2 | none => false)).length
    let s1 := c.putXs c.s k (xLd o.m) (dstNum o.d) false (fun _ => ⟨r.1.getD [], false, false⟩)
    s1.count c.r.coreRef 5 3 folds)
    (fun c _ s => s.count c.r.coreRef 5 0) s

end Sys2Proof.Machine
end

