-- ==== Sys2Proof/Machine/LegalCpy.lean ====
section
/-! DEFINITION. Which field values of the CPY words are legal (10 R289). -/

namespace Sys2Proof

/-- A CPY word with its SUB, its D and A used or zero, its IMM16 an entry or zero (10 R289). -/
def legalCpy (sub : Nat) (kd : Bool) (align : Nat) (entry : Bool) (o : OpS) : Bool :=
  o.g.always && o.m == 0 && o.sub.toNat == sub && (if kd then isKDst o.d else o.d == 0) &&
  (if align = 0 then o.a.unused else o.a.kReg && o.a.kNum % align == 0) &&
  (if entry then o.imm.toNat < 64 else o.imm == 0)

/-- RTST: D is a k register or a q predicate, SUB 0 to 3. -/
def legalRtst (o : OpS) : Bool :=
  o.g.always && o.m == 0 && o.sub.toNat < 4 && (isKDst o.d || isQDst o.d) && o.a.kReg && o.imm.toNat < 64

/-- RWT: SUB 0 or 1. -/
def legalRwt (o : OpS) : Bool :=
  o.g.always && o.m == 0 && o.sub.toNat < 2 && o.d == 0 && o.a.kReg && o.imm.toNat < 64

end Sys2Proof
end

