-- ==== Sys2Proof/Machine/Copy.lean ====
section
/-! DEFINITION. The tile copy engine (10): contexts, layouts, region tables, fills and write-outs. -/

namespace Sys2Proof.Machine

open Sys2Proof

/-! ### Contexts (10 R274 to R276, R290) -/

/-- A copy context; free with GEN 1 when unlisted (10 R274). -/
def State.copyCtx (s : State) (k : Nat × Nat) : CopyCtx := s.ctxs.getD k ⟨none, 1, none⟩

/-- Why a handle may not be used (10 R275). -/
def State.handleTrap (s : State) (g : Group) (h : Nat) : Option Cause :=
  let c := s.copyCtx (g.ref.die, bits h 15 8)
  if h / 2 ^ 16 ≠ 0 || bits h 7 0 ≠ c.gen then some .stalehandle
  else if c.owner ≠ some g.lid && !s.privileged g then some .access
  else none

/-- A fill or write-out is over: `copy` falls and its batch is finished (10 R286, R293). -/
def State.closeTransfer (s : State) (t : Transfer) : State :=
  match t.g with
  | none => s
  | some r => s.modGroup r (fun g => { g.decCtr 1 with ctl := g.ctl.finish t.batch })

/-- A transfer has nothing left to do. -/
def Transfer.idle (t : Transfer) : Bool := t.todo.isEmpty && t.flight.isEmpty

/-- Chunks of a window that have arrived, in order. -/
def Region.arrivedList (r : Region) : List Nat := (List.range r.chunks).filter r.has

/-- The end of a fill: PRESENT, or under RUNB the final write-out of the arrived chunks or FREE (10 R282). -/
def State.settleFill (s : State) (k : CoreRef × Nat) : State :=
  let r := s.region k
  match r.fill with
  | none => s
  | some t =>
    if !t.idle then s
    else
      let s1 := s.closeTransfer t
      if r.state = .filling && r.unbind then
        s1.setRegion k { r with fill := none, state := if r.out.isSome then .flushing else .free,
                                out := r.out.map (fun t => { t with todo := r.arrivedList }) }
      else s1.setRegion k { r with fill := none, state := if r.state = .filling then .present else r.state }

/-- The end of a write-out whose chunks are all written or aborted; RUNB's final one waits for the fill it follows, and its
entry becomes FREE (10 R282, R286). -/
def State.settleRegion (s0 : State) (k : CoreRef × Nat) : State :=
  let s := s0.settleFill k
  let r := s.region k
  match r.out with
  | some t =>
    if !t.idle || (r.fill.isSome && r.unbind) then s
    else
      let s1 := s.closeTransfer t
      if r.state = .flushing || r.unbind then ({ s1 with regions := s1.regions.erase k }).releaseBlocks r.lid
      else s1.setRegion k { r with out := none }
  | none => if r.fill.isNone && (r.unbind || r.state = .free) then { s with regions := s.regions.erase k } else s

/-- Chunks of a fill that will not come are aborted (10 R276). -/
def Region.abortFill (r : Region) (ks : List Nat) : Region :=
  { r with aborted := ks.foldl setChunk r.aborted, nabt := min 255 (r.nabt + ks.length),
           fill := r.fill.map (fun t => { t with todo := t.todo.filter (fun x => !ks.contains x)
                                                 flight := t.flight.filter (fun x => !ks.contains x) }) }

/-- Chunks of a write-out that will not go are aborted; no chunk is set in both bitmaps, nor one that a fill still brings
(10 R282). -/
def Region.abortOut (r : Region) (ks : List Nat) : Region :=
  let comes (k : Nat) : Bool := match r.fill with | some t => t.flight.contains k | none => false
  { r with aborted := (ks.filter (fun k => !r.has k && !comes k)).foldl setChunk r.aborted, nabt := min 255 (r.nabt + ks.length),
           out := r.out.map (fun t => { t with todo := t.todo.filter (fun x => !ks.contains x)
                                               flight := t.flight.filter (fun x => !ks.contains x) }) }

/-- Bytes of a window element. -/
def Layout.ebytes (l : Layout) : Nat := 2 ^ l.esz

/-- Bytes of a source element. -/
def Layout.sbytes (l : Layout) : Nat := if l.conv = 0 then l.ebytes else if l.conv ≤ 3 then 4 else 2

/-- Bytes from FAR to the end of the last element. -/
def Layout.span (l : Layout) : Nat := (l.orr * l.br - 1) * l.rowStride + l.oc * l.bc * l.sbytes

/-- Half h of a bitmap. -/
def bitmapHalf (m : BitVec 128) (h : Nat) : DWord := (m >>> (64 * h)).setWidth 64

/-- The global far range of a window (10 R294). -/
def Region.farRange (r : Region) : Option (Nat × Nat) := if r.fark then none else some (r.far, r.layout.span)

/-- The acquire of observed chunks: at core scope over the far range of a fill window (10 R294, 03 R75). -/
def State.acquireFar (s : State) (c : CoreRef) (r : Region) : State :=
  match r.farRange with
  | some x => if r.dir = 1 then s else s.acquireAt c r.asid 0 (some [x]) true
  | none => s

/-- An RWT's test of an entry (10 R294): it traps on an aborted chunk, completes once its chunks have arrived, else none. -/
def Region.rwt (r : Region) (h : Nat) (ka : DWord) : Option Bool :=
  if bitmapHalf r.aborted h &&& ka ≠ 0 then some false
  else if bitmapHalf r.arrived h &&& ka = ka then some true
  else none

/-- The RWTs that wait on an entry are tested again: at each landing and each abort of a chunk of it (10 R294). -/
def State.serveRwt (s : State) (k : CoreRef × Nat) : State :=
  let r := s.region k
  let ws := (s.groups.filter (fun g => g.ref.coreRef = k.1 && g.lid = r.lid && g.blk = r.blk && g.isRunning)).flatMap (fun g =>
    (List.range 10).filterMap (fun e => match (g.split e).state, (g.split e).wait with
      | .blocked, .chunks n h ka => if n = k.2 then (r.rwt h ka).map (fun ok => (g.ref, e, (g.split e).pc, ok)) else none
      | _, _ => none))
  ws.foldl (fun (s : State) w =>
    if w.2.2.2 then (s.acquireFar k.1 r).finishSlot w.1 w.2.1 else s.takeTrap w.1 w.2.1 .chunkabort 0 w.2.2.1) s

/-- Chunks have landed or been aborted: their touches are served, and the RWTs of the entry are tested (10 R284, R294). -/
def State.served (s : State) (k : CoreRef × Nat) (which : Nat → Bool) : State := (s.serveTouches k which).serveRwt k

/-- Chunks of a transfer that have not started. -/
def unstarted (t : Option Transfer) : List Nat := match t with | some t => t.todo | none => []

/-- Revocation of an entry (10 R276, R282): chunks that have not started are aborted, the entry is REVOKED unless it is
FLUSHING, and the touches of chunks that will not come are served. -/
def State.revoke (s : State) (k : CoreRef × Nat) (reason : Nat) : State :=
  let r := s.region k
  if r.state = .free || r.state = .revoked then s
  else
    let nf := unstarted r.fill
    let no := unstarted r.out
    let r1 := (r.abortFill nf).abortOut no
    let r2 := { r1 with state := if r.state = .flushing then .flushing else .revoked, reason := reason }
    let s1 := (s.setRegion k r2).count k.1 6 4 (nf.length + no.length)
    (s1.served k (fun c => !r2.waits c)).settleRegion k

/-- A context is freed: its generation advances and its handle is revoked everywhere (10 R274, R276). -/
def State.freeContext (s : State) (k : Nat × Nat) (reason : Nat) : State :=
  let c := s.copyCtx k
  let h := k.2 * 2 ^ 8 + c.gen
  let s1 := { s with ctxs := s.ctxs.set k ⟨none, if c.gen = 255 then 1 else c.gen + 1, none⟩ }
  let keys := (s1.regions.filter (fun x => x.1.1.die = k.1 && x.2.handle = h)).map (·.1)
  keys.foldl (fun (s : State) x => s.revoke x reason) s1

/-- HNEW.new: the lowest free context of the die; 0 when there is none. -/
def execHnewNew (o : OpS) (s : State) : Out :=
  slot s o.g [] [] (fun c =>
    match (List.range 256).find? (fun n => (c.s.copyCtx (c.r.die, n)).owner.isNone) with
    | none => .ok (c.putK c.s (dstNum o.d) 0)
    | some n =>
      let x := c.s.copyCtx (c.r.die, n)
      let s1 := { c.s with ctxs := c.s.ctxs.set (c.r.die, n) { x with owner := some c.g.lid } }
      .ok (c.putK s1 (dstNum o.d) (BitVec.ofNat 64 (n * 2 ^ 8 + x.gen))))

/-- HNEW.free (10 R290): REASON 2 when a privileged group frees another launch's context. -/
def execHnewFree (o : OpS) (s : State) : Out :=
  slot s o.g (srcRds o.a) [] (fun c =>
    let h := (c.k o.a.kNum).toNat
    match c.s0.handleTrap c.g h with
    | some ca => .trap ca 0
    | none =>
      let k := (c.r.die, bits h 15 8)
      .ok (c.s.freeContext k (if (c.s0.copyCtx k).owner = some c.g.lid then 1 else 2)))

/-! ### Layouts (10 R277, R278) -/

/-- A layout record read from its 32 bytes; wf is false when it is malformed (10 R277). -/
def layoutOf (w0 w1 w2 w3 : Nat) : Layout :=
  let l : Layout :=
    { conv := bits w0 55 52, esz := bits w0 51 50, inner := w0.testBit 49, outer := w0.testBit 48, swz := bits w0 47 46,
      br := bits w1 63 48, bc := bits w1 47 32, orr := bits w1 31 16, oc := bits w1 15 0, rowStride := bits w2 39 0, wf := true }
  let eszOk := match l.conv with
    | 0 => l.esz < 3 | 1 | 2 => l.esz == 1 | 3 => l.esz == 0 | 4 | 5 => l.esz == 2 | _ => false
  let dims := 1 ≤ l.br && l.br ≤ 1024 && 1 ≤ l.bc && l.bc ≤ 1024 && 1 ≤ l.orr && l.orr ≤ 256 && 1 ≤ l.oc && l.oc ≤ 256
  { l with wf := bits w0 63 56 == 1 && eszOk && bits w0 45 0 == 0 && dims && bits w2 63 40 == 0 && w3 == 0 &&
                 l.rowStride % l.sbytes == 0 }

/-- Bytes of the window a layout implies. -/
def Layout.window (l : Layout) : Nat := l.orr * l.oc * l.br * l.bc * l.ebytes

/-- The swizzle of R278 permutes the sectors of a line; it is its own inverse. -/
def Layout.swizzle (l : Layout) (lin : Nat) : Nat :=
  let mask := match l.swz with | 0 => 0 | 1 => 1 | 2 => 3 | _ => 7
  lin - bits lin 6 4 * 16 + (bits lin 6 4 ^^^ (lin / 128 &&& mask)) * 16

/-- The element whose bytes a window offset holds: row, column and linear index (10 R278). -/
def Layout.elementAt (l : Layout) (off : Nat) : Nat × Nat × Nat :=
  let lin := l.swizzle off
  let per := l.br * l.bc * l.ebytes
  let blk := lin / per
  let e := lin % per / l.ebytes
  let b := if l.outer then (blk % l.orr, blk / l.orr) else (blk / l.oc, blk % l.oc)
  let ij := if l.inner then (e % l.br, e / l.br) else (e / l.bc, e % l.bc)
  (b.1 * l.br + ij.1, b.2 * l.bc + ij.2, lin / l.ebytes)

/-- LREC (10 R291): the record is read at package scope; a page fault is waited for. -/
def execLrec (o : OpS) (s : State) : Out :=
  slot s o.g (kRds o.a 2) [] (fun c =>
    let h := (c.k o.a.kNum).toNat
    let a := (c.k (o.a.kNum + 1)).toNat
    let asid := c.s0.asidOf c.g
    match c.s0.handleTrap c.g h with
    | some ca => .trap ca 0
    | none =>
      if a % 32 ≠ 0 then .ok (c.putK c.s (dstNum o.d) 2)
      else if !globalVa a then .trap .access 0
      else
        match c.s0.engineFault c.r.coreRef asid a 32 false with
        | some s' => .block s' .retest
        | none =>
          let s1 := c.s.releaseAt c.r.coreRef asid 2 (some [(a, 32)])
          let w (i : Nat) : Nat := (s1.homeRead64 c.r.die asid (a + 8 * i)).toNat
          let l := layoutOf (w 0) (w 1) (w 2) (w 3)
          if !l.wf then .ok (c.putK s1 (dstNum o.d) 1)
          else
            let k := (c.r.die, bits h 15 8)
            .ok (c.putK { s1 with ctxs := s1.ctxs.set k { s1.copyCtx k with layout := some l } } (dstNum o.d) 0))

/-! ### Binding (10 R280 to R282, R292) -/

/-- The descriptor's own conditions and those of its far side (10 R281 BADENTRY). -/
def badEntry (r : LaunchRec) (layout : Option Layout) (w0 w1 w2 w3 : Nat) : Bool :=
  let fark := w0.testBit 63
  let dir := bits w0 62 61
  let far := bits w0 55 0
  let len := bits w2 31 0
  let woff := bits w1 31 0
  let phen := w1.testBit 39
  bits w0 60 56 != 0 || bits w1 47 40 != 0 || bits w1 38 37 != 0 || bits w2 63 33 != 0 || w3 != 0 || dir == 3 ||
  woff % 512 != 0 || len % 512 != 0 || len < 512 || 65536 < len || r.scratch < woff + len ||
  (dir == 1 && w2.testBit 32) || (phen && !fark && dir == 1) ||
  (if fark then
     2 ^ 40 ≤ far ||
     (match ocDecode far with
      | none => true
      | some x => ocLimit x.kind < x.off + len || (x.kind == 2 && far % 128 != 0))
   else
     match layout with
     | none => true
     | some l => l.window != len || (dir != 0 && l.conv != 0) || far % l.sbytes != 0 || 2 ^ 56 - 2 ^ 40 < far + l.span)

/-- The mode that conversions sample is the reserved one (10 R279). -/
def Ctx.badMode (c : Ctx) (conv : Nat) : Bool := conv != 0 && bits c.g.sp.rmode.toNat 2 0 == 7

/-- RBND. -/
def execRbnd (o : OpS) (s : State) : Out :=
  slot s o.g (kRds o.a 4) [] (fun c =>
    let w (i : Nat) : Nat := (c.k (o.a.kNum + i)).toNat
    let h := bits (w 1) 63 48
    match c.s0.handleTrap c.g h with
    | some ca => .trap ca 0
    | none =>
      let key := (c.r.coreRef, o.imm.toNat)
      let woff := bits (w 1) 31 0
      let len := bits (w 2) 31 0
      let layout := (c.s0.copyCtx (c.r.die, bits h 15 8)).layout
      let fark := (w 0).testBit 63
      let clash := c.s0.regions.any (fun x => x.1.1 = c.r.coreRef && x.2.state != .free && x.2.lid = c.g.lid && x.2.blk = c.g.blk &&
        meet x.2.woff x.2.len woff len)
      let answer (n : Nat) : SlotRes := .ok (c.putK c.s (dstNum o.d) (BitVec.ofNat 64 n))
      if (c.s0.region key).state ≠ .free then answer 1
      else if badEntry (c.s0.recOf c.g) layout (w 0) (w 1) (w 2) (w 3) then answer 2
      else if clash then answer 3
      else if !fark && c.badMode ((layout.map (·.conv)).getD 0) then .trap .illop 0x10
      else
        let dir := bits (w 0) 62 61
        let r : Region := { (default : Region) with
          state := if dir = 1 then .present else .absent, lid := c.g.lid, blk := c.g.blk, fark := fark, dir := dir,
          far := bits (w 0) 55 0, handle := h, phen := (w 1).testBit 39, phb := bits (w 1) 36 32, woff := woff,
          touch := (w 2).testBit 32, len := len, layout := layout.getD default, rmode := c.g.sp.rmode, seed := c.g.sp.seed,
          asid := c.s0.asidOf c.g }
        .ok (c.putK (c.s.setRegion key r) (dstNum o.d) 0))

/-- The entry a word names, when it belongs to the issuing block; `free` tells whether a FREE entry is allowed
(10 R289). -/
def Ctx.entry (c : Ctx) (o : OpS) (free : Bool) : Option Region :=
  let r := c.s0.region (c.r.coreRef, o.imm.toNat)
  if r.state = .free then (if free then some r else none)
  else if r.lid = c.g.lid && r.blk = c.g.blk then some r else none

/-- The group's open copy batch takes an operation, which counts in `copy` (01 R24, 02 R34). -/
def State.joinCopy (s : State) (r : GRef) : Nat × State :=
  match s.group? r with
  | none => (0, s)
  | some g => let j := g.ctl.join; (j.1, s.modGroup r (fun g => { g.incCtr 1 with ctl := j.2 }))

/-- A write-out of some chunks joins the open batch (10 R286). -/
def Ctx.startOut (c : Ctx) (s : State) (key : CoreRef × Nat) (r : Region) (todo : List Nat) (st : RState) (unbind : Bool) : State :=
  let j := s.joinCopy c.r
  j.2.setRegion key { r with state := st, unbind := unbind,
                             out := some { g := some c.r, batch := j.1, seq := s.nextId, todo := todo, flight := [], done := [] } }

/-- A copy that would take `copy` past its limit stalls (02 R34). -/
def Ctx.copyFull (c : Ctx) : Option SlotRes := if 65535 ≤ c.g.ctr.copy then some (.block c.s0 .room) else none

/-- The far range of a window, which a fill reads: whether it is on-chip, its start and its length (10 R283, R287). -/
def Region.source (r : Region) : Bool × Nat × Nat := if r.fark then (true, r.far, r.len) else (false, r.far, r.layout.span)

/-- A fill waits for the group's earlier stores to its far range (03 R75, 10 R283). -/
def Ctx.fillWaits (c : Ctx) (r : Region) : Option SlotRes :=
  match c.copyFull with
  | some x => some x
  | none =>
    let x := r.source
    if c.s0.sourcesDone c.r x.1 [x.2] c.s0.nextId then none else some (.block c.s0 .retest)

/-- RUNB (10 R282, R292). -/
def execRunb (o : OpS) (s : State) : Out :=
  slot s o.g [] [] (fun c =>
    match c.entry o false with
    | none => .trap .access 0
    | some r =>
      let key := (c.r.coreRef, o.imm.toNat)
      let kd (s : State) (n : Nat) : SlotRes := .ok (c.putK s (dstNum o.d) (BitVec.ofNat 64 n))
      let all := List.range r.chunks
      match r.state with
      | .flushing => kd c.s 1
      | .revoked => kd ((c.s.setRegion key { r with unbind := true }).settleRegion key) 2
      | .absent =>
        let r1 := r.abortFill all
        kd (((((c.s.setRegion key { r1 with state := .revoked }).count c.r.coreRef 6 4 all.length).served key (fun _ => true)).setRegion
          key { r1 with state := .free, waiting := [] }).settleRegion key) 0
      | .filling =>
        if r.out.isSome || r.unbind then kd c.s 1
        else
          let late := unstarted r.fill
          let moves := r.dir = 2 && (match r.fill with | some t => !t.flight.isEmpty | none => false) || (r.dir = 2 && r.arrived ≠ 0)
          match (if moves then c.copyFull else none) with
          | some x => x
          | none =>
            let s1 := if moves then c.startOut c.s key r [] .filling true else c.s.setRegion key { r with unbind := true }
            let r1 := (s1.region key).abortFill late
            kd ((((s1.setRegion key r1).count c.r.coreRef 6 4 late.length).served key late.contains).settleRegion key) 0
      | .present =>
        if r.out.isSome then kd c.s 1
        else if r.dir = 0 then kd { c.s with regions := c.s.regions.erase key } 0
        else
          match c.copyFull with
          | some x => x
          | none => kd (c.startOut c.s key r all .flushing true) 0
      | .free => .trap .access 0)

/-- RTCH.fill (10 R293). -/
def execRtchFill (o : OpS) (s : State) : Out :=
  slot s o.g [] [] (fun c =>
    match c.entry o false with
    | none => .trap .access 0
    | some r =>
      let key := (c.r.coreRef, o.imm.toNat)
      let kd (s : State) (n : Nat) : SlotRes := .ok (c.putK s (dstNum o.d) (BitVec.ofNat 64 n))
      if r.state = .revoked then kd c.s 2
      else if r.dir = 1 then kd c.s 3
      else if r.state = .filling || r.state = .flushing then kd c.s 1
      else if !r.fark && c.badMode r.layout.conv then .trap .illop 0x10
      else
        match c.fillWaits r with
        | some x => x
        | none =>
          let s1 := match r.farRange with
            | some x => c.s.releaseAt c.r.coreRef r.asid 2 (some [x])
            | none => c.s
          let j := s1.joinCopy c.r
          let r1 := { r with rmode := c.g.sp.rmode, seed := c.g.sp.seed }
          kd (j.2.setRegion key (r1.begin 0 (some c.r) j.1 s1.nextId)) 0)

/-- RTCH.out (10 R293). -/
def execRtchOut (o : OpS) (s : State) : Out :=
  slot s o.g [] [] (fun c =>
    match c.entry o false with
    | none => .trap .access 0
    | some r =>
      let key := (c.r.coreRef, o.imm.toNat)
      let kd (s : State) (n : Nat) : SlotRes := .ok (c.putK s (dstNum o.d) (BitVec.ofNat 64 n))
      if r.state = .revoked then kd c.s 2
      else if r.dir = 0 then kd c.s 3
      else if r.state ≠ .present || r.out.isSome then kd c.s 1
      else
        match c.copyFull with
        | some x => x
        | none => kd (c.startOut c.s key r (List.range r.chunks) .present false) 0)

/-! ### Bitmaps and status (10 R294 to R296) -/

/-- RTST. -/
def execRtst (o : OpS) (s : State) : Out :=
  slot s o.g (srcRds o.a) [] (fun c =>
    match c.entry o false with
    | none => .trap .access 0
    | some r =>
      let ka := c.k o.a.kNum
      let sub := o.sub.toNat
      let m := bitmapHalf (if sub < 2 then r.arrived else r.aborted) (sub % 2) &&& ka
      let s1 := if sub < 2 && m ≠ 0 then c.s.acquireFar c.r.coreRef r else c.s
      if isQDst o.d then .ok (c.putPred s1 o.d Mask.all (if m = ka then Mask.all else 0))
      else .ok (c.putK s1 (dstNum o.d) m))

/-- RWT. -/
def execRwt (o : OpS) (s : State) : Out :=
  slot s o.g (srcRds o.a) [] (fun c =>
    match c.entry o false with
    | none => .trap .access 0
    | some r =>
      let ka := c.k o.a.kNum
      let h := o.sub.toNat
      match r.rwt h ka with
      | some false => .trap .chunkabort 0
      | some true => .ok (c.s.acquireFar c.r.coreRef r)
      | none => .block c.s (.chunks o.imm.toNat h ka))

/-- CFEN. -/
def execCfen (o : OpS) (s : State) : Out :=
  slot s o.g [] [] (fun c => .ok (c.s.modGroup c.r (fun g => { g with ctl := g.ctl.close })))

/-- CFEN.num. -/
def execCfenNum (o : OpS) (s : State) : Out :=
  slot s o.g [] [] (fun c =>
    .ok (c.putK (c.s.modGroup c.r (fun g => { g with ctl := g.ctl.close })) (dstNum o.d) (BitVec.ofNat 64 (c.g.ctl.closed + 1))))

/-- The code of an entry's state (10 R296). -/
def rstateCode : RState → Nat
  | .free => 0 | .absent => 1 | .filling => 2 | .present => 3 | .revoked => 4 | .flushing => 5

/-- RSTA.e. -/
def execRstaE (o : OpS) (s : State) : Out :=
  slot s o.g [] [] (fun c =>
    match c.entry o true with
    | none => .trap .access 0
    | some r =>
      let v := rstateCode r.state * 2 ^ 61 + r.dir * 2 ^ 59 + r.reason * 2 ^ 56 + r.arrivedList.length * 2 ^ 48 + r.nabt * 2 ^ 40 +
        r.handle * 2 ^ 24 + r.chunks * 2 ^ 16 + (if r.out.isSome then 1 else 0)
      .ok (c.putK c.s (dstNum o.d) (BitVec.ofNat 64 v)))

/-- RSTA.h. -/
def execRstaH (o : OpS) (s : State) : Out :=
  slot s o.g (srcRds o.a) [] (fun c =>
    let h := (c.k o.a.kNum).toNat
    let x := c.s0.copyCtx (c.r.die, bits h 15 8)
    let live := h / 2 ^ 16 = 0 && bits h 7 0 = x.gen
    .ok (c.putK c.s (dstNum o.d) (BitVec.ofNat 64 ((if live then 2 ^ 16 else 0) + bits h 15 8 * 2 ^ 8 + x.gen))))

/-! ### Chunks (10 R278, R279, R283, R286 to R288) -/

/-- The context's chunks in flight, over every entry of the die that uses it, those begun before it was freed among them
(10 R274, R283). -/
def State.inFlight (s : State) (die h : Nat) : Nat :=
  s.regions.foldl (fun n x =>
    let len (t : Option Transfer) : Nat := match t with | some t => t.flight.length | none => 0
    if x.1.1.die = die && bits x.2.handle 15 8 = bits h 15 8 then n + len x.2.fill + len x.2.out else n) 0

/-- An RTCH or RUNB counts in COPY_OPS when its first byte moves (10 R298). -/
def Transfer.counts (t : Transfer) : Nat := if t.g.isSome && t.done.isEmpty then 1 else 0

/-- The next chunk of a transfer is requested. -/
def Transfer.request (t : Transfer) : Transfer :=
  match t.todo with | [] => t | k :: rest => { t with todo := rest, flight := t.flight ++ [k] }

/-- The elements of a chunk: window offset, global address, linear index. -/
def Region.elements (r : Region) (k : Nat) : List (Nat × Nat × Nat) :=
  let w := r.layout.ebytes
  (List.range (512 / w)).map (fun i =>
    let off := 512 * k + w * i
    let e := r.layout.elementAt off
    (off, r.far + e.1 * r.layout.rowStride + e.2.1 * r.layout.sbytes, e.2.2))

/-- The global addresses that a chunk reaches. -/
def Region.farAddrs (r : Region) (k : Nat) : List Nat := if r.fark then [] else (r.elements k).map (fun e => e.2.1)

/-- A chunk's turn has come, its engine's, the answer's to its fault, and its controllers' (10 R274, R287, 14 R412, R416). -/
def State.chunkTurn (s : State) (q : EngReq) : Bool :=
  let r := s.region (q.c, q.n)
  s.engTurn q && !s.chunkAsks q && (s.dls.isEmpty || !s.dlYields (.chunk q) (s.dlCtls q.c.die r.asid true (r.farAddrs q.k)))

/-- CHUNK_REQUEST (10 R274, R283): at most 16 chunks of a context are in flight; the engine serves them in order. What it reaches
on pages of deadline class is of that class (14 R416). -/
def execChunkRequest (c : CoreRef) (n : Nat) (s : State) : Out :=
  let key := (c, n)
  let r := s.region key
  let e := engineOf c r
  let ask (s1 : State) (k : Nat) (out : Bool) : State :=
    ({ s1 with engines := s.engines.set e ((s.engines.getD e []).filter (s.engLive e) ++ [⟨c, n, k, out⟩]) } : State).dlEnter
      (.chunk ⟨c, n, k, out⟩) (s.dlCtls c.die r.asid false (r.farAddrs k))
  if 16 ≤ s.inFlight c.die r.handle then .next s
  else
    match unstarted r.fill, unstarted r.out with
    | k :: _, _ => .next (ask (s.setRegion key { r with fill := r.fill.map Transfer.request }) k false)
    | [], k :: _ => .next (ask (s.setRegion key { r with out := r.out.map Transfer.request }) k true)
    | [], [] => .next s

/-- The map address of a window byte. -/
def State.windowAddr (s : State) (c : CoreRef) (r : Region) (off : Nat) : Nat :=
  ocEncode c.die c.core 0 (((s.block? r.lid r.blk).map (·.scratchBase)).getD 0 + r.woff + off)

/-- A converted element (10 R279). -/
def convElem (r : Region) (lid e x : Nat) : Nat :=
  let md := (rmOf (bits r.rmode.toNat 2 0)).getD .rne
  let u := if md = .sr then srBits (gen (srKey r.seed r.rmode) 2 lid (BitVec.ofNat 64 e) (BitVec.ofNat 64 (r.fills - 1))) else 0
  let cc : RndCtl := ⟨md, false, r.rmode.getLsbD 4, false, u⟩
  match r.layout.conv with
  | 1 => (roundF .bf16 cc (decodeF .f32 x)).b
  | 2 => (roundF .f16 cc (decodeF .f32 x)).b
  | 3 => (roundF .e4m3 cc (decodeF .f32 x)).b
  | 4 => (roundF .f32 RndCtl.rne (decodeF .bf16 x)).b
  | 5 => (roundF .f32 RndCtl.rne (decodeF .f16 x)).b
  | _ => x

/-- The launch identifier of a fill's random bits: 0 in a piste launch (06 R180). -/
def State.rndLid (s : State) (lid : Nat) : Nat :=
  match s.launch? lid with | some l => if l.lrec.piste then 0 else lid | none => lid

/-- The first far-side page of a chunk that is not accessible (10 R287). -/
def State.chunkFault (s : State) (c : CoreRef) (r : Region) (k : Nat) (store : Bool) : Option (Nat × Nat × DWord × Nat) :=
  if r.fark then none
  else (((r.elements k).map (fun e => e.2.1 / 2 ^ 16)).dedup).findSome? (fun pg =>
    match (r.elements k).find? (fun e => e.2.1 / 2 ^ 16 = pg) with
    | some e => s.rangeFault c.die r.asid e.2.1 r.layout.sbytes store
    | none => none)

/-- The far side of a chunk passes the checks of the on-chip map (10 R287). -/
def State.farLegal (s : State) (r : Region) (k : Nat) : Bool :=
  !r.fark ||
  (let a := r.far + 512 * k
   if bits a 29 28 = 2 then (List.range 4).all (fun i => s.ocLegal r.lid (a + 128 * i) 128) else s.ocLegal r.lid a 512)

/-- A chunk's source in memory is poisoned (10 R287, 14 R418). -/
def State.chunkPoison (s : State) (c : CoreRef) (r : Region) (k : Nat) : Bool :=
  !r.fark && (r.elements k).any (fun e => (s.poisonAt c.die r.asid e.2.1 r.layout.sbytes).isSome)

/-- A chunk that meets a page fault waits for its answer (10 R287, 14 R412). -/
def State.chunkWait (s : State) (q : EngReq) (f : Nat × Nat × DWord × Nat) : State :=
  let r := s.region (q.c, q.n)
  (s.recordFault r.asid f.1 f.2.1 f.2.2.1 f.2.2.2 1 (q.c.die * 2 ^ 8 + bits r.handle 15 8) (.chunk q)).getD s

/-- CHUNK_LAND_FILL (10 R283): the chunk's bytes are written to the window, ARRIVED is set, its phase barrier counts it and
the touches that wait for it are served. -/
def execChunkLandFill (c : CoreRef) (n k : Nat) (s : State) : Out :=
  let key := (c, n)
  let r := s.region key
  match r.fill with
  | none => .next s
  | some t =>
    if !t.flight.contains k || !s.chunkTurn ⟨c, n, k, false⟩ || !s.farLegal r k || s.chunkPoison c r k ||
        (r.phen && !s.phaseRoom r.lid r.blk r.phb) then .next s
    else
      match s.chunkFault c r k false with
      | some f => .next (s.chunkWait ⟨c, n, k, false⟩ f)
      | none =>
        let s1 := if r.fark then s.ocWrite (s.windowAddr c r (512 * k)) (s.ocRead (r.far + 512 * k) 512)
          else (r.elements k).foldl (fun (s' : State) e =>
            let x := bytesToNat (s.homeRead c.die r.asid e.2.1 r.layout.sbytes)
            s'.ocWrite (s.windowAddr c r e.1) (natToBytes r.layout.ebytes (convElem r (s.rndLid r.lid) e.2.2 x))) s
        let r1 := { r with arrived := setChunk r.arrived k
                           fill := some { t with flight := t.flight.filter (· ≠ k), done := t.done ++ [k] } }
        let s2 := ((s1.setRegion key r1).count c 6 2).count c 6 8 (if r.layout.conv ≠ 0 && !r.fark then 512 / r.layout.ebytes else 0)
        let s3 := (((s2.count c 6 0 t.counts).dlLeave (.chunk ⟨c, n, k, false⟩)).remapUse c.die r.asid (r.farAddrs k)).served key (· = k)
        let s4 := if r.phen then s3.phaseChunk r.lid r.blk r.phb else s3
        .next (s4.settleRegion key)

/-- The block that holds the storage an on-chip address names. -/
def State.ocOwner (s : State) (a : Nat) : Option (Nat × Nat) :=
  match ocDecode a with
  | none => none
  | some x =>
    if x.kind = 2 then (s.ocMbox x).map (fun t => (t.1.lid, t.1.blk))
    else (s.ocBlock x 1).map (fun b => (b.lid, b.idx))

/-- The group's stores before a write-out are performed in the chunk's part of the window (03 R75, 10 R286). -/
def State.chunkReady (s : State) (c : CoreRef) (r : Region) (t : Transfer) (k : Nat) : Bool :=
  match t.g with
  | some g => s.sourcesDone g true [(s.windowAddr c r (512 * k), 512)] t.seq
  | none => true

/-- A page that a chunk writes is gather-direct and migrates: its writes are held until the switch (14 R414). -/
def State.chunkHeld (s : State) (c : CoreRef) (r : Region) (k : Nat) : Bool :=
  !r.fark && !s.migrs.isEmpty && (r.elements k).any (fun e => s.gdMigrates c.die r.asid e.2.1)

/-- CHUNK_LAND_WRITEOUT (10 R286, R288). -/
def execChunkLandWriteout (c : CoreRef) (n k : Nat) (s : State) : Out :=
  let key := (c, n)
  let r := s.region key
  match r.out with
  | none => .next s
  | some t =>
    let owner := if r.fark && r.phen then s.ocOwner (r.far + 512 * k) else none
    let room := match owner with | some (l, b) => s.phaseRoom l b r.phb | none => true
    if !t.flight.contains k || !s.chunkTurn ⟨c, n, k, true⟩ || !s.farLegal r k || !room || !s.chunkReady c r t k || s.chunkHeld c r k then
      .next s
    else
      match s.chunkFault c r k true with
      | some f => .next (s.chunkWait ⟨c, n, k, true⟩ f)
      | none =>
        let bs := s.ocRead (s.windowAddr c r (512 * k)) 512
        let mb := r.fark && bits r.far 29 28 = 2
        let s1 :=
          if mb then (List.range 4).foldl (fun (s : State) i => s.ocStore (r.far + 512 * k + 128 * i) ((bs.drop (128 * i)).take 128)) s
          else if r.fark then s.ocWrite (r.far + 512 * k) bs
          else (r.elements k).foldl (fun (s' : State) e =>
            s'.homeWrite c.die r.asid e.2.1 ((bs.drop (e.1 - 512 * k)).take r.layout.ebytes)) s
        let s2 := (((s1.setRegion key { r with out := some { t with flight := t.flight.filter (· ≠ k), done := t.done ++ [k] } }).count c 6 3).count
          c 6 7 (if mb then 4 else 0)).count c 6 0 t.counts
        let s3 := match owner with | some (l, b) => s2.phaseChunk l b r.phb | none => s2
        .next (((s3.dlLeave (.chunk ⟨c, n, k, true⟩)).remapUse c.die r.asid (r.farAddrs k)).settleRegion key)

/-- A chunk in flight, of a fill or of a write-out, is aborted by its far side: the entry is revoked (10 R287). -/
def State.abortChunk (s : State) (q : EngReq) (reason : Nat) : State :=
  let key := (q.c, q.n)
  let r := s.region key
  if !s.engLive (engineOf q.c r) q then s
  else
    let r1 := if q.out then r.abortOut [q.k] else r.abortFill [q.k]
    let s1 := ((s.setRegion key { r1 with reason := reason }).count q.c 6 4).dlLeave (.chunk q)
    let s2 := s1.served key (fun x => !q.out && x == q.k)
    if r.state = .revoked then s2.settleRegion key else s2.revoke key reason

/-- CHUNK_ABORT (10 R287): REASON 2 for a far side that fails the map's checks, 4 for an uncorrectable error. A refused fault
aborts at its answer. -/
def execChunkAbort (c : CoreRef) (n k : Nat) (s : State) : Out :=
  let r := s.region (c, n)
  let inFill := match r.fill with | some t => t.flight.contains k | none => false
  if !s.farLegal r k then .next (s.abortChunk ⟨c, n, k, !inFill⟩ 2)
  else if inFill && s.chunkPoison c r k then .next (s.abortChunk ⟨c, n, k, false⟩ 4)
  else .next s

end Sys2Proof.Machine
end

