-- ==== Sys2Proof/Machine/Home.lean ====
section
/-! DEFINITION. The home engine: combinable objects, requests, packs and pack waves (12 R344 to R361) and glide words
(12 R362 to R373). -/

namespace Sys2Proof.Machine

open Sys2Proof

/-- The counters of a slice and its home core are those of the core above it (12 R374). -/
def sliceCore (h : Nat × Nat) : CoreRef := { home := false, die := h.1, core := h.2 }

/-! ### Object records and tables (12 R344 to R347) -/

/-- An object record (12 R344). -/
structure ObjRec where
  home : Nat
  mdl : Nat
  method : Nat
  asz : Nat
  rsz : Nat
  comm : Bool
  regs : Nat
  mbud : Nat
  slen : Nat
  wf : Bool
  deriving DecidableEq, Repr, Inhabited

/-- The record of four words; `wf` tells whether every field but METHOD's range and the module is well formed. -/
def objRecOf (w0 w1 w2 w3 : Nat) : ObjRec :=
  { home := bits w0 55 0, mdl := bits w1 63 56, method := bits w1 31 0, asz := bits w2 63 62, rsz := bits w2 61 60,
    comm := bits w2 59 59 == 1, regs := bits w2 58 50, mbud := bits w3 63 48, slen := bits w3 31 0,
    wf := bits w0 63 56 == 1 && bits w1 55 32 == 0 && bits w1 31 0 % 8 == 0 && bits w2 63 62 != 3 && bits w2 61 60 != 3 &&
      decide (1 ≤ bits w2 58 50 && bits w2 58 50 ≤ 256) && bits w2 49 0 == 0 && bits w3 47 32 == 0 &&
      bits w3 31 0 % 128 == 0 && decide (128 ≤ bits w3 31 0 && bits w3 31 0 ≤ 8192) &&
      bits w0 55 0 % 128 == 0 && globalVa (bits w0 55 0) }

/-- The status of OBJR (12 R345), the first condition that holds in its order, with the record. -/
def State.objrStatus (s : State) (die asid ka : Nat) : Nat × ObjRec :=
  let w (i : Nat) : Nat := (s.homeRead64 die asid (ka + 8 * i)).toNat
  let r := objRecOf (w 0) (w 1) (w 2) (w 3)
  let m := s.modEnt die asid r.mdl
  let h := s.homeOf die asid r.home
  if ka % 32 ≠ 0 then (5, r)
  else if !r.wf || !m.valid || m.len ≤ r.method then (2, r)
  else if s.objs.any (fun o => o.home = r.home) then (3, r)
  else if s.objs.any (fun o => rangesMeet o.home o.slen r.home r.slen) then (4, r)
  else if 64 ≤ (s.objs.filter (fun o => o.die = h.1 && o.slice = h.2)).length then (1, r)
  else (0, r)

/-- OBJR (12 R345): the record is read as an acquire at package scope. -/
def execObjr (o : OpS) (s : State) : Out :=
  slot s o.g (srcRds o.a) [] (fun c =>
    let ka := (c.k o.a.kNum).toNat
    let asid := c.s0.asidOf c.g
    if c.g.isPack then .trap .illop 3
    else
      match (if ka % 32 = 0 then c.s.engineFault c.r.coreRef asid ka 32 false else none) with
      | some s1 => .block s1 .retest
      | none =>
        let s1 := if ka % 32 = 0 then c.s.acquireAt c.r.coreRef asid 3 (some [(ka, 32)]) false else c.s
        let x := s1.objrStatus c.r.die asid ka
        let h := s1.homeOf c.r.die asid x.2.home
        let ob : Obj :=
          { die := h.1, slice := h.2, home := x.2.home, asid := asid, lid := c.g.lid, mdl := x.2.mdl, method := x.2.method,
            asz := x.2.asz, rsz := x.2.rsz, comm := x.2.comm, regs := x.2.regs, mbud := x.2.mbud, slen := x.2.slen,
            recAddr := ka, state := .idle, packNo := 0, delBy := [] }
        let s2 := if x.1 = 0 then { s1 with objs := s1.objs ++ [ob] } else s1
        .ok (c.putK s2 (dstNum o.d) (BitVec.ofNat 64 x.1)))

/-- The registered object with a HOME. -/
def State.obj? (s : State) (home : Nat) : Option Obj := s.objs.find? (fun o => o.home = home)

/-- An object replaced. -/
def State.modObj (s : State) (home : Nat) (f : Obj → Obj) : State :=
  { s with objs := s.objs.map (fun o => if o.home = home then f o else o) }

/-- A reply sent: the words of a run, or the failure of a request, counted when no pack ran it (12 R351, R374). -/
def State.sendReply (s : State) (q : Req) (words : List Word) (fail : Option Nat) (slen : Nat) : State :=
  let (id, s1) := s.fresh
  { s1 with replies := s1.replies ++ [⟨id, q, words, fail, slen⟩] }

/-- A request fails without a pack. -/
def State.failReq (s : State) (h : Nat × Nat) (q : Req) (detail : Nat) : State :=
  (s.sendReply q [] (some detail) 0).count (sliceCore h) 8 6

/-- The queue of an object's home. -/
def State.queueOf (s : State) (h : Nat × Nat) : List Req := s.queues.getD h []

/-- The queued requests of an object fail (12 R347, R351, R357). -/
def State.failQueued (s : State) (ob : Obj) (detail : Nat) : State :=
  let h := (ob.die, ob.slice)
  let mine (q : Req) : Bool := q.home == ob.home && q.asid == ob.asid
  let qs := s.queueOf h
  let s1 := { s with queues := s.queues.set h (qs.filter (fun q => !mine q)) }
  (qs.filter mine).foldl (fun (s : State) q => s.failReq h q detail) s1

/-- An object leaves its table, and the OBJC.del forms that waited for it complete (12 R346, R347). -/
def State.objFree (s : State) (ob : Obj) : State :=
  let s1 := { s with objs := s.objs.filter (fun o => o.home ≠ ob.home) }
  ob.delBy.foldl (fun (s : State) w => s.answer w 0) s1

/-- An object is deregistered (12 R346, R347): its queued requests fail; a running pack ends first. True when the entry is
FREE at once. -/
def State.objDeregister (s : State) (ob : Obj) : State × Bool :=
  let s1 := s.failQueued ob 0x6400
  if ob.state = .running || ob.state = .closing then (s1.modObj ob.home (fun o => { o with state := .closing }), false)
  else (s1.objFree ob, true)

/-- The issuer may act on the object: a group of the owner launch, or privileged (12 R347). -/
def State.mayObjc (s : State) (g : Group) (ob : Obj) : Bool := g.lid == ob.lid || s.privileged g

/-- OBJC.clr (12 R347). -/
def execObjcClr (o : OpS) (s : State) : Out :=
  slot s o.g (srcRds o.a) [] (fun c =>
    let ka := (c.k o.a.kNum).toNat
    let put (s : State) (n : Nat) : SlotRes := .ok (c.putK s (dstNum o.d) (BitVec.ofNat 64 n))
    if c.g.isPack then .trap .illop 3
    else
      match c.s.obj? ka with
      | none => put c.s 2
      | some ob =>
        if !c.s0.mayObjc c.g ob then put c.s 6
        else if ob.state ≠ .poisoned then put c.s 1
        else put (c.s.modObj ka (fun o => { o with state := .idle })) 0)

/-- OBJC.del (12 R347): the split waits for a running pack. -/
def execObjcDel (o : OpS) (s : State) : Out :=
  slot s o.g (srcRds o.a) [] (fun c =>
    let ka := (c.k o.a.kNum).toNat
    let put (s : State) (n : Nat) : SlotRes := .ok (c.putK s (dstNum o.d) (BitVec.ofNat 64 n))
    if c.g.isPack then .trap .illop 3
    else
      match c.s.obj? ka with
      | none => put c.s 2
      | some ob =>
        if !c.s0.mayObjc c.g ob then put c.s 6
        else
          let r := c.s.objDeregister ob
          if r.2 then put r.1 0
          else
            let (w, s1) := c.awaitK r.1 (dstNum o.d)
            .block (s1.modObj ka (fun x => { x with delBy := x.delBy ++ [w] })) .reply)

/-! ### Requests (12 R348 to R351) -/

/-- The requester word (12 R349). -/
def requesterWord (g : GRef) (lane : Nat) : Word := BitVec.ofNat 32 (requesterHi g lane * 2 ^ 12)

/-- Lanes of a v run marked empty by an operation (01 R27); a mailbox register becomes empty as a whole. -/
def State.markRun (s : State) (r : GRef) (n w : Nat) (m : Mask) (id : Nat) : State :=
  if m = 0 then s
  else (List.range w).foldl (fun (s : State) i => s.modGroup r (fun g =>
    if s.isMbox g (n + i) then g.setV (n + i) { g.vreg (n + i) with full := false } else g.markV (n + i) m id)) s

/-- CMB and CMB.nt (12 R349, R351). A word whose guard holds in no lane still checks HOME. -/
def combine (nt : Option Nat) (o : OpS) (s : State) : Out :=
  let asz := mfield o.m 9 8
  let rsz := mfield o.m 7 6
  let kobj := o.imm.toNat
  slot s o.g (srcRds o.a (runWords asz) ++ [⟨true, kobj, false, false⟩])
    ((List.range (runWords rsz)).map (fun i => dstNum o.d + i)) (fun c =>
    let home := (c.k kobj).toNat
    let asid := c.s0.asidOf c.g
    let h := c.s0.homeOf c.r.die asid home
    if !(c.g.kreg kobj).full then .block c.s0 (.empty true kobj Mask.all)
    else if home % 128 ≠ 0 then .trap .misalign 0
    else if !globalVa home then .trap .access 0
    else if c.g.isPack && c.r.home && decide (h = (c.r.die, c.r.core)) then .trap .access 0
    else if c.s0.pisteOf c.g && c.s0.objs.any (fun ob => ob.home = home && ob.asid = asid && !ob.comm) then .trap .illpiste 0
    else if c.m = 0 then .ok c.s
    else if 65535 ≤ c.g.ctr.cmb then .block c.s0 .room
    else
      let (id, s1) := c.s.fresh
      let req (l : Nat) : Req :=
        { msg := id, home := home, asid := asid, word := requesterWord c.r l,
          args := (List.range (runWords asz)).map (fun i => c.v (o.a.vNum + i) l), asz := asz, rsz := rsz, g := c.r, lane := l,
          dest := dstNum o.d, nt := nt, op := id, lid := c.g.lid }
      let s2 := s1.markRun c.r (dstNum o.d) (runWords rsz) c.m id
      let msg : CmbMsg := ⟨id, h.1, h.2, c.m.toLanes.map req, 0, false⟩
      let s3 : State := { s2 with cmbs := s2.cmbs ++ [msg] }
      .ok (s3.modGroup c.r (fun g => g.incCtr 3)))

/-- CMB. -/
def execCmb (o : OpS) (s : State) : Out := combine none o s

/-- CMB.nt: the status goes to p[PIDX]. -/
def execCmbNt (o : OpS) (s : State) : Out := combine (some (mfield o.m 2 0)) o s

/-- A request of an accepted message enters the queue or fails (12 R346, R351; the order of the last two causes is the
model's choice, log 24). -/
def State.acceptReq (s : State) (h : Nat × Nat) (q : Req) : State :=
  match s.objs.find? (fun ob => ob.home = q.home && ob.asid = q.asid) with
  | none => s.failReq h q 0x6200
  | some ob =>
    if ob.state = .closing then s.failReq h q 0x6400
    else if ob.asz ≠ q.asz || ob.rsz ≠ q.rsz then s.failReq h q 0x6300
    else if ob.state = .poisoned then s.failReq h q 0x6100
    else { s with queues := s.queues.set h (s.queueOf h ++ [q]) }

/-- CMB_ACCEPT (12 R349, R350): a message that arrives at its home is accepted whole, or refused whole. -/
def execCmbAccept (n : Nat) (s : State) : Out :=
  match s.cmbs.find? (fun m => m.id = n) with
  | none => .next s
  | some m =>
    let h := (m.die, m.slice)
    if m.backoff then .next s
    else if 512 < (s.queueOf h).length + m.reqs.length then
      let again (x : CmbMsg) : CmbMsg :=
        if x.id = n then { x with refusals := x.refusals + 1, backoff := true } else x
      .next ({ s with cmbs := s.cmbs.map again }.count (sliceCore h) 8 2)
    else
      let s1 := { s with cmbs := s.cmbs.filter (fun x => x.id ≠ n) }
      .next (m.reqs.foldl (fun (s : State) q => s.acceptReq h q) (s1.count (sliceCore h) 8 1 m.reqs.length))

/-- CMB_RESEND (12 R350): the backoff of a refused message is over. -/
def execCmbResend (n : Nat) (s : State) : Out :=
  .next { s with cmbs := s.cmbs.map (fun (x : CmbMsg) => if x.id = n then { x with backoff := false } else x) }

/-- A request of the operation has not been answered. -/
def State.cmbOpen (s : State) (g : GRef) (op : Nat) : Bool :=
  let mine (q : Req) : Bool := q.g == g && q.op == op
  s.cmbs.any (fun m => m.reqs.any mine) || s.queues.any (fun x => x.2.any mine) || s.packs.any (fun p => p.reqs.any mine) ||
  s.replies.any (fun r => mine r.req)

/-- The words of a reply in the requester's lane (12 R356, R351, 01 R22); a lane that has exited gets none. -/
def State.landReply (s : State) (r : Reply) : State :=
  let q := r.req
  if !(match s.group? q.g with | some g => !g.exited.has q.lane | none => false) then s else
  let m : Mask := BitVec.ofNat 32 (2 ^ q.lane)
  let word (i : Nat) : Word := if r.fail.isSome then 0 else r.words.getD i 0
  let s1 := (List.range (runWords q.rsz)).foldl (fun (s : State) i =>
    match s.group? q.g with
    | none => s
    | some g =>
      let n := q.dest + i
      let s' :=
        if s.isMbox g n then
          s.mboxDeliver q.g n (((natToBytes 4 (word i).toNat).zipIdx).map (fun b => (4 * q.lane + b.2, b.1)))
        else s
      match r.fail, q.nt with
      | some d, none =>
        if s.isMbox g n then
          s'.modGroup q.g (fun g => g.setV n { g.vreg n with fails := (g.vreg n).fails.set q.lane (.combfault, d) })
        else s'.modGroup q.g (fun g => g.failV n m q.op .combfault d)
      | _, _ => if s.isMbox g n then s' else s'.modGroup q.g (fun g => g.landV n m q.op (fun _ => word i))) s
  match q.nt with
  | some p => s1.modGroup q.g (fun g => g.writeP p m (if r.fail.isSome then 0 else m))
  | none => s1

/-- REPLY_LAND (12 R356): an acquire of the commit at package scope; with the last reply of the operation `cmb` falls. -/
def execReplyLand (n : Nat) (s : State) : Out :=
  match s.replies.find? (fun r => r.id = n) with
  | none => .next s
  | some r =>
    let q := r.req
    let s1 := { s with replies := s.replies.filter (fun x => x.id ≠ n) }
    let s2 := if r.fail.isSome || (s1.group? q.g).isNone then s1
      else s1.acquireAt q.g.coreRef q.asid 3 (some [(q.home, r.slen)]) true
    let s3 := s2.landReply r
    .next (if s3.cmbOpen q.g q.op then s3 else s3.modGroup q.g (fun g => g.decCtr 3))

/-! ### Packs (12 R352 to R359) -/

/-- The method slots of a home core: two of each partition (12 R342, log 25). -/
def methodSlots : List Nat := [6, 7, 14, 15]

/-- A v register that holds a word in each lane of a pack, its other lanes dead. -/
def Group.packReg (g : Group) (n : Nat) (m : Mask) (f : Nat → Word) : Group := g.writeV n m f

/-- The pack wave at its start (12 R353). -/
def packWave (r : GRef) (id : Nat) (l : Launch) (ob : Obj) (reqs : List Req) (entry now : Nat) : Group :=
  let n := reqs.length
  let m : Mask := maskOf (fun i => decide (i < n))
  let g := Group.fresh r (.pack id) .running l 0 0 entry
    [BitVec.ofNat 64 ob.home, BitVec.ofNat 64 n, ob.packNo, BitVec.ofNat 64 ob.recAddr] now
  let g1 := { g.modSplit 0 (fun sp => { sp with mask := m }) with exited := ~~~m }
  let g2 := (List.range (runWords ob.asz)).foldl (fun (g : Group) i =>
    g.packReg i m (fun lane => match reqs[lane]? with | some q => q.args.getD i 0 | none => 0)) g1
  g2.packReg 4 m (fun lane => match reqs[lane]? with | some q => q.word | none => 0)

/-- PACK_FORM (12 R352): the object with the oldest queued request that is IDLE gets a method slot. -/
def execPackForm (c : CoreRef) (s : State) : Out :=
  let h := (c.die, c.core)
  let qs := s.queueOf h
  let idle (q : Req) : Option Obj := s.objs.find? (fun o => o.home = q.home && o.asid = q.asid && o.state = .idle)
  let ref (i : Nat) : GRef := { home := true, die := c.die, core := c.core, slot := i }
  if !c.home || s.held || s.stopped.contains (s.partIdx c.die) then .next s
  else
    match qs.findSome? idle, methodSlots.find? (fun i => (s.group? (ref i)).isNone) with
    | some ob, some i =>
      let mine (q : Req) : Bool := q.home == ob.home && q.asid == ob.asid
      let reqs := (qs.filter mine).take 32
      let rest := qs.filter (fun q => !(reqs.contains q))
      let (id, s1) := s.fresh
      let l := (s1.launch? ob.lid).getD default
      let entry := ((s1.modEnt c.die ob.asid ob.mdl).base + ob.method) % 2 ^ 56
      let g := packWave (ref i) id { l with lid := ob.lid } ob reqs entry s1.nextId
      let pk : Pack :=
        { id := id, c := c, g := ref i, home := ob.home, asid := ob.asid, number := ob.packNo, reqs := reqs, buf := [],
          slen := ob.slen, rsz := ob.rsz, mbud := ob.mbud, committed := false }
      let s2 := { s1.modObj ob.home (fun o => { o with state := .running, packNo := o.packNo + 1 }) with
        queues := s1.queues.set h rest, packs := s1.packs ++ [pk], groups := s1.groups ++ [g] }
      .next (((s2.count (sliceCore h) 8 3).count (sliceCore h) 8 4 reqs.length).count (sliceCore h) 8 9
        (Config.freePick s.tick))
    | _, _ => .next s

/-- The object of a pack after the pack: IDLE, or freed when it was CLOSING (12 R346). -/
def State.objAfter (s : State) (p : Pack) (st : OState) : State :=
  match s.obj? p.home with
  | none => s
  | some ob => if ob.state = .closing then s.objFree ob else s.modObj p.home (fun o => { o with state := st })

/-- The bytes of a buffer as runs of neighbours. -/
def bufRuns (b : ByteMap) : List (Nat × List Byte) :=
  b.foldr (fun (x : Host.Cell) acc =>
    match acc with
    | (a, bs) :: rest => if x.1 + 1 = a then (x.1, x.2 :: bs) :: rest else (x.1, [x.2]) :: acc
    | [] => [(x.1, [x.2])]) []

/-- A pack replaced. -/
def State.modPack (s : State) (id : Nat) (f : Pack → Pack) : State :=
  { s with packs := s.packs.map (fun p => if p.id = id then f p else p) }

/-- The bytes of a pack's buffer that lie in its lowest line. -/
def Pack.firstLine (p : Pack) : ByteMap :=
  match p.buf with | [] => [] | x :: _ => p.buf.filter (fun y => y.1 / 128 = x.1 / 128)

/-- The lowest line of a pack's buffer written at its home slice, as one indivisible write (12 R355). -/
def State.commitLine (s : State) (p : Pack) : State :=
  (bufRuns p.firstLine).foldl (fun (s : State) r => s.homeWrite p.c.die p.asid r.1 r.2)
    (s.modPack p.id (fun p => { p with buf := p.buf.filter (fun y => !p.firstLine.contains y) }))

/-- The group of the issuer, for the operands that a CMBR or RSP finds by its object or census. -/
def State.curGroup (s : State) : Option Group := s.cur.bind (fun i => s.group? i.g)

/-- A pack whose buffer is written sends its replies, once, and its object may form the next pack (12 R355). -/
def State.packReplies (s : State) (p : Pack) (word : Nat → Nat → Word) : State :=
  if p.reqs.isEmpty then s
  else
    let s1 := s.modPack p.id (fun p => { p with reqs := [] })
    ((p.reqs.zipIdx).foldl (fun (s : State) x =>
      s.sendReply x.1 ((List.range (runWords p.rsz)).map (fun i => word i x.2)) none p.slen) s1).objAfter p .idle

/-- CMBR (12 R355): performed once for the pack, its checks too (05 R120); the splits stay at the slot while the buffer is
written, line by line. -/
def execCmbr (o : OpS) (s : State) : Out :=
  let pk := s.curGroup.bind s.packOf
  let writing := match s.cur, s.curGroup with | some i, some g => (g.split i.e).prog.isSome | _, _ => false
  let w := match pk with | some p => if p.committed && !writing then 0 else runWords p.rsz | none => 0
  let ok := w != 0 && vRunAt o.a.vNum w
  let rds := if ok then srcRds o.a w else []
  slot s o.g rds [] (fun c =>
    match pk with
    | none => c.sync (fun _ => .inl (.illop, 3))
    | some p =>
      if !ok then c.sync (fun _ => .inl (.illop, 3))
      else if !writing then c.syncRelease (fun s => .inr (.inl (s.modPack p.id (fun p => { p with committed := true }), some 0)))
      else if !p.buf.isEmpty then .block (c.s0.commitLine p) .retest
      else .ok (c.s.packReplies p (fun i l => c.v (o.a.vNum + i) l)))

/-- A method fault with code nn (12 R357). -/
def State.methodFault (s : State) (p : Pack) (nn : Nat) : State :=
  let h := (p.c.die, p.c.core)
  let s1 := s.modPack p.id (fun p => { p with reqs := [], buf := [] })
  let s2 : State := p.reqs.foldl (fun (s : State) q => s.sendReply q [] (some (0x6000 + nn)) 0) s1
  let s3 : State := match s2.obj? p.home with
    | some ob => if ob.state = OState.closing then s2 else s2.failQueued ob 0x6100
    | none => s2
  ((s3.objAfter p .poisoned).groupEnd p.g).count (sliceCore h) 8 5

/-- METHOD_FAULT (12 R355, R357, R358): a trap of a pack wave before its CMBR, its budget, or 2^20 clauses; after CMBR the
wave ends alone. The budget may expire at any moment (log 6). -/
def execMethodFault (g : GRef) (s : State) : Out :=
  match s.group? g with
  | none => .next s
  | some x =>
    match s.packOf x with
    | none => .next s
    | some p =>
      let t := x.splits.findSome? (fun (sp : Split) => if sp.state = .free then none else sp.trap)
      if !p.committed && decide (2 ^ 20 < x.clauses) then .next (s.methodFault p 0xFF)
      else match t with
      | some t =>
        if p.committed then .next ((s.groupEnd g).count (sliceCore (p.c.die, p.c.core)) 8 0xA)
        else .next (s.methodFault p (causeCode t.cause))
      | none => if !p.committed && p.mbud ≠ 0 then .next (s.methodFault p 0xFF) else .next s

/-! ### Glide words (12 R362 to R370) -/

/-- A launch with GFT = 0 has no factor table (12 R363). -/
def gftCheck (c : Ctx) : Option (Cause × Nat) := if (c.s0.recOf c.g).gft = 0 then some (.access, 0) else none

/-- GLD (12 R367). -/
def execGld (o : OpM) (s : State) : Out := issueAccess (.gld o) gftCheck noPost s
/-- GADD (12 R368). -/
def execGadd (o : OpM) (s : State) : Out := issueAccess (.gadd o) (firstOf [gftCheck, noPiste]) noPost s
/-- GMRG (12 R369). -/
def execGmrg (o : OpM) (s : State) : Out := issueAccess (.gmrg o) (firstOf [gftCheck, noPiste]) noPost s
/-- GSET (12 R370). -/
def execGset (o : OpM) (s : State) : Out := issueAccess (.gset o) (firstOf [gftCheck, noPiste]) noPost s

/-! ### The step register and sweeps (12 R364, R371, R372) -/

/-- The step register of an address space; 0 at its creation. -/
def State.stepReg (s : State) (asid : Nat) : StepReg :=
  (s.steps.find? (fun x => x.asid = asid)).getD { asid := asid, history := [], adopted := [], waiting := [], sweeps := [], todo := [] }

/-- A step register replaced. -/
def State.setStepReg (s : State) (x : StepReg) : State :=
  if s.steps.any (fun y => y.asid = x.asid) then
    { s with steps := s.steps.map (fun y => if y.asid = x.asid then x else y) }
  else { s with steps := s.steps ++ [x] }

/-- The master's value: the last change. -/
def StepReg.master (x : StepReg) : Word := x.history.getLastD 0

/-- The value a copy holds. -/
def StepReg.copy (x : StepReg) (p : Place) : Word :=
  match x.adopted.getD p 0 with | 0 => 0 | n + 1 => x.history.getD n 0

/-- Every copy of the package: 48 slices, home cores and compute cores a die (12 R364). -/
def allPlaces : List Place :=
  (List.range 4).flatMap (fun d => (List.range 48).flatMap (fun i => [.slice d i, .home d i, .compute d i]))

/-- One registered word of a sweep at its home slice (12 R372). -/
def State.sweepWord (s : State) (h : Nat × Nat) (asid a step : Nat) (ft : List Word) : State :=
  match s.xlate h.1 asid a with
  | .fault _ _ _ => s
  | .ok _ =>
    let w := bytesToNat (s.homeRead h.1 asid a 8)
    if (step % 2 ^ 24 + 2 ^ 24 - gStamp w) % 2 ^ 24 < 2 ^ 22 then s
    else (s.homeWrite h.1 asid a (natToBytes 8 (gWord (decayTo w step ft) step w))).count (sliceCore h) 8 8

/-- The registered words homed at a slice (12 R372). -/
def State.sweepWords (s : State) (h : Nat × Nat) (x : StepReg) : List Nat :=
  (x.sweeps.flatMap (fun r => (List.range (r.len / 8)).map (fun i => r.base + 8 * i))).filter (fun a => s.homeOf h.1 x.asid a = h)

/-- The words a copy's home slice has still to sweep. -/
def StepReg.left (x : StepReg) (p : Place) : List Nat := x.todo.getD p []

/-- A home slice sweeps one of the words it has still to sweep, any of them (12 R372, log 116); a word whose region has been
removed meanwhile is left alone. -/
def State.sweepNext (s : State) (asid : Nat) (p : Place) : State :=
  let x := s.stepReg asid
  let ws := x.left p
  let a := ws.getD (Config.freePick s.tick % ws.length) 0
  let rest := ws.filter (· ≠ a)
  let s1 := s.setStepReg { x with todo := if rest.isEmpty then x.todo.erase p else x.todo.set p rest }
  match p, x.sweeps.find? (fun r => decide (r.base ≤ a) && decide (a < r.base + r.len)) with
  | .slice d i, some r => s1.sweepWord (d, i) asid a (x.copy p).toNat r.ft
  | _, _ => s1

/-- A copy adopts the next change (12 R364); a home slice that crosses a multiple of 2^22 has its registered words to sweep
(R372), and adopts no further change before they are swept (log 116). -/
def State.adoptStep (s : State) (asid : Nat) (p : Place) : State :=
  let x := s.stepReg asid
  let n := x.adopted.getD p 0
  if !(x.left p).isEmpty || x.history.length ≤ n then s
  else
    let new := x.history.getD n 0
    let todo := match p with
      | .slice d i => if new.toNat / 2 ^ 22 = (x.copy p).toNat / 2 ^ 22 then [] else s.sweepWords (d, i) x
      | _ => []
    s.setStepReg { x with adopted := x.adopted.set p (n + 1), todo := if todo.isEmpty then x.todo else x.todo.set p todo }

/-- The GSTPs whose change every copy has adopted, the sweep it started being over, complete (12 R371). -/
def State.stepDone (s : State) (asid : Nat) : State :=
  let x := s.stepReg asid
  let all (n : Nat) : Bool := allPlaces.all (fun p =>
    decide (n < x.adopted.getD p 0) || (n == x.adopted.getD p 0 && (x.left p).isEmpty))
  let fin := x.waiting.filter (fun w => all w.2)
  let s1 := s.setStepReg { x with waiting := x.waiting.filter (fun w => !all w.2) }
  fin.foldl (fun (s : State) w => s.answer w.1 ((x.history.getD (w.2 - 1) 0).setWidth 64)) s1

/-- STEP_PROPAGATE (12 R364, R372): a copy sweeps the next word, or adopts the next change. -/
def execStepPropagate (asid : Nat) (p : Place) (s : State) : Out :=
  if !allPlaces.contains p then .next s
  else if ((s.stepReg asid).left p).isEmpty then .next ((s.adoptStep asid p).stepDone asid)
  else .next ((s.sweepNext asid p).stepDone asid)

/-- GSTP.add (12 R371): the split waits until every copy has the new value and any sweep is over. -/
def execGstpAdd (o : OpS) (s : State) : Out :=
  slot s o.g (srcRds o.a) [] (fun c =>
    let ka := c.k o.a.kNum
    let asid := c.s0.asidOf c.g
    if c.g.isPack then .trap .illop 3
    else if c.s0.pisteOf c.g then .trap .illpiste 0
    else if 2 ^ 22 < ka.toNat then .trap .illop 0x70
    else
      let x := c.s.stepReg asid
      let (w, s1) := c.awaitK c.s (dstNum o.d)
      let x1 := { x with
        history := x.history ++ [x.master + ka.lo],
        waiting := x.waiting ++ [(w, x.history.length + 1)] }
      .block ((s1.setStepReg x1).adoptStep asid (.slice 0 0)) .reply)

/-- GSTP.rd (12 R371). -/
def execGstpRd (o : OpS) (s : State) : Out :=
  slot s o.g [] [] (fun c =>
    if c.g.isPack then .trap .illop 3
    else if c.s0.pisteOf c.g then .trap .illpiste 0
    else .ok (c.putK c.s (dstNum o.d) ((c.s.stepReg (c.s0.asidOf c.g)).master.setWidth 64)))

/-- The status of GSWP.add (12 R372). -/
def StepReg.addStatus (x : StepReg) (base len : Nat) : Nat :=
  if base % 8 ≠ 0 || len % 8 ≠ 0 || len < 8 || 2 ^ 32 < len || 2 ^ 56 < base + len || 2 ^ 56 - 2 ^ 40 < base + len then 2
  else if x.sweeps.any (fun r => rangesMeet r.base r.len base len) then 3
  else if 64 ≤ x.sweeps.length then 1
  else 0

/-- GSWP.add (12 R372): the region with a copy of the launch's factor table. -/
def execGswpAdd (o : OpS) (s : State) : Out :=
  slot s o.g (kRds o.a 2) [] (fun c =>
    let x := c.s.stepReg (c.s0.asidOf c.g)
    let base := (c.k o.a.kNum).toNat
    let len := (c.k (o.a.kNum + 1)).toNat
    let st := x.addStatus base len
    let ft := match c.s0.launch? c.g.lid with | some l => l.ft | none => []
    if c.g.isPack then .trap .illop 3
    else
      let s1 := if st = 0 then c.s.setStepReg { x with sweeps := x.sweeps ++ [⟨base, len, ft⟩] } else c.s
      .ok (c.putK s1 (dstNum o.d) (BitVec.ofNat 64 st)))

/-- GSWP.rem (12 R372). -/
def execGswpRem (o : OpS) (s : State) : Out :=
  slot s o.g (srcRds o.a) [] (fun c =>
    let x := c.s.stepReg (c.s0.asidOf c.g)
    let base := (c.k o.a.kNum).toNat
    let found := x.sweeps.any (fun r => r.base = base)
    if c.g.isPack then .trap .illop 3
    else
      let s1 := c.s.setStepReg { x with sweeps := x.sweeps.filter (fun r => r.base ≠ base) }
      .ok (c.putK (if found then s1 else c.s) (dstNum o.d) (if found then 0 else 4)))

end Sys2Proof.Machine
end

