-- ==== Sys2Proof/Machine/Place.lean ====
section
/-! DEFINITION. Launch records (04 R88, R89), the distributor's checks (R92) and where blocks fit (R98). -/

namespace Sys2Proof.Machine

open Sys2Proof

/-! ### Timeline references (04 R89) -/

/-- KIND. -/
def refKind (r : DWord) : Nat := bits r.toNat 63 62

/-- A reference is well formed for a launch of `ntl` named timelines; none for the steward, which may not use KIND 10. -/
def refWf (r : DWord) (ntl : Option Nat) : Bool :=
  let x := r.toNat
  bits x 61 56 == 0 &&
  (match refKind r with
   | 0 => true
   | 1 => bits x 55 0 % 8 == 0
   | 2 => bits x 55 10 == 0 && (match ntl with | some n => decide (bits x 9 0 < n) | none => false)
   | _ => false)

/-- The named timeline of a reference with what other packages made of it (R94). -/
def State.refSync (s : State) (issuer : Nat) (r : DWord) : State :=
  if refKind r = 2 then s.podTimeline issuer (bits r.toNat 9 0) else s

/-- The value of the timeline a reference names. -/
def State.refValue (s : State) (die asid issuer : Nat) (r : DWord) : Nat :=
  match refKind r with
  | 1 => (s.homeRead64 die asid (bits r.toNat 55 0)).toNat
  | _ => (s.named issuer (bits r.toNat 9 0)).toNat

/-- A timeline signalled: an atomic maximum of a memory word at its home slice, or a named timeline raised (R89,
01 R25). -/
def State.refSignal (s : State) (die asid issuer : Nat) (r v : DWord) : State :=
  match refKind r with
  | 1 =>
    let a := bits r.toNat 55 0
    if (s.homeRead64 die asid a).toNat < v.toNat then (s.homeWrite die asid a (natToBytes 8 v.toNat)).engNote die asid a else s
  | 2 => s.raiseNamed issuer (bits r.toNat 9 0) v
  | _ => s

/-! ### Records (04 R88) -/

/-- A role descriptor of 32 bits. -/
def roleOf (w : Nat) : RoleDesc := { en := bits w 31 31 == 1, first := bits w 27 24, last := bits w 23 20, regs := bits w 8 0 }

/-- A role descriptor is well formed in a launch (R88). -/
def roleWf (w groups lim : Nat) : Bool :=
  let r := roleOf w
  if r.en then
    bits w 30 28 == 0 && bits w 19 9 == 0 && decide (r.first ≤ r.last) && decide (r.last ≤ groups) &&
    decide (1 ≤ r.regs) && decide (r.regs ≤ lim)
  else w == 0

/-- The ranges of two roles overlap. -/
def rolesMeet (a b : RoleDesc) : Bool := a.en && b.en && decide (a.first ≤ b.last) && decide (b.first ≤ a.last)

/-- The launch record of 32 words. `wf` tells whether it passes the checks of BADREC that need the record alone (R92).
MBOX 5 to 7, NBIND above 64 and, of a piste launch, PWAVES above 16 are BADREC (log 114); TILES and ACCB beyond a core's are
NOFIT, PWAVES 0 is BADPISTE. -/
def recordOf (ws : List DWord) : LaunchRec :=
  let w (i : Nat) : Nat := (ws.getD i 0).toNat
  let d (i : Nat) : DWord := ws.getD i 0
  let mbox := bits (w 5) 47 45
  let lim := 320 - 8 * mbox
  let groups := bits (w 2) 63 60
  let cp := bits (w 3) 63 32
  let mx := bits (w 3) 31 0
  let ep := bits (w 4) 63 32
  let zero := bits (w 0) 55 52 == 0 && bits (w 0) 33 32 == 0 && bits (w 1) 43 32 == 0 && bits (w 2) 59 9 == 0 &&
    bits (w 4) 31 0 == 0 && bits (w 5) 55 48 == 0 && bits (w 5) 35 32 == 0 && bits (w 6) 63 33 == 0 && bits (w 9) 63 48 == 0 &&
    bits (w 14) 63 32 == 0 && bits (w 27) 63 40 == 0 && w 30 == 0 && w 31 == 0
  let ranges := bits (w 0) 63 56 == 1 && decide (bits (w 0) 51 48 ≤ 2) && bits (w 0) 39 38 != 3 &&
    (bits (w 0) 51 48 == 0 || bits (w 0) 47 46 == 0) && decide (mbox ≤ 4) && decide (bits (w 5) 31 0 ≤ 393216) && decide (bits (w 9) 47 32 ≤ 1024) &&
    decide (bits (w 26) 63 57 ≤ 64) && decide (1 ≤ bits (w 2) 8 0) && decide (bits (w 2) 8 0 ≤ lim) &&
    (bits (w 5) 63 56 == 0 || bits (w 0) 51 48 == 2) &&
    (bits (w 0) 35 35 == 0 || decide (bits (w 27) 39 32 ≤ 16))
  let aligned := bits (w 1) 31 0 % 8 == 0 && bits (w 6) 31 0 % 8 == 0 && bits (w 5) 31 0 % 128 == 0 && w 10 % 8 == 0 &&
    w 11 % 4 == 0 && w 12 % 8 == 0 && w 13 % 16 == 0 && bits (w 14) 31 0 % 16 == 0 && w 25 % 16 == 0 &&
    bits (w 26) 56 0 % 16 == 0 && w 29 % 8 == 0
  let roles := roleWf cp groups lim && roleWf mx groups lim && roleWf ep groups lim &&
    !rolesMeet (roleOf cp) (roleOf mx) && !rolesMeet (roleOf cp) (roleOf ep) && !rolesMeet (roleOf mx) (roleOf ep)
  { version := bits (w 0) 63 56, span := bits (w 0) 51 48, sdie := bits (w 0) 47 46, queue := bits (w 0) 45 40,
    prio := bits (w 0) 39 38, persist := bits (w 0) 37 37 == 1, cohort := bits (w 0) 36 36 == 1,
    piste := bits (w 0) 35 35 == 1, debug := bits (w 0) 34 34 == 1, blocks := bits (w 0) 31 0,
    mdl := bits (w 1) 63 56, asid := bits (w 1) 55 44, entry := bits (w 1) 31 0,
    groups := groups, gregs := bits (w 2) 8 0, roleCp := roleOf cp, roleMx := roleOf mx, roleEp := roleOf ep,
    podn := bits (w 5) 63 56, mbox := mbox, accb := bits (w 5) 44 41, tiles := bits (w 5) 40 36, scratch := bits (w 5) 31 0,
    hen := bits (w 6) 32 32 == 1, handler := bits (w 6) 31 0, rmode := d 7, seed := d 8, ntl := bits (w 9) 47 32,
    mbudget := BitVec.ofNat 32 (w 9), tlinit := w 10, gft := w 11, kargs := w 12, stack := w 13, stksz := bits (w 14) 31 0,
    deps := (List.range 4).map (fun i => (d (15 + 2 * i), d (16 + 2 * i))), comp := d 23, compv := d 24, stata := w 25,
    nbind := bits (w 26) 63 57, bindt := bits (w 26) 56 0, pwaves := bits (w 27) 39 32, plcores := bits (w 27) 31 0,
    ptasks := w 28, pdtab := w 29,
    wf := zero && ranges && aligned && roles }

/-- v registers declared for a group of a block: its role's, or the general ones, with its mailbox registers (R88, R98). -/
def groupRegs (r : LaunchRec) (gi : Nat) : Nat :=
  let inRole (d : RoleDesc) : Bool := d.en && decide (d.first ≤ gi) && decide (gi ≤ d.last)
  8 * r.mbox +
  (match [r.roleCp, r.roleMx, r.roleEp].find? inRole with | some d => d.regs | none => r.gregs)

/-! ### What a core can hold (04 R98) -/

/-- What is taken on a core: group slots, declared registers of each partition, and ranges of scratchpad bytes, tile
registers and accumulator blocks. -/
structure CoreUse where
  slots : List Nat
  regs : List Nat
  scr : List (Nat × Nat)
  tiles : List (Nat × Nat)
  accs : List (Nat × Nat)
  deriving DecidableEq, Repr, Inhabited

/-- An empty core. -/
def CoreUse.empty : CoreUse := { slots := [], regs := [0, 0, 0, 0], scr := [], tiles := [], accs := [] }

/-- A block's place: core index (die · 48 + core), group slots in order, bases. -/
structure BlockPlan where
  blk : Nat
  at_ : Nat
  slots : List Nat
  scr : Nat
  tile : Nat
  acc : Nat
  deriving DecidableEq, Repr, Inhabited

/-- Scratchpad bytes of a block: 8 KiB more for a piste launch's merge buffer (R106). -/
def scrNeed (r : LaunchRec) : Nat := r.scratch + (if r.piste then 8192 else 0)

/-- The lowest base of a free range (log 26). -/
def lowestGap (used : List (Nat × Nat)) (need limit : Nat) : Option Nat :=
  let ok (b : Nat) : Bool := decide (b + need ≤ limit) && used.all (fun u => !rangesMeet b need u.1 u.2)
  if need = 0 then some 0
  else ((0 :: used.map (fun u => u.1 + u.2)).filter ok).foldl (fun (best : Option Nat) b =>
    match best with | some x => some (min x b) | none => some b) none

/-- A group given a partition: the one with the most free declared registers that has a free slot and room (R98); of its free
slots it takes the lowest (log 26). -/
def CoreUse.addGroup (u : CoreUse) (regs : Nat) : Option (CoreUse × Nat) :=
  let slotIn (p : Nat) : Option Nat := ((List.range 15).map (fun i => 16 * p + i)).find? (fun x => !u.slots.contains x)
  let fits := (List.range 4).filter (fun p => (slotIn p).isSome && decide (u.regs.getD p 0 + regs ≤ 1024))
  let best := fits.foldl (fun (b : Option Nat) p =>
    match b with | some q => if u.regs.getD p 0 < u.regs.getD q 0 then some p else some q | none => some p) none
  match best.bind (fun p => (slotIn p).map (fun x => (p, x))) with
  | none => none
  | some (p, x) => some ({ u with slots := x :: u.slots, regs := modNth u.regs p (· + regs) }, x)

/-- A block placed on a core with room for it (R98). -/
def CoreUse.addBlock (u : CoreUse) (r : LaunchRec) (blk at_ : Nat) : Option (CoreUse × BlockPlan) :=
  match lowestGap u.scr (scrNeed r) 393216, lowestGap u.tiles r.tiles 16, lowestGap u.accs r.accb 8 with
  | some sb, some tb, some ab =>
    let placed := (List.range (r.groups + 1)).foldl (fun (acc : Option (CoreUse × List Nat)) gi =>
      match acc with
      | none => none
      | some (u, xs) => (u.addGroup (groupRegs r gi)).map (fun y => (y.1, xs ++ [y.2]))) (some (u, []))
    match placed with
    | none => none
    | some (u1, xs) =>
      some ({ u1 with
        scr := (sb, scrNeed r) :: u1.scr, tiles := (tb, r.tiles) :: u1.tiles, accs := (ab, r.accb) :: u1.accs },
        { blk := blk, at_ := at_, slots := xs, scr := sb, tile := tb, acc := ab })
  | _, _, _ => none

/-- Core indices of the span of a launch in a partition of dies, in order (R98). -/
def spanCores (dies : List Nat) (r : LaunchRec) : List Nat :=
  (dies.filter (fun d => r.span ≠ 0 || d = r.sdie)).flatMap (fun d => (List.range 48).map (fun c => 48 * d + c))

/-- Cohorts are placed on quads (R98). The waves of a logical core sit on one core (R105), so a piste launch of several waves is
placed by its logical cores, COHORT or not (log 115). -/
def LaunchRec.byQuad (r : LaunchRec) : Bool := r.cohort && !(r.piste && decide (1 < r.pwaves))

/-- Each set of cores a unit of blocks may be given, in the order of the scan after a pointer, with the core the pointer
then names (R98). -/
def scanSets (dies : List Nat) (r : LaunchRec) (pointer : Nat) : List (List Nat × Nat) :=
  let cyc (l : List (Nat × List Nat × Nat)) : List (List Nat × Nat) :=
    ((l.filter (fun x => pointer < x.1)) ++ l.filter (fun x => x.1 ≤ pointer)).map (·.2)
  if r.byQuad then
    cyc ((dies.filter (fun d => r.span ≠ 0 || d = r.sdie)).flatMap (fun d => (List.range 12).map (fun q =>
      let cs := (quadCores q).map (fun c => 48 * d + c)
      (cs.headD 0, cs, cs.getLastD 0))))
  else cyc ((spanCores dies r).map (fun c => (c, List.replicate 16 c, c)))

/-- The units that are placed together: one block, a cohort, or the waves of a logical core (R98, R105). -/
def unitKey (r : LaunchRec) (b : Nat) : Nat :=
  if r.byQuad then b / 4 else if r.piste && r.pwaves ≠ 0 then b / r.pwaves else b

/-- The blocks that go with the first of a list. -/
def firstUnit (r : LaunchRec) (bs : List Nat) : List Nat :=
  match bs with | [] => [] | b :: _ => bs.filter (fun x => unitKey r x = unitKey r b)

/-- A unit placed on a set of cores, one block each in order. -/
def tryUnit (use : Nat → CoreUse) (r : LaunchRec) (bs cores : List Nat) : Option (AMap Nat CoreUse × List BlockPlan) :=
  (bs.zip cores).foldl (fun (acc : Option (AMap Nat CoreUse × List BlockPlan)) x =>
    match acc with
    | none => none
    | some (m, ps) =>
      match (m.getD x.2 (use x.2)).addBlock r x.1 x.2 with
      | none => none
      | some (u, p) => some (m.set x.2 u, ps ++ [p])) (some ([], []))

/-- The first set of cores that holds a unit. -/
def placeUnit (dies : List Nat) (use : Nat → CoreUse) (r : LaunchRec) (pointer : Nat) (bs : List Nat) :
    Option (AMap Nat CoreUse × List BlockPlan × Nat) :=
  (scanSets dies r pointer).findSome? (fun c => (tryUnit use r bs c.1).map (fun y => (y.1, y.2, c.2)))

/-- Every block of a list placed, unit after unit (`fuel` units at most); none when one does not fit. -/
def placeAll (dies : List Nat) (r : LaunchRec) (fuel : Nat) (m : AMap Nat CoreUse) (use : Nat → CoreUse) (pointer : Nat)
    (bs : List Nat) : Option (List BlockPlan × Nat) :=
  match fuel with
  | 0 => if bs.isEmpty then some ([], pointer) else none
  | n + 1 =>
    if bs.isEmpty then some ([], pointer)
    else
      let unit := firstUnit r bs
      match placeUnit dies (fun i => m.getD i (use i)) r pointer unit with
      | none => none
      | some (m', ps, ptr) =>
        let m2 := m'.foldl (fun (acc : AMap Nat CoreUse) x => acc.set x.1 x.2) m
        (placeAll dies r n m2 use ptr (bs.filter (fun b => !unit.contains b))).map (fun y => (ps ++ y.1, y.2))

/-- Blocks of a launch that this package places (R94). -/
def ownBlocks (pkg : Nat) (r : LaunchRec) : List Nat :=
  (List.range (r.blocks + 1)).filter (fun b => r.span ≠ 2 || b % (r.podn + 1) = pkg)

/-- NOFIT (R92): a piste launch of no waves is tried with one block, which must fit as any block must. -/
def noFit (dies : List Nat) (pkg : Nat) (r : LaunchRec) : Bool :=
  let waves := if r.piste then max 1 r.pwaves else 1
  let one := tryUnit (fun _ => CoreUse.empty) r (List.range waves) (List.replicate waves 0)
  let cs := spanCores dies r
  let bs := ownBlocks pkg r
  one.isNone || cs.isEmpty ||
  (r.persist && (placeAll dies r bs.length [] (fun _ => CoreUse.empty) 191 bs).isNone)

/-- The default bindings of a record: its entries, or none when one is refused (R92, 08 R242). -/
def bindEntries (r : LaunchRec) (ws : List (DWord × DWord)) : Option (List Binding) :=
  ws.foldl (fun (acc : Option (List Binding)) x =>
    match acc, bindingOf x.1.toNat x.2.toNat with
    | some l, some b => if objNamed r b.obj then some (if b.len = 0 then l else l ++ [b]) else none
    | _, _ => none) (some [])

end Sys2Proof.Machine
end

