-- ==== Sys2Proof/Machine/Launch.lean ====
section
/-! DEFINITION. The launch engine (04): the distributor, the steward's commands, block placement, group start, completion
and task digests. -/

namespace Sys2Proof.Machine

open Sys2Proof

/-! ### Distributors (04 R94) -/

/-- The core under which the distributor of a partition keeps its counters and reads memory. -/
def State.distCore (s : State) (pt : Nat) : CoreRef := { home := false, die := (s.partDies pt).headD 0, core := 0 }

/-- The last core of a partition, which the placement pointer names at reset (R98). -/
def State.lastCore (s : State) (pt : Nat) : Nat := (s.partDies pt).getLastD 0 * 48 + 47

/-- The distributor of a partition. -/
def State.dist (s : State) (pt : Nat) : Distributor :=
  s.dists.getD pt { queues := [], pointer := s.lastCore pt, readyCount := 0 }

/-- A distributor replaced. -/
def State.setDist (s : State) (pt : Nat) (d : Distributor) : State := { s with dists := s.dists.set pt d }

/-- Launches of a queue, in order of acceptance, from QUEUED to DRAINING (R95). -/
def State.queueLaunches (s : State) (pt q : Nat) : List Launch :=
  ((s.dist pt).queues.getD q []).filterMap (fun n => s.launch? n)

/-- The first pages that an engine's reads cannot reach have their fault recorded; none when all are reachable. -/
def State.needPages (s : State) (c : CoreRef) (asid : Nat) (rs : List (Nat × Nat)) : Option State :=
  rs.findSome? (fun r => if r.2 = 0 then none else s.engineFault c asid r.1 r.2 false)

/-- The words of a launch record in memory. -/
def State.readWords (s : State) (die asid a n : Nat) : List DWord :=
  (List.range n).map (fun i => s.homeRead64 die asid (a + 8 * i))

/-- The entries of a binding table. -/
def State.readBinds (s : State) (die : Nat) (r : LaunchRec) : List (DWord × DWord) :=
  (List.range r.nbind).map (fun i =>
    (s.homeRead64 die r.asid (r.bindt + 16 * i), s.homeRead64 die r.asid (r.bindt + 16 * i + 8)))

/-- BADREC (R92): `ntl` is the issuing launch's, none for the steward. -/
def State.badRec (s : State) (die : Nat) (r : LaunchRec) (ntl : Option Nat) : Bool :=
  !r.wf || !(r.deps.all (fun d => refWf d.1 ntl)) || !refWf r.comp ntl ||
  (bindEntries r (s.readBinds die r)).isNone ||
  (r.span = 2 && (decide (s.podSize < r.podn + 1) || decide (r.podn < s.pkg)))

/-- The code of a submission (R92), the first that applies. `page` is the steward's page. -/
def State.lnchCode (s : State) (pt die : Nat) (r : LaunchRec) (ntl : Option Nat) (page : Option Nat) : Nat :=
  let m := s.modEnt die r.asid r.mdl
  let dies := s.partDies pt
  let q := s.queueLaunches pt r.queue
  if s.badRec die r ntl then 1
  else if !m.valid || m.len ≤ r.entry || (r.hen && decide (m.len ≤ r.handler)) then 2
  else if noFit dies s.pkg r then 3
  else if r.piste && (!r.persist || r.blocks + 1 ≠ r.plcores * r.pwaves || (spanCores dies r).length < r.plcores) then 4
  else if 128 ≤ q.length then 5
  else if q.any (fun l => l.lrec.asid ≠ r.asid) || (match page with | some p => p ≠ r.queue | none => false) then 6
  else 0

/-- The status written at STATA (R97): TRAPPED, END and LDIG. -/
def Launch.status (l : Launch) : List Byte :=
  let e := if l.endc ≠ 0 then l.endc else if 0 < l.trapped then 1 else 0
  natToBytes 8 (l.trapped * 2 ^ 32 + e) ++ natToBytes 8 l.ldig.toNat

/-- A launch reaches DONE (R97, R95): status, the release of its named timelines and of what it wrote, COMP; its objects are deregistered (12 R347), its copy contexts
freed (10 R274), and it leaves its queue. -/
def State.finishLaunch (s : State) (lid : Nat) : State :=
  match s.launch? lid with
  | none => s
  | some l =>
    let c := s.distCore l.part
    let r := l.lrec
    let s1 := if r.stata = 0 then s else s.homeWrite c.die r.asid r.stata l.status
    let s2 := (s1.l1d.map (·.1)).foldl (fun (s : State) k => s.l1Release k r.asid none) s1
    let s3 := (s2.modLaunch lid (fun l => { l with tls := [] })).refSignal c.die r.asid l.issuer r.comp r.compv
    let s4 := (s3.objs.filter (fun o => o.lid = lid)).foldl (fun (s : State) o => (s.objDeregister o).1) s3
    let ks := (s4.ctxs.filter (fun x => x.2.owner = some lid)).map (·.1)
    let s5 := ks.foldl (fun (s : State) k => s.freeContext k 1) s4
    let d := s5.dist l.part
    let s6 := s5.setDist l.part { d with queues := d.queues.map (fun x => (x.1, x.2.filter (· ≠ lid))) }
    let s7 : State := { s6.modLaunch lid (fun l => { l with state := .done }) with
      bars := s6.bars.filter (fun b => b.lid ≠ lid), tickets := s6.tickets.filter (fun t => t.lid ≠ lid) }
    s7.count c 0 2

/-- What a completing launch writes in memory: its status and its completion timeline (R97). -/
def Launch.doneOuts (l : Launch) : List (Nat × Nat) :=
  (if l.lrec.stata = 0 then [] else [(l.lrec.stata, 16)]) ++
    (if refKind l.lrec.comp = 1 then [(bits l.lrec.comp.toNat 55 0, 8)] else [])

/-- What an engine writes to some ranges waits while their pages migrate (14 R414). -/
def State.outsHeld (s : State) (die asid : Nat) (outs : List (Nat × Nat)) : Bool := outs.any (fun x => s.gdMigrates die asid x.1)

/-- A DRAINING launch completes, once the pages that it writes to accept that (14 R408, R414). Until then it stays DRAINING
(DESIGN CHOICE, log 140). -/
def State.closeLaunch (s : State) (lid : Nat) : State :=
  match s.launch? lid with
  | none => s
  | some l =>
    match l.doneOuts.findSome? (fun x => s.engineFault (s.distCore l.part) l.lrec.asid x.1 x.2 true) with
    | some s1 => s1
    | none => if s.outsHeld (s.distCore l.part).die l.lrec.asid l.doneOuts then s else s.finishLaunch lid

/-- A launch that has not started completes at once with an END (R94, 14 R419). -/
def State.refuseLaunch (s : State) (lid endc : Nat) : State :=
  (s.modLaunch lid (fun l => { l with endc := endc, unplaced := [], state := .draining })).closeLaunch lid

/-! ### The parts of a pod-span launch (04 R94) -/

/-- What is kept of the answers of others to a record. -/
def State.news (s : State) (asid rec : Nat) : PodNews :=
  (s.podNews.find? (fun n => n.asid = asid && n.recAddr = rec)).getD ⟨asid, rec, [], []⟩

/-- It is replaced. -/
def State.setNews (s : State) (n : PodNews) : State :=
  { s with podNews := s.podNews.filter (fun x => !(x.asid == n.asid && x.recAddr == n.recAddr)) ++
      (if n.msgs.isEmpty && n.stale.isEmpty then [] else [n]) }

/-- The other packages that take part in a launch. -/
def State.podOthers (s : State) (r : LaunchRec) : List Nat :=
  if r.span = 2 then (List.range (r.podn + 1)).filter (· ≠ s.pkg) else []

/-- The first answer of each of some packages is taken. -/
def PodNews.take (n : PodNews) (ps : List Nat) : PodNews × List (Nat × Bool) :=
  ps.foldl (fun (x : PodNews × List (Nat × Bool)) p =>
    match x.1.msgs.find? (fun m => m.1 = p) with
    | some m => ({ x.1 with msgs := x.1.msgs.erase m }, x.2 ++ [m])
    | none => x) (n, [])

/-- This package answers a submission: the answers of others to it that came before. When it is refused by any package, those
that come later are to a submission that has ended. -/
def State.podAnswer (s : State) (r : LaunchRec) (ka : Nat) (ok : Bool) : State × List (Nat × Bool) :=
  let ps := s.podOthers r
  if ps.isEmpty then (s, [])
  else
    let x := (s.news r.asid ka).take ps
    let due := if ok && x.2.all (·.2) then [] else ps.filter (fun p => !x.2.any (fun m => m.1 = p))
    (s.setNews { x.1 with stale := x.1.stale ++ due }, x.2)

/-- distributor_submit (R91 to R95): the status word, and the launch queued when it is accepted. A part whose companion
was refused completes at once with END 4 (R94). -/
def State.submit (s : State) (pt die asid ka : Nat) (issuer : Option (Nat × Nat)) (page : Option Nat) : DWord × State :=
  let r := recordOf (s.readWords die asid ka 32)
  let code := s.lnchCode pt die r (issuer.map (·.2)) page
  let c := s.distCore pt
  let x := s.podAnswer r ka (code = 0)
  if code ≠ 0 then (BitVec.ofNat 64 code, x.1.count c 0 1)
  else
    let lid := s.nextLid
    let l : Launch :=
      { lid := lid, part := pt, lrec := r, recAddr := ka, base := (s.modEnt die r.asid r.mdl).base, state := .queued,
        endc := 0, trapped := 0, ldig := 0, tls := [], issuer := (issuer.map (·.1)).getD 0, unplaced := ownBlocks s.pkg r,
        preempted := false, readySeq := 0, bindings := [], change := none, ft := [],
        podAccepted := (x.2.filter (·.2)).map (·.1) }
    let d := s.dist pt
    let s1 : State := { x.1 with launches := s.launches ++ [l], nextLid := lid + 1 }
    let s2 := (s1.setDist pt { d with queues := d.queues.set r.queue (d.queues.getD r.queue [] ++ [lid]) }).count c 0 0
    (BitVec.ofNat 64 (lid * 2 ^ 32), if x.2.all (·.2) then s2 else s2.refuseLaunch lid 4)

/-- LNCH (R90, R91): the record is released at die scope before the distributor reads it. -/
def execLnch (o : OpS) (s : State) : Out :=
  slot s o.g (srcRds o.a) [] (fun c =>
    let ka := (c.k o.a.kNum).toNat
    let asid := c.s0.asidOf c.g
    let core := c.r.coreRef
    if ka % 256 ≠ 0 then .trap .misalign 0
    else if c.g.isResponder || c.g.isPack then .trap .illop 3
    else if c.s0.pisteOf c.g then .trap .illpiste 0
    else if !c.s.groupDrained c.r then .block c.s0 .retest
    else
      let s1 := c.s.releaseAt core asid 2 (some [(ka, 256)])
      let r := recordOf (s1.readWords core.die asid ka 32)
      match s1.needPages core asid [(ka, 256)],
          s1.needPages core r.asid [(r.bindt, if r.wf then 16 * r.nbind else 0)] with
      | some s2, _ => .block s2 .retest
      | none, some s2 => .block s2 .retest
      | none, none =>
        let x := s1.submit (s1.partIdx core.die) core.die asid ka (some (c.g.lid, (s1.recOf c.g).ntl)) none
        .ok (c.putK x.2 (dstNum o.d) x.1))

/-! ### The steward (04 R85 to R87) -/

/-- The steward of a partition runs. -/
def State.stewardRuns (s : State) (pt : Nat) : Bool := s.boot.stewards.contains pt && !s.held && !s.stopped.contains pt

/-- The steward's core: home core 0 of its partition's lowest die (14 R402). -/
def State.stewardCore (s : State) (pt : Nat) : CoreRef := { home := true, die := (s.partDies pt).headD 0, core := 0 }

/-- A command page replaced. -/
def State.modPage (s : State) (k : Nat × Nat) (f : CmdPage → CmdPage) : State :=
  { s with pages := s.pages.map (fun x => if x.1 = k then (x.1, f x.2) else x) }

/-- What the registration of a page, or its end, writes there (14 R430): its counts are 0, or PERR is 2. -/
def State.clearPage (s : State) (k : Nat × Nat) (p : CmdPage) : State :=
  let die := (s.stewardCore k.1).die
  let s1 := if p.perr = 0 then s.homeWrite die 0 (p.va + 8) (List.replicate 0x78 0)
    else s.homeWrite die 0 (p.va + 0x10) (natToBytes 8 p.perr)
  s1.modPage k (fun p => { p with clear := false })

/-- STEWARD_POLL (R87): the next command of a page is taken; a TAIL above HEAD + 511 disables it. The page is written to only
when it accepts that (14 R408). -/
def execStewardPoll (pt page : Nat) (s : State) : Out :=
  match s.pages.get? (pt, page) with
  | none => .next s
  | some p =>
    let die := (s.stewardCore pt).die
    let tail := (s.homeRead64 die 0 p.va).toNat
    let head := (s.homeRead64 die 0 (p.va + 8)).toNat
    if p.clear then .next ((s.engineFault (s.stewardCore pt) 0 p.va 8 true).getD (s.clearPage (pt, page) p))
    else if !s.stewardRuns pt || p.perr ≠ 0 || p.cmd.isSome then .next s
    else
    match s.engineFault (s.stewardCore pt) 0 p.va 8 true with
    | some s1 => .next s1
    | none =>
    if tail ≤ head then .next s
    else if head + 511 < tail then
      .next ((s.homeWrite die 0 (p.va + 0x10) (natToBytes 8 1)).modPage (pt, page) (fun p => { p with perr := 1 }))
    else
      let a := p.va + 0x80 + 128 * (head % 511)
      let w (i : Nat) : DWord := s.homeRead64 die 0 (a + 8 * i)
      .next (s.modPage (pt, page) (fun p => { p with cmd := some ⟨(w 0).toNat, w 1, w 2, w 3, head⟩ }))

/-- A command is done (R86, R87): CSTAT, then HEAD. -/
def State.cmdDone (s : State) (pt page : Nat) (p : CmdPage) (n : Nat) (stat : DWord) : State :=
  let die := (s.stewardCore pt).die
  let s1 := s.homeWrite die 0 (p.va + 0x80 + 128 * (n % 511) + 0x20) (natToBytes 8 stat.toNat)
  (s1.homeWrite die 0 (p.va + 8) (natToBytes 8 (n + 1))).modPage (pt, page) (fun p => { p with cmd := none })

/-- The command of a page whose OP satisfies a test is executed by `act`: its status and the new state, or a state in
which it still waits, as it does while the page does not accept its status (14 R408). -/
def command (pt page : Nat) (isOp : Nat → Bool) (act : State → Command → State ⊕ (DWord × State)) (s : State) : Out :=
  match s.pages.get? (pt, page) with
  | none => .next s
  | some p =>
    match p.cmd with
    | none => .next s
    | some c =>
      if !isOp c.op || !s.stewardRuns pt then .next s
      else
        match s.engineFault (s.stewardCore pt) 0 p.va 8 true with
        | some s1 => .next s1
        | none =>
          match act s c with
          | .inl s1 => .next s1
          | .inr (v, s1) => .next (s1.cmdDone pt page p c.number v)

/-- LAUNCH (R86). -/
def execLaunch (pt page : Nat) (s : State) : Out :=
  command pt page (· == 1) (fun s c =>
    let ka := c.arg0.toNat
    let core := s.stewardCore pt
    let r := recordOf (s.readWords core.die 0 ka 32)
    if ka % 256 ≠ 0 then .inr (1, s)
    else match s.needPages core 0 [(ka, 256)], s.needPages core r.asid [(r.bindt, if r.wf then 16 * r.nbind else 0)] with
      | some s1, _ => .inl s1
      | none, some s1 => .inl s1
      | none, none => .inr (s.submit pt core.die 0 ka none (some page))) s

/-- The memory timeline that a reference of the steward names. -/
def memTimeline (r : DWord) : Option Nat :=
  if refKind r = 1 && refWf r none then some (bits r.toNat 55 0) else none

/-- SIGNAL (R86): a reference that names no memory timeline signals nothing and is answered 0 (log 27). -/
def execSignal (pt page : Nat) (s : State) : Out :=
  command pt page (· == 2) (fun s c =>
    let core := s.stewardCore pt
    match memTimeline c.arg0 with
    | none => .inr (0, s)
    | some a =>
      match s.engineFault core 0 a 8 true with
      | some s1 => .inl s1
      | none =>
        if s.outsHeld core.die 0 [(a, 8)] then .inl s else .inr (0, s.refSignal core.die 0 0 c.arg0 c.arg1)) s

/-- MODLOAD (R86): MODL of the steward, whose address space is 0. An index above 255 is answered as a bad command
(log 27). -/
def execModload (pt page : Nat) (s : State) : Out :=
  command pt page (· == 3) (fun s c =>
    let core := s.stewardCore pt
    let img := c.arg0.toNat % 2 ^ 56
    if 255 < c.arg1.toNat then .inr (0xFF, s)
    else match s.needPages core 0 [(img, 64), (s.modTab.toNat, 4096)] with
      | some s1 => .inl s1
      | none =>
        let x := s.installModule core.die 0 c.arg1.toNat img
        .inr (BitVec.ofNat 64 x.1, x.2)) s

/-- MODUNLOAD (R86): MODU of the steward. -/
def execModunload (pt page : Nat) (s : State) : Out :=
  command pt page (· == 4) (fun s c =>
    if 255 < c.arg1.toNat then .inr (0xFF, s)
    else
      let x := s.removeModule (s.stewardCore pt).die 0 c.arg1.toNat
      .inr (BitVec.ofNat 64 x.1, x.2)) s

/-- WAIT (R86): later commands of the page are held until the timeline has reached the value. A reference that names no
memory timeline holds nothing and is answered 0 (log 27). -/
def execWait (pt page : Nat) (s : State) : Out :=
  command pt page (· == 5) (fun s c =>
    let core := s.stewardCore pt
    match memTimeline c.arg0 with
    | none => .inr (0, s)
    | some a =>
      match s.engineFault core 0 a 8 false with
      | some s1 => .inl s1
      | none => if s.refValue core.die 0 0 c.arg0 < c.arg1.toNat then .inl s else .inr (0, s)) s

/-- BADCMD (R86). -/
def execBadcmd (pt page : Nat) (s : State) : Out :=
  command pt page (fun n => n == 0 || decide (5 < n)) (fun s _ => .inr (0xFF, s)) s

/-! ### Start of a launch (04 R94, R96) -/

/-- Every dependence of a launch holds (R96). -/
def State.depsHold (s : State) (l : Launch) : Bool :=
  l.lrec.deps.all (fun d => refKind d.1 = 0 || decide (d.2.toNat ≤ s.refValue (s.distCore l.part).die l.lrec.asid l.issuer d.1))

/-- Every part of a pod-span launch has been accepted (R94). -/
def State.partsHold (s : State) (l : Launch) : Bool :=
  l.lrec.span ≠ 2 || (List.range (l.lrec.podn + 1)).all (fun p => p = s.pkg || l.podAccepted.contains p)

/-- LAUNCH_READY (R96): the head of a queue, the first of its launches whose placement has not begun, becomes READY; its
factor table (12 R363), its default bindings (R99) and its timelines' initial values (01 R23) are read. -/
def execLaunchReady (pt q : Nat) (s0 : State) : Out :=
  match (s0.queueLaunches pt q).find? (fun l => l.state = .queued || l.state = .ready) with
  | none => .next s0
  | some l0 =>
    let s := l0.lrec.deps.foldl (fun (s : State) d => s.refSync l0.issuer d.1) s0
    let l := (s.launch? l0.lid).getD l0
    if l.state ≠ .queued || !s.depsHold l || !s.partsHold l then .next s
    else
      let c := s.distCore pt
      let r := l.lrec
      let reads := [(r.bindt, 16 * r.nbind), (r.gft, if r.gft = 0 then 0 else 1024),
        (r.tlinit, if r.tlinit = 0 then 0 else 8 * r.ntl)]
      match s.needPages c r.asid reads with
      | some s1 => .next s1
      | none =>
        let word (a : Nat) : Word := BitVec.ofNat 32 (bytesToNat (s.homeRead c.die r.asid a 4))
        let d := s.dist pt
        .next ((s.modLaunch l.lid (fun l => { l with
          state := .ready, readySeq := d.readyCount,
          bindings := (bindEntries r (s.readBinds c.die r)).getD [],
          ft := if r.gft = 0 then [] else (List.range 256).map (fun i => word (r.gft + 4 * i)),
          tls := (List.range r.ntl).map (fun i => if r.tlinit = 0 then 0 else s.homeRead64 c.die r.asid (r.tlinit + 8 * i)) })).setDist
            pt { d with readyCount := d.readyCount + 1 })

/-- The accepted part of a pod-span launch that an answer of another package is to. -/
def State.podPart (s : State) (asid rec pkg : Nat) : Option Launch :=
  s.launches.find? (fun l => l.lrec.span = 2 && l.lrec.asid = asid && l.recAddr = rec && l.state = .queued &&
    !l.podAccepted.contains pkg)

/-- The answer of another package to a submission of a record (R94): to one that has ended here, to a part that is accepted, or
to a submission that this package has still to answer, for which it is kept. The n-th answer of a package is taken as the one to
the n-th submission here (DEDUCED, log 141). -/
def podMsg (asid rec pkg : Nat) (ok : Bool) (act : Launch → State) (s : State) : Out :=
  let n := s.news asid rec
  if n.stale.contains pkg then .next (s.setNews { n with stale := n.stale.erase pkg })
  else
    match s.podPart asid rec pkg with
    | some l => .next (act l)
    | none => .next (s.setNews { n with msgs := n.msgs ++ [(pkg, ok)] })

/-- POD_PART_ACCEPT_MSG (R94). -/
def execPodPartAcceptMsg (asid rec pkg : Nat) (s : State) : Out :=
  podMsg asid rec pkg true (fun l => s.modLaunch l.lid (fun l => { l with podAccepted := l.podAccepted ++ [pkg] })) s

/-- POD_PART_REFUSAL_MSG (R94): an accepted part completes at once, without starting, with END 4. -/
def execPodPartRefusalMsg (asid rec pkg : Nat) (s : State) : Out :=
  podMsg asid rec pkg false (fun l =>
    let n := s.news asid rec
    let due := (s.podOthers l.lrec).filter (fun p => p ≠ pkg && !l.podAccepted.contains p)
    (s.setNews { n with stale := n.stale ++ due }).refuseLaunch l.lid 4) s

/-! ### Placement (04 R98) -/

/-- What is taken on a core. -/
def State.coreUse (s : State) (i : Nat) : CoreUse :=
  let die := i / 48
  let core := i % 48
  let gs := s.groups.filter (fun g => g.ref.die = die && g.ref.core = core && !g.ref.home)
  let regs (g : Group) : Nat := if g.isResponder then (s.recOf g).gregs else groupRegs (s.recOf g) g.gidx
  let bs := s.blocks.filter (fun b => b.die = die && b.core = core)
  let rec' (b : Block) : LaunchRec := match s.launch? b.lid with | some l => l.lrec | none => LaunchRec.zero
  { slots := gs.map (fun g => g.ref.slot),
    regs := (List.range 4).map (fun p => (gs.filter (fun g => g.ref.slot / 16 = p)).foldl (fun n g => n + regs g) 0),
    scr := bs.map (fun b => (b.scratchBase, b.scratchLen)),
    tiles := bs.map (fun b => (b.tileBase, (rec' b).tiles)),
    accs := bs.map (fun b => (b.accBase, (rec' b).accb)) }

/-- Storage read as zero from now on. -/
def memClear (m : Memory) (a n : Nat) : Memory := m.filter (fun x => x.1 < a || a + n ≤ x.1)

/-- A block becomes resident (04 R98, R96, 11 R300): its core acquires at package scope over all memory, its tile registers
and accumulator blocks hold zero, its groups wait for KARGS. -/
def State.residentBlock (s : State) (l : Launch) (p : BlockPlan) : State :=
  let die := p.at_ / 48
  let core := p.at_ % 48
  let c : CoreRef := { home := false, die := die, core := core }
  let r := l.lrec
  let b : Block :=
    { lid := l.lid, idx := p.blk, die := die, core := core, slots := p.slots, scratchBase := p.scr, scratchLen := scrNeed r,
      tileBase := p.tile, accBase := p.acc, phase := List.replicate 32 (PhaseBar.start r.groups), latch := none, merge := [],
      areds := [], epochs := [], task := none, dig := 0, restart := 0,
      mismatch := false, hold := false, closed := false }
  let gs := (p.slots.zipIdx).map (fun x =>
    Group.fresh { home := false, die := die, core := core, slot := x.1 } .ordinary .placed l p.blk x.2
      ((l.base + r.entry) % 2 ^ 56) [] s.nextId)
  let s1 := s.l1AcquireAll c
  let m1 := memClear s1.onchip (ocEncode die core 3 (p.tile * 0x2000)) (r.tiles * 0x2000)
  let m2 := memClear m1 (ocEncode die core 1 (p.acc * 0x8000)) (r.accb * 0x8000)
  ({ s1 with onchip := m2, blocks := s1.blocks ++ [b], groups := s1.groups ++ gs }).count c 0 4

/-- The launches whose blocks are offered, in the order of R96: the higher class first, within a class the first READY. -/
def State.offers (s : State) (pt : Nat) : List Launch :=
  sortBy (fun (x y : Launch) => x.lrec.prio < y.lrec.prio || (x.lrec.prio = y.lrec.prio && x.readySeq ≤ y.readySeq))
    (s.launches.filter (fun l => l.part = pt && (l.state = .ready || l.state = .placing) && !l.preempted))

/-- The blocks a launch places in one step: all of a PERSIST launch, else its next unit. -/
def State.planFor (s : State) (l : Launch) : Option (List BlockPlan × Nat) :=
  let dies := s.partDies l.part
  let ptr := (s.dist l.part).pointer
  if l.unplaced.isEmpty then some ([], ptr)
  else if l.lrec.persist then placeAll dies l.lrec l.unplaced.length [] s.coreUse ptr l.unplaced
  else (placeUnit dies s.coreUse l.lrec ptr (firstUnit l.lrec l.unplaced)).map (fun x => x.2)

/-- BLOCK_PLACE (R98): the first offered launch for which there is room gets its blocks placed. -/
def execBlockPlace (pt : Nat) (s : State) : Out :=
  if s.held || s.stopped.contains pt then .next s
  else
    let ls := s.offers pt
    let wait := if ls.any (fun l => (s.planFor l).isNone) then Config.freePick s.tick else 0
    let s0 := (s.count (s.distCore pt) 0 3 wait)
    match ls.findSome? (fun l => (s.planFor l).map (fun p => (l, p))) with
    | none =>
      match ls with
      | [] => .next s
      | _ => .next (ls.foldl (fun (s : State) l => s.modLaunch l.lid (fun l => { l with state := .placing })) s0)
    | some (l, ps, ptr) =>
      let s1 := ps.foldl (fun (s : State) p => s.residentBlock l p) s0
      let placed := ps.map (·.blk)
      let s2 := s1.modLaunch l.lid (fun l =>
        let left := l.unplaced.filter (fun b => !placed.contains b)
        { l with unplaced := left, state := if left.isEmpty then .running else .placing })
      let s3 := s2.setDist pt { s2.dist pt with pointer := ptr }
      .next (if l.unplaced.isEmpty then s3.drainCheck l.lid else s3)

/-- A group starts: it becomes ready at this moment (R101). -/
def State.startGroup (s : State) (r : GRef) (ks : AMap Nat KReg) : State :=
  let since (sp : Split) : Split := if sp.state = .ready then { sp with since := s.nextId } else sp
  { s.modGroup r (fun g => { g with phase := .running, kregs := ks, age := s.nextId, lastStart := s.nextId,
                                    splits := g.splits.map since }) with nextId := s.nextId + 1 }

/-- GROUP_START (R99): the KARGS words land and the group starts. -/
def execGroupStart (g : GRef) (s : State) : Out :=
  match s.group? g with
  | none => .next s
  | some x =>
    match s.launch? x.lid with
    | none => .next s
    | some l =>
      if x.phase ≠ .placed then .next s
      else
        let ka := l.lrec.kargs
        match s.needPages g.coreRef l.lrec.asid [(ka, if ka = 0 then 0 else 128)] with
        | some s1 => .next s1
        | none =>
          let ws := if ka = 0 then [] else s.readWords g.die l.lrec.asid ka 16
          .next ((s.startGroup g (kStart ws)).count g.coreRef 0 5)

/-! ### Completion (04 R96, R97) -/

/-- Every engine operation of a launch has completed, its groups and blocks are gone, and no pack of its objects runs
(R96, 12 R347). -/
def State.launchQuiet (s : State) (lid asid : Nat) : Bool :=
  s.groups.all (fun g => g.lid ≠ lid || g.isPack) && s.blocks.all (fun b => b.lid ≠ lid) &&
  s.ops.all (fun o => o.lid ≠ lid) &&
  s.mats.all (fun m => (m.2.waiting ++ m.2.accepted).all (fun o => o.lid ≠ lid)) &&
  s.regions.all (fun r => r.2.lid ≠ lid) &&
  s.cmbs.all (fun m => m.reqs.all (fun q => q.lid ≠ lid)) && s.queues.all (fun x => x.2.all (fun q => q.lid ≠ lid)) &&
  s.packs.all (fun p => p.reqs.all (fun q => q.lid ≠ lid)) && s.replies.all (fun r => r.req.lid ≠ lid) &&
  s.objs.all (fun o => o.lid ≠ lid || !(o.state = .running || o.state = .closing)) &&
  s.censuses.all (fun c => c.lid ≠ lid || c.complete) && s.moves.all (fun m => m.lid ≠ lid) &&
  s.cols.all (fun c => c.lid ≠ lid) && s.quadWrites.all (fun w => w.asid ≠ asid)

/-- LAUNCH_DONE (R96, R97). -/
def execLaunchDone (lid : Nat) (s : State) : Out :=
  match s.launch? lid with
  | none => .next s
  | some l =>
    .next (if l.state ≠ .draining || !s.launchQuiet lid l.lrec.asid then s else s.closeLaunch lid)

/-! ### Task digests (04 R108 to R110) -/

/-- A task of a wave's sequence (R105). -/
def taskOwned (r : LaunchRec) (blk t : Nat) : Bool :=
  decide (t < r.ptasks) && decide (blk ≤ t) && (t - blk) % (r.plcores * r.pwaves) == 0

/-- A digest rotated left by its task's number (R108). -/
def rotDig (d : DWord) (t : Nat) : DWord := d.rotateLeft (t % 64)

/-- A task closes with its digest added to the launch's (R109). -/
def State.closeTask (s : State) (lid blk t : Nat) (d : DWord) : State :=
  (s.modBlock lid blk (fun b => { b with task := none, mismatch := false })).modLaunch lid (fun l =>
    { l with ldig := l.ldig + rotDig d t })

/-- The open task of a block with its digest: what `.read`, `.record` and `.check` require (R109). -/
def Ctx.openTask (c : Ctx) : Option (Block × Nat) :=
  if (c.s0.recOf c.g).piste then (c.s0.blockOf c.g).bind (fun b => b.task.map (fun t => (b, t))) else none

/-- DGST.open (R109). -/
def execDgstOpen (o : OpS) (s : State) : Out :=
  slot s o.g (srcRds o.a) [] (fun c =>
    let t := (c.k o.a.kNum).toNat
    let r := c.s0.recOf c.g
    match c.s0.blockOf c.g with
    | none => .trap .illpiste 0
    | some b =>
      if !r.piste || b.task.isSome || !taskOwned r c.g.blk t then .trap .illpiste 0
      else .ok (c.s.modBlock c.g.lid c.g.blk (fun b =>
        { b with task := some t, dig := 0, restart := c.sp.nextHdr, mismatch := false })))

/-- DGST.read (R109). -/
def execDgstRead (o : OpS) (s : State) : Out :=
  slot s o.g [] [] (fun c =>
    match c.openTask with
    | none => .trap .illpiste 0
    | some (b, _) => .ok (c.putK c.s (dstNum o.d) b.dig))

/-- The word of a task in the digest table. -/
def digAddr (r : LaunchRec) (t : Nat) : Nat := (r.pdtab + 8 * t) % 2 ^ 64

/-- DGST.record (R109). -/
def execDgstRecord (o : OpS) (s : State) : Out :=
  slot s o.g [] [] (fun c =>
    match c.openTask with
    | none => .trap .illpiste 0
    | some (b, t) =>
      let r := c.s0.recOf c.g
      match c.s.engineFault c.r.coreRef r.asid (digAddr r t) 8 true with
      | some s1 => .block s1 .retest
      | none =>
        if c.s0.outsHeld c.r.die r.asid [(digAddr r t, 8)] then .block c.s0 .retest
        else .ok ((c.s.homeWrite c.r.die r.asid (digAddr r t) (natToBytes 8 b.dig.toNat)).closeTask c.g.lid c.g.blk t b.dig))

/-- The other waves of a block's logical core are held or released (R110). -/
def State.holdWaves (s : State) (lid blk : Nat) (h : Bool) : State :=
  match s.launch? lid with
  | none => s
  | some l =>
    { s with blocks := s.blocks.map (fun b =>
      if b.lid = lid && b.idx / l.lrec.pwaves = blk / l.lrec.pwaves && b.idx ≠ blk then { b with hold := h } else b) }

/-- A second mismatch ends the launch (R110): its groups end, the entries of the current epoch and the held AREDs are
discarded. -/
def State.digestFail (s : State) (lid : Nat) : State :=
  let s1 : State := { s.modLaunch lid (fun l => { l with endc := 2, unplaced := [] }) with
    blocks := s.blocks.map (fun (b : Block) =>
      if b.lid = lid then { b with merge := [], areds := [], epochs := [] } else b) }
  ((s1.groups.filter (fun g => g.lid = lid && !g.isPack)).map (·.ref)).foldl
    (fun (s : State) r => s.groupEnd r) s1

/-- DGST.check (R109, R110). -/
def execDgstCheck (o : OpS) (s : State) : Out :=
  slot s o.g [] [] (fun c =>
    match c.openTask with
    | none => .trap .illpiste 0
    | some (b, t) =>
      let r := c.s0.recOf c.g
      match c.s.engineFault c.r.coreRef r.asid (digAddr r t) 8 false with
      | some s1 => .block s1 .retest
      | none =>
        let s1 := c.s.count c.r.coreRef 0 8
        if c.s.homeRead64 c.r.die r.asid (digAddr r t) = b.dig then
          let s2 := if b.mismatch then s1.holdWaves c.g.lid c.g.blk false else s1
          .ok (s2.closeTask c.g.lid c.g.blk t b.dig)
        else if b.mismatch then .done (s1.digestFail c.g.lid)
        else
          let s2 := (s1.modBlock c.g.lid c.g.blk (fun b => { b with
            merge := b.merge.filter (fun m => m.task ≠ some t), areds := b.areds.filter (fun m => m.task ≠ some t),
            epochs := b.epochs.map (fun x => { x with
              bytes := x.bytes.filter (fun m => m.task ≠ some t), areds := x.areds.filter (fun m => m.task ≠ some t) }),
            dig := 0, mismatch := true })).holdWaves c.g.lid c.g.blk true
          .trapAt (s2.count c.r.coreRef 0 9) .digest 0 b.restart)

end Sys2Proof.Machine
end

