-- ==== Sys2Proof/Machine/Census.lean ====
section
/-! DEFINITION. The census engine (13): key directories, the gondola's ordering of broadcasts and moves, soliciting,
responders, folding, completion and directory moves. -/

namespace Sys2Proof.Machine

open Sys2Proof

/-! ### Combining (13 R387, R388) -/

/-- The contribution or partial of one lane: the words of a run, or none. -/
abbrev LanePart := Option (List Word)

/-- No lane has contributed. -/
def noParts : List LanePart := perLane (fun _ => none)

/-- A census rounding to F32: never flushed, never saturated (13 R387). -/
def cenRound (md : Rm) (x : FV) : Word := BitVec.ofNat 32 (roundF .f32 ⟨md, false, false, false, 0⟩ x).b

/-- The F32 value of a word. -/
def cenVal (x : Word) : FV := decodeF .f32 x.toNat

/-- The factor by which an LSE partial with maximum mi is rescaled to the maximum m (13 R388). -/
def lseFactor (mi m : Word) : FV :=
  if mi = m then .num false 1 0 false
  else cenVal (cenRound .rne (cenVal (cenRound .rne ((cenVal mi).add .rne (cenVal m).negate))).exp2)

/-- The fold of two LSE partials (13 R388). -/
def lseComb (md : Rm) (x y : List Word) : List Word :=
  let w (l : List Word) (i : Nat) : Word := l.getD i 0
  let m : Word := BitVec.ofNat 32 (fmnx .f32 true false (w x 0).toNat (w y 0).toNat)
  if (cenVal m).isNan then List.replicate 3 (BitVec.ofNat 32 Fmt.f32.nan)
  else
    let a1 := lseFactor (w x 0) m
    let a2 := lseFactor (w y 0) m
    let part (i : Nat) : Word := cenRound md (((cenVal (w x i)).mul a1).add md ((cenVal (w y i)).mul a2))
    [m, part 1, part 2]

/-- comb(x, y) of a combine op for one lane (13 R387). -/
def cenComb (op : Nat) (md : Rm) (x y : List Word) : List Word :=
  let x0 := x.getD 0 0
  let y0 := y.getD 0 0
  match op with
  | 0 => [cenRound md ((cenVal x0).add md (cenVal y0))]
  | 1 => ((expand .f32 true ((x ++ y).map BitVec.toNat) 2).1).map (BitVec.ofNat 32)
  | 2 => [BitVec.ofNat 32 (fmnx .f32 true false x0.toNat y0.toNat)]
  | 3 =>
    let r := mxixBetter .f32 false (pair64 x0 (x.getD 1 0)) (pair64 y0 (y.getD 1 0))
    [r.lo, r.hi]
  | 4 => lseComb md x y
  | 5 => x
  | _ => [x0 + y0]

/-- What a lane receives when nothing contributed to it (13 R387). -/
def cenIdentity (op : Nat) : List Word :=
  match op with
  | 1 => [0, 0]
  | 2 => [0xFF800000]
  | 3 => [0xFF800000, 0xFFFFFFFF]
  | 4 => [0xFF800000, 0, 0]
  | _ => [0]

/-- comb with none on either side (13 R387). -/
def partComb (op : Nat) (md : Rm) (x y : LanePart) : LanePart :=
  match x, y with
  | none, y => y
  | x, none => x
  | some a, some b => some (cenComb op md a b)

/-- A fold of one contribution into an accumulator, lane by lane (13 R389). -/
def foldParts (op : Nat) (md : Rm) (acc next : List LanePart) : List LanePart :=
  perLane (fun l => partComb op md (acc.getD l none) (next.getD l none))

/-- The rounding mode of a census; SOL admits no other code (13 R381). -/
def Census.md (x : Census) : Rm := (rmOf x.mode).getD .rne

/-- Left fold of contributions in increasing key order (13 R389, piste mode). -/
def Census.foldSorted (x : Census) (l : List (Nat × List LanePart)) : List LanePart :=
  (sortBy (fun (a b : Nat × List LanePart) => a.1 ≤ b.1) l).foldl (fun acc y => foldParts x.op x.md acc y.2) noParts

/-! ### Scopes -/

/-- The compute cores of a census scope around its asker (13 R379, R382); package scope and above take the dies of the
asker's partition. -/
def State.cenCores (s : State) (c : CoreRef) (scope : Nat) : List CoreRef :=
  let ofDie (d : Nat) : List CoreRef := (List.range 48).map (fun k => { home := false, die := d, core := k })
  match scope with
  | 0 => [c]
  | 1 => (quadCores (quadOf c.core)).map (fun k => { home := false, die := c.die, core := k })
  | 2 => ofDie c.die
  | _ => (s.partDies (s.partIdx c.die)).flatMap ofDie

/-- The cores a census covers. -/
def State.covered (s : State) (x : Census) : List CoreRef := s.cenCores x.g.coreRef x.scope

/-- The broadcast of a census has been handled at a core. -/
def State.cenAt (s : State) (x : Census) (c : CoreRef) : Bool := (s.covered x).contains c && !x.pending.contains c

/-- A census of the machine changed. -/
def State.modCensus (s : State) (n : Nat) (f : Census → Census) : State :=
  { s with censuses := s.censuses.map (fun (x : Census) => if x.id = n then f x else x) }

/-- The census with this identifier. -/
def State.census? (s : State) (n : Nat) : Option Census := s.censuses.find? (fun x => x.id = n)

/-- The launch of a census runs in piste mode, so that its folds follow the key order (13 R389). -/
def State.cenPiste (s : State) (x : Census) : Bool :=
  match s.launch? x.lid with | some l => l.lrec.piste | none => false

/-- The order key (pkg, die, core, entry) of a response (13 R389). -/
def State.cenKey (s : State) (m : CenMsg) : Nat := ((s.pkg * 4 + m.c.die) * 48 + m.c.core) * 256 + m.entry

/-! ### Completion (13 R390 to R392) -/

/-- The landing of a census result in one word of the asker's run (13 R390, R391, 01 R22). -/
def State.landCenWord (s : State) (x : Census) (i : Nat) (acc : List LanePart) (fail : Option Nat) : State :=
  match s.group? x.g with
  | none => s
  | some g =>
    let n := x.dest + i
    let word (l : Nat) : Word := if fail.isSome then 0 else ((acc.getD l none).getD (cenIdentity x.op)).getD i 0
    if s.isMbox g n then
      let bs := (x.mask &&& ~~~g.exited).toLanes.flatMap (fun l => ((natToBytes 4 (word l).toNat).zipIdx).map (fun b => (4 * l + b.2, b.1)))
      let s1 := s.mboxDeliver x.g n bs
      match fail with
      | none => s1
      | some d => s1.modGroup x.g (fun h => h.setV n { h.vreg n with
          fails := (x.mask &&& ~~~g.exited).toLanes.foldl (fun a l => a.set l (.censusfail, d)) (h.vreg n).fails })
    else
      match fail with
      | none => s.modGroup x.g (fun g => g.landV n x.mask x.prodId word)
      | some d => s.modGroup x.g (fun g => g.failV n x.mask x.prodId .censusfail d)

/-- The last package of the pod that a census covers, when others are covered (13 R379). -/
def State.cenPod (s : State) (x : Census) : Option Nat :=
  match s.launch? x.lid with
  | some l => if x.scope = 4 && l.lrec.podn ≠ 0 then some l.lrec.podn else none
  | none => none

/-- A census completes at its asker: the result lands, the slot becomes COMPLETE, `cen` falls, and closes go down to every
core of the scope (13 R390 to R392). -/
def State.cenFinish (s : State) (x : Census) (timeout : Bool) : State :=
  let fail := timeout || decide (0 < x.faulted)
  let acc := if s.cenPiste x then x.foldSorted x.sorted else x.acc
  let mark := if fail && !x.nt then some (if timeout then 0x90 else 0x91) else none
  let cs := s.covered x
  let s1 := (List.range (cenWidth x.op)).foldl (fun (s : State) i => s.landCenWord x i acc mark) s
  let st : CenSlot :=
    { state := 2, fail := fail, timeout := timeout, matched := x.matched, responded := x.responded, faulted := x.faulted,
      scope := x.scope, closing := cs.map (fun c => (x.id, c)) }
  let s2 := s1.modGroup x.g (fun g => { g.decCtr 4 with census := modNth g.census x.slot (fun _ => st) })
  let s3 := s2.modCensus x.id (fun x => { x with complete := true, closes := cs })
  s3.count x.g.coreRef 9 5 (if fail && !x.foreign then 1 else 0)

/-- Every core's count has arrived, and a response or fault for each matched entry. In a pod span that is so, at a free moment,
once every other package has sent a die's partial; how many of its dies send one is not known here (log 22). -/
def State.cenAll (s : State) (x : Census) : Bool :=
  let others := match s.cenPod x with
    | some n => s.othersCame && (List.range (n + 1)).all (fun p => p = s.pkg || x.far.any (fun d => d / 4 = p))
    | none => true
  !x.foreign && others && decide ((s.covered x).length ≤ x.counted) && decide (x.matched ≤ x.responded + x.faulted)

/-- The census completes when it can (13 R390). -/
def State.cenCheck (s : State) (n : Nat) : State :=
  match s.census? n with
  | none => s
  | some x => if !x.complete && s.cenAll x then s.cenFinish x false else s

/-! ### Soliciting (13 R380 to R382) -/

/-- Broadcasts and moves that have passed a node through which the new broadcast must still pass (13 R379, R396). -/
def State.before (s : State) (cs : List CoreRef) : List Nat :=
  let xs := (s.censuses.filter (fun x => cs.any (fun c => s.cenAt x c))).map (·.id)
  let ms := s.moves.filter (fun m => m.atNode && cs.contains m.src && cs.contains m.dst)
  (xs ++ ms.flatMap (fun m => m.id :: m.before)).dedup

/-- Why a SOL raises ILLOP at its issue: its DETAIL (13 R380, R381). -/
def Ctx.solBad (c : Ctx) (scope rnd ctl : Nat) : Option Nat :=
  match c.mode rnd with
  | some .sr => some 0x80
  | none => some 0x10
  | some _ =>
    if spanLevel (c.s0.recOf c.g) < scope then some 0x83
    else if c.g.kind ≠ .ordinary || c.g.inHandler c.e then some 3
    else if bits ctl 47 32 ≠ 0 then some 0
    else none

/-- SOL (13 R381, R382). -/
def execSol (o : OpS) (s : State) : Out :=
  let scope := mfield o.m 9 7
  let rnd := mfield o.m 6 4
  let op := o.sub.toNat
  let w := cenWidth op
  let d := dstNum o.d
  slot s o.g (kRds o.a 4) ((List.range w).map (d + ·)) (fun c =>
    let ka := o.a.kNum
    let ctl := (c.k (ka + 3)).toNat
    match c.solBad scope rnd ctl with
    | some d => .trap .illop d
    | none =>
      let sl := bits o.imm.toNat 1 0
      let old := c.g.census.getD sl default
      if old.state = 1 || !old.closing.isEmpty then .block c.s0 .retest
      else if c.g.ctr.cen = 65535 then .block c.s0 .room
      else if !c.s.groupDrained c.r then .block c.s0 .retest
      else
        let s1 := c.s.releaseAt c.r.coreRef (c.s.asidOf c.g) scope none
        let (id, s2) := s1.fresh
        let cs := s2.cenCores c.r.coreRef scope
        let x : Census :=
          { id := id, g := c.r, slot := sl, lid := c.g.lid, key := c.k ka, kmask := c.k (ka + 1), arg := c.k (ka + 2),
            budget := bits ctl 63 48, entry := bits ctl 31 0, op := op, scope := scope,
            mode := if rnd = 0 then bits c.g.sp.rmode.toNat 2 0 else rnd, nt := bits o.m.toNat 3 3 == 1, dest := d,
            mask := c.sp.mask, prodId := id, complete := false, pending := cs, after := s2.before cs, cores := [],
            closes := [], msgs := [], dies := [], dieMsgs := [], counted := 0, matched := 0, responded := 0, faulted := 0,
            acc := noParts, sorted := [], far := [], foreign := false }
        let s3 := s2.markRun c.r d w c.sp.mask id
        let st : CenSlot := { old with state := 1, fail := false, timeout := false, matched := 0, responded := 0, faulted := 0, scope := scope }
        let s4 := s3.modGroup c.r (fun g => { g.incCtr 4 with census := modNth g.census sl (fun _ => st) })
        let s5 : State := { s4 with censuses := s4.censuses ++ [x] }
        .ok (s5.count c.r.coreRef 9 0))

/-! ### The broadcast at a core (13 R383) -/

/-- What goes before a broadcast at a core has been handled there. -/
def State.isBefore (s : State) (c : CoreRef) (z : Nat) : Bool :=
  s.censuses.all (fun x => x.id ≠ z || !x.pending.contains c) &&
  s.moves.all (fun m => m.id ≠ z || ((m.src ≠ c || m.srcAt || m.srcFree) && (m.dst ≠ c || m.dstDone.isSome)))

/-- Entry d of the directory answers census x (13 R376). -/
def Census.meets (x : Census) (d : DirEnt) : Bool :=
  !d.leaving && decide (d.lid = x.lid) && (d.key ^^^ x.key) &&& x.kmask == 0

/-- The record of a census at a core, as open there. -/
def Census.openAt (x : Census) (c : CoreRef) (seq : Nat) (es : List Nat) : List CenCore :=
  if x.cores.any (fun k => k.c = c) then x.cores.map (fun k => if k.c = c then { k with seq := seq, spawn := es } else k)
  else x.cores ++ [{ c := c, seq := seq, spawn := es, running := 0, closeArrived := false }]

/-- A solicitation of another package comes down to this one, for a pod-span launch with parts on several (13 R379, R382): what
it asks is free (log 107). -/
def State.foreignCensus (s : State) (l : Launch) (c : CoreRef) : State :=
  let (id, s1) := s.fresh
  let f (i : Nat) : Nat := Config.freePick (s.tick * 2 ^ 20 + i)
  let cs := s1.cenCores c 4
  let x : Census :=
    { id := id, g := { home := false, die := c.die, core := c.core, slot := 64 }, slot := 0, lid := l.lid,
      key := BitVec.ofNat 64 (f 0), kmask := BitVec.ofNat 64 (f 1), arg := BitVec.ofNat 64 (f 2), budget := 1,
      entry := f 3 % 2 ^ 32, op := f 4 % 7, scope := 4, mode := 1, nt := true, dest := 0, mask := 0, prodId := id,
      complete := false, pending := cs, after := s1.before cs, cores := [], closes := [], msgs := [], dies := [], dieMsgs := [],
      counted := 0, matched := 0, responded := 0, faulted := 0, acc := noParts, sorted := [], far := [], foreign := true }
  { s1 with censuses := s1.censuses ++ [x] }

/-- CENSUS_BROADCAST_ARRIVE (R383): the core takes its match set, opens the census and sends its count. A number that no census
has stands for a solicitation of another package. -/
def execCensusBroadcastArrive (n : Nat) (c : CoreRef) (s : State) : Out :=
  match s.census? n with
  | none =>
    let ls := s.launches.filter (fun l => l.lrec.span = 2 && l.lrec.podn ≠ 0 && l.state ≠ .done &&
      (s.partDies l.part).contains c.die)
    match ls[n % ls.length]? with
    | some l => if c.home || 48 ≤ c.core then .next s else .next (s.foreignCensus l c)
    | none => .next s
  | some x =>
    if !x.pending.contains c || !x.after.all (s.isBefore c) then .next s
    else
      let hits := (s.dir.filter (fun y => y.1.1 = c && x.meets y.2)).map (fun y => y.1.2)
      let es := sortBy (fun (a b : Nat) => a ≤ b) hits
      let (seq, s1) := s.fresh
      let (id, s2) := s1.fresh
      let msg : CenMsg := { id := id, c := c, entry := 0, count := some es.length, fault := false, contrib := [] }
      let open' (y : Census) : Census :=
        { y with pending := y.pending.filter (· ≠ c), cores := y.openAt c seq es, msgs := if y.foreign then [] else y.msgs ++ [msg] }
      let later (y : Census) : Census :=
        if y.id ≠ n && y.pending.contains c && !y.after.contains n then { y with after := y.after ++ [n] } else y
      let s3 : State := { s2 with
        dir := s2.dir.map (fun y =>
          if y.1.1 = c && x.meets y.2 then (y.1, { y.2 with matchedBy := y.2.matchedBy ++ [n] }) else y),
        censuses := s2.censuses.map (fun (y : Census) => if y.id = n then open' y else later y) }
      .next ((s3.count c 9 1 es.length).cenClose n c)

/-! ### Responders (13 R384 to R386) -/

/-- The lowest free responder slot of a core whose partition has room for a number of registers (13 R384, 04 R98). -/
def State.responderSlot (s : State) (c : CoreRef) (need : Nat) : Option Nat :=
  let u := s.coreUse (c.die * 48 + c.core)
  ([15, 31, 47, 63] : List Nat).find? (fun k => !u.slots.contains k && decide (u.regs.getD (k / 16) 0 + need ≤ 1024))

/-- The census and entry whose responder a core starts next: censuses in the order of their arrival, entries in
increasing index (13 R384). -/
def State.nextSpawn (s : State) (c : CoreRef) : Option (Census × Nat) :=
  let xs := s.censuses.filterMap (fun (x : Census) =>
    match x.cores.find? (fun k => k.c = c && !k.spawn.isEmpty) with
    | some k => some (k.seq, x, k.spawn.headD 0)
    | none => none)
  (sortBy (fun (a b : Nat × Census × Nat) => a.1 ≤ b.1) xs).head?.map (fun y => y.2)

/-- RESPONDER_SPAWN (R384): the next matched entry of a core gets its responder group, beside the tile. -/
def execResponderSpawn (c : CoreRef) (s : State) : Out :=
  if s.held || s.stopped.contains (s.partIdx c.die) then .next s
  else
  match s.nextSpawn c with
  | none => .next s
  | some (x, e) =>
    match s.dir.get? (c, e), s.launch? x.lid with
    | some d, some l =>
      match s.responderSlot c l.lrec.gregs with
      | none => .next (s.count c 9 7 (Config.freePick s.tick))
      | some k =>
        let ka := l.lrec.kargs
        match s.needPages c l.lrec.asid [(ka, if ka = 0 then 0 else 128)] with
        | some s1 => .next s1
        | none =>
          let s0 := s.acquireAt c l.lrec.asid x.scope none true
          let ws := if ka = 0 then List.replicate 16 0 else s0.readWords c.die l.lrec.asid ka 16
          let r : GRef := { home := false, die := c.die, core := c.core, slot := k }
          let g0 := Group.fresh r (.responder x.id e false) .running l d.blk 16 ((l.base + x.entry) % 2 ^ 56)
            (ws ++ [x.arg]) s0.nextId
          let g : Group := { g0 with sp := { g0.sp with key := d.key, kloc := d.loc ||| BitVec.ofNat 64 (e * 2 ^ 40) } }
          let s1 := s0.modCensus x.id (fun (x : Census) => { x with
            cores := x.cores.map (fun (k : CenCore) =>
              if k.c = c then { k with spawn := k.spawn.drop 1, running := k.running + 1 } else k) })
          let s2 : State := { s1 with groups := s1.groups ++ [g] }
          .next ((s2.count c 9 2).count c 9 7 (Config.freePick s.tick))
    | _, _ => .next s

/-- A responder sends a response toward the asker: its contribution or its fault (13 R385, R386). -/
def State.respond (s : State) (n : Nat) (c : CoreRef) (e : Nat) (fault : Bool) (parts : List LanePart) : State :=
  let (id, s1) := s.fresh
  let m : CenMsg := { id := id, c := c, entry := e, count := none, fault := fault, contrib := parts }
  s1.modCensus n (fun (x : Census) => { x with msgs := if x.foreign then [] else x.msgs ++ [m] })

/-- The census a responder answers and its entry, when it has not yet performed RSP. -/
def State.answering (s : State) (g : Group) : Option (Census × Nat) :=
  match g.kind with
  | .responder n e false => (s.census? n).map (fun x => (x, e))
  | _ => none

/-- RSP (13 R386): performed once when every lane of the responder has reached it, its checks too. -/
def execRsp (o : OpS) (s : State) : Out :=
  let a := s.curGroup.bind s.answering
  let w := match a with | some (x, _) => if x.op = 6 then 0 else cenWidth x.op | none => 0
  let ok := if w = 0 then o.a.unused else o.a.isV && expRun o.a.vNum w
  let rds := if w ≠ 0 && ok then srcRds o.a w else []
  slot s o.g rds [] (fun c =>
    match a with
    | none => c.syncAny (fun _ => .inl (.illop, 3))
    | some (x, e) =>
      if !ok then c.syncAny (fun _ => .inl (.illop, 0x82))
      else c.syncAny (fun s =>
        if !s.groupDrained c.r then .inr (.inr s)
        else
          let m := c.g.guardMask o.g (~~~c.g.exited)
          let s1 := (s.modGroup c.r (fun g => applyLast s m g rds)).releaseAt c.r.coreRef (s.asidOf c.g) x.scope none
          let run (l : Nat) : List Word := if w = 0 then [1] else (List.range w).map (fun i => c.v (o.a.vNum + i) l)
          let parts := perLane (fun l => if m.has l then some (run l) else none)
          let s2 := s1.respond x.id c.r.coreRef e false parts
          .inr (.inl (s2.modGroup c.r (fun g => { g with kind := .responder x.id e true }), none))))

/-- RESPONDER_FAULT (R385): a responder with a trap ends. Before its RSP its census counts one fault; after it the trap is
counted in RESP_LATE. -/
def execResponderFault (g : GRef) (s : State) : Out :=
  match s.group? g with
  | none => .next s
  | some x =>
    match x.kind with
    | .responder n e done =>
      if x.splits.any (fun (sp : Split) => sp.state != .free && sp.trap.isSome) then
        if done then .next ((s.groupEnd g).count g.coreRef 9 4)
        else .next (((s.respond n g.coreRef e true noParts).groupEnd g).count g.coreRef 9 3)
      else .next s
    | _ => .next s

/-! ### Folding on the way back (13 R389) -/

/-- What a die's node has folded so far. -/
def Census.diePart (x : Census) (die : Nat) : DiePart :=
  (x.dies.find? (fun d => d.die = die)).getD
    { die := die, counted := [], count := 0, responded := 0, faulted := 0, acc := noParts, pend := [], key := 0, sent := false }

/-- A message folded in at a die's node. -/
def State.dieFold (s : State) (x : Census) (p : DiePart) (m : CenMsg) : DiePart :=
  match m.count with
  | some k => { p with counted := p.counted ++ [m.c.core], count := p.count + k }
  | none =>
    if m.fault then { p with faulted := p.faulted + 1 }
    else if s.cenPiste x then { p with responded := p.responded + 1, pend := p.pend ++ [m] }
    else { p with responded := p.responded + 1, acc := foldParts x.op x.md p.acc m.contrib }

/-- DIE_PARTIAL_FOLD (R389): a die's node folds a message of one of its cores, and sends the partial once every core of
the die has reported and every responder there has responded. -/
def execDiePartialFold (n r : Nat) (s : State) : Out :=
  match s.census? n with
  | none => .next s
  | some x =>
    match x.msgs.find? (fun m => m.id = r) with
    | none => .next s
    | some m =>
      if m.c.die = x.g.die then .next s
      else
        let p := s.dieFold x (x.diePart m.c.die) m
        let full := decide (p.counted.length = 48) && decide (p.responded + p.faulted = p.count) && !p.sent
        let keyed := p.pend.map (fun m => (s.cenKey m, m.contrib))
        let acc := if s.cenPiste x then x.foldSorted keyed else p.acc
        let key := keyed.foldl (fun k y => min k y.1) (((s.pkg * 4 + m.c.die) * 48 + 48) * 256)
        let (id, s1) := s.fresh
        let dm : DieMsg :=
          { id := id, die := m.c.die, cores := p.counted.length, count := p.count, responded := p.responded,
            faulted := p.faulted, acc := acc, key := key }
        .next (s1.modCensus n (fun (x : Census) => { x with
          msgs := x.msgs.filter (fun y => y.id ≠ r),
          dies := x.dies.filter (fun d => d.die ≠ p.die) ++ [{ p with sent := p.sent || full }],
          dieMsgs := if full then x.dieMsgs ++ [dm] else x.dieMsgs }))

/-- A response, a count or a partial folded in at the asker (13 R389); after completion it is discarded (R391). -/
def State.askerFold (s : State) (x : Census) (cores count responded faulted : Nat) (key : Nat) (parts : List LanePart) :
    Census :=
  if x.complete then x
  else
    { x with
      counted := x.counted + cores, matched := x.matched + count, responded := x.responded + responded,
      faulted := x.faulted + faulted,
      acc := if s.cenPiste x then x.acc else foldParts x.op x.md x.acc parts,
      sorted := if s.cenPiste x then x.sorted ++ [(key, parts)] else x.sorted }

/-- The asker's slot shows what has arrived (13 R393). -/
def State.showSlot (s : State) (n : Nat) : State :=
  match s.census? n with
  | none => s
  | some x =>
    if x.complete then s
    else s.modGroup x.g (fun g => { g with census := modNth g.census x.slot (fun (z : CenSlot) =>
      { z with matched := x.matched, responded := x.responded, faulted := x.faulted }) })

/-- The partial of a die of another package reaches the asker: what it holds is free (13 R389, log 107). -/
def State.farPartial (s : State) (x : Census) (d : Nat) : Census :=
  let f (i : Nat) : Nat := Config.freePick (s.tick * 2 ^ 20 + i)
  let count := f 0 % (48 * 256 + 1)
  let faulted := f 1 % (count + 1)
  let part (l : Nat) : LanePart :=
    if count = faulted || f (2 + l) % 2 = 0 then none
    else some ((List.range (cenWidth x.op)).map (fun i => BitVec.ofNat 32 (f (64 + 4 * l + i))))
  let y := s.askerFold x 0 count (count - faulted) faulted (d * 48 * 256 + f 300 % (48 * 256)) (perLane part)
  { y with far := x.far ++ [d] }

/-- CENSUS_RESPONSE_ARRIVE (R389): a message of a core of the asker's die, or a die's partial, reaches the asker. In a pod span a
number that no message of this package has stands for the partial of a die of another. -/
def execCensusResponseArrive (n r : Nat) (s : State) : Out :=
  match s.census? n with
  | none => .next s
  | some x =>
    match x.msgs.find? (fun m => m.id = r && m.c.die = x.g.die), x.dieMsgs.find? (fun m => m.id = r) with
    | some m, _ =>
      let drop (y : Census) : Census := { y with msgs := y.msgs.filter (fun z => z.id ≠ r) }
      let fold (y : Census) : Census :=
        match m.count with
        | some k => s.askerFold y 1 k 0 0 0 noParts
        | none => if m.fault then s.askerFold y 0 0 0 1 0 noParts else s.askerFold y 0 0 1 0 (s.cenKey m) m.contrib
      .next (((s.modCensus n (fun y => drop (fold y))).showSlot n).cenCheck n)
    | none, some d =>
      let drop (y : Census) : Census := { y with dieMsgs := y.dieMsgs.filter (fun z => z.id ≠ r) }
      .next (((s.modCensus n (fun y => drop (s.askerFold y d.cores d.count d.responded d.faulted d.key d.acc))).showSlot n).cenCheck n)
    | none, none =>
      match s.cenPod x with
      | some k =>
        let d := r % (4 * (k + 1))
        if x.complete || x.foreign then .next s
        else if d / 4 = s.pkg || x.far.contains d then .next (s.cenCheck n)
        else .next (((s.modCensus n (fun y => s.farPartial y d)).showSlot n).cenCheck n)
      | none => .next s

/-- CENSUS_TIMEOUT (R391): the budget expires; it may do so at any moment (log 6). A census of another package closes so. -/
def execCensusTimeout (n : Nat) (s : State) : Out :=
  match s.census? n with
  | none => .next s
  | some x => if x.complete || x.budget = 0 then .next s else .next (s.cenFinish x true)

/-- CENSUS_CLOSE_ARRIVE (R383, R392): a close reaches a core; closes are not ordered with the other channels (R379). -/
def execCensusCloseArrive (n : Nat) (c : CoreRef) (s : State) : Out :=
  match s.census? n with
  | none => .next s
  | some x =>
    if !x.closes.contains c then .next s
    else
      let cores := if x.cores.any (fun k => k.c = c) then
          x.cores.map (fun (k : CenCore) => if k.c = c then { k with closeArrived := true } else k)
        else x.cores ++ [{ c := c, seq := 0, spawn := [], running := 0, closeArrived := true }]
      .next ((s.modCensus n (fun (x : Census) => { x with closes := x.closes.filter (· ≠ c), cores := cores })).cenClose n c)

/-! ### Status and waiting (13 R393) -/

/-- SOLW. -/
def execSolw (o : OpS) (s : State) : Out :=
  slot s o.g [] [] (fun c =>
    let st := c.g.census.getD (bits o.imm.toNat 1 0) default
    if c.g.isResponder then .trap .illop 3
    else if st.state = 1 then .block c.s .retest
    else if st.state = 2 then .ok (c.s.acquireAt c.r.coreRef (c.s.asidOf c.g) st.scope none false)
    else .ok c.s)

/-- The word SOLR writes. -/
def CenSlot.word (z : CenSlot) : DWord :=
  BitVec.ofNat 64 (z.state * 2 ^ 62 + (if z.fail then 2 ^ 61 else 0) + (if z.timeout then 2 ^ 60 else 0) +
    z.matched % 2 ^ 24 * 2 ^ 36 + z.responded % 2 ^ 24 * 2 ^ 12 + min z.faulted 4095)

/-- SOLR. -/
def execSolr (o : OpS) (s : State) : Out :=
  slot s o.g [] [] (fun c => .ok (c.putK c.s (dstNum o.d) (c.g.census.getD (bits o.imm.toNat 1 0) default).word))

/-! ### Inserting, deleting and moving (13 R394, R395) -/

/-- The entries of a core's directory that moves on their way to it will take. -/
def State.reserved (s : State) (c : CoreRef) : Nat :=
  (s.moves.filter (fun m => m.dst = c && m.atNode && m.dstDone.isNone)).length

/-- The lowest FREE entry of a core's directory beyond those that moves will take; home cores have none (13 R376). -/
def State.freeDir (s : State) (c : CoreRef) (need : Nat) : Option Nat :=
  let free := (List.range 256).filter (fun e => (s.dir.get? (c, e)).isNone)
  if c.home || free.length ≤ need then none else free.head?

/-- A location word that KINS refuses (13 R378, R394). -/
def badLoc (w scratch : Nat) : Bool :=
  bits w 63 57 != 0 || bits w 47 32 != 0 || bits w 31 0 % 128 != 0 ||
    decide (scratch < bits w 31 0 + 128 * (bits w 56 48 + 1))

/-- A status word of KINS and KDEL: status and entry (13 R394). A status that names no entry leaves the byte open
(log 16). -/
def dirStatus (status entry : Nat) : DWord := BitVec.ofNat 64 (status + entry % 256 * 2 ^ 8)

/-- KINS. -/
def execKins (o : OpS) (s : State) : Out :=
  slot s o.g (kRds o.a 2) [] (fun c =>
    let key := c.k o.a.kNum
    let loc := c.k (o.a.kNum + 1)
    let core := c.r.coreRef
    let d := dstNum o.d
    let none' := (Config.freeByte c.s.tick).toNat
    if c.g.isResponder then .trap .illop 3
    else if badLoc loc.toNat (c.s0.recOf c.g).scratch then .ok (c.putK c.s d (dirStatus 2 none'))
    else
      match c.s.freeDir core (c.s.reserved core) with
      | none => .ok (c.putK c.s d (dirStatus 1 none'))
      | some e =>
        let ent : DirEnt :=
          { key := key, loc := loc, lid := c.g.lid, blk := c.g.blk, leaving := false, matchedBy := [], waiter := none }
        let s1 : State := { c.s with dir := c.s.dir.set (core, e) ent }
        .ok (c.putK s1 d (dirStatus 0 e)))

/-- The VALID entry of the issuing block that a KDEL names. -/
def Ctx.ownEntry (c : Ctx) (e : Nat) : Option DirEnt :=
  match c.s.dir.get? (c.r.coreRef, e) with
  | some d => if !d.leaving && d.lid = c.g.lid && d.blk = c.g.blk && c.g.kind = .ordinary then some d else none
  | none => none

/-- KDEL: the entry is LEAVING at once, and the split waits until it is FREE (13 R395). -/
def execKdel (o : OpS) (s : State) : Out :=
  slot s o.g (kRds o.a 1) [] (fun c =>
    let a := (c.k o.a.kNum).toNat
    let e := a % 256
    let d := dstNum o.d
    if c.g.isResponder then .trap .illop 3
    else if 256 ≤ a then .trap .illop 0
    else
      match c.ownEntry e with
      | none => .ok (c.putK c.s d (dirStatus 4 e))
      | some ent =>
        let key := (c.r.coreRef, e)
        if ent.matchedBy.isEmpty then
          let s1 : State := { c.s with dir := c.s.dir.set key { ent with leaving := true } }
          .ok (c.putK (s1.dirRelease key) d (dirStatus 0 e))
        else
          let (w, s1) := c.awaitK c.s d
          .block { s1 with dir := s1.dir.set key { ent with leaving := true, waiter := some (w, e * 2 ^ 8) } } .reply)

/-- KDEL.mv: the move starts up the tree once the group's stores are acknowledged and released (13 R395). -/
def execKdelMv (o : OpS) (s : State) : Out :=
  slot s o.g (kRds o.a 2) [] (fun c =>
    let e := (c.k o.a.kNum).toNat % 256
    let tw := (c.k (o.a.kNum + 1)).toNat
    let off := bits tw 31 0
    let d := dstNum o.d
    let none' := (Config.freeByte c.s.tick).toNat
    if c.g.isResponder then .trap .illop 3
    else if 256 ≤ (c.k o.a.kNum).toNat then .trap .illop 0
    else if c.g.ctr.st ≠ 0 || !c.s.groupDrained c.r then .block c.s0 .retest
    else
      match c.ownEntry e with
      | none => .ok (c.putK c.s d (dirStatus 4 none'))
      | some ent =>
        let size := 128 * (bits ent.loc.toNat 56 48 + 1)
        match c.s.block? c.g.lid (bits tw 63 32) with
        | none => .ok (c.putK c.s d (dirStatus 2 none'))
        | some b =>
          if b.closed || off % 128 ≠ 0 || (c.s0.recOf c.g).scratch < off + size then
            .ok (c.putK c.s d (dirStatus 2 none'))
          else
            let s1 := c.s.releaseAt c.r.coreRef (c.s.asidOf c.g) 3 none
            let (w, s2) := c.awaitK s1 d
            let m : KMove :=
              { toWaiter := w, src := c.r.coreRef,
                dst := { home := false, die := b.die, core := b.core }, ent := e, key := ent.key,
                loc := BitVec.ofNat 64 (bits ent.loc.toNat 63 32 * 2 ^ 32 + off), lid := c.g.lid, blk := b.idx,
                atNode := false, before := [], srcAt := false, srcFree := false, dstDone := none }
            .block { s2 with moves := s2.moves ++ [m] } .reply)

/-- The cores under the lowest common node of two cores (13 R379, R395). -/
def State.underNode (s : State) (a b : CoreRef) : List CoreRef :=
  if a = b then [a]
  else if a.die = b.die then
    if quadOf a.core = quadOf b.core then s.cenCores a 1 else s.cenCores a 2
  else s.cenCores a 3

/-- CENSUS_MOVE_AT_NODE (R395, R396): the common node takes the move after the broadcasts `passed` and before every other
broadcast whose scope contains both cores. It takes its messages one at a time (R379): what it sent before an earlier move it
sent before this one, and an earlier move reaches a core of both first. -/
def execCensusMoveAtNode (n : Nat) (passed : List Nat) (s : State) : Out :=
  match s.moves.find? (fun m => m.id = n) with
  | none => .next s
  | some m =>
    let both (x : Census) : Bool := let cs := s.covered x; cs.contains m.src && cs.contains m.dst
    let xs := s.censuses.filter both
    let under := s.underNode m.src m.dst
    let isPast (x : Census) : Bool := passed.contains x.id
    let must := xs.all (fun x => isPast x || under.all (fun c => !s.cenAt x c))
    let inXs := passed.all (fun z => xs.any (fun x => x.id = z))
    let same (y : KMove) : Bool := y.id != n && y.atNode && s.underNode y.src y.dst == under
    let mates := s.moves.filter same
    let order := xs.all (fun x => !isPast x || xs.all (fun y => !x.after.contains y.id || isPast y)) &&
      xs.all (fun x => isPast x || mates.all (fun y => !y.before.contains x.id))
    let meets (y : KMove) : Bool := y.src = m.src || y.src = m.dst || y.dst = m.src || y.dst = m.dst
    let first := passed ++ (mates.filter meets).map (·.id)
    if m.atNode || !must || !inXs || !order then .next s
    else
      match s.freeDir m.dst (s.reserved m.dst) with
      | none =>
        let s1 : State := { s with moves := s.moves.filter (fun x => x.id ≠ n) }
        .next (s1.answer m.toWaiter (dirStatus 1 (Config.freeByte s.tick).toNat))
      | some _ =>
        let mark (x : KMove) : KMove := if x.id = n then { x with atNode := true, before := first } else x
        let later (x : Census) : Census :=
          if both x && !isPast x then { x with after := (x.after ++ n :: first).dedup } else x
        .next { s with moves := s.moves.map mark, censuses := s.censuses.map later }

/-- A move whose source entry is gone. -/
def State.moveSourceFree (s : State) (n : Nat) : State :=
  { s with moves := s.moves.map (fun (x : KMove) => if x.id = n then { x with srcAt := true, srcFree := true } else x) }

/-- The move applied at its source: the entry becomes LEAVING (13 R395), unless it has been deleted meanwhile. -/
def State.moveAtSource (s : State) (m : KMove) : State :=
  let key := (m.src, m.ent)
  match s.dir.get? key with
  | some d =>
    if d.key = m.key then
      let s1 : State := { s with
        dir := s.dir.set key { d with leaving := true },
        moves := s.moves.map (fun (x : KMove) => if x.id = m.id then { x with srcAt := true } else x) }
      s1.dirRelease key
    else (s.moveSourceFree m.id).moveDone m.id
  | none => (s.moveSourceFree m.id).moveDone m.id

/-- The move applied at its destination: the lowest FREE entry becomes VALID (13 R395); nothing becomes VALID for a block
that has exited meanwhile. -/
def State.moveAtDest (s : State) (m : KMove) : State :=
  let e := (s.freeDir m.dst 0).getD 0
  let live := match s.block? m.lid m.blk with | some b => !b.closed | none => false
  let ent : DirEnt :=
    { key := m.key, loc := m.loc, lid := m.lid, blk := m.blk, leaving := false, matchedBy := [], waiter := none }
  let s1 : State := { s with
    dir := if live then s.dir.set (m.dst, e) ent else s.dir,
    moves := s.moves.map (fun (x : KMove) => if x.id = m.id then { x with dstDone := some e } else x) }
  s1.moveDone m.id

/-- CENSUS_MOVE_AT_CORE (R395): the move arrives at one of its cores, after the broadcasts and moves that its node sent there
before it (R379). -/
def execCensusMoveAtCore (n : Nat) (dst : Bool) (s : State) : Out :=
  match s.moves.find? (fun m => m.id = n) with
  | none => .next s
  | some m =>
    let c := if dst then m.dst else m.src
    let done := if dst then m.dstDone.isSome else m.srcAt
    if !m.atNode || done || !m.before.all (s.isBefore c) then .next s
    else .next (if dst then s.moveAtDest m else s.moveAtSource m)

end Sys2Proof.Machine
end

