-- ==== Sys2Proof/Machine/MatCore.lean ====
section
/-! DEFINITION. The matrix engine's storage and arithmetic: views (11 R301, R302), regions (R303), scales (R306, R307),
product terms (R308 to R310), factorisation and solve (R336, R337). -/

namespace Sys2Proof.Machine

open Sys2Proof

/-! ### Views (11 R301, R302) -/

/-- A view of a tile register: FMT, SMODE, TRANS, stored rows and columns, pitch in bytes, extent, whether it lies in the
scratchpad and at which offset of the block's allocation. -/
structure TView where
  fmt : Nat
  smode : Nat
  trans : Bool
  rows : Nat
  cols : Nat
  pitch : Nat
  spad : Bool
  off : Nat
  deriving DecidableEq, Repr, Inhabited

/-- Bits of an element (11 R302). -/
def elemBits (fmt : Nat) : Nat := match fmt with | 0 => 32 | 1 | 2 => 16 | 5 => 4 | _ => 8

/-- Bytes of a stored row. -/
def TView.rowBytes (v : TView) : Nat := ceilDiv (v.cols * elemBits v.fmt) 8

/-- The minimum pitch. -/
def TView.minPitch (v : TView) : Nat := roundUp v.rowBytes 16

/-- The fields of a `%tcN` word. -/
def viewOf (x : DWord) : TView :=
  let n := x.toNat
  let v : TView :=
    { fmt := bits n 39 36, smode := bits n 35 34, trans := n.testBit 33, rows := bits n 31 21 + 1, cols := bits n 20 10 + 1,
      pitch := 16 * bits n 9 0, spad := n.testBit 63, off := 16 * bits n 59 40 }
  { v with pitch := if v.pitch = 0 then v.minPitch else v.pitch }

/-- Bytes of a view. -/
def TView.ext (v : TView) : Nat := v.rows * v.pitch

/-- Logical rows and columns (11 R302). -/
def TView.dims (v : TView) : Nat × Nat := if v.trans then (v.cols, v.rows) else (v.rows, v.cols)

/-- ILLLAYOUT details of a view's own word: reserved bits or format (0x0050), a pitch below the minimum or an extent beyond
its storage (0x0051), TRANS where it is not allowed (0x0053). A shape view's place is not used (11 R319). -/
def viewFails (scratch : Nat) (x : DWord) (transOk shape : Bool) : List Nat :=
  let v := viewOf x
  let n := x.toNat
  (if bits n 62 60 ≠ 0 || n.testBit 32 || 7 ≤ v.fmt then [0x50] else []) ++
  (if !shape && (v.pitch < v.minPitch || (if v.spad then scratch < v.off + v.ext else 8192 < v.ext)) then [0x51] else []) ++
  (if v.trans && !transOk then [0x53] else [])

/-- The format of an element's code. -/
def fmtOf (code : Nat) : Fmt :=
  match code with | 0 => .f32 | 1 => .f16 | 2 => .bf16 | 3 => .e4m3 | 4 => .e5m2 | _ => .e2m1

/-! ### Storage -/

/-- The map address of an offset of on-chip storage of a kind of the operation's block. -/
def MatOp.at (o : MatOp) (kind off : Nat) : Nat :=
  let base := match kind with | 0 => o.scratchBase | 1 => o.accBase * 0x8000 | _ => o.tileBase * 0x2000
  ocEncode o.g.die o.g.core kind (base + off)

/-- The map address where a view of tile register n begins. -/
def MatOp.viewAt (o : MatOp) (v : TView) (n : Nat) : Nat :=
  if v.spad then o.at 0 v.off else o.at 3 (n * 0x2000)

/-- A little-endian number in memory. -/
def memNum (m : Memory) (a n : Nat) : Nat := bytesToNat (memRead m a n)

/-- An F32 word written. -/
def putF32 (m : Memory) (a x : Nat) : Memory := memWrite m a (natToBytes 4 x)

/-- Stored element (i, j) of a view at an address (11 R302). -/
def TView.get (v : TView) (m : Memory) (base i j : Nat) : Nat :=
  let w := elemBits v.fmt
  let a := base + i * v.pitch + j * w / 8
  if w = 4 then (memGet m a).toNat / 16 ^ (j % 2) % 16 else memNum m a (w / 8)

/-- Stored element (i, j) written. -/
def TView.put (v : TView) (m : Memory) (base i j x : Nat) : Memory :=
  let w := elemBits v.fmt
  let a := base + i * v.pitch + j * w / 8
  if w = 4 then
    let b := (memGet m a).toNat
    memPut m a (BitVec.ofNat 8 (if j % 2 = 0 then b / 16 * 16 + x % 16 else x % 16 * 16 + b % 16))
  else memWrite m a (natToBytes (w / 8) x)

/-- Logical element (i, j) of a view (11 R302). -/
def TView.elem (v : TView) (m : Memory) (base i j : Nat) : Nat := if v.trans then v.get m base j i else v.get m base i j

/-- The pairs of a rectangle, row by row. -/
def grid (r c : Nat) : List (Nat × Nat) := (List.range r).flatMap (fun i => (List.range c).map (fun j => (i, j)))

/-! ### Scales (11 R306, R307) -/

/-- Rows and columns of an operand that one scale covers. -/
def scaleBlock (smode : Nat) (weights : Bool) : Nat × Nat :=
  match smode, weights with
  | 1, false => (1, 128) | 1, true => (128, 128) | 2, _ => (32, 32) | _, false => (1, 32) | _, true => (32, 1)

/-- ILLLAYOUT details of an operand of `r` × `c` logical elements with its scale tile. -/
def scaleFails (scratch : Nat) (v : TView) (x : DWord) (weights : Bool) : List Nat :=
  if v.smode = 0 then []
  else
    let t := viewOf x
    let b := scaleBlock v.smode weights
    let want := (ceilDiv v.dims.1 b.1, ceilDiv v.dims.2 b.2)
    let want := if v.trans then (want.2, want.1) else want
    (if v.trans && (v.smode = 3 || (v.smode = 1 && !weights)) then [0x53] else []) ++ viewFails scratch x false false ++
    (if t.fmt ≠ (if v.smode = 1 then 0 else 6) || (t.rows, t.cols) ≠ want then [0x56] else [])

/-- The scales of an operand by logical block, row by row, and the blocks of a row. -/
def scalesOf (m : Memory) (v : TView) (t : TView) (base : Nat) (weights : Bool) : List Nat × Nat :=
  if v.smode = 0 then ([], 1)
  else
    let b := scaleBlock v.smode weights
    let nr := ceilDiv v.dims.1 b.1
    let nc := ceilDiv v.dims.2 b.2
    ((grid nr nc).map (fun x => if v.trans then t.get m base x.2 x.1 else t.get m base x.1 x.2), nc)

/-- The scale of an element of an operand. -/
def scaleAt (sc : List Nat × Nat) (smode : Nat) (weights : Bool) (i j : Nat) : Nat :=
  let b := scaleBlock smode weights
  sc.1.getD (i / b.1 * sc.2 + j / b.2) 0

/-! ### Products (11 R308 to R310) -/

/-- A product term: exact, with the two block-scale bytes of Q32 and V32. -/
def matTerm (x y : FV) (sc : Option (Nat × Nat)) : FV :=
  match sc with
  | none => FV.mul x y
  | some (ea, ew) => if ea = 0xFF || ew = 0xFF then .nan else (FV.mul x y).scale ((ea + ew : Nat) - 254)

/-- A term cut toward zero to a multiple of 2^q, in units of 2^q, and whether bits were dropped. -/
def cutTerm (t : FV) (q : Int) : Int × Bool :=
  match t with
  | .num n m e _ =>
    let x : Nat := if q ≤ e then m * 2 ^ (e - q).toNat else m / 2 ^ (q - e).toNat
    (if n then -(x : Int) else x, decide (e < q) && decide (m % 2 ^ (q - e).toNat ≠ 0))
  | _ => (0, false)

/-- The exponent of a nonzero term. -/
def termTop (t : FV) : Option Int :=
  match t with | .num _ m e _ => if m = 0 then none else some (e + (bitLen m : Int) - 1) | _ => none

/-- chunk_sum (11 R309), and whether its window dropped a nonzero bit. -/
def chunkSum (ts : List FV) : Nat × Bool :=
  if ts.any FV.isNan || (ts.contains (.inf false) && ts.contains (.inf true)) then (0x7FC00000, false)
  else if ts.contains (.inf false) then (0x7F800000, false)
  else if ts.contains (.inf true) then (0xFF800000, false)
  else
    match ts.filterMap termTop with
    | [] => (if ts.all FV.neg then 0x80000000 else 0, false)
    | e :: es =>
      let q := es.foldl max e - 62
      let cs := ts.map (fun t => cutTerm t q)
      (acadRound (ofInt .rne (cs.foldl (fun n x => n + x.1) 0) q), cs.any (·.2))

/-- Limits of a weight format (11 R304): K, N, chunk length; none when it is no weight format. -/
def weightClass (fmt : Nat) : Option (Nat × Nat × Nat) :=
  match fmt with
  | 3 | 4 => some (128, 256, 128) | 5 => some (256, 256, 128) | 1 | 2 => some (128, 128, 16) | _ => none

/-- A 16-bit format. -/
def fmt16 (fmt : Nat) : Bool := fmt == 1 || fmt == 2

/-- The activation format and scale mode go with the weights' (11 R305). -/
def pairingOk (w : Nat) (wsm a asm : Nat) : Bool := fmt16 w == fmt16 a && wsm == asm && (!fmt16 w || wsm == 0)

/-- An activation as it enters the array. -/
structure Activation where
  fmt : Nat
  smode : Nat
  m : Nat
  k : Nat
  elems : List Nat
  scales : List Nat × Nat
  deriving DecidableEq, Repr, Inhabited

/-- The accumulator of element (i, j) after every chunk (11 R310): main, residual, chunks whose window dropped a bit. -/
def mmaElem (a : Activation) (w : Latch) (i j : Nat) (res : Bool) (acc0 res0 : Nat) : Nat × Nat × Nat :=
  let len := ((weightClass w.fmt).map (fun x => x.2.2)).getD 128
  let wsc (k : Nat) : Nat := scaleAt (w.scales, w.scaleCols) w.smode true k j
  let asc (k : Nat) : Nat := scaleAt a.scales a.smode false i k
  let term (k : Nat) : FV :=
    matTerm (decodeF (fmtOf a.fmt) (a.elems.getD (i * a.k + k) 0)) (decodeF (fmtOf w.fmt) (w.weights.getD (k * w.n + j) 0))
      (if 2 ≤ a.smode then some (asc k, wsc k) else none)
  (List.range (ceilDiv a.k len)).foldl (fun (st : Nat × Nat × Nat) c =>
    let ks := (List.range (min len (a.k - c * len))).map (fun x => c * len + x)
    let sum := chunkSum (ks.map term)
    let sv := if a.smode = 1 then rneMul (rneMul sum.1 (asc (c * len))) (wsc (c * len)) else sum.1
    let t := st.2.2 + (if sum.2 then 1 else 0)
    if res then
      let x := twoSum .f32 st.1 sv
      (x.1, rneAdd st.2.1 x.2, t)
    else (rneAdd st.1 sv, st.2.1, t)) (acc0, res0, 0)

/-- Bytes from a region's main elements to its residual (11 R303). -/
def resOffset (m n : Nat) : Nat := roundUp (4 * m * n) 128

/-- Bytes of a region. -/
def regionBytes (m n : Nat) (res : Bool) : Nat := if res then resOffset m n + 4 * m * n else 4 * m * n

/-- The accumulator region after a product (11 R310): the memory, and the number of cut chunks. -/
def mmaRegion (mem : Memory) (base : Nat) (a : Activation) (w : Latch) (res init : Bool) : Memory × Nat :=
  let q := resOffset a.m w.n
  (grid a.m w.n).foldl (fun (st : Memory × Nat) x =>
    let p := base + 4 * (x.1 * w.n + x.2)
    let r := mmaElem a w x.1 x.2 res (if init then 0 else memNum st.1 p 4) (if init then 0 else memNum st.1 (p + q) 4)
    let m1 := putF32 st.1 p r.1
    (if res then putF32 m1 (p + q) r.2.1 else m1, st.2 + r.2.2)) (mem, 0)

/-! ### Factorisation and solve (11 R334 to R337) -/

/-- What a factorisation or solve has done so far. -/
structure SolveSt where
  mem : Memory
  perm : List Nat
  flag : Nat
  ovf : Bool
  nan : Bool
  deriving DecidableEq, Repr, Inhabited

/-- A magnitude's order key; a NaN is above every number. -/
def magKey (x : Nat) : Nat := if (decodeF .f32 x).isNan then 2 ^ 32 else x % 2 ^ 31

/-- rne32 of a quotient. -/
def rneDiv (a b : Nat) : Nat := acadRound (FV.div (decodeF .f32 a) (decodeF .f32 b))

/-- rne32 of x - l * y, fused. -/
def rneFms (x l y : Nat) : Nat :=
  acadRound (FV.add .rne (decodeF .f32 x) (FV.mul (decodeF .f32 l) (decodeF .f32 y)).negate)

/-- A result written. -/
def SolveSt.put (st : SolveSt) (a x : Nat) : SolveSt :=
  { st with mem := putF32 st.mem a x, nan := st.nan || (decodeF .f32 x).isNan }

/-- Two rows of `c` words exchanged. -/
def swapRows (m : Memory) (base c i k : Nat) : Memory :=
  if i = k then m
  else
    let ri := memRead m (base + 4 * c * i) (4 * c)
    let rk := memRead m (base + 4 * c * k) (4 * c)
    memWrite (memWrite m (base + 4 * c * i) rk) (base + 4 * c * k) ri

/-- TAU of `%pivot`; minus zero counts as zero (11 R334). -/
def pivotTau (x : DWord) : Nat := let t := bits x.toNat 63 32; if t = 2 ^ 31 then 0 else t

/-- TAU is not allowed (11 R334). -/
def badTau (x : DWord) : Bool := let t := pivotTau x; !finite32 t || 2 ^ 31 ≤ t

/-- Step k of MFCT (11 R336). -/
def fctStep (base n : Nat) (pv : DWord) (st : SolveSt) (k : Nat) : SolveSt :=
  let at_ (i j : Nat) : Nat := base + 4 * (i * n + j)
  let rest := (List.range (n - k)).map (fun x => k + x)
  let rd (m : Memory) (i j : Nat) : Nat := memNum m (at_ i j) 4
  let key (i : Nat) : Nat := magKey (rd st.mem i k)
  let r := if pv.getLsbD 2 then rest.foldl (fun best i => if key best < key i then i else best) k else k
  let m1 := swapRows st.mem base n k r
  let colmax := rest.foldl (fun b i => max b (magKey (rd m1 i k))) 0
  let tau := pivotTau pv
  let thr := if tau = 0 then 0 else if colmax = 2 ^ 32 then 0x7FC00000 else rneMul tau colmax
  let p := rd m1 k k
  let small := magKey p ≠ 2 ^ 32 && magKey thr ≠ 2 ^ 32 && decide (magKey p ≤ thr)
  let sg := p / 2 ^ 31 * 2 ^ 31
  let p' := if pv.getLsbD 0 then 0x7FC00000 else sg + (if thr = 0 then 0x00800000 else thr)
  let st1 : SolveSt := { st with mem := m1, perm := st.perm.set k r }
  let st2 := if small then { st1 with flag := st1.flag + 2 ^ k }.put (at_ k k) p' else st1
  let pk := if small then p' else p
  (rest.filter (fun i => k < i)).foldl (fun (st : SolveSt) i =>
    let x := rd st.mem i k
    let l := rneDiv x pk
    let st3 := { st with ovf := st.ovf || (l % 2 ^ 31 == 0x7F800000 && finite32 x && finite32 pk) }.put (at_ i k) l
    (rest.filter (fun j => k < j)).foldl (fun (st : SolveSt) j =>
      st.put (at_ i j) (rneFms (rd st.mem i j) l (rd st.mem k j))) st3) st2

/-- MFCT (11 R336). -/
def factor (m : Memory) (base n : Nat) (pv : DWord) : SolveSt :=
  (List.range n).foldl (fctStep base n pv) { mem := m, perm := List.range 64, flag := 0, ovf := false, nan := false }

/-- MTRS (11 R337). -/
def solve (m : Memory) (fb bb n r : Nat) (up : Bool) (perm : Option (List Nat)) : SolveSt :=
  let f (m : Memory) (i j : Nat) : Nat := memNum m (fb + 4 * (i * n + j)) 4
  let ba (i j : Nat) : Nat := bb + 4 * (i * r + j)
  let b (m : Memory) (i j : Nat) : Nat := memNum m (ba i j) 4
  let m1 := match perm with
    | none => m
    | some ps => (List.range n).foldl (fun m k => if ps.getD k 64 < n then swapRows m bb r k (ps.getD k 64) else m) m
  let st0 : SolveSt := { mem := m1, perm := [], flag := 0, ovf := false, nan := false }
  let cols := List.range r
  let elim (st : SolveSt) (k i : Nat) : SolveSt :=
    cols.foldl (fun (st : SolveSt) j => st.put (ba i j) (rneFms (b st.mem i j) (f st.mem i k) (b st.mem k j))) st
  if !up then
    (List.range n).foldl (fun (st : SolveSt) k =>
      ((List.range n).filter (fun i => k < i)).foldl (fun (st : SolveSt) i => elim st k i) st) st0
  else
    (List.range n).reverse.foldl (fun (st : SolveSt) k =>
      let st1 := if f st.mem k k % 2 ^ 31 = 0 then { st with flag := st.flag + 2 ^ k } else st
      let st2 := cols.foldl (fun (st : SolveSt) j =>
        let x := b st.mem k j
        let d := f st.mem k k
        let y := rneDiv x d
        { st with ovf := st.ovf || (y % 2 ^ 31 == 0x7F800000 && finite32 x && finite32 d) }.put (ba k j) y) st1
      (List.range k).foldl (fun (st : SolveSt) i => elim st k i) st2) st0

/-- FLAG and STAT of a status record: bytes 0x40 to 0x7F (11 R335). -/
def SolveSt.status (st : SolveSt) : List Byte :=
  natToBytes 8 st.flag ++ natToBytes 0x38 ((if st.nan then 2 else 0) + (if st.ovf then 1 else 0))

/-! ### Block scales (11 R323) -/

/-- The exponent of the scale of a block whose largest magnitude is given. -/
def blockExp (emax : Int) (vs : List FV) : Int :=
  if vs.any (fun v => v == .inf false || v == .inf true) then 127
  else
    match vs.filterMap termTop with
    | [] => -127
    | e :: es => clampI (es.foldl max e - emax) (-127) 127

end Sys2Proof.Machine
end

