-- ==== Sys2Proof/Machine/Matrix.lean ====
section
/-! DEFINITION. The matrix engine (11): issue and its checks (R316), acceptance (R312), performing and completion (R313),
gangs and the lift line (R327 to R330), the power budget (R332). -/

namespace Sys2Proof.Machine

open Sys2Proof

/-! ### The engine of a core -/

/-- A matrix engine at rest; partition 3 served last, so partition 0 comes first (log 12). -/
def MatEng.idle : MatEng :=
  { waiting := [], accepted := [], lastPart := 3, toggles := 0, window := 0, prevRow := 0, lastLatch := none }

/-- The matrix engine of a core. -/
def State.mat (s : State) (c : CoreRef) : MatEng := s.mats.getD c MatEng.idle

/-- A matrix engine replaced. -/
def State.setMat (s : State) (c : CoreRef) (m : MatEng) : State := { s with mats := s.mats.set c m }

/-- The tile operand of an F-T word. -/
def tileOf (i : Instr) : Option OpT :=
  match i with
  | .tld o | .tst o | .tzro o | .tzroAcc o | .tmvv o | .tmvvAcc o | .tmvt o | .tmvtAcc o | .ttrn o | .tscl o | .wld o
  | .ald o | .ast o | .mma o | .mmag o | .mfct o | .mtrs o => some o
  | _ => none

/-- The operation is an MMAG. -/
def isMmag (i : Instr) : Bool := match i with | .mmag _ => true | _ => false

/-- The operation is a WLD. -/
def isWld (i : Instr) : Bool := match i with | .wld _ => true | _ => false

/-! ### Memory rows of TLD, TST, ALD and AST (11 R318, R319) -/

/-- Rows of the memory side and their bytes; none for an operation without one. -/
def MatOp.memShape (o : MatOp) : Option (OpT × Nat × Nat) :=
  let plain (q : OpT) (v : TView) : Option (OpT × Nat × Nat) := some (q, v.rows, v.rowBytes)
  let shaped (q : OpT) : Option (OpT × Nat × Nat) :=
    let v := viewOf o.va
    some (q, if q.res then 2 * v.rows else v.rows, v.rowBytes)
  match o.ins with
  | .tld q => plain q (viewOf o.vd)
  | .tst q => plain q (viewOf o.va)
  | .ald q | .ast q => shaped q
  | _ => none

/-- The first byte of row i of the memory side: a scratchpad offset with SP = 1, else a global address. -/
def MatOp.row (o : MatOp) (sp : Bool) (i : Nat) : Nat :=
  let a := o.base.toNat + i * o.stride.toNat
  if sp then a else a % 2 ^ 56

/-- The operation stores its memory side. -/
def MatOp.stores (o : MatOp) : Bool := match o.ins with | .tst _ | .ast _ => true | _ => false

/-- The global ranges of the memory side. -/
def MatOp.farRanges (o : MatOp) : List (Nat × Nat) :=
  match o.memShape with
  | some (q, rows, n) => if q.sp then [] else (List.range rows).map (fun i => (o.row false i, n))
  | none => []

/-- A byte of each line that the global ranges lie in. -/
def MatOp.farAddrs (o : MatOp) : List Nat :=
  o.farRanges.flatMap (fun r => r.1 :: ((List.range (r.2 / 128 + 1)).map (fun i => (r.1 / 128 + 1 + i) * 128)).filter (· < r.1 + r.2))

/-- Scratchpad ranges of the block that the operation reads (10 R284): its views there and an SP source. -/
def MatOp.reads (o : MatOp) : List (Nat × Nat) :=
  let view (x : DWord) : List (Nat × Nat) :=
    let v := viewOf x
    if v.spad then (List.range v.rows).map (fun i => (v.off + i * v.pitch, v.rowBytes)) else []
  let scaled (x sc : DWord) : List (Nat × Nat) := view x ++ (if (viewOf x).smode = 0 then [] else view sc)
  match o.ins with
  | .tld q | .ald q =>
    match o.memShape with
    | some (_, rows, n) => if q.sp then (List.range rows).map (fun i => (o.row true i, n)) else []
    | none => []
  | .tst _ | .ttrn _ | .tscl _ => view o.va
  | .tmvv q => let v := viewOf o.va; if v.spad then [(v.off + 128 * q.line, 128 * q.nreg)] else []
  | .wld _ | .mma _ | .mmag _ => scaled o.va o.vs
  | .mtrs q => let v := viewOf o.vb; if q.perm && v.spad then [(v.off, 64)] else []
  | _ => []

/-- The window chunks that the operation touches; the activation of an MMAG is read by position 0 alone (11 R329). -/
def State.matTouches (s : State) (o : MatOp) : List ((CoreRef × Nat) × Nat) :=
  let pos := match s.group? o.g with | some g => bits g.sp.gang.toNat 60 58 | none => 0
  if isMmag o.ins && pos ≠ 0 then [] else
  (o.reads.flatMap (fun r =>
    let offs := r.1 :: ((List.range (r.2 / 512 + 1)).map (fun i => (r.1 / 512 + 1 + i) * 512)).filter (· < r.1 + r.2)
    offs.filterMap (fun a => s.windowAt o.g.coreRef o.lid o.blk a))).dedup

/-! ### Checks at issue (11 R316) -/

/-- The place of the k-th waiting operation of a partition in the order of acceptance: round robin from the partition after
the one served last (11 R312). -/
def MatEng.rank (m : MatEng) (p k : Nat) : Nat := 4 * k + (p + 3 - m.lastPart) % 4

/-- The waiting operations in the order in which they will be accepted, with their places; later ones of other partitions may
come between them. -/
def MatEng.order (m : MatEng) : List (Nat × MatOp) :=
  sortBy (fun (x y : Nat × MatOp) => x.1 ≤ y.1) ((m.waiting.zipIdx).map (fun x =>
    (m.rank x.1.p (((m.waiting.take x.2).filter (fun y => y.p = x.1.p)).length), x.1)))

/-- The place that a partition's next operation would take. -/
def MatEng.nextRank (m : MatEng) (p : Nat) : Nat := m.rank p ((m.waiting.filter (fun y => y.p = p)).length)

/-- FMT, SMODE, K and N of the latch as the last WLD of the block that is accepted before a new operation of partition p
leaves them; none when it is empty (11 R316). -/
def State.latchShape (s : State) (c : CoreRef) (p lid blk : Nat) : Option (Nat × Nat × Nat × Nat) :=
  let m := s.mat c
  let ahead := (m.order.filter (fun x => x.1 < m.nextRank p)).map (·.2)
  match ((m.accepted ++ ahead).filter (fun o => o.lid = lid && o.blk = blk && isWld o.ins)).getLast? with
  | some o => let v := viewOf o.va; some (v.fmt, v.smode, v.dims.1, v.dims.2)
  | none =>
    match (s.block? lid blk).bind (·.latch) with
    | some l => some (l.fmt, l.smode, l.k, l.n)
    | none => none

/-- Rows or bytes of accumulator memory beyond the held blocks. -/
def pastAcc (r : LaunchRec) (acc bytes : Nat) : List Nat := if r.accb * 0x8000 < acc * 0x8000 + bytes then [0x57] else []

/-- ILLLAYOUT details of an operation (11 R302 to R306, R318 to R325, R335 to R337). -/
def State.layoutFails (s : State) (o : MatOp) (r : LaunchRec) : List Nat :=
  let chk (x : DWord) (tr sh : Bool) : List Nat := viewFails r.scratch x tr sh
  let vd := viewOf o.vd
  let va := viewOf o.va
  let vs := viewOf o.vs
  let bad (b : Bool) (d : Nat) : List Nat := if b then [d] else []
  match o.ins with
  | .tld _ => chk o.vd false false
  | .tst _ => chk o.va false false
  | .tzro _ => chk o.vd false false
  | .tzroAcc q => bad (r.accb < q.acc.toNat + q.nblk) 0x57
  | .tmvv q => chk o.va false false ++ bad (va.ext < 128 * (q.line + q.nreg)) 0x51
  | .tmvt q => chk o.vd false false ++ bad (vd.ext < 128 * (q.line + q.nreg)) 0x51
  | .tmvvAcc q | .tmvtAcc q => pastAcc r q.acc.toNat (128 * (q.line + q.nreg))
  | .ttrn _ =>
    chk o.va false false ++ chk o.vd false false ++ bad (va.fmt ≠ vd.fmt) 0x50 ++
      bad ((va.rows, va.cols) ≠ (vd.cols, vd.rows)) 0x52
  | .tscl _ =>
    chk o.va false false ++ chk o.vd false false ++ chk o.vs false false ++ bad (3 ≤ va.fmt) 0x50 ++
      bad (vd.fmt < 3 || 6 ≤ vd.fmt) 0x50 ++ bad ((va.rows, va.cols) ≠ (vd.rows, vd.cols)) 0x52 ++
      bad (vs.fmt ≠ 6 || (vs.rows, vs.cols) ≠ (ceilDiv va.rows 32, ceilDiv va.cols 32)) 0x56
  | .wld _ =>
    chk o.va true false ++
    (match weightClass va.fmt with
     | none => [0x50]
     | some (k, n, _) => bad (k < va.dims.1 || n < va.dims.2) 0x55 ++ bad (fmt16 va.fmt && va.smode ≠ 0) 0x54) ++
    scaleFails r.scratch va o.vs true
  | .ald q => chk o.va false true ++ bad (3 ≤ va.fmt) 0x50 ++ pastAcc r q.acc.toNat (regionBytes va.rows va.cols q.res)
  | .ast q =>
    chk o.va false true ++ bad (5 ≤ va.fmt || (mbit q.m 1 && va.fmt ≠ 3)) 0x50 ++
      pastAcc r q.acc.toNat (regionBytes va.rows va.cols q.res)
  | .mma q | .mmag q =>
    chk o.va true false ++ bad (va.fmt = 0 || va.fmt = 6) 0x50 ++
    (match s.latchShape o.g.coreRef o.p o.lid o.blk with
     | none => [0x55]
     | some (f, sm, k, n) =>
       bad (va.dims.2 ≠ k) 0x52 ++ bad (!pairingOk f sm va.fmt va.smode) 0x54 ++
       pastAcc r q.acc.toNat (regionBytes va.dims.1 n q.res)) ++
    scaleFails r.scratch va o.vs false
  | .mfct q => chk o.vd false false ++ bad (vd.ext < 128) 0x51 ++ pastAcc r q.acc.toNat (4 * q.n * q.n)
  | .mtrs q =>
    chk o.vd false false ++ bad (vd.ext < 128) 0x51 ++
    (if q.perm then chk o.vb false false ++ bad ((viewOf o.vb).ext < 64) 0x51 else []) ++
    pastAcc r q.acc.toNat (4 * q.n * q.n) ++ pastAcc r q.bblk (4 * q.n * q.r)
  | _ => []

/-- Alignment and reach of the memory side (11 R318). -/
def memFail (o : MatOp) (r : LaunchRec) : Option Cause :=
  match o.memShape with
  | none => none
  | some (q, rows, n) =>
    let last := o.base.toNat + (rows - 1) * o.stride.toNat + n
    if o.base.toNat % 16 ≠ 0 || o.stride.toNat % 16 ≠ 0 then some .misalign
    else if q.sp then (if r.scratch < last then some .access else none)
    else if !globalVa o.base.toNat || !globalVa ((last - 1) % 2 ^ 64) then some .access
    else none

/-- A word whose operand has no scale mode names no scale tile (11 R306, 02 R43). -/
def scaleNamed (o : MatOp) : Bool :=
  match o.ins with
  | .wld q | .mma q | .mmag q => (viewOf o.va).smode ≠ 0 || q.ts == 0
  | _ => true

/-- The checks of R316 after those an instruction states itself, the first failure deciding; of several ILLLAYOUT
conditions the one of the lowest DETAIL. -/
def State.matCheck (s : State) (o : MatOp) (r : LaunchRec) : Option (Cause × Nat) :=
  if !scaleNamed o then some (.illop, 0)
  else
    match s.layoutFails o r with
    | d :: ds => some (.illlayout, ds.foldl min d)
    | [] =>
      match memFail o r with
      | some c => some (c, 0)
      | none => if (s.matTouches o).any (fun t => (s.region t.1).lost t.2) then some (.chunkabort, 0) else none

/-! ### Issue -/

/-- The operation that a slot hands to the engine, with everything it samples. -/
def Ctx.matOp (c : Ctx) (i : Instr) (o : OpT) : MatOp :=
  let b := c.s0.blockOf c.g
  let tc (n : BitVec 4) : DWord := c.g.sp.tc.getD n.toNat 0
  { id := 0, g := c.r, p := partOf c.r, ins := i, lid := c.g.lid, blk := c.g.blk, batch := 0, mask := c.sp.mask,
    base := c.k o.kb, stride := c.k o.ks, vd := tc o.td, va := tc o.ta, vb := tc o.tb, vs := tc o.ts,
    rmode := c.g.sp.rmode, seed := c.g.sp.seed, pivot := c.g.sp.pivot, lam0 := lambdaOf c.s0 c.g 0,
    budget := bits c.g.sp.mbudget.toNat 31 16, vdata := [], gseq := bits c.g.sp.gang.toNat 47 40, lifted := false,
    cancelled := false, todo := none, asid := c.s0.asidOf c.g, scratchBase := (b.map (·.scratchBase)).getD 0,
    tileBase := (b.map (·.tileBase)).getD 0, accBase := (b.map (·.accBase)).getD 0 }

/-- A WLD whose turn would come before that of a product of its block that waits and was checked already: it waits at its
slot, so that the product meets the latch it was checked against (11 R312, R316; log 68). -/
def State.wldHeld (s : State) (o : MatOp) : Bool :=
  let m := s.mat o.g.coreRef
  isWld o.ins && m.order.any (fun x => m.nextRank o.p < x.1 && x.2.lid = o.lid && x.2.blk = o.blk &&
    (match x.2.ins with | .mma _ | .mmag _ => true | _ => false))

/-- The fills of the windows that an operation touches begin (10 R284). -/
def State.matTouch (s : State) (o : MatOp) : State := (s.matTouches o).foldl (fun (s : State) t => s.touchFill t.1 t.2) s

/-- THE ISSUE OF AN ENGINE OPERATION (11 R312, R313, R316): its checks, its touches (10 R284), the release of its sources at die
scope (03 R75), its place in the group's open batch and in `mat`. -/
def issueMat (i : Instr) (o : OpT) (rds : List Rd) (dsts : List Nat) (pre : Ctx → Option (Cause × Nat))
    (sample : Ctx → MatOp → MatOp) (post : Ctx → Nat → State → State) (s : State) : Out :=
  slot s o.g rds dsts (fun c =>
    if 65535 ≤ c.g.ctr.mat then .block c.s0 .room
    else
      let op := sample c (c.matOp i o)
      match pre c with
      | some (ca, d) => .trap ca d
      | none =>
        match c.s0.matCheck op (c.s0.recOf c.g) with
        | some (ca, d) => .trap ca d
        | none =>
          if c.s0.wldHeld op || !(op.stores || c.s0.sourcesDone c.r false op.farRanges c.s0.nextId) then .block c.s0 .room
          else
            let core := c.r.coreRef
            let s1 := if op.stores || op.farRanges = [] then c.s
              else c.s.releaseAt core op.asid 2 (some op.farRanges)
            let (id, s2) := (s1.matTouch op).fresh
            let j := c.g.mtl.join
            let s3 := s2.modGroup c.r (fun g => { g.incCtr 2 with mtl := j.2 })
            let m := s3.mat core
            .ok (post c id (s3.setMat core { m with waiting := m.waiting ++ [{ op with id := id, batch := j.1 }] })))

/-- The reads of a memory operand. -/
def memRds (o : OpT) : List Rd := [⟨true, o.kb, false, false⟩, ⟨true, o.ks, false, false⟩]

/-- The registers of a MOVE run. -/
def runOf (o : OpT) : List Nat := (List.range o.nreg).map (fun i => o.vreg + i)

/-- Nothing more is sampled. -/
def noSample (_ : Ctx) (o : MatOp) : MatOp := o

/-- Nothing more happens. -/
def noMore (_ : Ctx) (_ : Nat) (s : State) : State := s

/-- The mode of AST or TSCL is the reserved one (11 R311, 06 R175). -/
def matMode (o : OpT) (c : Ctx) : Option (Cause × Nat) :=
  if (c.mode (rndOf o.m)).isNone then some (.illop, 0x10) else none

/-- TLD. -/
def execTld (o : OpT) (s : State) : Out := issueMat (.tld o) o (memRds o) [] noCheck noSample noMore s
/-- TST. -/
def execTst (o : OpT) (s : State) : Out := issueMat (.tst o) o (memRds o) [] noCheck noSample noMore s
/-- TZRO. -/
def execTzro (o : OpT) (s : State) : Out := issueMat (.tzro o) o [] [] noCheck noSample noMore s
/-- TZRO.acc. -/
def execTzroAcc (o : OpT) (s : State) : Out := issueMat (.tzroAcc o) o [] [] noCheck noSample noMore s

/-- The destination of TMVV becomes empty in the split's lanes (11 R312, 01 R27); a mailbox register as a whole. -/
def markRun (o : OpT) (c : Ctx) (id : Nat) (s : State) : State :=
  if c.sp.mask = 0 then s
  else (runOf o).foldl (fun (s : State) n => s.modGroup c.r (fun g =>
    if s.isMbox g n then g.setV n { g.vreg n with full := false } else g.markV n c.sp.mask id)) s

/-- TMVV. -/
def execTmvv (o : OpT) (s : State) : Out := issueMat (.tmvv o) o [] (runOf o) noCheck noSample (markRun o) s
/-- TMVV.acc. -/
def execTmvvAcc (o : OpT) (s : State) : Out := issueMat (.tmvvAcc o) o [] (runOf o) noCheck noSample (markRun o) s

/-- TMVT reads its registers at issue (11 R312). -/
def sampleRun (o : OpT) (c : Ctx) (op : MatOp) : MatOp :=
  { op with vdata := (runOf o).map (fun n => (n, perLane (fun l => c.v n l))) }

/-- The reads of a run. -/
def runRds (o : OpT) : List Rd := (runOf o).map (fun n => ⟨false, n, false, false⟩)

/-- TMVT. -/
def execTmvt (o : OpT) (s : State) : Out := issueMat (.tmvt o) o (runRds o) [] noCheck (sampleRun o) noMore s
/-- TMVT.acc. -/
def execTmvtAcc (o : OpT) (s : State) : Out := issueMat (.tmvtAcc o) o (runRds o) [] noCheck (sampleRun o) noMore s
/-- TTRN. -/
def execTtrn (o : OpT) (s : State) : Out := issueMat (.ttrn o) o [] [] noCheck noSample noMore s
/-- TSCL. -/
def execTscl (o : OpT) (s : State) : Out := issueMat (.tscl o) o [] [] (matMode o) noSample noMore s
/-- WLD. -/
def execWld (o : OpT) (s : State) : Out := issueMat (.wld o) o [] [] noCheck noSample noMore s
/-- ALD. -/
def execAld (o : OpT) (s : State) : Out := issueMat (.ald o) o (memRds o) [] noCheck noSample noMore s
/-- AST. -/
def execAst (o : OpT) (s : State) : Out := issueMat (.ast o) o (memRds o) [] (matMode o) noSample noMore s

/-- MMA (11 R325). -/
def execMma (o : OpT) (s : State) : Out := issueMat (.mma o) o [] [] noCheck noSample noMore s

/-- GSEQ of `%gang` advanced. -/
def bumpGseq (x : DWord) : DWord :=
  let n := x.toNat
  BitVec.ofNat 64 (n - bits n 47 40 * 2 ^ 40 + (bits n 47 40 + 1) % 256 * 2 ^ 40)

/-- MMAG (11 R329). -/
def execMmag (o : OpT) (s : State) : Out :=
  issueMat (.mmag o) o [] [] (fun c => if gangSize c.g.sp.gang = 0 then some (.illop, 0x41) else none) noSample
    (fun c _ s => c.modSp s (fun sp => { sp with gang := bumpGseq sp.gang })) s

/-- MFCT (11 R336). -/
def execMfct (o : OpT) (s : State) : Out :=
  issueMat (.mfct o) o [] [] (fun c => if badTau c.g.sp.pivot then some (.illop, 0x40) else none) noSample noMore s
/-- MTRS (11 R337). -/
def execMtrs (o : OpT) (s : State) : Out := issueMat (.mtrs o) o [] [] noCheck noSample noMore s

/-- MFEN (11 R326). -/
def execMfen (o : OpS) (s : State) : Out :=
  slot s o.g [] [] (fun c => .ok (c.s.modGroup c.r (fun g => { g with mtl := g.mtl.close })))
/-- MFEN.num (11 R326). -/
def execMfenNum (o : OpS) (s : State) : Out :=
  slot s o.g [] [] (fun c =>
    .ok (c.putK (c.s.modGroup c.r (fun g => { g with mtl := g.mtl.close })) (dstNum o.d) (BitVec.ofNat 64 (c.g.mtl.closed + 1))))
/-- MEST.rd (11 R333). -/
def execMestRd (o : OpS) (s : State) : Out :=
  slot s o.g [] [] (fun c => .ok (c.putK c.s (dstNum o.d) (c.s0.mat c.r.coreRef).toggles))
/-- MEST.clr (11 R333). -/
def execMestClr (o : OpS) (s : State) : Out :=
  slot s o.g [] [] (fun c =>
    let m := c.s.mat c.r.coreRef
    .ok (c.s.setMat c.r.coreRef { m with toggles := 0 }))

/-! ### Gangs (11 R327, R328) -/

/-- The die columns of a gang list from position 0 to the first invalid entry. -/
def gangCols_ (list : Nat) : List Nat :=
  let e (p : Nat) : Nat := bits list (4 * p + 3) (4 * p)
  ((List.range 6).takeWhile (fun p => 8 ≤ e p)).map (fun p => e p % 8)

/-- BADLIST (11 R328). -/
def badGang (ka : DWord) (core : Nat) : Bool :=
  let n := ka.toNat
  let cols := gangCols_ n
  let later := (List.range 6).any (fun p => decide (cols.length ≤ p) && 8 ≤ bits n (4 * p + 3) (4 * p))
  cols.length < 2 || cols.dedup.length ≠ cols.length || !cols.contains (core % 8) || later || bits n 63 24 ≠ 0

/-- The ring port of a core is taken. -/
def State.ringBusy (s : State) (c : CoreRef) : Bool :=
  !(s.ring.getD c []).isEmpty || s.gangs.any (fun w => w.g.coreRef = c && !w.dis)

/-- The split waits at the lift line, its k register empty until the answer. A register that an earlier access still fills is
waited for first, so that an abandoned instruction leaves it as it was (11 R328, R330). -/
def Ctx.gangWait (c : Ctx) (d : BitVec 9) (list : Nat) (dis : Bool) : SlotRes :=
  if !(c.g.kreg (dstNum d)).full then .block c.s0 (.empty true (dstNum d) Mask.all)
  else
    let (w, s1) := c.awaitK c.s (dstNum d)
    .block { s1 with gangs := s1.gangs ++ [{ toWaiter := w, list := list, dis := dis }] } .reply

/-- GANG. -/
def execGang (o : OpS) (s : State) : Out :=
  slot s o.g (srcRds o.a) [] (fun c =>
    let ka := c.k o.a.kNum
    let kd (n : Nat) : SlotRes := .ok (c.putK c.s (dstNum o.d) (BitVec.ofNat 64 n))
    if badGang ka c.r.core then kd 1
    else if gangSize c.g.sp.gang ≠ 0 || c.s0.ringBusy c.r.coreRef then kd 2
    else c.gangWait o.d ka.toNat false)

/-- GANG.dis. -/
def execGangDis (o : OpS) (s : State) : Out :=
  slot s o.g [] [] (fun c =>
    if gangSize c.g.sp.gang = 0 then .ok (c.putK c.s (dstNum o.d) 1)
    else c.gangWait o.d (gangCols c.g.sp.gang) true)

/-- The cores of a gang list on a core's die row. -/
def gangCores (c : CoreRef) (list : Nat) : List CoreRef := (gangCols_ list).map (fun x => { c with core := c.core / 8 * 8 + x })

/-- A GANG or GANG.dis completes with a status. -/
def State.gangFinish (s : State) (w : GangWait) (status : Nat) (f : DWord → DWord) : State :=
  let s1 := s.modGroup w.g (fun g => { g with sp := { g.sp with gang := f g.sp.gang } })
  ({ s1 with gangs := s1.gangs.filter (fun x => x.id ≠ w.id) }).answer w.toWaiter (BitVec.ofNat 64 status)

/-- `%gang` of a member when the gang forms. -/
def gangJoin (list pos size : Nat) (old : DWord) : DWord :=
  (old &&& 0x0000000E00000000) ||| BitVec.ofNat 64 (size * 2 ^ 61 + pos * 2 ^ 58 + list)

/-- `%gang` of a member when the gang is dissolved. -/
def gangLeave (old : DWord) : DWord := old &&& 0x0000000E00000000

/-- GANG_RENDEZVOUS (11 R328): the gang forms, or is dissolved, once every member has issued the instruction. A GANG.dis
whose gang was dissolved by an exit answers 1. -/
def execGangRendezvous (c : CoreRef) (s : State) : Out :=
  match s.gangs.find? (fun w => w.g.coreRef = c) with
  | none => .next s
  | some w =>
    match s.group? w.g with
    | none => .next s
    | some g =>
      if w.dis then
        if gangSize g.sp.gang = 0 then .next (s.gangFinish w 1 id)
        else
          let ms := s.gangMembers g
          let ws := s.gangs.filter (fun x => x.dis && ms.contains x.g)
          if ms.all (fun r => ws.any (fun x => x.g = r)) then
            let s1 := ws.foldl (fun (s : State) x => s.gangFinish x 0 gangLeave) s
            .next { s1 with ring := s1.ring.map (fun x => (x.1, x.2.filter (fun r => !ms.contains r))) }
          else .next s
      else
        let ws := (gangCores c w.list).map (fun k => s.gangs.find? (fun x =>
          x.g.coreRef = k && !x.dis && x.list = w.list && (match s.group? x.g with | some y => y.lid == g.lid | none => false)))
        if ws.all Option.isSome then
          let ms := ws.filterMap id
          .next ((ms.zipIdx).foldl (fun (s : State) x =>
            let s1 := s.gangFinish x.1 0 (gangJoin w.list x.2 ms.length)
            { s1 with ring := s1.ring.set x.1.g.coreRef [x.1.g] }) s)
        else .next s

/-! ### Acceptance (11 R312) -/

/-- MAT_OP_ACCEPT: the first waiting operation of the next partition in turn; windows bound since its issue are touched now
(10 R284), and what it reaches on pages of deadline class is of that class (14 R416). -/
def execMatOpAccept (c : CoreRef) (s : State) : Out :=
  let m := s.mat c
  match (List.range 4).findSome? (fun i => m.waiting.find? (fun o => o.p = (m.lastPart + 1 + i) % 4)) with
  | none => .next s
  | some o =>
    let s1 := s.setMat c { m with waiting := m.waiting.filter (fun x => x.id ≠ o.id), accepted := m.accepted ++ [o], lastPart := o.p }
    .next (((s1.matTouch o).count c 7 0).dlEnter (.mat c o.id) (s.dlCtls c.die o.asid false o.farAddrs))

/-! ### The power budget (11 R332) -/

/-- The bits of a row that enters the array: its elements from bit 0 upward. -/
def rowBits (w : Nat) (xs : List Nat) : Nat := xs.foldr (fun x n => x % 2 ^ w + 2 ^ w * n) 0

/-- Bits in which two rows differ. -/
def bitDiff (x y : Nat) : Nat :=
  let d := x ^^^ y
  (List.range (bitLen d)).foldl (fun n i => if d.testBit i then n + 1 else n) 0

/-- A row enters the array: its toggles are counted, in a new window when the budget asks for it; the number of waits. -/
def MatEng.enter (m : MatEng) (budget row : Nat) : MatEng × Nat :=
  let t := bitDiff m.prevRow row
  let wait := budget ≠ 0 && m.window ≠ 0 && 1024 * budget < m.window + t
  ({ m with toggles := m.toggles + BitVec.ofNat 64 t, window := (if wait then 0 else m.window) + t, prevRow := row },
   if wait then 1 else 0)

/-- Rows enter the array. The idle cycles that THROTTLE counts are timing: a free value for each wait (log 6). -/
def State.streamRows (s : State) (c : CoreRef) (budget : Nat) (rows : List Nat) : State :=
  let r := rows.foldl (fun (x : MatEng × Nat) row => let y := x.1.enter budget row; (y.1, x.2 + y.2)) (s.mat c, 0)
  let s1 := s.setMat c r.1
  if r.2 = 0 then s1 else s1.count c 7 3 (Config.freePick s.tick)

/-- THROTTLE_WINDOW: a new window of 256 cycles starts (11 R332). -/
def execThrottleWindow (c : CoreRef) (s : State) : Out :=
  let m := s.mat c
  .next (if m.window = 0 then s else s.setMat c { m with window := 0 })

/-! ### Performing (11 R313, R318 to R325, R335 to R337) -/

/-- The block's storage is still its own: an ended block's data are discarded (01 R21). -/
def State.matLive (s : State) (o : MatOp) : Bool :=
  match s.block? o.lid o.blk with | some b => !b.closed | none => false

/-- On-chip storage after an operation. -/
def State.putChip (s : State) (o : MatOp) (m : Memory) : State := if s.matLive o then { s with onchip := m } else s

/-- A row of the memory side read. -/
def State.matRow (s : State) (o : MatOp) (sp : Bool) (i n : Nat) : List Byte :=
  if sp then memRead s.onchip (o.at 0 (o.row true i)) n else s.homeRead o.g.die o.asid (o.row false i) n

/-- A row of an SP store written. The rows of a global one change sector by sector (R315). -/
def State.putMatRow (s : State) (o : MatOp) (sp : Bool) (i : Nat) (bs : List Byte) : State :=
  if sp then s.putChip o (memWrite s.onchip (o.at 0 (o.row true i)) bs) else s

/-- The rounding control of element e of AST or TSCL (11 R311). -/
def State.matRnd (s : State) (o : MatOp) (q : OpT) (sat nof nanov : Bool) (e : Nat) : RndCtl :=
  let sel := if rndOf q.m = 0 then bits o.rmode.toNat 2 0 else rndOf q.m
  let md := (rmOf sel).getD .rne
  let u := if md = .sr then
      srBits (gen (srKey o.seed o.rmode) 3 (s.rndLid o.lid) (BitVec.ofNat 64 (o.lam0 * 2 ^ 24 ||| e)) (BitVec.ofNat 64 o.batch))
    else 0
  ⟨md, sat, o.rmode.getLsbD 4 && !nof, nanov, u⟩

/-- The activation of a product. -/
def MatOp.activation (o : MatOp) (ta ts : Nat) (m : Memory) : Activation :=
  let v := viewOf o.va
  let t := viewOf o.vs
  { fmt := v.fmt, smode := v.smode, m := v.dims.1, k := v.dims.2,
    elems := (grid v.dims.1 v.dims.2).map (fun x => v.elem m (o.viewAt v ta) x.1 x.2),
    scales := scalesOf m v t (o.viewAt t ts) false }

/-- A product on the operation's own region (11 R310), its rows entering its core's array; a reload is counted when the array
holds another block's weights (R304). -/
def State.product (s : State) (o : MatOp) (q : OpT) (a : Activation) : State :=
  match (s.block? o.lid o.blk).bind (·.latch) with
  | none => s
  | some w =>
    let c := o.g.coreRef
    let r := mmaRegion s.onchip (o.at 1 (q.acc.toNat * 0x8000)) a w q.res q.init
    let width := elemBits a.fmt
    let rows := (List.range a.m).map (fun i => rowBits width ((List.range a.k).map (fun k => a.elems.getD (i * a.k + k) 0)))
    let s1 := ((s.putChip o r.1).streamRows c o.budget rows).count c 7 1 a.m
    let m := s1.mat c
    let s2 := (s1.setMat c { m with lastLatch := some (o.lid, o.blk) }).count c 7 2 (if m.lastLatch = some (o.lid, o.blk) then 0 else 1)
    s2.count c 7 5 r.2

/-- The weights that a WLD latches (11 R324). -/
def MatOp.latch (o : MatOp) (ta ts : Nat) (m : Memory) : Latch :=
  let v := viewOf o.va
  let t := viewOf o.vs
  let sc := scalesOf m v t (o.viewAt t ts) true
  { fmt := v.fmt, smode := v.smode, k := v.dims.1, n := v.dims.2,
    weights := (grid v.dims.1 v.dims.2).map (fun x => v.elem m (o.viewAt v ta) x.1 x.2), scales := sc.1, scaleCols := sc.2 }

/-- Lines that a TMVV moves land in its registers (11 R321); a lane that has exited gets none (05 R153). -/
def State.landRun (s : State) (o : MatOp) (q : OpT) (base : Nat) : State :=
  ((runOf q).zipIdx).foldl (fun (s : State) x =>
    let a := base + 128 * (q.line + x.2)
    match s.group? o.g with
    | none => s
    | some g =>
      let m := o.mask &&& ~~~g.exited
      if s.isMbox g x.1 then
        s.mboxDeliver o.g x.1 (m.toLanes.flatMap (fun l => (List.range 4).map (fun i => (4 * l + i, memGet s.onchip (a + 4 * l + i)))))
      else s.modGroup o.g (fun g => g.landV x.1 m o.id (fun l => BitVec.ofNat 32 (memNum s.onchip (a + 4 * l) 4)))) s

/-- Lines that a TMVT moves: the bytes of the lanes of MASK. -/
def storeRun (o : MatOp) (q : OpT) (base : Nat) (m : Memory) : Memory :=
  (o.vdata.zipIdx).foldl (fun (m : Memory) x =>
    o.mask.toLanes.foldl (fun (m : Memory) l =>
      memWrite m (base + 128 * (q.line + x.2) + 4 * l) (natToBytes 4 (x.1.2.getD l 0).toNat)) m) m

/-- TSCL (11 R323). The source is read before anything is written. -/
def State.tscl (s : State) (o : MatOp) (q : OpT) : Memory :=
  let va := viewOf o.va
  let vd := viewOf o.vd
  let vs := viewOf o.vs
  let fd := fmtOf vd.fmt
  let emax : Int := match vd.fmt with | 3 => 8 | 4 => 15 | _ => 2
  let src (i j : Nat) : FV := decodeF (fmtOf va.fmt) (va.get s.onchip (o.viewAt va q.ta.toNat) i j)
  (grid (ceilDiv va.rows 32) (ceilDiv va.cols 32)).foldl (fun (m : Memory) b =>
    let cells := ((grid 32 32).map (fun x => (32 * b.1 + x.1, 32 * b.2 + x.2))).filter (fun x => x.1 < va.rows && x.2 < va.cols)
    let vals := cells.map (fun x => src x.1 x.2)
    let nan := vals.any FV.isNan
    let x := blockExp emax vals
    let m1 := vs.put m (o.viewAt vs q.ts.toNat) b.1 b.2 (if nan then 0xFF else (x + 127).toNat)
    cells.foldl (fun (m : Memory) y =>
      let e := if nan then fd.nan else (roundF fd (s.matRnd o q true false false (y.1 * va.cols + y.2)) ((src y.1 y.2).scale (-x))).b
      vd.put m (o.viewAt vd q.td.toNat) y.1 y.2 e) m1) s.onchip

/-- The memory address of a region's element e of 2M·N (11 R319): main elements first, then residual ones. -/
def regionElem (m n i j : Nat) : Nat := (if m ≤ i then resOffset m n else 0) + 4 * (i % m * n + j)

/-- ALD (11 R319). -/
def State.ald (s : State) (o : MatOp) (q : OpT) : State :=
  let v := viewOf o.va
  let w := elemBits v.fmt / 8
  (List.range (if q.res then 2 * v.rows else v.rows)).foldl (fun (s : State) i =>
    let bs := s.matRow o q.sp i v.rowBytes
    s.putChip o ((List.range v.cols).foldl (fun (m : Memory) j =>
      putF32 m (o.at 1 (q.acc.toNat * 0x8000 + regionElem v.rows v.cols i j))
        (acadRound (decodeF (fmtOf v.fmt) (bytesToNat ((bs.drop (w * j)).take w))))) s.onchip)) s

/-- Row i of what AST stores (11 R319). -/
def State.astRow (s : State) (o : MatOp) (q : OpT) (i : Nat) : List Byte :=
  let v := viewOf o.va
  let f := fmtOf v.fmt
  (List.range v.cols).flatMap (fun j =>
    let x := memNum s.onchip (o.at 1 (q.acc.toNat * 0x8000 + regionElem v.rows v.cols i j)) 4
    natToBytes (elemBits v.fmt / 8)
      (roundF f (s.matRnd o q (mbit q.m 3) (mbit q.m 2) (mbit q.m 1) (i * v.cols + j)) (decodeF .f32 x)).b)

/-- The rows that TST or AST stores. -/
def State.storeRows (s : State) (o : MatOp) : List (List Byte) :=
  match o.ins with
  | .tst q =>
    let v := viewOf o.va
    (List.range v.rows).map (fun i => memRead s.onchip (o.viewAt v q.ta.toNat + i * v.pitch) v.rowBytes)
  | .ast q =>
    let v := viewOf o.va
    (List.range (if q.res then 2 * v.rows else v.rows)).map (s.astRow o q)
  | _ => []

/-- The whole effect of an operation other than MMAG, performed at one point of the acceptance order (11 R312). -/
def State.perform (s : State) (o : MatOp) : State :=
  let c := o.g.coreRef
  let vd := viewOf o.vd
  let va := viewOf o.va
  let acc (q : OpT) : Nat := o.at 1 (q.acc.toNat * 0x8000)
  match o.ins with
  | .tld q =>
    (List.range vd.rows).foldl (fun (s : State) i =>
      s.putChip o (memWrite s.onchip (o.viewAt vd q.td.toNat + i * vd.pitch) (s.matRow o q.sp i vd.rowBytes))) s
  | .tst q | .ast q => ((s.storeRows o).zipIdx).foldl (fun (s : State) x => s.putMatRow o q.sp x.2 x.1) s
  | .tzro q => s.putChip o (memWrite s.onchip (o.viewAt vd q.td.toNat) (List.replicate vd.ext 0))
  | .tzroAcc q => s.putChip o (memWrite s.onchip (acc q) (List.replicate (q.nblk * 0x8000) 0))
  | .tmvv q => s.landRun o q (o.viewAt va q.ta.toNat)
  | .tmvvAcc q => s.landRun o q (acc q)
  | .tmvt q => s.putChip o (storeRun o q (o.viewAt vd q.td.toNat) s.onchip)
  | .tmvtAcc q => s.putChip o (storeRun o q (acc q) s.onchip)
  | .ttrn q =>
    let xs := (grid va.rows va.cols).map (fun x => (x, va.get s.onchip (o.viewAt va q.ta.toNat) x.1 x.2))
    s.putChip o (xs.foldl (fun (m : Memory) x => vd.put m (o.viewAt vd q.td.toNat) x.1.2 x.1.1 x.2) s.onchip)
  | .tscl q => s.putChip o (s.tscl o q)
  | .wld q =>
    let w := o.latch q.ta.toNat q.ts.toNat s.onchip
    let rows := (List.range w.k).map (fun k => rowBits (elemBits w.fmt) ((List.range w.n).map (fun j => w.weights.getD (k * w.n + j) 0)))
    let s1 := (s.modBlock o.lid o.blk (fun b => if b.closed then b else { b with latch := some w })).streamRows c o.budget rows
    let m := s1.mat c
    s1.setMat c { m with lastLatch := some (o.lid, o.blk) }
  | .ald q => s.ald o q
  | .mma q => s.product o q (o.activation q.ta.toNat q.ts.toNat s.onchip)
  | .mfct q =>
    let st := factor s.onchip (acc q) q.n o.pivot
    let flags := (List.range 64).foldl (fun n i => if st.flag.testBit i then n + 1 else n) 0
    (s.putChip o (memWrite st.mem (o.viewAt vd q.td.toNat) (st.perm.map (fun p => BitVec.ofNat 8 p) ++ st.status))).count c 7 6 flags
  | .mtrs q =>
    let ps := if q.perm then
        some ((memRead s.onchip (o.viewAt (viewOf o.vb) q.tb.toNat) 64).map (fun b => b.toNat))
      else none
    let st := solve s.onchip (acc q) (o.at 1 (q.bblk * 0x8000)) q.n q.r q.uplo ps
    let flags := (List.range 64).foldl (fun n i => if st.flag.testBit i then n + 1 else n) 0
    (s.putChip o (memWrite st.mem (o.viewAt vd q.td.toNat + 64) st.status)).count c 7 6 flags
  | _ => s

/-! ### Sectors that change (11 R315) -/

/-- Bytes of a row added to the sectors they lie in; `all` looks for a sector anywhere, not only in the one written last: so
each sector of rows that overlap is there once. -/
def addPiece (all chip : Bool) (acc : List SecWrite) (a : Nat) (bs : List Byte) : List SecWrite :=
  let put (w : SecWrite) : SecWrite := { w with cells := (bs.zipIdx).foldl (fun m x => bmSet m (a + x.2) x.1) w.cells }
  match acc with
  | [] => [put ⟨chip, a / 16, []⟩]
  | w :: rest =>
    if w.sec = a / 16 then put w :: rest
    else if all && rest.any (fun x => x.sec = a / 16) then w :: rest.map (fun x => if x.sec = a / 16 then put x else x)
    else put ⟨chip, a / 16, []⟩ :: acc

/-- A range of n bytes cut at sector boundaries: each piece with its length. -/
def pieces (a n : Nat) : List (Nat × Nat) :=
  if n = 0 then []
  else (List.range ((a + n - 1) / 16 - a / 16 + 1)).map (fun i =>
    let lo := max a (16 * (a / 16 + i))
    (lo, min (a + n) (16 * (a / 16 + i + 1)) - lo))

/-- The ranges of on-chip storage that row i of TLD or ALD fills. -/
def MatOp.loadRow (o : MatOp) (i : Nat) : Nat × Nat :=
  match o.ins with
  | .tld q => let v := viewOf o.vd; (o.viewAt v q.td.toNat + i * v.pitch, v.rowBytes)
  | .ald q => let v := viewOf o.va; (o.at 1 (q.acc.toNat * 0x8000 + regionElem v.rows v.cols i 0), 4 * v.cols)
  | _ => (0, 0)

/-- The ranges of on-chip storage that an operation writes; n is the latched N of a product (11 R303, R318 to R325, R335 to
R337). -/
def MatOp.outs (o : MatOp) (n : Nat) : List (Nat × Nat) :=
  let va := viewOf o.va
  let vd := viewOf o.vd
  let vs := viewOf o.vs
  let rows (b : Nat) (v : TView) : List (Nat × Nat) := (List.range v.rows).map (fun i => (b + i * v.pitch, v.rowBytes))
  let acc (q : OpT) : Nat := o.at 1 (q.acc.toNat * 0x8000)
  let lines (q : OpT) (b : Nat) : List (Nat × Nat) := (List.range q.nreg).flatMap (fun i =>
    o.mask.toLanes.map (fun l => (b + 128 * (q.line + i) + 4 * l, 4)))
  match o.ins with
  | .tld _ | .ald _ => match o.memShape with | some x => (List.range x.2.1).map o.loadRow | none => []
  | .tst q | .ast q =>
    match o.memShape with
    | some x => if q.sp then (List.range x.2.1).map (fun i => (o.at 0 (o.row true i), x.2.2)) else []
    | none => []
  | .tzro q => [(o.viewAt vd q.td.toNat, vd.ext)]
  | .tzroAcc q => [(acc q, q.nblk * 0x8000)]
  | .tmvt q => lines q (o.viewAt vd q.td.toNat)
  | .tmvtAcc q => lines q (acc q)
  | .ttrn q => rows (o.viewAt vd q.td.toNat) vd
  | .tscl q => rows (o.viewAt vd q.td.toNat) vd ++ rows (o.viewAt vs q.ts.toNat) vs
  | .mma q | .mmag q =>
    let m := va.dims.1
    (acc q, 4 * m * n) :: (if q.res then [(acc q + resOffset m n, 4 * m * n)] else [])
  | .mfct q => [(acc q, 4 * q.n * q.n), (o.viewAt vd q.td.toNat, 128)]
  | .mtrs q => [(o.at 1 (q.bblk * 0x8000), 4 * q.n * q.r), (o.viewAt vd q.td.toNat + 64, 64)]
  | _ => []

/-- The sectors of some on-chip ranges, with the bytes that a storage holds there. -/
def chipSectors (all : Bool) (m : Memory) (rs : List (Nat × Nat)) : List SecWrite :=
  (rs.flatMap (fun r => pieces r.1 r.2)).foldl (fun acc p => addPiece all true acc p.1 (memRead m p.1 p.2)) []

/-- The sectors of global memory that some rows of TST or AST store to: of rows that overlap, the later one's bytes. -/
def farSectors (o : MatOp) (rows : List (List Byte × Nat)) : List SecWrite :=
  rows.foldl (fun acc x =>
    let a := o.row false x.2
    (pieces a x.1.length).foldl (fun acc p => addPiece true false acc p.1 ((x.1.drop (p.1 - a)).take p.2)) acc) []

/-- An operation is computed: its effects other than the bytes it stores take place, and its sectors are ready to change. -/
def State.startMat (s : State) (o : MatOp) (act : State → State) : State × List SecWrite :=
  let s1 := (act s).remapUse o.g.die o.asid o.farAddrs
  let far := match o.memShape with | some x => o.stores && !x.1.sp | none => false
  let n := match (s.block? o.lid o.blk).bind (·.latch) with | some w => w.n | none => 0
  if far then (s1, farSectors o (s.storeRows o).zipIdx)
  else ({ s1 with onchip := s.onchip },
    chipSectors (o.stores && o.stride.toNat < (match o.memShape with | some x => x.2.2 | none => 0)) s1.onchip (o.outs n))

/-- A sector changes: a block that has ended keeps none of it. -/
def State.putSector (s : State) (o : MatOp) (w : SecWrite) : State :=
  if w.chip then (s.putChip o (w.cells.foldl (fun m x => memPut m x.1 x.2) s.onchip)).watch
  else match w.cells with | [] => s | x :: _ => s.homeWrite o.g.die o.asid x.1 (w.cells.map (·.2))

/-- A sector lies on a gather-direct page that migrates (14 R414). -/
def State.sectorHeld (s : State) (o : MatOp) (w : SecWrite) : Bool := !w.chip && s.gdMigrates o.g.die o.asid (16 * w.sec)

/-- Some of the sectors change now; which is free (log 69), but those that a migration holds wait for its switch. The others are
left. -/
def State.putSome (s : State) (o : MatOp) (ws : List SecWrite) : State × List SecWrite :=
  (ws.zipIdx).foldl (fun (r : State × List SecWrite) x =>
    if Config.freePick (s.tick * 2 ^ 20 + x.2) % 2 = 1 && !s.sectorHeld o x.1 then (r.1.putSector o x.1, r.2)
    else (r.1, r.2 ++ [x.1])) (s, [])

/-! ### Completion (11 R313) -/

/-- An operation is over: `mat` falls and its batch is finished. -/
def State.closeMat (s : State) (o : MatOp) : State :=
  let c := o.g.coreRef
  let m := s.mat c
  ((s.setMat c { m with accepted := m.accepted.filter (fun x => x.id ≠ o.id) }).modGroup o.g (fun g =>
    { g.decCtr 2 with mtl := g.mtl.finish o.batch })).dlLeave (.mat c o.id)

/-- A touched chunk has still to come (10 R284). -/
def State.matWaits (s : State) (o : MatOp) : Bool := (s.matTouches o).any (fun t => (s.region t.1).waits t.2)

/-- The first page that the memory side cannot reach. -/
def State.matFault (s : State) (o : MatOp) : Option (Nat × Nat × DWord × Nat) :=
  o.farRanges.findSome? (fun r => s.rangeFault o.g.die o.asid r.1 r.2 o.stores)

/-- The memory side reads poisoned data (14 R418). -/
def State.matPoison (s : State) (o : MatOp) : Bool :=
  !o.stores && o.farRanges.any (fun r => (s.poisonAt o.g.die o.asid r.1 r.2).isSome)

/-- The operation waits for the answer to its fault record, or for overdue deadline requests at its controllers (14 R412,
R416). -/
def State.matAsks (s : State) (c : CoreRef) (o : MatOp) : Bool :=
  s.faults.any (fun f => f.joined.contains (.matOp c o.id)) ||
  (!s.dls.isEmpty && s.dlYields (.mat c o.id) (s.dlCtls c.die o.asid true o.farAddrs))

/-- Every earlier store of the group to the operation's sources on the chip is performed (03 R75). -/
def State.chipReady (s : State) (o : MatOp) : Bool :=
  s.sourcesDone o.g true
    (o.reads.map (fun r => (o.at 0 r.1, r.2)) ++ [(o.at 1 0, 0x40000), (o.at 3 0, 0x20000)]) o.id

/-- An operation replaced in its core's engine. -/
def State.modMatOp (s : State) (c : CoreRef) (id : Nat) (f : MatOp → MatOp) : State :=
  let m := s.mat c
  let g (l : List MatOp) : List MatOp := l.map (fun o => if o.id = id then f o else o)
  s.setMat c { m with waiting := g m.waiting, accepted := g m.accepted }

/-- Some sectors of a computed operation change; when none is left the operation is over (11 R313, R315). -/
def State.advanceMat (s : State) (o : MatOp) (ws : List SecWrite) : State :=
  let r := s.putSome o ws
  if r.2.isEmpty then r.1.closeMat o else r.1.modMatOp o.g.coreRef o.id (fun y => { y with todo := some r.2 })

/-- MAT_OP_COMPLETE (11 R312 to R315): the operation at the head of the order is computed whole, each sector it writes changes
at some point, and when all have changed it completes. A page fault or a window chunk holds it and everything behind it, and
an MMAG waits for the lift line. -/
def execMatOpComplete (c : CoreRef) (s : State) : Out :=
  match (s.mat c).accepted with
  | [] => .next s
  | o :: _ =>
    if o.cancelled then .next (s.closeMat o)
    else if s.matAsks c o then .next s
    else if o.todo.isNone && (isMmag o.ins || s.matWaits o || !s.chipReady o) then .next s
    else
      match (if o.stores || o.todo.isNone then s.matFault o else none) with
      | some f => .next ((s.recordFault o.asid f.1 f.2.1 f.2.2.1 f.2.2.2 2 (engineSrc c) (.matOp c o.id)).getD s)
      | none =>
        match o.todo with
        | some ws => .next (s.advanceMat o ws)
        | none =>
          if s.matPoison o then .next s
          else let x := s.startMat o (fun s => s.perform o); .next (x.1.advanceMat o x.2)

/-- A sticky bit of `%gang`. -/
def gangBit (n : Nat) (x : DWord) : DWord := x ||| BitVec.ofNat 64 (2 ^ n)

/-- The sectors that an abandoned operation may have written: those of the rows that it could reach, or what was left of it
(11 R314). -/
def State.writtenSectors (s : State) (o : MatOp) : List SecWrite :=
  match o.todo, o.memShape with
  | some _, _ => []
  | none, none => []
  | none, some (q, n, b) =>
    let good (i : Nat) : Bool := (s.rangeFault o.g.die o.asid (o.row false i) b o.stores).isNone &&
      (o.stores || (s.poisonAt o.g.die o.asid (o.row false i) b).isNone)
    if q.sp then []
    else if o.stores then farSectors o ((s.storeRows o).zipIdx.filter (fun x => good x.2))
    else chipSectors false (s.perform o).onchip (((List.range n).filter good).map o.loadRow)

/-- An operation is abandoned: bytes already written stay (11 R314). -/
def State.abandonMat (s : State) (o : MatOp) : State :=
  let s1 := ((s.putSome o (s.writtenSectors o)).1).modGroup o.g (fun g => { g with sp := { g.sp with gang := gangBit 35 g.sp.gang } })
  (s1.closeMat o).count o.g.coreRef 7 7

/-- MAT_OP_ABANDON (11 R314): an uncorrectable error in the source of the operation at the head; a refused fault abandons at
its answer. -/
def execMatOpAbandon (c : CoreRef) (s : State) : Out :=
  match (s.mat c).accepted with
  | [] => .next s
  | o :: _ =>
    if (s.matFault o).isNone && !s.matAsks c o && s.matPoison o && !o.cancelled && o.todo.isNone then .next (s.abandonMat o) else .next s

/-! ### The lift line (11 R329) -/

/-- The MMAG at the head of a core's order, when it is this group's and waits at the lift line. -/
def State.atLift (s : State) (r : GRef) : Option MatOp :=
  match (s.mat r.coreRef).accepted with
  | o :: _ => if o.g = r && isMmag o.ins && !o.lifted && !o.cancelled then some o else none
  | [] => none

/-- What the lift line compares. -/
def MatOp.liftKey (o : MatOp) : Nat × Nat × Nat × Nat × Bool :=
  let v := viewOf o.va
  (v.dims.1, v.dims.2, v.fmt, v.smode, v.trans)

/-- The tile operand of an MMAG. -/
def MatOp.mmagOp (o : MatOp) : OpT := (tileOf o.ins).getD default

/-- LIFT_LINE_MATCH: every member's MMAG of the same GSEQ is at its head. Equal shapes: each member multiplies position 0's
activation by its own weights, and its sectors are ready to change; otherwise every MMAG is cancelled with GERR. -/
def execLiftLineMatch (c : CoreRef) (s : State) : Out :=
  match (s.mat c).accepted with
  | [] => .next s
  | o :: _ =>
    match s.group? o.g with
    | none => .next s
    | some g =>
      let ms := s.gangMembers g
      let ops := ms.filterMap s.atLift
      let pos (r : GRef) : Nat := match s.group? r with | some x => bits x.sp.gang.toNat 60 58 | none => 0
      if !isMmag o.ins || ms.isEmpty || ops.length ≠ ms.length || !ops.all (fun x => x.gseq = o.gseq) then .next s
      else if ops.all (fun x => x.liftKey = o.liftKey) then
        match ops.find? (fun x => pos x.g = 0) with
        | none => .next s
        | some lead =>
          if s.matWaits lead || !ops.all s.chipReady then .next s
          else
            let a := lead.activation lead.mmagOp.ta.toNat lead.mmagOp.ts.toNat s.onchip
            .next (ops.foldl (fun (s : State) x =>
              let r := s.startMat x (fun s => s.product x x.mmagOp a)
              r.1.modMatOp x.g.coreRef x.id (fun y => { y with lifted := true, todo := some r.2 })) s)
      else
        .next (ops.foldl (fun (s : State) x =>
          ((s.modMatOp x.g.coreRef x.id (fun y => { y with cancelled := true })).modGroup x.g (fun g =>
            { g with sp := { g.sp with gang := gangErr g.sp.gang } })).count x.g.coreRef 7 9) s)

end Sys2Proof.Machine
end

