-- ==== Sys2Proof/Machine/LegalSeq.lean ====
section
/-! DEFINITION. Which field values of the SEQ words of 05 are legal (02 R40 step 2, R42, R43; 05 R149 to R169). -/

namespace Sys2Proof


/-- An F-S word that uses no field. -/
def OpS.blank (o : OpS) : Bool :=
  o.g.always && o.d == 0 && o.a.unused && o.imm == 0 && o.sub == 0 && o.m == 0

/-- NOP, YIELD, GSYNC (05 R149). -/
def legalPlain (o : OpS) : Bool := o.blank

/-- BRA and CALL (05 R150). -/
def legalBranch (o : OpB) : Bool :=
  o.g.legal &&
  (if o.qen then o.g.always && !o.uni && o.joff == 0
   else o.qidx == 0 && (if o.uni then o.joff == 0 else !(o.g.always && o.joff != 0)))

/-- BRX and CALLX: TOFF is 0 (02 R47). -/
def legalBranchX (o : OpBL) : Bool := legalBranch o.b && o.b.toff == 0

/-- JMPK and TDONE: A is a k register (05 R152, R164). -/
def legalKTarget (o : OpS) : Bool :=
  o.g.always && o.d == 0 && o.a.kReg && o.imm == 0 && o.sub == 0 && o.m == 0

/-- EXIT may be guarded (02 R42). -/
def legalExit (o : OpS) : Bool :=
  o.g.legal && o.d == 0 && o.a.unused && o.imm == 0 && o.sub == 0 && o.m == 0

/-- MASKR (05 R154). -/
def legalMaskr (o : OpS) : Bool :=
  o.g.always && isKDst o.d && o.a.unused && o.imm == 0 && o.sub.toNat < 4 && o.m == 0

/-- VOTE (05 R155). -/
def legalVote (o : OpR) : Bool :=
  o.g.always && o.a.predCode && o.b.unused && o.c.unused && mzero o.m 0xE &&
  (if mfield o.m 2 1 = 0 then isVDst o.d || isKDst o.d else isPDst o.d || isQDst o.d)

/-- PLOP (05 R156): MOD[8:1] is the table. -/
def legalPlop (o : OpR) : Bool :=
  o.g.always && o.a.predCode && o.b.predCode && o.c.predCode && mzero o.m 0x1FE &&
  (isPDst o.d || (isQDst o.d && o.a.uniPred && o.b.uniPred && o.c.uniPred))

/-- A v or k register with L = E = 0 (05 R157). -/
def Src.plainReg (a : Src) : Bool := (a.isV || a.isK) && !a.last && !a.etrap

/-- CHKF (05 R157). -/
def legalChkf (o : OpS) : Bool :=
  o.g.always && (isPDst o.d || isQDst o.d) && o.a.plainReg && o.imm == 0 && o.sub == 0 && o.m == 0

/-- WAITF (05 R157). -/
def legalWaitf (o : OpS) : Bool :=
  o.g.always && o.d == 0 && o.a.plainReg && o.imm == 0 && o.sub == 0 && o.m == 0

/-- KMOV (05 R158). -/
def legalKmov (o : OpR) : Bool :=
  o.g.always && isKDst o.d && o.a.uniform && o.b.unused && o.c.unused && o.m == 0

/-- KMOVI (05 R158, 02 R45). -/
def legalKmovi (o : OpW) : Bool := o.g.always && isKDst o.d && o.z == 0

/-- KLIT (05 R158, 02 R45). -/
def legalKlit (o : OpWL) : Bool := o.w.g.always && isKDst o.w.d && o.w.z == 0 && o.w.imm == 0

/-- A two-source uniform R/I word with the given MOD bits in use beside MOD[0] (05 R159). -/
def legalUni2 (used : Nat) (o : OpRI) : Bool :=
  o.g.always && isKDst o.d && o.a.uniform && o.shape && mzero o.m (used ||| 1) &&
  (match o.bsrc with | some b => b.uniform | none => true)

/-- A three-source uniform word (05 R159). -/
def legalUni3 (used : Nat) (o : OpR) : Bool :=
  o.g.always && isKDst o.d && o.a.uniform && o.b.uniform && o.c.uniform && mzero o.m used

/-- KCMP (05 R160). -/
def legalKcmp (o : OpRI) : Bool :=
  o.g.always && (isKDst o.d || isQDst o.d) && o.a.uniform && o.shape && mzero o.m 0x1F && mfield o.m 4 1 < 10 &&
  (match o.bsrc with | some b => b.uniform | none => true)

/-- KSEL (05 R160): QIDX in MOD[2:1], negation in MOD[3]. -/
def legalKsel (o : OpR) : Bool :=
  o.g.always && isKDst o.d && o.a.uniform && o.b.uniform && o.c.unused && mzero o.m 0xE

/-- The special registers that KWRS may write (01 R17, R18). -/
def spWritable (i : Nat) : Bool :=
  i == 0x09 || i == 0x0A || i == 0x0B || i == 0x0D || i == 0x0E || i == 0x0F || (0x10 ≤ i && i ≤ 0x22)

/-- KRDS (05 R161, 01 R18): not `%lane`, not `%stack`, not a reserved index. -/
def legalKrds (o : OpS) : Bool :=
  o.g.always && isKDst o.d && o.a.unused && o.sub == 0 && o.m == 0 &&
  (0 < o.imm.toNat && o.imm.toNat < 0x29)

/-- KWRS (05 R161, 01 R18). -/
def legalKwrs (o : OpS) : Bool :=
  o.g.always && o.d == 0 && o.a.kReg && o.sub == 0 && o.m == 0 && spWritable o.imm.toNat

/-- KRDF (05 R162). -/
def legalKrdf (o : OpR) : Bool :=
  o.g.always && isKDst o.d && o.a.isV && o.b.unused && o.c.unused && mzero o.m 2 &&
  (!mbit o.m 1 || (o.a.vNum % 2 == 0))

/-- TRAP and BRK (05 R163). -/
def legalCode (o : OpS) : Bool :=
  o.g.always && o.d == 0 && o.a.unused && o.sub == 0 && o.m == 0

/-- IPRF (05 R165). -/
def legalIprf (o : OpS) : Bool :=
  o.g.always && o.d == 0 && o.a.kReg && o.imm != 0 && o.sub.toNat < 3 && o.m == 0

/-- MODL (05 R166). An index above 255 is an execution trap. -/
def legalModl (o : OpS) : Bool :=
  o.g.always && isKDst o.d && o.a.kReg && o.sub == 0 && o.m == 0

/-- MODU (05 R167). R167 gives it no trap for an index above 255, which no module table has; it is refused at decode
(log 40). -/
def legalModu (o : OpS) : Bool :=
  o.g.always && isKDst o.d && o.a.unused && o.sub == 0 && o.m == 0 && o.imm.toNat < 256

/-- CNTR (05 R168). -/
def legalCntr (o : OpS) : Bool :=
  o.g.always && isKDst o.d && o.a.unused && o.sub == 0 && o.m == 0 && o.imm.toNat / 256 < 11

/-- CNTC (05 R168): one counter. -/
def legalCntc (o : OpS) : Bool :=
  o.g.always && o.d == 0 && o.a.unused && o.sub == 0 && o.m == 0 && o.imm.toNat / 256 < 11

/-- CNTC.all (05 R168). -/
def legalCntcAll (o : OpS) : Bool :=
  o.g.always && o.d == 0 && o.a.unused && o.sub == 1 && o.m == 0 && o.imm == 0

/-- SREG.rd (05 R169). -/
def legalSregRd (o : OpS) : Bool :=
  o.g.always && isKDst o.d && o.a.unused && o.sub == 0 && o.m == 0 && o.imm.toNat < 5

/-- SREG.wr of the register with the given index, any other than the two requests when none is given (05 R169). -/
def legalSregWr (reg : Option Nat) (o : OpS) : Bool :=
  o.g.always && o.d == 0 && o.a.kReg && o.sub == 1 && o.m == 0 &&
  (match reg with
   | some r => o.imm.toNat == r
   | none => o.imm.toNat == 0 || o.imm.toNat == 1 || o.imm.toNat == 4)

end Sys2Proof
end

