-- ==== Sys2Proof/WellFormed.lean ====
section
/-! DEFINITION. Which terms of the instruction set are instructions: every field value legal (02 R40 to R51 and the
chapters), and an opcode that the table splits into rows selecting the row. A step of an engine has no word. -/

namespace Sys2Proof

/-- The instruction is well formed: its word passes the field checks of 02 R40. -/
def wellFormed (i : Instr) : Bool :=
  match i with
  | .nop o => legalPlain o
  | .bra o => legalBranch o
  | .brx o => legalBranchX o
  | .call o => legalBranch o
  | .callx o => legalBranchX o
  | .ret o => legalPlain o
  | .jmpk o => legalKTarget o
  | .exit o => legalExit o
  | .yield o => legalPlain o
  | .maskr o => legalMaskr o
  | .maskw o => legalKTarget o
  | .vote o => legalVote o
  | .plop o => legalPlop o
  | .chkf o => legalChkf o
  | .waitf o => legalWaitf o
  | .gsync o => legalPlain o
  | .kmov o => legalKmov o
  | .kmovi o => legalKmovi o
  | .klit o => legalKlit o
  | .kadd o => legalUni2 0 o
  | .ksub o => legalUni2 0 o
  | .kmul o => legalUni2 0 o
  | .kmad o => legalUni3 0 o
  | .kshl o => legalUni2 0 o
  | .kshr o => legalUni2 2 o
  | .klop o => legalUni3 0x1FE o
  | .kcmp o => legalKcmp o
  | .ksel o => legalKsel o
  | .krds o => legalKrds o
  | .kwrs o => legalKwrs o
  | .krdf o => legalKrdf o
  | .kmnx o => legalUni2 6 o
  | .iadd o => legalIadd o
  | .isub o => legalIadd o
  | .imul o => legalLane2 intTypes true false false o
  | .imulh o => legalLaneR2 [.s32, .n32] false false o
  | .imad o => legalLaneR3 intTypes true false o
  | .imnx o => legalLane2 intTypes false false true o
  | .iabs o => legalLaneR1 [.s32, .s16x2] true false o
  | .shl o => legalLane2 [.b32, .n16x2] false false false o
  | .shr o => legalLane2 [.b32, .n16x2] false false false o
  | .sar o => legalLane2 [.s32, .s16x2] false false false o
  | .lop3 o => legalLop3 o
  | .popc o => legalLaneR1 [.b32] false false o
  | .clz o => legalLaneR1 [.b32] false false o
  | .bfx o => legalLaneR2 [.s32, .n32] false false o
  | .bfi o => legalLaneR3 [.b32] false false o
  | .icmp o => legalIcmp o
  | .fadd o => legalLane2 fltTypes true true false o
  | .fsub o => legalLane2 fltTypes true true false o
  | .fmul o => legalLane2 fltTypes true true false o
  | .ffma o => legalLaneR3 fltTypes true true o
  | .fmnx o => legalFmnx o
  | .fcmp o => legalFcmp o
  | .frcp o => legalLaneR1 fltTypes true true o
  | .frsq o => legalUnary o
  | .fsqrt o => legalLaneR1 fltTypes true true o
  | .fdiv o => legalLaneR2 fltTypes true true o
  | .fex2 o => legalUnary o
  | .flg2 o => legalUnary o
  | .fsin o => legalUnary o
  | .fcos o => legalUnary o
  | .fcls o => legalFcls o
  | .fscl o => legalLaneR2 fltTypes true true o
  | .mov o => legalMov o
  | .movi o => legalMovi o
  | .sel o => legalSel o
  | .cvt o => legalCvt o
  | .pack o => legalPack o
  | .unpk o => legalUnpk o
  | .prmb o => legalPrmb o
  | .xshf o => legalXshf o
  | .xred o => legalXred false o
  | .xscn o => legalXred true o
  | .mxix o => legalMxix o
  | .rand o => legalRand o
  | .rdsr o => legalRdsr o
  | .clmp o => legalClmp o
  | .qnt o => legalQnt o
  | .dqnt o => legalDqnt o
  | .tsum o => legalEft o
  | .tdif o => legalEft o
  | .tprd o => legalEft o
  | .tfma o => legalTfma o
  | .ftsm o => legalEft o
  | .xadd o => legalXarith o
  | .xsub o => legalXarith o
  | .xmul o => legalXarith o
  | .xacc o => legalXacc o
  | .xrnm o => legalXnorm false o
  | .xcpr o => legalXnorm true o
  | .xcmp o => legalXcmp o
  | .xcvt o => legalXcvt o
  | .xspl o => legalXspl o
  | .xtre o => legalXtre o
  | .xscl o => legalXscl o
  | .ldg o => legalLdst false true true o
  | .stg o => legalLdst true true true o
  | .lds o => legalLdst false false false o
  | .sts o => legalLdst true false false o
  | .ldw o => legalLdst false true false o
  | .stw o => legalLdst true true false o
  | .ldk o => legalLdkStk false o
  | .stk o => legalLdkStk true o
  | .gthr o => legalPacket o
  | .sctr o => legalPacket o
  | .pref o => legalMaint true o
  | .wbk o => legalMaint false o
  | .inv o => legalMaint false o
  | .fnc o => legalFnc o
  | .sbnd o => legalBind true o
  | .sunb o => legalBind false o
  | .aadd o => legalAtom aaddShape o
  | .afad o => legalAtom afadShape o
  | .acad o => legalAtom acadShape o
  | .amnx o => legalAtom amnxShape o
  | .afmx o => legalAtom afmxShape o
  | .amxi o => legalAtom amxiShape o
  | .alop o => legalAtom alopShape o
  | .axch o => legalAtom axchShape o
  | .acas o => legalAtom acasShape o
  | .ainc o => legalAtom aincShape o
  | .ared o => legalAtom aredShape o
  | .waita o => legalAtom waitaShape o
  | .tld o => legalTld o
  | .tst o => legalTst o
  | .tzro o => legalTzro o
  | .tzroAcc o => legalTzroAcc o
  | .tmvv o => legalTmvv o
  | .tmvvAcc o => legalTmvvAcc o
  | .tmvt o => legalTmvt o
  | .tmvtAcc o => legalTmvtAcc o
  | .ttrn o => legalTtrn o
  | .tscl o => legalTscl o
  | .wld o => legalWld o
  | .ald o => legalAld o
  | .ast o => legalAst o
  | .mma o => legalMma o
  | .mmag o => legalMma o
  | .mfen o => legalMatS 0 false false o
  | .mfenNum o => legalMatS 1 true false o
  | .mfct o => legalMfct o
  | .mtrs o => legalMtrs o
  | .mestRd o => legalMatS 0 true false o
  | .mestClr o => legalMatS 1 false false o
  | .gang o => legalMatS 0 true true o
  | .gangDis o => legalMatS 1 true false o
  | .lrec o => legalCpy 0 true 2 false o
  | .rbnd o => legalCpy 0 true 4 true o
  | .runb o => legalCpy 0 true 0 true o
  | .rtchFill o => legalCpy 0 true 0 true o
  | .rtchOut o => legalCpy 1 true 0 true o
  | .rtst o => legalRtst o
  | .rwt o => legalRwt o
  | .cfen o => legalCpy 0 false 0 false o
  | .cfenNum o => legalCpy 1 true 0 false o
  | .hnewNew o => legalCpy 0 true 0 false o
  | .hnewFree o => legalCpy 1 false 1 false o
  | .rstaE o => legalCpy 0 true 0 true o
  | .rstaH o => legalCpy 1 true 1 false o
  | .bar o => legalBar false false o
  | .bara o => legalBar true false o
  | .barw o => legalBar false true o
  | .pha o => legalPh 0 false false o
  | .phaExpect o => legalPh 1 true false o
  | .phxExpect o => legalPh 0 true false o
  | .phxInit o => legalPh 1 true false o
  | .phxRead o => legalPh 2 false true o
  | .phw o => legalPhw o
  | .tkg o => legalTkg o
  | .tkw o => legalTkw o
  | .tksSet o => legalTks false o
  | .tksInc o => legalTks true o
  | .tlw o => legalTl false false o
  | .tlr o => legalTl true false o
  | .tls o => legalTl false true o
  | .cmb o => legalCmb false o
  | .cmbNt o => legalCmb true o
  | .cmbr o => legalCmbr o
  | .objr o => legalPlainS 0 true true false o
  | .objcClr o => legalPlainS 0 true true false o
  | .objcDel o => legalPlainS 1 true true false o
  | .gld o => legalGld o
  | .gadd o => legalGadd o
  | .gmrg o => legalGmrg o
  | .gset o => legalGset o
  | .gswpAdd o => legalPlainS 0 true true true o
  | .gswpRem o => legalPlainS 1 true true false o
  | .gstpAdd o => legalPlainS 0 true true false o
  | .gstpRd o => legalPlainS 1 true false false o
  | .sol o => legalSol o
  | .solw o => legalSolx false o
  | .kins o => legalPlainS 0 true true true o
  | .kdel o => legalPlainS 0 true true false o
  | .kdelMv o => legalPlainS 1 true true true o
  | .rsp o => legalRsp o
  | .solr o => legalSolx true o
  | .trap o => legalCode o
  | .tret o => legalPlain o
  | .tdone o => legalKTarget o
  | .iprf o => legalIprf o
  | .modl o => legalModl o
  | .modu o => legalModu o
  | .cntr o => legalCntr o
  | .cntc o => legalCntc o
  | .cntcAll o => legalCntcAll o
  | .brk o => legalCode o
  | .sregRd o => legalSregRd o
  | .sregWr o => legalSregWr none o
  | .preemptreq o => legalSregWr (some 2) o
  | .resumereq o => legalSregWr (some 3) o
  | .lnch o => legalPlainS 0 true true false o
  | .dgstOpen o => legalPlainS 0 false true false o
  | .dgstRead o => legalPlainS 1 true false false o
  | .dgstRecord o => legalPlainS 2 false false false o
  | .dgstCheck o => legalPlainS 3 false false false o
  | .pcol o => legalPlainS 0 true true false o
  | .pcolNowait o => legalPlainS 1 true true false o
  | .migr o => legalPlainS 0 true true true o
  | .clauseSchedule _ _ => false
  | .agePromote _ => false
  | .clauseStart _ _ => false
  | .ifetchLineArrival _ => false
  | .trapEntry _ _ => false
  | .preemptTrap _ => false
  | .forcedSave _ => false
  | .uncorrectedTrap _ => false
  | .registerSpill _ _ => false
  | .registerReload _ _ => false
  | .accessVerdict _ => false
  | .parkedSetReplay _ _ => false
  | .loadDataLand _ => false
  | .storeAck _ => false
  | .mailboxWriteLand _ => false
  | .waitaRetest _ => false
  | .homeAtomic _ _ => false
  | .quadAtomic _ _ => false
  | .portAtomic _ _ => false
  | .aredGatewayCombine _ _ _ _ => false
  | .peerFill _ _ => false
  | .stewardPoll _ _ => false
  | .launch _ _ => false
  | .signal _ _ => false
  | .modload _ _ => false
  | .modunload _ _ => false
  | .wait _ _ => false
  | .badcmd _ _ => false
  | .launchReady _ _ => false
  | .podPartAcceptMsg _ _ _ => false
  | .podPartRefusalMsg _ _ _ => false
  | .blockPlace _ => false
  | .groupStart _ => false
  | .launchDone _ => false
  | .barrierArrival _ => false
  | .barrierCompletionNotify _ _ => false
  | .ticketServeBroadcast _ _ _ _ => false
  | .timelineSignalArrival _ _ => false
  | .chunkRequest _ _ => false
  | .chunkLandFill _ _ _ => false
  | .chunkLandWriteout _ _ _ => false
  | .chunkAbort _ _ _ => false
  | .matOpAccept _ => false
  | .matOpComplete _ => false
  | .matOpAbandon _ => false
  | .gangRendezvous _ => false
  | .liftLineMatch _ => false
  | .throttleWindow _ => false
  | .cmbAccept _ => false
  | .cmbResend _ => false
  | .packForm _ => false
  | .replyLand _ => false
  | .methodFault _ => false
  | .stepPropagate _ _ => false
  | .censusBroadcastArrive _ _ => false
  | .responderSpawn _ => false
  | .responderFault _ => false
  | .diePartialFold _ _ => false
  | .censusResponseArrive _ _ => false
  | .censusTimeout _ => false
  | .censusCloseArrive _ _ => false
  | .censusMoveAtNode _ _ => false
  | .censusMoveAtCore _ _ => false
  | .pageWalk _ _ _ => false
  | .gatherPacketExpand _ _ => false
  | .deadlineExpiry _ => false
  | .correctedError _ _ => false
  | .uncorrectableError _ => false
  | .poisonConsume _ => false
  | .korilinkCrcResend _ => false
  | .pcolMemberExchange _ _ => false
  | .pcolRingStep _ _ _ _ => false
  | .pcolComplete _ => false
  | .pcolBudgetExpiry _ => false
  | .migrSwitch _ => false
  | .hostBar2Write _ _ => false
  | .claim _ _ => false
  | .fqackRetry _ _ => false
  | .fqackRefuse _ _ => false
  | .shootTr _ _ => false
  | .shootData _ _ => false
  | .shootComplete _ => false
  | .cmdpg _ _ => false
  | .attest _ _ _ => false
  | .presetPackage _ => false
  | .presetPartitions _ => false
  | .portRegWrite _ _ _ => false
  | .linkDownOwnerClear _ => false
  | .powerOnReset => false
  | .bootRomFwVerify _ _ => false
  | .fwBringup _ _ => false
  | .stewardInstall _ _ _ _ => false
  | .stewardStart _ => false
  | .fqheadWrite _ _ => false
  | .quadWriteThroughArrive _ => false
  | .refreshInterval _ => false
  | .powerLoss => false
  | .bindingChangePropagate _ _ => false

end Sys2Proof
end

