-- ==== Sys2Proof/Decode.lean ====
section
/-! DEFINITION. The decoder and the encoder of instruction words (02 R41 to R57). -/

namespace Sys2Proof

/-- Why bits are no instruction (02 R40 step 2): an unassigned opcode (ILLOP), a reserved scope (ILLSCOPE), an illegal
field (ILLOP), or a word or literal that is not there. -/
inductive DecErr where
  | unassigned (opc : Nat)
  | illScope
  | illField
  | truncated
  deriving DecidableEq, Repr, Inhabited

/-! ### Fields (02 R41, R44, R45) -/

/-- Bits [lo + n - 1 : lo] of a word. -/
def fld (w : DWord) (lo n : Nat) : BitVec n := w.extractLsb' lo n

/-- The guard in [55:52]. -/
def fGuard (w : DWord) : Guard := { neg := w.getLsbD 55, idx := fld w 52 3 }

/-- A source field: OPND, L, E from its lowest bit up. -/
def fSrc (w : DWord) (lo : Nat) : Src := { opnd := fld w (lo + 2) 9, last := w.getLsbD (lo + 1), etrap := w.getLsbD lo }

/-- F-R. -/
def parseR (w : DWord) : OpR :=
  { g := fGuard w, d := fld w 43 9, a := fSrc w 32, b := fSrc w 21, c := fSrc w 10, m := fld w 0 10 }

/-- F-I. -/
def parseI (w : DWord) : OpI := { g := fGuard w, d := fld w 43 9, a := fSrc w 32, imm := fld w 10 22, m := fld w 0 10 }

/-- F-R, or F-I when MOD[0] = 1 (02 R45). -/
def parseRI (w : DWord) : OpRI := if w.getLsbD 0 then .i (parseI w) else .r (parseR w)

/-- F-W. -/
def parseW (w : DWord) : OpW := { g := fGuard w, d := fld w 43 9, z := fld w 32 11, imm := fld w 0 32 }

/-- F-M. -/
def parseM (w : DWord) : OpM :=
  { g := fGuard w, d := fld w 43 9, a := fSrc w 32, b := fSrc w 21, ord := fld w 19 2, scope := fld w 16 3,
    evict := fld w 13 3, size := fld w 10 3, off := fld w 0 10 }

/-- F-B. -/
def parseB (w : DWord) : OpB :=
  { g := fGuard w, toff := fld w 28 24, joff := fld w 4 24, uni := w.getLsbD 3, qen := w.getLsbD 2, qidx := fld w 0 2 }

/-- F-T. -/
def parseT (w : DWord) : OpT :=
  { g := fGuard w, td := fld w 48 4, ta := fld w 44 4, tb := fld w 40 4, res := w.getLsbD 39, acc := fld w 36 3,
    ts := fld w 32 4, shp := fld w 10 22, m := fld w 0 10 }

/-- F-S. -/
def parseS (w : DWord) : OpS :=
  { g := fGuard w, d := fld w 43 9, a := fSrc w 32, imm := fld w 16 16, sub := fld w 10 6, m := fld w 0 10 }

/-! ### The opcode map (02 R56) -/

/-- Opcodes 0x00 to 0x0F (02 R56). -/
def row0 (w : DWord) (lit : Option DWord) : Option Instr :=
  match bits w.toNat 59 56 with
  | 0 => some (.nop (parseS w))
  | 1 => some (.bra (parseB w))
  | 2 => lit.map (fun x => .brx ⟨parseB w, x⟩)
  | 3 => some (.call (parseB w))
  | 4 => lit.map (fun x => .callx ⟨parseB w, x⟩)
  | 5 => some (.ret (parseS w))
  | 6 => some (.jmpk (parseS w))
  | 7 => some (.exit (parseS w))
  | 8 => some (.yield (parseS w))
  | 9 => some (.maskr (parseS w))
  | 10 => some (.maskw (parseS w))
  | 11 => some (.vote (parseR w))
  | 12 => some (.plop (parseR w))
  | 13 => some (.chkf (parseS w))
  | 14 => some (.waitf (parseS w))
  | 15 => some (.gsync (parseS w))
  | _ => none

/-- Opcodes 0x10 to 0x1F (02 R56). -/
def row1 (w : DWord) (lit : Option DWord) : Option Instr :=
  match bits w.toNat 59 56 with
  | 0 => some (.kmov (parseR w))
  | 1 => some (.kmovi (parseW w))
  | 2 => lit.map (fun x => .klit ⟨parseW w, x⟩)
  | 3 => some (.kadd (parseRI w))
  | 4 => some (.ksub (parseRI w))
  | 5 => some (.kmul (parseRI w))
  | 6 => some (.kmad (parseR w))
  | 7 => some (.kshl (parseRI w))
  | 8 => some (.kshr (parseRI w))
  | 9 => some (.klop (parseR w))
  | 10 => some (.kcmp (parseRI w))
  | 11 => some (.ksel (parseR w))
  | 12 => some (.krds (parseS w))
  | 13 => some (.kwrs (parseS w))
  | 14 => some (.krdf (parseR w))
  | 15 => some (.kmnx (parseRI w))
  | _ => none

/-- Opcodes 0x20 to 0x2F (02 R56). -/
def row2 (w : DWord) (_lit : Option DWord) : Option Instr :=
  match bits w.toNat 59 56 with
  | 0 => some (.iadd (parseRI w))
  | 1 => some (.isub (parseRI w))
  | 2 => some (.imul (parseRI w))
  | 3 => some (.imulh (parseR w))
  | 4 => some (.imad (parseR w))
  | 5 => some (.imnx (parseRI w))
  | 6 => some (.iabs (parseR w))
  | 7 => some (.shl (parseRI w))
  | 8 => some (.shr (parseRI w))
  | 9 => some (.sar (parseRI w))
  | 10 => some (.lop3 (parseR w))
  | 11 => some (.popc (parseR w))
  | 12 => some (.clz (parseR w))
  | 13 => some (.bfx (parseR w))
  | 14 => some (.bfi (parseR w))
  | 15 => some (.icmp (parseRI w))
  | _ => none

/-- Opcodes 0x30 to 0x3F (02 R56). -/
def row3 (w : DWord) (_lit : Option DWord) : Option Instr :=
  match bits w.toNat 59 56 with
  | 0 => some (.fadd (parseRI w))
  | 1 => some (.fsub (parseRI w))
  | 2 => some (.fmul (parseRI w))
  | 3 => some (.ffma (parseR w))
  | 4 => some (.fmnx (parseRI w))
  | 5 => some (.fcmp (parseRI w))
  | 6 => some (.frcp (parseR w))
  | 7 => some (.frsq (parseR w))
  | 8 => some (.fsqrt (parseR w))
  | 9 => some (.fdiv (parseR w))
  | 10 => some (.fex2 (parseR w))
  | 11 => some (.flg2 (parseR w))
  | 12 => some (.fsin (parseR w))
  | 13 => some (.fcos (parseR w))
  | 14 => some (.fcls (parseR w))
  | 15 => some (.fscl (parseR w))
  | _ => none

/-- Opcodes 0x40 to 0x4F (02 R56). -/
def row4 (w : DWord) (_lit : Option DWord) : Option Instr :=
  match bits w.toNat 59 56 with
  | 0 => some (.mov (parseR w))
  | 1 => some (.movi (parseW w))
  | 2 => some (.sel (parseR w))
  | 3 => some (.cvt (parseR w))
  | 4 => some (.pack (parseR w))
  | 5 => some (.unpk (parseR w))
  | 6 => some (.prmb (parseR w))
  | 7 => some (.xshf (parseR w))
  | 8 => some (.xred (parseR w))
  | 9 => some (.xscn (parseR w))
  | 10 => some (.mxix (parseR w))
  | 11 => some (.rand (parseR w))
  | 12 => some (.rdsr (parseS w))
  | 13 => some (.clmp (parseR w))
  | 14 => some (.qnt (parseR w))
  | 15 => some (.dqnt (parseR w))
  | _ => none

/-- Opcodes 0x50 to 0x5F (02 R56). -/
def row5 (w : DWord) (_lit : Option DWord) : Option Instr :=
  match bits w.toNat 59 56 with
  | 0 => some (.tsum (parseR w))
  | 1 => some (.tdif (parseR w))
  | 2 => some (.tprd (parseR w))
  | 3 => some (.tfma (parseR w))
  | 4 => some (.ftsm (parseR w))
  | 5 => some (.xadd (parseR w))
  | 6 => some (.xsub (parseR w))
  | 7 => some (.xmul (parseR w))
  | 8 => some (.xacc (parseR w))
  | 9 => some (.xrnm (parseR w))
  | 10 => some (.xcpr (parseR w))
  | 11 => some (.xcmp (parseR w))
  | 12 => some (.xcvt (parseR w))
  | 13 => some (.xspl (parseR w))
  | 14 => some (.xtre (parseR w))
  | 15 => some (.xscl (parseR w))
  | _ => none

/-- Opcodes 0x60 to 0x6F (02 R56). -/
def row6 (w : DWord) (_lit : Option DWord) : Option Instr :=
  match bits w.toNat 59 56 with
  | 0 => some (.ldg (parseM w))
  | 1 => some (.stg (parseM w))
  | 2 => some (.lds (parseM w))
  | 3 => some (.sts (parseM w))
  | 4 => some (.ldw (parseM w))
  | 5 => some (.stw (parseM w))
  | 6 => some (.ldk (parseM w))
  | 7 => some (.stk (parseM w))
  | 8 => some (.gthr (parseM w))
  | 9 => some (.sctr (parseM w))
  | 10 => some (.pref (parseM w))
  | 11 => some (.wbk (parseM w))
  | 12 => some (.inv (parseM w))
  | 13 => some (.fnc (parseM w))
  | 14 => some (.sbnd (parseS w))
  | 15 => some (.sunb (parseS w))
  | _ => none

/-- Opcodes 0x70 to 0x7F (02 R56). -/
def row7 (w : DWord) (_lit : Option DWord) : Option Instr :=
  match bits w.toNat 59 56 with
  | 0 => some (.aadd (parseM w))
  | 1 => some (.afad (parseM w))
  | 2 => some (.acad (parseM w))
  | 3 => some (.amnx (parseM w))
  | 4 => some (.afmx (parseM w))
  | 5 => some (.amxi (parseM w))
  | 6 => some (.alop (parseM w))
  | 7 => some (.axch (parseM w))
  | 8 => some (.acas (parseM w))
  | 9 => some (.ainc (parseM w))
  | 10 => some (.ared (parseM w))
  | 11 => some (.waita (parseM w))
  | _ => none

/-- Opcodes 0x80 to 0x8F (02 R56). -/
def row8 (w : DWord) (_lit : Option DWord) : Option Instr :=
  match bits w.toNat 59 56 with
  | 0 => some (.tld (parseT w))
  | 1 => some (.tst (parseT w))
  | 2 =>
    let o := parseT w
    if o.nblk = 0 then some (.tzro o)
    else some (.tzroAcc o)
  | 3 =>
    let o := parseT w
    if o.m.getLsbD 0 = false then some (.tmvv o)
    else some (.tmvvAcc o)
  | 4 =>
    let o := parseT w
    if o.m.getLsbD 0 = false then some (.tmvt o)
    else some (.tmvtAcc o)
  | 5 => some (.ttrn (parseT w))
  | 6 => some (.tscl (parseT w))
  | 7 => some (.wld (parseT w))
  | 8 => some (.ald (parseT w))
  | 9 => some (.ast (parseT w))
  | _ => none

/-- Opcodes 0x90 to 0x9F (02 R56). -/
def row9 (w : DWord) (_lit : Option DWord) : Option Instr :=
  match bits w.toNat 59 56 with
  | 0 => some (.mma (parseT w))
  | 1 => some (.mmag (parseT w))
  | 2 =>
    let o := parseS w
    if o.sub = 0 then some (.mfen o)
    else some (.mfenNum o)
  | 3 => some (.mfct (parseT w))
  | 4 => some (.mtrs (parseT w))
  | 5 =>
    let o := parseS w
    if o.sub = 0 then some (.mestRd o)
    else some (.mestClr o)
  | 6 =>
    let o := parseS w
    if o.sub = 0 then some (.gang o)
    else some (.gangDis o)
  | _ => none

/-- Opcodes 0xA0 to 0xAF (02 R56). -/
def rowA (w : DWord) (_lit : Option DWord) : Option Instr :=
  match bits w.toNat 59 56 with
  | 0 => some (.lrec (parseS w))
  | 1 => some (.rbnd (parseS w))
  | 2 => some (.runb (parseS w))
  | 3 =>
    let o := parseS w
    if o.sub = 0 then some (.rtchFill o)
    else some (.rtchOut o)
  | 4 => some (.rtst (parseS w))
  | 5 => some (.rwt (parseS w))
  | 6 =>
    let o := parseS w
    if o.sub = 0 then some (.cfen o)
    else some (.cfenNum o)
  | 7 =>
    let o := parseS w
    if o.sub = 0 then some (.hnewNew o)
    else some (.hnewFree o)
  | 8 =>
    let o := parseS w
    if o.sub = 0 then some (.rstaE o)
    else some (.rstaH o)
  | _ => none

/-- Opcodes 0xB0 to 0xBF (02 R56). -/
def rowB (w : DWord) (_lit : Option DWord) : Option Instr :=
  match bits w.toNat 59 56 with
  | 0 => some (.bar (parseS w))
  | 1 => some (.bara (parseS w))
  | 2 => some (.barw (parseS w))
  | 3 =>
    let o := parseS w
    if o.sub = 0 then some (.pha o)
    else some (.phaExpect o)
  | 4 =>
    let o := parseS w
    if o.sub = 0 then some (.phxExpect o)
    else if o.sub = 1 then some (.phxInit o)
    else some (.phxRead o)
  | 5 => some (.phw (parseS w))
  | 6 => some (.tkg (parseS w))
  | 7 => some (.tkw (parseS w))
  | 8 =>
    let o := parseS w
    if o.sub = 0 then some (.tksSet o)
    else some (.tksInc o)
  | 9 => some (.tlw (parseS w))
  | 10 => some (.tlr (parseS w))
  | 11 => some (.tls (parseS w))
  | _ => none

/-- Opcodes 0xC0 to 0xCF (02 R56). -/
def rowC (w : DWord) (_lit : Option DWord) : Option Instr :=
  match bits w.toNat 59 56 with
  | 0 =>
    let o := parseS w
    if o.sub = 0 then some (.cmb o)
    else some (.cmbNt o)
  | 1 => some (.cmbr (parseS w))
  | 2 => some (.objr (parseS w))
  | 3 =>
    let o := parseS w
    if o.sub = 0 then some (.objcClr o)
    else some (.objcDel o)
  | 4 => some (.gld (parseM w))
  | 5 => some (.gadd (parseM w))
  | 6 => some (.gmrg (parseM w))
  | 7 => some (.gset (parseM w))
  | 8 =>
    let o := parseS w
    if o.sub = 0 then some (.gswpAdd o)
    else some (.gswpRem o)
  | 9 =>
    let o := parseS w
    if o.sub = 0 then some (.gstpAdd o)
    else some (.gstpRd o)
  | _ => none

/-- Opcodes 0xD0 to 0xDF (02 R56). -/
def rowD (w : DWord) (_lit : Option DWord) : Option Instr :=
  match bits w.toNat 59 56 with
  | 0 => some (.sol (parseS w))
  | 1 => some (.solw (parseS w))
  | 2 => some (.kins (parseS w))
  | 3 =>
    let o := parseS w
    if o.sub = 0 then some (.kdel o)
    else some (.kdelMv o)
  | 4 => some (.rsp (parseS w))
  | 5 => some (.solr (parseS w))
  | _ => none

/-- Opcodes 0xE0 to 0xEF (02 R56). -/
def rowE (w : DWord) (_lit : Option DWord) : Option Instr :=
  match bits w.toNat 59 56 with
  | 0 => some (.trap (parseS w))
  | 1 => some (.tret (parseS w))
  | 2 => some (.tdone (parseS w))
  | 3 => some (.iprf (parseS w))
  | 4 => some (.modl (parseS w))
  | 5 => some (.modu (parseS w))
  | 6 => some (.cntr (parseS w))
  | 7 =>
    let o := parseS w
    if o.sub = 0 then some (.cntc o)
    else some (.cntcAll o)
  | 8 => some (.brk (parseS w))
  | 9 => some (.lnch (parseS w))
  | 10 =>
    let o := parseS w
    if o.sub = 0 then some (.dgstOpen o)
    else if o.sub = 1 then some (.dgstRead o)
    else if o.sub = 2 then some (.dgstRecord o)
    else some (.dgstCheck o)
  | 11 =>
    let o := parseS w
    if o.sub = 0 then some (.pcol o)
    else some (.pcolNowait o)
  | 12 =>
    let o := parseS w
    if o.sub = 0 then some (.sregRd o)
    else if o.sub = 1 ∧ o.imm ≠ 2 ∧ o.imm ≠ 3 then some (.sregWr o)
    else if o.sub = 1 ∧ o.imm = 2 then some (.preemptreq o)
    else some (.resumereq o)
  | 13 => some (.migr (parseS w))
  | _ => none

/-- The instruction of a word and, for a two-slot form, its literal; none for an unassigned opcode (02 R57) or a
missing literal. -/
def parseWord (w : DWord) (lit : Option DWord) : Option Instr :=
  match bits w.toNat 63 60 with
  | 0 => row0 w lit
  | 1 => row1 w lit
  | 2 => row2 w lit
  | 3 => row3 w lit
  | 4 => row4 w lit
  | 5 => row5 w lit
  | 6 => row6 w lit
  | 7 => row7 w lit
  | 8 => row8 w lit
  | 9 => row9 w lit
  | 10 => rowA w lit
  | 11 => rowB w lit
  | 12 => rowC w lit
  | 13 => rowD w lit
  | 14 => rowE w lit
  | _ => none

/-- The opcode of a word (02 R41). -/
def opcOf (w : DWord) : Nat := bits w.toNat 63 56

/-- The opcode is assigned (02 R56, R57). -/
def assigned (opc : Nat) : Bool :=
  (0x00 ≤ opc && opc ≤ 0x7B) ||
  (0x80 ≤ opc && opc ≤ 0x89) ||
  (0x90 ≤ opc && opc ≤ 0x96) ||
  (0xA0 ≤ opc && opc ≤ 0xA8) ||
  (0xB0 ≤ opc && opc ≤ 0xBB) ||
  (0xC0 ≤ opc && opc ≤ 0xC9) ||
  (0xD0 ≤ opc && opc ≤ 0xD5) ||
  (0xE0 ≤ opc && opc ≤ 0xED)

/-- SCOPE 110 or 111 in an F-M word (02 R40, R45). -/
def illScope (i : Instr) : Bool :=
  match i with
  | .ldg o => decide (6 ≤ o.scope.toNat)
  | .stg o => decide (6 ≤ o.scope.toNat)
  | .lds o => decide (6 ≤ o.scope.toNat)
  | .sts o => decide (6 ≤ o.scope.toNat)
  | .ldw o => decide (6 ≤ o.scope.toNat)
  | .stw o => decide (6 ≤ o.scope.toNat)
  | .ldk o => decide (6 ≤ o.scope.toNat)
  | .stk o => decide (6 ≤ o.scope.toNat)
  | .gthr o => decide (6 ≤ o.scope.toNat)
  | .sctr o => decide (6 ≤ o.scope.toNat)
  | .pref o => decide (6 ≤ o.scope.toNat)
  | .wbk o => decide (6 ≤ o.scope.toNat)
  | .inv o => decide (6 ≤ o.scope.toNat)
  | .fnc o => decide (6 ≤ o.scope.toNat)
  | .aadd o => decide (6 ≤ o.scope.toNat)
  | .afad o => decide (6 ≤ o.scope.toNat)
  | .acad o => decide (6 ≤ o.scope.toNat)
  | .amnx o => decide (6 ≤ o.scope.toNat)
  | .afmx o => decide (6 ≤ o.scope.toNat)
  | .amxi o => decide (6 ≤ o.scope.toNat)
  | .alop o => decide (6 ≤ o.scope.toNat)
  | .axch o => decide (6 ≤ o.scope.toNat)
  | .acas o => decide (6 ≤ o.scope.toNat)
  | .ainc o => decide (6 ≤ o.scope.toNat)
  | .ared o => decide (6 ≤ o.scope.toNat)
  | .waita o => decide (6 ≤ o.scope.toNat)
  | .gld o => decide (6 ≤ o.scope.toNat)
  | .gadd o => decide (6 ≤ o.scope.toNat)
  | .gmrg o => decide (6 ≤ o.scope.toNat)
  | .gset o => decide (6 ≤ o.scope.toNat)
  | _ => false

/-- THE DECODER: a word, with the word after it where there is one (02 R38, R40). -/
def decode (w : DWord) (lit : Option DWord) : Except DecErr Instr :=
  if !assigned (opcOf w) then .error (.unassigned (opcOf w))
  else
    match parseWord w lit with
    | none => .error .truncated
    | some i => if illScope i then .error .illScope else if wellFormed i then .ok i else .error .illField

/-- The instruction takes two slots (02 R38). -/
def twoSlot (opc : Nat) : Bool := opc == 0x02 || opc == 0x04 || opc == 0x12

/-- The engine class of an opcode (01 R30, R31). -/
def classOf (opc : Nat) : Nat :=
  match opc / 16 with
  | 2 => 1 | 3 => 1 | 4 => 1 | 5 => 2 | 6 => 3 | 7 => 3 | 8 => 4 | 9 => 4 | 10 => 5 | 11 => 6 | 12 => 3 | 13 => 7
  | _ => 0

/-- A control transfer (02 R38). -/
def isControl (opc : Nat) : Bool :=
  (1 ≤ opc && opc ≤ 7) || opc == 0xE0 || opc == 0xE1 || opc == 0xE2 || opc == 0xE8

/-- The little-endian word of eight bytes (06 R173). -/
def wordOfBytes (bs : List Byte) : DWord := BitVec.ofNat 64 (bytesToNat (bs.take 8))

/-- The decoder on bytes: the instruction and the bytes after it. -/
def decodeBytes (bs : List Byte) : Except DecErr (Instr × List Byte) :=
  if bs.length < 8 then .error .truncated
  else
    let w := wordOfBytes bs
    let rest := bs.drop 8
    if twoSlot (opcOf w) then
      match decode w (if rest.length < 8 then none else some (wordOfBytes rest)) with
      | .ok i => .ok (i, rest.drop 8)
      | .error e => .error e
    else
      match decode w none with
      | .ok i => .ok (i, rest)
      | .error e => .error e

/-- The instruction whose bits are w, bit 0 the least significant bit of the first word; bits above nbits are 0. -/
def decodeTableWord (nbits w : Nat) : Option Instr :=
  let x := w % 2 ^ nbits
  match decodeBytes (natToBytes 16 x) with
  | .ok (i, _) => some i
  | .error _ => none

/-! ### The encoder (02 R41, R45, R56) -/

/-- A source field's eleven bits. -/
def encSrc (a : Src) : BitVec 11 := a.opnd ++ BitVec.ofBool a.last ++ BitVec.ofBool a.etrap

/-- Opcode and guard. -/
def encHead (opc : BitVec 8) (g : Guard) : BitVec 12 := opc ++ BitVec.ofBool g.neg ++ g.idx

/-- F-R. -/
def encR (opc : BitVec 8) (o : OpR) : DWord := encHead opc o.g ++ o.d ++ encSrc o.a ++ encSrc o.b ++ encSrc o.c ++ o.m

/-- F-I. -/
def encI (opc : BitVec 8) (o : OpI) : DWord := encHead opc o.g ++ o.d ++ encSrc o.a ++ o.imm ++ o.m

/-- F-R or F-I. -/
def encRI (opc : BitVec 8) (o : OpRI) : DWord := match o with | .r o => encR opc o | .i o => encI opc o

/-- F-W. -/
def encW (opc : BitVec 8) (o : OpW) : DWord := encHead opc o.g ++ o.d ++ o.z ++ o.imm

/-- F-M. -/
def encM (opc : BitVec 8) (o : OpM) : DWord :=
  encHead opc o.g ++ o.d ++ encSrc o.a ++ encSrc o.b ++ o.ord ++ o.scope ++ o.evict ++ o.size ++ o.off

/-- F-B. -/
def encB (opc : BitVec 8) (o : OpB) : DWord :=
  encHead opc o.g ++ o.toff ++ o.joff ++ BitVec.ofBool o.uni ++ BitVec.ofBool o.qen ++ o.qidx

/-- F-T. -/
def encT (opc : BitVec 8) (o : OpT) : DWord :=
  encHead opc o.g ++ o.td ++ o.ta ++ o.tb ++ BitVec.ofBool o.res ++ o.acc ++ o.ts ++ o.shp ++ o.m

/-- F-S. -/
def encS (opc : BitVec 8) (o : OpS) : DWord := encHead opc o.g ++ o.d ++ encSrc o.a ++ o.imm ++ o.sub ++ o.m

/-- THE ENCODER: the words of an instruction; a step of an engine has none. -/
def encode (i : Instr) : List DWord :=
  match i with
  | .nop o => [encS 0x00 o]
  | .bra o => [encB 0x01 o]
  | .brx o => [encB 0x02 o.b, o.lit]
  | .call o => [encB 0x03 o]
  | .callx o => [encB 0x04 o.b, o.lit]
  | .ret o => [encS 0x05 o]
  | .jmpk o => [encS 0x06 o]
  | .exit o => [encS 0x07 o]
  | .yield o => [encS 0x08 o]
  | .maskr o => [encS 0x09 o]
  | .maskw o => [encS 0x0A o]
  | .vote o => [encR 0x0B o]
  | .plop o => [encR 0x0C o]
  | .chkf o => [encS 0x0D o]
  | .waitf o => [encS 0x0E o]
  | .gsync o => [encS 0x0F o]
  | .kmov o => [encR 0x10 o]
  | .kmovi o => [encW 0x11 o]
  | .klit o => [encW 0x12 o.w, o.lit]
  | .kadd o => [encRI 0x13 o]
  | .ksub o => [encRI 0x14 o]
  | .kmul o => [encRI 0x15 o]
  | .kmad o => [encR 0x16 o]
  | .kshl o => [encRI 0x17 o]
  | .kshr o => [encRI 0x18 o]
  | .klop o => [encR 0x19 o]
  | .kcmp o => [encRI 0x1A o]
  | .ksel o => [encR 0x1B o]
  | .krds o => [encS 0x1C o]
  | .kwrs o => [encS 0x1D o]
  | .krdf o => [encR 0x1E o]
  | .kmnx o => [encRI 0x1F o]
  | .iadd o => [encRI 0x20 o]
  | .isub o => [encRI 0x21 o]
  | .imul o => [encRI 0x22 o]
  | .imulh o => [encR 0x23 o]
  | .imad o => [encR 0x24 o]
  | .imnx o => [encRI 0x25 o]
  | .iabs o => [encR 0x26 o]
  | .shl o => [encRI 0x27 o]
  | .shr o => [encRI 0x28 o]
  | .sar o => [encRI 0x29 o]
  | .lop3 o => [encR 0x2A o]
  | .popc o => [encR 0x2B o]
  | .clz o => [encR 0x2C o]
  | .bfx o => [encR 0x2D o]
  | .bfi o => [encR 0x2E o]
  | .icmp o => [encRI 0x2F o]
  | .fadd o => [encRI 0x30 o]
  | .fsub o => [encRI 0x31 o]
  | .fmul o => [encRI 0x32 o]
  | .ffma o => [encR 0x33 o]
  | .fmnx o => [encRI 0x34 o]
  | .fcmp o => [encRI 0x35 o]
  | .frcp o => [encR 0x36 o]
  | .frsq o => [encR 0x37 o]
  | .fsqrt o => [encR 0x38 o]
  | .fdiv o => [encR 0x39 o]
  | .fex2 o => [encR 0x3A o]
  | .flg2 o => [encR 0x3B o]
  | .fsin o => [encR 0x3C o]
  | .fcos o => [encR 0x3D o]
  | .fcls o => [encR 0x3E o]
  | .fscl o => [encR 0x3F o]
  | .mov o => [encR 0x40 o]
  | .movi o => [encW 0x41 o]
  | .sel o => [encR 0x42 o]
  | .cvt o => [encR 0x43 o]
  | .pack o => [encR 0x44 o]
  | .unpk o => [encR 0x45 o]
  | .prmb o => [encR 0x46 o]
  | .xshf o => [encR 0x47 o]
  | .xred o => [encR 0x48 o]
  | .xscn o => [encR 0x49 o]
  | .mxix o => [encR 0x4A o]
  | .rand o => [encR 0x4B o]
  | .rdsr o => [encS 0x4C o]
  | .clmp o => [encR 0x4D o]
  | .qnt o => [encR 0x4E o]
  | .dqnt o => [encR 0x4F o]
  | .tsum o => [encR 0x50 o]
  | .tdif o => [encR 0x51 o]
  | .tprd o => [encR 0x52 o]
  | .tfma o => [encR 0x53 o]
  | .ftsm o => [encR 0x54 o]
  | .xadd o => [encR 0x55 o]
  | .xsub o => [encR 0x56 o]
  | .xmul o => [encR 0x57 o]
  | .xacc o => [encR 0x58 o]
  | .xrnm o => [encR 0x59 o]
  | .xcpr o => [encR 0x5A o]
  | .xcmp o => [encR 0x5B o]
  | .xcvt o => [encR 0x5C o]
  | .xspl o => [encR 0x5D o]
  | .xtre o => [encR 0x5E o]
  | .xscl o => [encR 0x5F o]
  | .ldg o => [encM 0x60 o]
  | .stg o => [encM 0x61 o]
  | .lds o => [encM 0x62 o]
  | .sts o => [encM 0x63 o]
  | .ldw o => [encM 0x64 o]
  | .stw o => [encM 0x65 o]
  | .ldk o => [encM 0x66 o]
  | .stk o => [encM 0x67 o]
  | .gthr o => [encM 0x68 o]
  | .sctr o => [encM 0x69 o]
  | .pref o => [encM 0x6A o]
  | .wbk o => [encM 0x6B o]
  | .inv o => [encM 0x6C o]
  | .fnc o => [encM 0x6D o]
  | .sbnd o => [encS 0x6E o]
  | .sunb o => [encS 0x6F o]
  | .aadd o => [encM 0x70 o]
  | .afad o => [encM 0x71 o]
  | .acad o => [encM 0x72 o]
  | .amnx o => [encM 0x73 o]
  | .afmx o => [encM 0x74 o]
  | .amxi o => [encM 0x75 o]
  | .alop o => [encM 0x76 o]
  | .axch o => [encM 0x77 o]
  | .acas o => [encM 0x78 o]
  | .ainc o => [encM 0x79 o]
  | .ared o => [encM 0x7A o]
  | .waita o => [encM 0x7B o]
  | .tld o => [encT 0x80 o]
  | .tst o => [encT 0x81 o]
  | .tzro o => [encT 0x82 o]
  | .tzroAcc o => [encT 0x82 o]
  | .tmvv o => [encT 0x83 o]
  | .tmvvAcc o => [encT 0x83 o]
  | .tmvt o => [encT 0x84 o]
  | .tmvtAcc o => [encT 0x84 o]
  | .ttrn o => [encT 0x85 o]
  | .tscl o => [encT 0x86 o]
  | .wld o => [encT 0x87 o]
  | .ald o => [encT 0x88 o]
  | .ast o => [encT 0x89 o]
  | .mma o => [encT 0x90 o]
  | .mmag o => [encT 0x91 o]
  | .mfen o => [encS 0x92 o]
  | .mfenNum o => [encS 0x92 o]
  | .mfct o => [encT 0x93 o]
  | .mtrs o => [encT 0x94 o]
  | .mestRd o => [encS 0x95 o]
  | .mestClr o => [encS 0x95 o]
  | .gang o => [encS 0x96 o]
  | .gangDis o => [encS 0x96 o]
  | .lrec o => [encS 0xA0 o]
  | .rbnd o => [encS 0xA1 o]
  | .runb o => [encS 0xA2 o]
  | .rtchFill o => [encS 0xA3 o]
  | .rtchOut o => [encS 0xA3 o]
  | .rtst o => [encS 0xA4 o]
  | .rwt o => [encS 0xA5 o]
  | .cfen o => [encS 0xA6 o]
  | .cfenNum o => [encS 0xA6 o]
  | .hnewNew o => [encS 0xA7 o]
  | .hnewFree o => [encS 0xA7 o]
  | .rstaE o => [encS 0xA8 o]
  | .rstaH o => [encS 0xA8 o]
  | .bar o => [encS 0xB0 o]
  | .bara o => [encS 0xB1 o]
  | .barw o => [encS 0xB2 o]
  | .pha o => [encS 0xB3 o]
  | .phaExpect o => [encS 0xB3 o]
  | .phxExpect o => [encS 0xB4 o]
  | .phxInit o => [encS 0xB4 o]
  | .phxRead o => [encS 0xB4 o]
  | .phw o => [encS 0xB5 o]
  | .tkg o => [encS 0xB6 o]
  | .tkw o => [encS 0xB7 o]
  | .tksSet o => [encS 0xB8 o]
  | .tksInc o => [encS 0xB8 o]
  | .tlw o => [encS 0xB9 o]
  | .tlr o => [encS 0xBA o]
  | .tls o => [encS 0xBB o]
  | .cmb o => [encS 0xC0 o]
  | .cmbNt o => [encS 0xC0 o]
  | .cmbr o => [encS 0xC1 o]
  | .objr o => [encS 0xC2 o]
  | .objcClr o => [encS 0xC3 o]
  | .objcDel o => [encS 0xC3 o]
  | .gld o => [encM 0xC4 o]
  | .gadd o => [encM 0xC5 o]
  | .gmrg o => [encM 0xC6 o]
  | .gset o => [encM 0xC7 o]
  | .gswpAdd o => [encS 0xC8 o]
  | .gswpRem o => [encS 0xC8 o]
  | .gstpAdd o => [encS 0xC9 o]
  | .gstpRd o => [encS 0xC9 o]
  | .sol o => [encS 0xD0 o]
  | .solw o => [encS 0xD1 o]
  | .kins o => [encS 0xD2 o]
  | .kdel o => [encS 0xD3 o]
  | .kdelMv o => [encS 0xD3 o]
  | .rsp o => [encS 0xD4 o]
  | .solr o => [encS 0xD5 o]
  | .trap o => [encS 0xE0 o]
  | .tret o => [encS 0xE1 o]
  | .tdone o => [encS 0xE2 o]
  | .iprf o => [encS 0xE3 o]
  | .modl o => [encS 0xE4 o]
  | .modu o => [encS 0xE5 o]
  | .cntr o => [encS 0xE6 o]
  | .cntc o => [encS 0xE7 o]
  | .cntcAll o => [encS 0xE7 o]
  | .brk o => [encS 0xE8 o]
  | .sregRd o => [encS 0xEC o]
  | .sregWr o => [encS 0xEC o]
  | .preemptreq o => [encS 0xEC o]
  | .resumereq o => [encS 0xEC o]
  | .lnch o => [encS 0xE9 o]
  | .dgstOpen o => [encS 0xEA o]
  | .dgstRead o => [encS 0xEA o]
  | .dgstRecord o => [encS 0xEA o]
  | .dgstCheck o => [encS 0xEA o]
  | .pcol o => [encS 0xEB o]
  | .pcolNowait o => [encS 0xEB o]
  | .migr o => [encS 0xED o]
  | .clauseSchedule _ _ => []
  | .agePromote _ => []
  | .clauseStart _ _ => []
  | .ifetchLineArrival _ => []
  | .trapEntry _ _ => []
  | .preemptTrap _ => []
  | .forcedSave _ => []
  | .uncorrectedTrap _ => []
  | .registerSpill _ _ => []
  | .registerReload _ _ => []
  | .accessVerdict _ => []
  | .parkedSetReplay _ _ => []
  | .loadDataLand _ => []
  | .storeAck _ => []
  | .mailboxWriteLand _ => []
  | .waitaRetest _ => []
  | .homeAtomic _ _ => []
  | .quadAtomic _ _ => []
  | .portAtomic _ _ => []
  | .aredGatewayCombine _ _ _ _ => []
  | .peerFill _ _ => []
  | .stewardPoll _ _ => []
  | .launch _ _ => []
  | .signal _ _ => []
  | .modload _ _ => []
  | .modunload _ _ => []
  | .wait _ _ => []
  | .badcmd _ _ => []
  | .launchReady _ _ => []
  | .podPartAcceptMsg _ _ _ => []
  | .podPartRefusalMsg _ _ _ => []
  | .blockPlace _ => []
  | .groupStart _ => []
  | .launchDone _ => []
  | .barrierArrival _ => []
  | .barrierCompletionNotify _ _ => []
  | .ticketServeBroadcast _ _ _ _ => []
  | .timelineSignalArrival _ _ => []
  | .chunkRequest _ _ => []
  | .chunkLandFill _ _ _ => []
  | .chunkLandWriteout _ _ _ => []
  | .chunkAbort _ _ _ => []
  | .matOpAccept _ => []
  | .matOpComplete _ => []
  | .matOpAbandon _ => []
  | .gangRendezvous _ => []
  | .liftLineMatch _ => []
  | .throttleWindow _ => []
  | .cmbAccept _ => []
  | .cmbResend _ => []
  | .packForm _ => []
  | .replyLand _ => []
  | .methodFault _ => []
  | .stepPropagate _ _ => []
  | .censusBroadcastArrive _ _ => []
  | .responderSpawn _ => []
  | .responderFault _ => []
  | .diePartialFold _ _ => []
  | .censusResponseArrive _ _ => []
  | .censusTimeout _ => []
  | .censusCloseArrive _ _ => []
  | .censusMoveAtNode _ _ => []
  | .censusMoveAtCore _ _ => []
  | .pageWalk _ _ _ => []
  | .gatherPacketExpand _ _ => []
  | .deadlineExpiry _ => []
  | .correctedError _ _ => []
  | .uncorrectableError _ => []
  | .poisonConsume _ => []
  | .korilinkCrcResend _ => []
  | .pcolMemberExchange _ _ => []
  | .pcolRingStep _ _ _ _ => []
  | .pcolComplete _ => []
  | .pcolBudgetExpiry _ => []
  | .migrSwitch _ => []
  | .hostBar2Write _ _ => []
  | .claim _ _ => []
  | .fqackRetry _ _ => []
  | .fqackRefuse _ _ => []
  | .shootTr _ _ => []
  | .shootData _ _ => []
  | .shootComplete _ => []
  | .cmdpg _ _ => []
  | .attest _ _ _ => []
  | .presetPackage _ => []
  | .presetPartitions _ => []
  | .portRegWrite _ _ _ => []
  | .linkDownOwnerClear _ => []
  | .powerOnReset => []
  | .bootRomFwVerify _ _ => []
  | .fwBringup _ _ => []
  | .stewardInstall _ _ _ _ => []
  | .stewardStart _ => []
  | .fqheadWrite _ _ => []
  | .quadWriteThroughArrive _ => []
  | .refreshInterval _ => []
  | .powerLoss => []
  | .bindingChangePropagate _ _ => []

end Sys2Proof
end

