-- ==== Sys2Proof/Machine/Sched.lean ====
section
/-! DEFINITION. The scheduler of a partition (04 R101 to R103, 05 R114, R146), code fetch (05 R143), the start of a clause
(05 R112, R117, 02 R35, R40) and what a partition issues. -/

namespace Sys2Proof.Machine

open Sys2Proof

/-! ### Fetching a clause (02 R32, R33, 05 R112, R143) -/

/-- COUNT of a header, plus 1. -/
def hdrCount (h : DWord) : Nat := bits h.toNat 60 57 + 1

/-- The word at a code address, when the partition's L0 holds its line. -/
def State.l0Word (s : State) (c : CoreRef) (p asid va : Nat) : Option DWord :=
  (icFind (s.icL0.getD (c, p) []) asid va).map (fun l => l.words.getD (va % 128 / 8) 0)

/-- The clause at a header, or the first address whose line is not in the L0. -/
def State.fetchClause (s : State) (c : CoreRef) (p asid hdr : Nat) : Clause ⊕ Nat :=
  match s.l0Word c p asid hdr with
  | none => .inr hdr
  | some h =>
    let as := (List.range (hdrCount h)).map (fun i => (hdr + 8 + 8 * i) % 2 ^ 56)
    match as.find? (fun a => (s.l0Word c p asid a).isNone) with
    | some a => .inr a
    | none => .inl { hdr := h, slots := as.map (fun a => (s.l0Word c p asid a).getD 0) }

/-- The fetch of a line and of the two lines after it (05 R143). -/
def State.requestLines (s : State) (c : CoreRef) (p asid va : Nat) : State :=
  [0, 1, 2].foldl (fun (s : State) i => s.requestLine c p asid ((va + 128 * i) % 2 ^ 56)) s

/-! ### Decode checks (02 R40) -/

/-- A class that the group's role or a home core forbids (01 R14, 12 R342). -/
def classForbidden (r : LaunchRec) (g : Group) (cls : Nat) : Bool :=
  let has (d : RoleDesc) : Bool := g.kind = .ordinary && d.en && decide (d.first ≤ g.gidx) && decide (g.gidx ≤ d.last)
  (has r.roleCp && !([0, 3, 5, 6].contains cls)) || (has r.roleMx && !([0, 4, 6].contains cls)) ||
  (g.ref.home && (cls == 4 || cls == 5))

/-- A header whose reserved bits, selectors or counts are illegal (02 R40). -/
def headerBad (h : DWord) : Bool :=
  let x := h.toNat
  let sa := bits x 56 54
  let sb := bits x 47 45
  bits x 36 16 != 0 || sa == 7 || sb == 7 || (sa == 0 && bits x 53 48 != 0) || (sb == 0 && bits x 44 39 != 0)

/-- A misplaced control transfer, or a literal beyond the clause (02 R38). -/
def slotsBad : List DWord → Bool
  | [] => false
  | w :: rest =>
    let opc := opcOf w
    if twoSlot opc then
      match rest with
      | [] => true
      | _ :: rest' => (isControl opc && !rest'.isEmpty) || slotsBad rest'
    else (isControl opc && !rest.isEmpty) || slotsBad rest

/-- Tile registers that a word names: the fields its form uses (11 R300, R317). -/
def tilesNamed (i : Instr) : List Nat :=
  match i with
  | .tld o | .tzro o | .tmvt o | .mfct o => [o.td.toNat]
  | .tst o | .tmvv o | .ald o | .ast o => [o.ta.toNat]
  | .ttrn o => [o.td.toNat, o.ta.toNat]
  | .tscl o => [o.td.toNat, o.ta.toNat, o.ts.toNat]
  | .wld o | .mma o | .mmag o => [o.ta.toNat, o.ts.toNat]
  | .mtrs o => o.td.toNat :: (if o.perm then [o.tb.toNat] else [])
  | _ => []

/-- Accumulator blocks that a word's ACC field names (11 R300, R317). -/
def accsNamed (i : Instr) : List Nat :=
  match i with
  | .tzroAcc o | .tmvvAcc o | .tmvtAcc o | .ald o | .ast o | .mma o | .mmag o | .mfct o | .mtrs o => [o.acc.toNat]
  | _ => []

/-- The block holds the tile registers and accumulator blocks that a word names (01 R15, 02 R49, 11 R300). -/
def holdsNamed (r : LaunchRec) (i : Instr) : Bool :=
  (tilesNamed i).all (· < r.tiles) && (accsNamed i).all (· < r.accb)

/-- The first slot that fails its checks: its index and cause (02 R40). -/
def slotFault (r : LaunchRec) (cls : Nat) (i : Nat) : List DWord → Option (Nat × Cause)
  | [] => none
  | w :: rest =>
    let opc := opcOf w
    let err : Option Cause :=
      if !assigned opc then some .illop
      else if classOf opc ≠ cls then some .illclass
      else match decode w rest.head? with
        | .ok ins => if holdsNamed r ins then none else some .illop
        | .error .illScope => some .illscope
        | .error _ => some .illop
    match err with
    | some c => some (i, c)
    | none =>
      if twoSlot opc then
        match rest with
        | [] => none
        | _ :: rest' => slotFault r cls (i + 2) rest'
      else slotFault r cls (i + 1) rest

/-- The trap of a fetched clause: cause and `%tpc` (02 R40). -/
def clauseFault (r : LaunchRec) (g : Group) (hdr : Nat) (c : Clause) : Option (Cause × Nat) :=
  let cls := bits c.hdr.toNat 63 61
  if classForbidden r g cls then some (.illclass, hdr)
  else if headerBad c.hdr || slotsBad c.slots then some (.illclause, hdr)
  else (slotFault r cls 0 c.slots).map (fun x => (x.2, hdr + 8 + 8 * x.1))

/-! ### Wait slots (02 R35) -/

/-- Both wait slots of a header hold. -/
def waitsHold (g : Group) (h : DWord) : Bool :=
  let x := h.toNat
  let ok (sel mx : Nat) : Bool := sel == 0 || decide (g.ctr.sel sel ≤ mx)
  ok (bits x 56 54) (bits x 53 48) && ok (bits x 47 45) (bits x 44 39)

/-! ### Arrival at a join (05 R117, R122) -/

/-- What a split finds at a JOIN header. -/
inductive Arrival where
  /-- it goes on with its clause -/
  | go (g : Group)
  /-- its entry is freed or runs elsewhere -/
  | away (g : Group)
  deriving Repr

/-- Split e starts a clause whose header at h has JOIN = 1; nested records at one address in turn. -/
def Group.arriveJoin (g : Group) (e h : Nat) : Nat → Arrival
  | 0 => .go g
  | fuel + 1 =>
    let sp := g.split e
    if sp.jref = 0x1F then
      .go (g.modSplit e (fun sp => { sp with mask := sp.mask ||| sp.dorm, dorm := 0 }))
    else
      match g.joins[sp.jref]? with
      | none => .go g
      | some j =>
        if !j.valid || j.j ≠ h then .go g
        else
          let arr := j.arrived ||| sp.mask ||| sp.dorm
          let put (f : Join → Join) (g : Group) : Group := { g with joins := modNth g.joins sp.jref f }
          if j.defer then
            .away (put (fun j => { j with arrived := arr, defer := false })
              (g.modSplit e (fun sp => { sp.goto j.dpc with mask := j.dmask, dorm := 0 })))
          else if arr = j.mask then
            Group.arriveJoin (put (fun _ => Join.free)
              (g.modSplit e (fun sp => { sp with mask := arr, dorm := 0, jref := j.outer }))) e h fuel
          else .away (put (fun j => { j with arrived := arr }) (g.modSplit e (fun _ => Split.free)))

/-! ### Readiness (05 R114, 04 R101) -/

/-- A group may start clauses: it runs, no pre-emption and no asynchronous trap waits at its boundary, and no recovery of
another wave holds its block (05 R131, R137, 04 R110). -/
def State.mayStart (s : State) (g : Group) : Bool :=
  g.isRunning && !g.uncorr && !(decide (g.depth = 0) && (g.preemptReq || g.prepend)) &&
  !(match s.blockOf g with | some b => b.hold && decide (g.kind = .ordinary) | none => false)

/-- A split is ready: inside a clause, or at a header where its group may start one. -/
def State.splitReady (s : State) (g : Group) (e : Nat) : Bool :=
  let sp := g.split e
  sp.state == .ready && sp.trap.isNone && g.isRunning && (sp.inClause || s.mayStart g)

/-- The clause that a split stands at, started or not, if the L0 holds it. -/
def State.clauseAt (s : State) (g : Group) (e : Nat) : Option Clause :=
  let sp := g.split e
  match sp.clause with
  | some c => some c
  | none =>
    match s.fetchClause g.ref.coreRef (partOf g.ref) (s.asidOf g) sp.hdr with
    | .inl c => some c
    | .inr _ => none

/-- The split would only find, at the start of its clause, that a wait slot holds it: no trap and no arrival at a join comes
before (05 R112, 02 R35). -/
def State.notYet (s : State) (g : Group) (e : Nat) : Bool :=
  let sp := g.split e
  !sp.started &&
  (match s.clauseAt g e with
   | some c => !waitsHold g c.hdr && (sp.clause.isSome || (decide (sp.slot < hdrCount c.hdr) &&
       !(c.hdr.getLsbD 38 && sp.slot == 0) && (clauseFault (s.recOf g) g sp.hdr c).isNone))
   | none => false)

/-- What a split waits for has come (05 R114). Waits that only the slot itself can test end at a free moment: the slot is
then issued again and blocks again (log 28). While a trap of kind A is handled, the ordinary splits wait for its end
(05 R133, R137). -/
def State.wakes (s : State) (g : Group) (e : Nat) : Bool :=
  let sp := g.split e
  let free := Config.freePick (s.tick * 1024 + g.ref.slot * 16 + e) % 2 == 1
  !(decide (0 < g.depth) && g.suspended.isNone && decide (e < 8)) &&
  match sp.wait with
  | .waitSlot => (match s.clauseAt g e with | some c => waitsHold g c.hdr | none => true)
  | .empty k r m => !regEmpty s g k r m sp.replay
  | .phys n => decide (s.physUsed g.ref.coreRef (partOf g.ref) + n ≤ physTotal g.ref.coreRef)
  | .reload r => !(g.vreg r).spilled
  | .retest | .room => free
  | .syncSlot => g.allReached e && free
  | .chunks n _ _ =>
    let r := s.regions.getD (g.ref.coreRef, n) default
    r.state == .free || r.lid != g.lid || r.blk != g.blk
  | .crossLane m => (m &&& ~~~g.exited &&& ~~~(((List.range 8).filter (fun i =>
      (g.split i).atSlot sp.hdr sp.slot && (g.split i).state == .held && (g.split i).crossMask.isSome)).foldl
        (fun x i => x ||| (g.split i).mask) 0)) == 0 && free
  | _ => false

/-- The splits of a group whose waits have ended are READY, and those whose clause a wait slot holds are not (05 R114, 04 R101);
deferred parts take entries that are free (05 R118), HELD while another split is in a handler (R133). -/
def State.wakeGroup (s : State) (r : GRef) : State :=
  match s.group? r with
  | none => s
  | some g0 =>
    let g := (List.range 8).foldl (fun (g : Group) e => g.holdAtEnd e) (g0.settle s.nextId)
    let es := (List.range 10).filter (fun e =>
      ((g.split e).state == .blocked || (g.split e).state == .held) && (g.split e).trap.isNone && s.wakes g e)
    let ns := (List.range 10).filter (fun e => s.splitReady g e && s.notYet g e)
    if es = [] && ns = [] then s.putGroup (g.readied s.nextId g0)
    else s.modReady r (fun _ => ns.foldl (fun (g : Group) e =>
        g.modSplit e (fun sp => { sp with state := .blocked, wait := .waitSlot }))
      (es.foldl (fun (g : Group) e => g.modSplit e (fun sp => { sp with state := .ready, wait := .none })) g))

/-- The resident groups of a partition of a core. -/
def State.resident (s : State) (c : CoreRef) (p : Nat) : List Group :=
  s.groups.filter (fun g => g.ref.coreRef = c && partOf g.ref = p && g.isRunning)

/-- The order in which a partition chooses among groups: class, age, slot (04 R101). -/
def schedLe (x y : Group) : Bool :=
  decide (x.klass < y.klass) || (x.klass == y.klass &&
    (decide (x.age < y.age) || (x.age == y.age && decide (x.ref.slot ≤ y.ref.slot))))

/-- The oldest ready split of a group: its age runs, as a group's does, since it last started a clause or became ready
(04 R101, log 32). -/
def State.oldestReady (s : State) (g : Group) : Option Nat :=
  let es := (List.range 10).filter (fun e => s.splitReady g e)
  (sortBy (fun (a b : Nat) => (g.split a).since ≤ (g.split b).since) es).head?

/-- The group and split a partition selects (04 R101); a group that yields comes after the others (05 R149). -/
def State.choose (s : State) (c : CoreRef) (p : Nat) : Option (Nat × Nat) :=
  let gs := sortBy schedLe (s.resident c p)
  let ready := gs.filterMap (fun g => (s.oldestReady g).map (fun e => (g.ref.slot, e)))
  let y := (s.sched.getD (c, p) default).yield
  match ready.find? (fun x => some x.1 ≠ y) with
  | some x => some x
  | none => ready.head?

/-! ### Stall counters (05 R146) -/

/-- The stall counter that a split's wait is charged to. A wait for an engine's reply counts as STALL_BARRIER and one for an
access's verdict as STALL_STRUCT: R146 names neither (DESIGN CHOICE, log 132). -/
def State.stallOf (s : State) (g : Group) (sp : Split) : Nat :=
  match sp.wait with
  | .fetch =>
    let asid := s.asidOf g
    if (icFind (s.icL1.getD g.ref.coreRef []) asid sp.hdr).isSome then 4
    else if (icFind (s.icL2.getD (icQuad g.ref.coreRef) []) asid sp.hdr).isSome then 3
    else 2
  | .empty .. => 5
  | .waitSlot => 7
  | .phys _ | .reload _ | .room | .verdict _ => 9
  | _ => 8

/-- The counter of a cycle in which a partition issues nothing: the causes in the order of R146 for the group that the
scheduler would have chosen, IDLE without a group. -/
def State.stallEvent (s : State) (c : CoreRef) (p : Nat) : Nat :=
  match sortBy schedLe (s.resident c p) with
  | [] => 0x0A
  | g :: _ => ((g.splits.filter (fun sp => sp.state != .free)).map (s.stallOf g)).foldl min 9

/-- CLAUSE_SCHEDULE (R101): waits that have ended end, and the partition keeps the clause it is in or selects a ready group
and split. Cycles without a choice are charged to a stall counter; their number is free (log 17). -/
def execClauseSchedule (c : CoreRef) (p : Nat) (s : State) : Out :=
  if s.held || s.stopped.contains (s.partIdx c.die) then .next s
  else
    let s1 := ((s.resident c p).map (·.ref)).foldl (fun (s : State) r => s.wakeGroup r) s
    let ps := s1.sched.getD (c, p) default
    let keeps := match ps.sel with
      | none => false
      | some (slot, e) =>
        match s1.group? { home := c.home, die := c.die, core := c.core, slot := slot } with
        | none => false
        | some g => (g.split e).started && s1.splitReady g e
    if keeps then .next s1
    else
      match s1.choose c p with
      | none =>
        .next (({ s1 with sched := s1.sched.set (c, p) { ps with sel := none } }).count c 1 (s1.stallEvent c p)
          (1 + Config.freePick s1.tick))
      | some x => .next { s1 with sched := s1.sched.set (c, p) { sel := some x, yield := none } }

/-- AGE_PROMOTE (R101): a group that waits ready rises by one class, and the promotion is counted (04 R111). Cycles are not
counted: it may happen at any moment at which the group is ready (log 6). -/
def execAgePromote (g : GRef) (s : State) : Out :=
  match s.group? g with
  | none => .next s
  | some x =>
    let sel := (s.sched.getD (g.coreRef, partOf g) default).sel
    if (s.oldestReady x).isSome && sel.map (·.1) ≠ some g.slot && x.klass ≠ 0 then
      .next ((s.modGroup g (fun x => { x with klass := x.klass - 1 })).count g.coreRef 0 6)
    else .next s

/-! ### The start of a clause (05 R112) -/

/-- The split with which a LANE clause that starts is paired, and the slots: another split of the group that is ready at a LANE
clause, not paired yet, whose quarters fit beside it; until the shorter clause ends (04 R103, 05 R123; log 100). -/
def State.pairs (s : State) (g : Group) (e : Nat) (c : Clause) : Option (Nat × Nat) :=
  let quarters (i : Nat) : Nat := ((g.split i).mask.card + 7) / 8
  let lane (c : Clause) : Bool := bits c.hdr.toNat 63 61 == 1
  let fits (i : Nat) : Option (Nat × Nat) :=
    if i ≠ e && s.splitReady g i && !(g.split i).paired && decide (quarters e + quarters i ≤ 4) then
      ((s.clauseAt g i).filter (fun d => lane d && waitsHold g d.hdr)).map (fun d =>
        (i, min (hdrCount c.hdr - (g.split e).slot) (hdrCount d.hdr - (g.split i).slot)))
    else none
  if lane c && !(g.split e).paired then (List.range 10).findSome? fits else none

/-- A pack wave that has started 2^20 clauses without its CMBR (12 R358). -/
def State.spent (s : State) (g : Group) : Bool :=
  match g.kind with
  | .pack id => decide (2 ^ 20 ≤ g.clauses) && s.packs.any (fun p => p.id = id && !p.committed)
  | _ => false

/-- The wait slots are tested and the clause starts, or its split is BLOCKED (02 R35). The clause after a pack wave's 2^20th
issues no slot: METHOD_FAULT ends the wave (12 R358). A clause counts once in CLAUSES, and its slots once in SPLIT_PAIR
(05 R147). -/
def State.startClause (s : State) (r : GRef) (e : Nat) (c : Clause) : State :=
  match s.group? r with
  | none => s
  | some g =>
    if !waitsHold g c.hdr then
      s.modSplit r e (fun sp => { sp with clause := some c, state := .blocked, wait := .waitSlot })
    else if s.spent g then
      s.modGroup r (fun g => { g.modSplit e (fun sp => { sp with state := .blocked, wait := .reply, trap := some ⟨.illop, 0, 0⟩ }) with
        clauses := g.clauses + 1 })
    else
      let pair := s.pairs g e c
      let fresh := !(g.split e).counted && (g.split e).slot == 0
      let mate (g : Group) : Group := match pair with
        | some (i, _) => g.modSplit i (fun sp => { sp with paired := true })
        | none => g
      let s1 := s.modGroup r (fun g =>
        { (mate g).modSplit e (fun sp => { sp with
            clause := some c, started := true, state := .ready, wait := .none, since := s.nextId, counted := true,
            paired := sp.paired || pair.isSome }) with
          age := s.nextId, lastStart := s.nextId, clauses := g.clauses + 1, klass := (s.recOf g).prio })
      let s2 : State := { s1 with nextId := s1.nextId + 1 }
      (s2.count r.coreRef 1 0 (if fresh then 1 else 0)).count r.coreRef 1 0xC ((pair.map (·.2)).getD 0)

/-- The split no longer holds its partition. -/
def State.deselect (s : State) (r : GRef) : State :=
  let k := (r.coreRef, partOf r)
  { s with sched := s.sched.set k { s.sched.getD k default with sel := none } }

/-- Records that an arrival merged and freed (05 R117). -/
def joinMerges (x y : Group) : Nat := (x.joins.filter (·.valid)).length - (y.joins.filter (·.valid)).length

/-- CLAUSE_START (R112): the selected split's clause is fetched and checked (R40), a JOIN arrival is made (R117), the wait
slots are tested (R35). A split that keeps its clause only tests the wait slots again; one restored at the end of its clause
stands at the next header (R112, R140). -/
def execClauseStart (g : GRef) (e : Nat) (s : State) : Out :=
  match s.group? g with
  | none => .next s
  | some x =>
    let sp := x.split e
    let p := partOf g
    let c := g.coreRef
    let chosen := (s.sched.getD (c, p) default).sel == some (g.slot, e)
    if !chosen || sp.started || !s.splitReady x e || s.held || s.stopped.contains (s.partIdx g.die) then .next s
    else
      match sp.clause with
      | some cl => .next (s.startClause g e cl)
      | none =>
        let asid := s.asidOf x
        if sp.hdr % 8 ≠ 0 then .next ((s.deselect g).takeTrap g e .misalign 0 sp.hdr)
        else if (s.moduleAt c.die asid sp.hdr).isNone then .next ((s.deselect g).takeTrap g e .access 0 sp.hdr)
        else
          match s.fetchClause c p asid sp.hdr with
          | .inr a =>
            if (s.moduleAt c.die asid a).isNone then .next ((s.deselect g).takeTrap g e .access 0 sp.hdr)
            else
              .next (((s.requestLines c p asid a).deselect g).modSplit g e (fun sp =>
                { sp with state := .blocked, wait := .fetch }))
          | .inl cl =>
            let s1 := s.requestLines c p asid sp.hdr
            match clauseFault (s.recOf x) x sp.hdr cl with
            | some (ca, tpc) => .next ((s1.deselect g).takeTrap g e ca 0 tpc)
            | none =>
              if hdrCount cl.hdr ≤ sp.slot then
                .next ((s1.deselect g).modReady g (fun x =>
                  (x.modSplit e (fun sp => sp.goto (sp.hdr + 8 + 8 * hdrCount cl.hdr))).holdAtEnd e))
              else if cl.hdr.getLsbD 38 && sp.slot = 0 then
                match x.arriveJoin e sp.hdr 17 with
                | .away y => .next (((s1.modGroup g (fun _ => y)).deselect g).count c 1 0xE (joinMerges x y))
                | .go y => .next (((s1.modGroup g (fun _ => y)).startClause g e cl).count c 1 0xE (joinMerges x y))
              else .next (s1.startClause g e cl)

/-! ### Code lines (05 R143) -/

/-- The splits of a partition that wait for a line. -/
def State.lineWaiters (s : State) (f : IFill) : List (GRef × Nat) :=
  (s.resident f.c f.p).flatMap (fun g =>
    if s.asidOf g ≠ f.asid then []
    else
      ((List.range 10).filter (fun e =>
        let sp := g.split e
        sp.state == .blocked && sp.wait == .fetch &&
        (match s.fetchClause f.c f.p f.asid sp.hdr with | .inr a => a / 128 == f.line | .inl _ => true))).map (fun e => (g.ref, e)))

/-- IFETCH_LINE_ARRIVAL (R143): a line arrives and fills every level that missed; the splits that wait for it are READY.
A page fault holds the split until it is served, and drops a prefetch. Poisoned words do not arrive (14 R418). -/
def execIfetchLineArrival (n : Nat) (s : State) : Out :=
  match s.ifills.find? (fun f => f.id = n) with
  | none => .next s
  | some f =>
    let va := f.line * 128
    let ws := s.lineWaiters f
    let s1 : State := { s with ifills := s.ifills.filter (fun x => x.id ≠ n) }
    match s.rangeFault f.c.die f.asid va 128 false with
    | some (a, k, e, l) =>
      let note (acc : Option State) (w : GRef × Nat) : Option State :=
        acc.bind (fun s => s.recordFault f.asid a k e l 3 (engineSrc f.c) (.fetch w.1 w.2))
      .next ((ws.foldl note (some s1)).getD s)
    | none =>
      if (s.poisonAt f.c.die f.asid va 128).isSome then .next s
      else
        let s2 := s1.icFill f.c f.p f.asid va 0
        .next (ws.foldl (fun (s : State) w => s.modReady w.1 (fun g => g.modSplit w.2 (fun sp =>
          { sp with state := .ready, wait := .none }))) s2)

/-! ### What a partition issues (05 R112) -/

/-- The instruction at a split's position: its slot word with the word after it (05 R112, 02 R38). -/
def Split.fetched (sp : Split) : Option Instr :=
  match sp.clause with
  | none => none
  | some c =>
    match c.slots[sp.slot]? with
    | none => none
    | some w =>
      match decode w c.slots[sp.slot + 1]? with
      | .ok i => some i
      | .error _ => none

/-- The split may issue: its group runs, its clause has started and it is READY (05 R112, R114). -/
def Group.mayIssue (g : Group) (e : Nat) : Bool :=
  let sp := g.split e
  g.isRunning && sp.state == .ready && sp.started && sp.trap.isNone

/-- The split that a partition of a core has selected, with the instruction it stands at, when it may issue. Nothing
issues while the cores are held in reset (14 R434) or its partition of dies is stopped (14 R402, R419). -/
def State.selected (s : State) (c : CoreRef) (p : Nat) : Option (Issuer × Instr) :=
  if s.held || s.stopped.contains (s.partIdx c.die) then none
  else
    match s.sched.get? (c, p) with
    | none => none
    | some ps =>
      match ps.sel with
      | none => none
      | some (slot, e) =>
        let r : GRef := { home := c.home, die := c.die, core := c.core, slot := slot }
        match s.group? r with
        | none => none
        | some g =>
          if g.mayIssue e then
            match (g.split e).fetched with
            | some i => some (⟨r, e⟩, i)
            | none => none
          else none

end Sys2Proof.Machine
end

