-- ==== Sys2Proof/Machine/Ports.lean ====
section
/-! DEFINITION. The memory controllers and their errors (14 R403 to R423): walks, containment, answers to fault records,
page migration, ECC, the Korilink ports. -/

namespace Sys2Proof.Machine

open Sys2Proof

/-! ### Containment of uncorrectable errors (14 R419) -/

/-- The containment level: 0 block, 1 context, 2 partition, 3 device. -/
def containLevel (own : Nat) (dirty : Bool) : Nat :=
  match own with
  | 0 => if dirty then 1 else 0
  | 1 => 1
  | 2 => 2
  | _ => if dirty then 3 else 2

/-- Groups take UNCORRECTED at their next clause boundary (05 R131). -/
def State.markUncorr (s : State) (p : Group → Bool) : State :=
  { s with groups := s.groups.map (fun (g : Group) => if p g then { g with uncorr := true } else g) }

/-- A launch contained at context level: queued, it completes with END 3 without starting; placed, its unplaced blocks are
dropped. -/
def State.containLaunch (s : State) (lid : Nat) : State :=
  match s.launch? lid with
  | none => s
  | some l =>
    match l.state with
    | .done => s
    | .queued | .ready => s.refuseLaunch lid 3
    | _ => (s.modLaunch lid (fun l => { l with endc := 3, unplaced := [] })).drainCheck lid

/-- Every launch of a partition whose address space is chosen is contained, and its groups take UNCORRECTED. -/
def State.containLaunches (s : State) (p : Launch → Bool) : State :=
  let ls := (s.launches.filter (fun l => p l && l.state ≠ .done)).map (·.lid)
  let s1 := s.markUncorr (fun g => ls.contains g.lid)
  ls.foldl (fun (s : State) lid => s.containLaunch lid) s1

/-- The cores and the steward of a partition stop (14 R419). -/
def State.stopPart (s : State) (pt : Nat) : State :=
  let s1 := s.containLaunches (fun l => l.part == pt)
  { s1 with
    stopped := if s1.stopped.contains pt then s1.stopped else s1.stopped ++ [pt],
    regs := { s1.regs with pfail := true } }

/-- An escalation: a KIND 8 record with the PA and the level, then what the level does (14 R418, R419). `g` is the consuming
group. None while the fault queue has no room. -/
def State.escalate (s : State) (level die asid pa sclass src : Nat) (g : Option GRef) : Option State :=
  if !s.fqRoom then none
  else
    let s1 := s.fqPut (pa % 2 ^ 56) (asid * 2 ^ 52 + 8 * 2 ^ 48 + sclass * 2 ^ 30 + src) 0 (Config.levelCode level % 16 * 2 ^ 4)
    let s2 := (s1.countPort die 2).countPort die 0xA
    let pt := s.partIdx die
    match level with
    | 0 =>
      match g.bind s.group? with
      | none => some s2
      | some x =>
        let s3 := s2.markUncorr (fun y => y.ref == x.ref ||
          (!x.isPack && !y.isPack && y.lid == x.lid && y.blk == x.blk))
        some (if x.isPack then s3 else s3.modLaunch x.lid (fun l => { l with endc := 3 }))
    | 1 => some (s2.containLaunches (fun l => l.part == pt && l.lrec.asid == asid))
    | 2 => some (s2.stopPart pt)
    | _ =>
      let s3 := (List.range s2.parts.length).foldl (fun (s : State) pt => s.stopPart pt) s2
      some { s3 with kports := (List.range 16).map (fun p => (p, ⟨true, (s3.kports.getD p ⟨false, 0⟩).resends⟩)) }

/-- POISON_CONSUME (R418): an access, or a code fetch, meets poisoned data; it lands nothing and the error is escalated.
Copy chunks, matrix operations and collectives have outcomes of their own (10 R287, 11 R314, R427). -/
def execPoisonConsume (n : Nat) (s : State) : Out :=
  match s.op? n, s.ifills.find? (fun f => f.id = n) with
  | some o, _ =>
    match o.lanes.findSome? (fun l => if l.status = .accepted then (s.lanePoison o l).map (fun x => (l, x)) else none) with
    | none => .next s
    | some (l, own, dirty, pa) =>
      match s.escalate (containLevel own dirty) o.g.die o.asid pa 0 (requesterHi o.g l.lane * 2 ^ 10) (some o.g) with
      | none => .next s
      | some s1 => .next (if o.holds then (s1.closeOp o).finishSlot o.g o.entry else s1.closeOp o)
  | none, some f =>
    match s.poisonAt f.c.die f.asid (f.line * 128) 128 with
    | none => .next s
    | some (own, dirty, pa) =>
      let who := ((s.lineWaiters f).map (·.1)).head?
      match s.escalate (containLevel own dirty) f.c.die f.asid pa 3 (engineSrc f.c) who with
      | none => .next s
      | some s1 => .next { s1 with ifills := s1.ifills.filter (fun x => x.id ≠ n) }
  | none, none => .next s

/-! ### Translation (14 R403 to R409) -/

/-- An entry put into a list of a capacity; when it is full the entry that leaves is free (log 17). -/
def putFree {α : Type} (l : List α) (cap tick : Nat) (x : α) : List α :=
  x :: (if l.length < cap then l else l.eraseIdx (Config.freePick tick % l.length))

/-- A miss at a slice that a secondary leaf translates enters a redirect into the slice's remap filter, whose 256 entries are
replaced least recently used; one that it holds is used (R409). -/
def State.remapEnter (s : State) (die asid va : Nat) (l : DWord) : State :=
  let h := s.homeOf die asid va
  if !leafSec l then s
  else if (s.remapped h asid va).isSome then s.remapUse die asid [va]
  else
    let pasid := bits l.toNat 15 4
    let pbase := bits l.toNat 55 16 * 2 ^ 16
    match s.leafAt die pasid pbase with
    | .leaf pl plevel =>
      let n := levelSize plevel
      let e : Remap := { asid := asid, page := va / n * n, pasid := pasid, ppage := pbase, size := n }
      if leafSec pl then s else { s with remap := s.remap.set h (e :: (s.remap.getD h []).take 255) }
    | .fault _ _ _ => s

/-- PAGE_WALK (R405): a controller translates a miss at a slice; it walks the tables for a translation it does not hold and
keeps the leaf. The redirect of a secondary leaf enters the slice's remap filter (R409); a poisoned table entry is escalated at
partition level (R418). -/
def execPageWalk (ctl asid va : Nat) (s : State) : Out :=
  let die := ctl / 2
  if ctlOf (s.homeOf die asid va) ≠ ctl || !globalVa va || 4096 ≤ asid then .next s
  else
  match tlbFind (s.tlb.getD ctl []) asid va with
  | some t => .next (s.remapEnter die asid va t.leaf)
  | none =>
    let r := s.walkAll die asid va
    match r.2.find? (fun a => s.poison.contains (s.physKey die a / 16 * 16)) with
    | some a =>
      match s.escalate 2 die asid a 3 (die * 2 ^ 6) none with
      | none => .next s
      | some s1 => .next s1
    | none =>
      match r.1 with
      | .fault _ _ _ => .next s
      | .leaf l level =>
        let t : Tlb := { asid := asid, base := va / levelSize level * levelSize level, level := level, leaf := l }
        .next (({ s with tlb := s.tlb.set ctl (putFree (s.tlb.getD ctl []) 2048 s.tick t) } : State).remapEnter die asid va l)

/-- Translations of a page range of an address space leave every controller of a partition, and the redirects of those
addresses leave the filters of its slices (R407, log 31). -/
def State.dropTranslations (s : State) (pt asid va len : Nat) : State :=
  let dies := s.partDies pt
  { s with
    tlb := s.tlb.map (fun x => if dies.contains (x.1 / 2) then
      (x.1, x.2.filter (fun t => !(t.asid = asid && rangesMeet t.base (levelSize t.level) va len))) else x),
    remap := s.remap.map (fun x => if dies.contains x.1.1 then
      (x.1, x.2.filter (fun r => !(r.asid = asid && rangesMeet r.page r.size va len))) else x) }

/-! ### Answers to fault records (14 R412) -/

/-- What a collective writes last: STATA, and a memory timeline of COMP (R427). -/
def Collective.doneOuts (c : Collective) : List Nat :=
  (if c.stata = 0 then [] else [c.stata]) ++ (if refKind c.comp = 1 then [bits c.comp.toNat 55 0] else [])

/-- A collective completes with a status (R427): STATA, then COMP, once no page they lie on migrates (R414). Each is written only
where its page accepts that (log 103). -/
def State.colFinish (s : State) (c : Collective) (status : Nat) : State :=
  let die := c.core.die
  if c.doneOuts.any (fun a => s.gdMigrates die c.asid a) then
    { s with cols := s.cols.map (fun (x : Collective) =>
        if x.id = c.id then { x with state := .closing, status := status, left := [], todo := [] } else x) }
  else
    let takes (a : Nat) : Bool := (s.rangeFault die c.asid a 8 true).isNone
    let s1 := if c.stata ≠ 0 && takes c.stata then s.homeWrite die c.asid c.stata (natToBytes 8 status) else s
    let s2 := if refKind c.comp ≠ 1 || takes (bits c.comp.toNat 55 0) then s1.refSignal die c.asid c.lid c.comp c.compv else s1
    let s3 : State := { s2.dlLeave (.col c.id) with cols := s2.cols.filter (fun (x : Collective) => x.id ≠ c.id) }
    s3.countPort die 0xD

/-- What a request that joined a record does at the answer. -/
def State.answerOne (s : State) (refuse : Bool) (w : Requester) : State :=
  match w with
  | .parked g i =>
    let more := s.faults.any (fun f => f.joined.contains w)
    s.modGroup g (fun x => { x with parked := modNth x.parked i (fun (p : Parked) =>
      { p with served := !more, refused := p.refused || refuse }) })
  | .fetch g e =>
    match s.group? g with
    | none => s
    | some x =>
      let sp := x.split e
      if sp.state = .blocked && sp.wait = .fetch then
        if refuse then
          (s.modSplit g e (fun sp => { sp with state := .ready, wait := .none })).takeTrap g e .access 0 sp.hdr
        else s.modReady g (fun x => x.modSplit e (fun sp => { sp with state := .ready, wait := .none }))
      else s
  | .chunk q => if refuse then s.abortChunk q 3 else s
  | .matOp c id =>
    match (s.mat c).accepted.find? (fun o => o.id = id) with
    | some o => if refuse then s.abandonMat o else s
    | none => s
  | .pcol id =>
    match s.cols.find? (fun c => c.id = id) with
    | some c => if refuse then s.colFinish c 4 else s
    | none => s
  | .engine => s

/-- A record answered: it is no longer unanswered, and every request that joined it goes on. -/
def State.answerFault (s : State) (fid : Nat) (refuse : Bool) : State :=
  match s.faults.find? (fun f => f.fid = fid) with
  | none => s
  | some f =>
    let s1 : State := { s with faults := s.faults.filter (fun x => x.fid ≠ fid) }
    f.joined.foldl (fun (s : State) w => s.answerOne refuse w) s1

/-! ### Page migration (14 R413, R414) -/

/-- MIGR (R413): the page is locked and copied; the split waits at the slot. -/
def execMigr (o : OpS) (s : State) : Out :=
  slot s o.g (kRds o.a 2) [] (fun c =>
    let a := (c.k o.a.kNum).toNat
    let dst := (c.k (o.a.kNum + 1)).toNat
    let d := dstNum o.d
    if !c.s0.privileged c.g then .trap .access 0
    else
      let asid := bits dst 63 52
      let newPa := bits dst 51 0
      let die := c.r.die
      let r := c.s.walkAll die asid a
      let bad := .ok (c.putK c.s d 2)
      if r.2.any (fun x => c.s.poison.contains (c.s.physKey die x / 16 * 16)) then .block c.s .retest
      else if 2 ^ 56 ≤ a then bad
      else
        match r.1 with
        | .fault _ _ _ => bad
        | .leaf l level =>
          let size := levelSize level
          let old := c.s.physKey die (leafPa l)
          let new := c.s.physKey die newPa
          if leafSec l || leafOwn l = 3 || level = 2 || newPa % size ≠ 0 || bits newPa 51 44 ≠ c.s.pkg ||
              c.s.outside die (newPa + size - 1) || c.s.outside die newPa || new = old then bad
          else
            let pt := c.s.partIdx die
            let mine := c.s.migrs.filter (fun m => c.s.partIdx m.g.die = pt)
            if 4 ≤ mine.length || c.s.migrs.any (fun m => m.old = old) then .ok (c.putK c.s d 1)
            else
              let (w, s1) := c.awaitK c.s d
              let m : Migr :=
                { toWaiter := w, asid := asid, va := a / size * size, level := level, size := size,
                  old := old, new := new, leafAt := c.s.physKey die (r.2.getLastD 0), leaf := l, held := [] }
              .block { s1 with migrs := s1.migrs ++ [m] } .reply)

/-- The leaf with another physical page (R406). -/
def leafWithPa (l : DWord) (pa : Nat) : DWord :=
  BitVec.ofNat 64 (bits l.toNat 63 52 * 2 ^ 52 + bits pa 51 16 * 2 ^ 16 + bits l.toNat 15 0)

/-- MIGR_SWITCH (R413, R414): the copy is complete, poison carried with it; the leaf is rewritten, the page's translations
are invalidated, and the held writes are performed at the new copy. -/
def execMigrSwitch (n : Nat) (s : State) : Out :=
  match s.migrs.find? (fun m => m.id = n) with
  | none => .next s
  | some m =>
    let move (a : Nat) : Nat := a - m.old + m.new
    let inOld (a : Nat) : Bool := decide (m.old ≤ a) && decide (a < m.old + m.size)
    let inNew (a : Nat) : Bool := decide (m.new ≤ a) && decide (a < m.new + m.size)
    let cells := s.hbm.filter (fun x => inOld x.1)
    let m0 := memClear s.hbm m.new m.size
    let m1 := cells.foldl (fun (h : Memory) x => memPut h (move x.1) x.2) m0
    let marks := (s.poison.filter inOld).map move
    let pois := s.poison.filter (fun p => !inNew p) ++ marks
    let s1 : State := { s with hbm := m1, poison := pois, migrs := s.migrs.filter (fun x => x.id ≠ n) }
    let s2 := s1.hbmWrite m.leafAt (natToBytes 8 (leafWithPa m.leaf (m.new - s.localBase m.g.die)).toNat)
    let s3 := s2.dropTranslations (s2.partIdx m.g.die) m.asid m.va m.size
    let s4 := m.held.foldl (fun (s : State) h => s.hbmWrite (m.new + h.off) h.bytes) s3
    let s5 := s4.countPort m.g.die 5
    .next (s5.watch.answer m.toWaiter 0)

/-! ### Deadline class (14 R416) -/

/-- DEADLINE_EXPIRY (R416): a request's count runs out while it is unserved at its controller; it may do so at any moment
(log 6). It is served before every request that is not of deadline class, and after the overdue ones that arrived before it. -/
def execDeadlineExpiry (n : Nat) (s : State) : Out :=
  match s.dls.find? (fun d => d.id = n) with
  | none => .next s
  | some d =>
    if d.overdue || !s.dlHere d then .next s
    else
      let s1 : State := { s with dls := s.dls.map (fun (x : DlReq) => if x.id = n then { x with overdue := true } else x) }
      .next (s1.countPort (d.ctl / 2) 7)

/-! ### Errors in memory (14 R417, R418) -/

/-- The bank of a row region: a region is numbered by its bank and its row (log 30). -/
def bankOf (region : Nat) : Nat := region / 2 ^ 32

/-- ECC tracking of a controller. -/
def State.eccOf (s : State) (ctl : Nat) : Ecc := s.ecc.getD ctl ⟨0, [], []⟩

/-- CORRECTED_ERROR (R417): the error is counted for its row region; the fourth within 8,192 refresh intervals declares a
lasting fault, which spares the row, in the table that firmware loads at the next bring-up too (R434), and writes a KIND 9
record. The table is stored at each sparing (DESIGN CHOICE, log 142). -/
def execCorrectedError (ctl region : Nat) (s : State) : Out :=
  let e := s.eccOf ctl
  let old := e.rows.find? (fun r => r.1 = region)
  let row : Nat × Nat × Nat := match old with
    | none => (region, 1, e.i)
    | some r => if 8192 ≤ e.i - r.2.2 then (region, 1, e.i) else (region, r.2.1 + 1, r.2.2)
  let rest := e.rows.filter (fun r => r.1 ≠ region)
  let keep := if 256 ≤ rest.length then rest.drop (rest.length - 255) else rest
  let e1 : Ecc := { e with rows := keep ++ [row] }
  let die := ctl / 2
  let put (e : Ecc) : State := { s with ecc := s.ecc.set ctl e }
  if row.2.1 ≠ 4 then .next ((put e1).countPort die 8)
  else if !s.fqRoom then .next s
  else
    let used := e1.spares.getD (bankOf region) 0
    let spare := decide (used < 8)
    let e2 : Ecc := if spare then { e1 with spares := e1.spares.set (bankOf region) (used + 1) } else e1
    let put2 : State := { put e2 with boot := { s.boot with spares := s.boot.spares.set ctl e2.spares } }
    let s1 := (put2.countPort die 8).countPort die 9 (if spare then 1 else 0)
    let src := die * 2 ^ 6 + Config.freePick s.tick % 64
    .next ((s1.fqPut (Config.regionPa ctl region % 2 ^ 56) (9 * 2 ^ 48 + 3 * 2 ^ 30 + src) 0
      (if spare then 0 else 2 ^ 4)).countPort die 2)

/-- REFRESH_INTERVAL (R417). -/
def execRefreshInterval (ctl : Nat) (s : State) : Out :=
  let e := s.eccOf ctl
  .next { s with ecc := s.ecc.set ctl { e with i := e.i + 1 } }

/-- A sector marked poisoned in memory. -/
def State.poisonSector (s : State) (p : Nat) : State :=
  if s.poison.contains p then s else { s with poison := s.poison ++ [p] }

/-- A line with a poisoned sector. -/
def Line.poisoned (l : Line) (sec : Nat) : Line :=
  if l.poison.contains sec then l else { l with poison := l.poison ++ [sec] }

/-- UNCORRECTABLE_ERROR (R418): the sectors of a codeword in memory, named by its address in `hbm` (R402), are poisoned; a clean line's copy is dropped and
refetched, and counts as corrected; a dirty line's sector is poisoned. -/
def execUncorrectableError (site : ErrorSite) (s : State) : Out :=
  match site with
  | .memory pa => .next ((s.poisonSector (pa / 32 * 32)).poisonSector (pa / 32 * 32 + 16))
  | .slice die n asid va =>
    let h := (die, n)
    match findLine (s.sliceLines h) asid va with
    | none => .next s
    | some l =>
      if l.dirty.isEmpty then
        let s1 := s.setSlice h (dropLine (s.sliceLines h) asid va)
        .next (((List.range 8).foldl (fun (s : State) i => s.sliceFill die asid (va / 128 * 128 + 16 * i) l.prio) s1).countPort die 8)
      else .next (s.setSlice h (modLine (s.sliceLines h) asid va (fun l => l.poisoned (va % 128 / 16))))
  | .l1d die core asid va =>
    let c : CoreRef := { home := false, die := die, core := core }
    match findLine (s.l1Lines c) asid va with
    | none => .next s
    | some l =>
      if l.dirty.isEmpty then
        let s1 := s.setL1 c (dropLine (s.l1Lines c) asid va)
        let pol : Policy := ⟨true, l.prio, l.prio, false, false⟩
        .next (((List.range 8).foldl (fun (s : State) i => s.l1Fill c asid (va / 128 * 128 + 16 * i) pol) s1).countPort die 8)
      else .next (s.setL1 c (modLine (s.l1Lines c) asid va (fun l => l.poisoned (va % 128 / 16))))

/-! ### Korilink (14 R420, R423) -/

/-- KORILINK_CRC_RESEND (R420): a flit whose CRC fails is resent, and counted for the partition of the port's die (R402, R435); a
flit resent 16 times takes its port down. Whether the
flit is the one resent before is free (log 17). -/
def execKorilinkCrcResend (port : Nat) (s : State) : Out :=
  let k := s.kports.getD port ⟨false, 0⟩
  if k.down || 16 ≤ port then .next s
  else
    let n := if Config.freePick s.tick % 2 = 1 then 1 else k.resends + 1
    .next (({ s with kports := s.kports.set port ⟨decide (16 ≤ n), n⟩ } : State).countPort (port / 4) 0xC)

end Sys2Proof.Machine
end

