-- ==== Sys2Proof/Machine/Pcol.lean ====
section
/-! DEFINITION. Port collectives (14 R424 to R428). -/

namespace Sys2Proof.Machine

open Sys2Proof

/-! ### The record (14 R424) -/

/-- OP of a collective record: 0 reduce-scatter, 1 all-gather, 2 all-reduce. -/
def colOp (w0 : Nat) : Nat := bits w0 55 54

/-- DTYPE: 0 B32, 1 F32, 2 F32 pair, 3 S32. -/
def colType (w0 : Nat) : Nat := bits w0 53 51

/-- Members of a record. -/
def colP (w2 : Nat) : Nat := bits w2 39 32 + 1

/-- A record that BADREC refuses (14 R424, R426): `ntl` is the issuing launch's, `ms` the members. -/
def colBad (ws : List DWord) (ms : List Nat) (pkg ntl : Nat) : Bool :=
  let w (i : Nat) : Nat := (ws.getD i 0).toNat
  let p := colP (w 2)
  let count := bits (w 2) 31 0
  bits (w 0) 63 56 != 1 || colOp (w 0) == 3 || decide (3 < colType (w 0)) || (colType (w 0) == 0 && colOp (w 0) != 1) ||
  bits (w 0) 49 32 != 0 || w 1 % 128 != 0 || bits (w 2) 63 40 != 0 || count == 0 || count % p != 0 ||
  bits (w 10) 47 0 != 0 || [11, 12, 13, 14, 15].any (fun i => w i != 0) ||
  !refWf (ws.getD 4 0) (some ntl) || !refWf (ws.getD 6 0) (some ntl) ||
  !ms.contains pkg || ms.dedup.length != ms.length

/-- The collective that a record opens (14 R424, R426). -/
def colOf (ws : List DWord) (ms : List Nat) (id part : Nat) (c : Ctx) (asid : Nat) (nowait : Bool) : Collective :=
  let w (i : Nat) : Nat := (ws.getD i 0).toNat
  { id := id, part := part, lid := c.g.lid, blk := c.g.blk, core := c.r.coreRef, asid := asid, op := colOp (w 0), dtype := colType (w 0),
    dl := bits (w 0) 50 50 == 1, colid := bits (w 0) 31 0, bucket := w 1, count := bits (w 2) 31 0, members := ms,
    wait := ws.getD 4 0, waitv := ws.getD 5 0, comp := ws.getD 6 0, compv := ws.getD 7 0, stata := w 8,
    srseed := ws.getD 9 0, budget := bits (w 10) 63 48, nowait := nowait, caoff := c.g.sp.caoff, rmode := c.g.sp.rmode,
    state := .waiting, contrib := [], contribLo := [], left := [], result := [], todo := [], status := 0 }

/-- The bucket's byte ranges: the high words, and for pairs the low words at `%caoff` beyond them. -/
def bucketRanges (bucket count dtype : Nat) (caoff : DWord) : List (Nat × Nat) :=
  (bucket, 4 * count) :: (if dtype = 2 then [((bucket + caoff.toNat) % 2 ^ 64, 4 * count)] else [])

/-- PCOL and PCOL.nowait (14 R425, R426). DETAIL 0x10 is tested before ILLPISTE, and that before DETAIL 0x30 (DESIGN CHOICE, log
135). -/
def collective (nowait : Bool) (o : OpS) (s : State) : Out :=
  slot s o.g (kRds o.a 1) [] (fun c =>
    let ka := (c.k o.a.kNum).toNat
    let core := c.r.coreRef
    let asid := c.s0.asidOf c.g
    let d := dstNum o.d
    let hold (s : State) : SlotRes := .held (if c.g.allReached c.e then s else c.s0) .syncSlot
    let ws := c.s.readWords core.die asid ka 16
    let w (i : Nat) : Nat := (ws.getD i 0).toNat
    let p := colP (w 2)
    let off := c.g.sp.caoff.toNat
    if c.g.isResponder || c.g.isPack || c.g.inHandler c.e then .trap .illop 3
    else if bits c.g.sp.rmode.toNat 2 0 = 7 then .trap .illop 0x10
    else if nowait && c.s0.pisteOf c.g then .trap .illpiste 0
    else if ka % 128 ≠ 0 then c.sync (fun s => if s.groupDrained c.r then .inr (.inl (c.putK s d 3, none)) else .inr (.inr s))
    else
      match c.s.needPages core asid [(ka, 128)] with
      | some s1 => hold s1
      | none =>
        if colType (w 0) = 2 && (off = 0 || off % 2 ^ 32 ≠ 0) then .trap .illop 0x30
        else
          match c.s.needPages core asid [(w 3, p)] with
          | some s1 => hold s1
          | none =>
            c.sync (fun s =>
              if !s.groupDrained c.r then .inr (.inr s)
              else
                let ms := (s.homeRead core.die asid (w 3) p).map BitVec.toNat
                let s1 := s.releaseAt core asid 2 (some (bucketRanges (w 1) (bits (w 2) 31 0) (colType (w 0)) c.g.sp.caoff))
                let pt := s.partIdx core.die
                let mine := s1.cols.filter (fun x => x.part = pt)
                if colBad ws ms s.pkg (s.recOf c.g).ntl then .inr (.inl (c.putK s1 d 1, none))
                else if 16 ≤ mine.length || mine.any (fun x => x.colid = bits (w 0) 31 0) then .inr (.inl (c.putK s1 d 2, none))
                else
                  let (id, s2) := s1.fresh
                  let s3 : State := { s2 with cols := s2.cols ++ [colOf ws ms id pt c asid nowait] }
                  .inr (.inl (c.putK s3 d 0, none))))

/-- PCOL (14 R426). -/
def execPcol (o : OpS) (s : State) : Out := collective false o s

/-- PCOL.nowait (14 R428). -/
def execPcolNowait (o : OpS) (s : State) : Out := collective true o s

/-! ### The collective as an agent (14 R427) -/

/-- The collective with this identifier. -/
def State.col? (s : State) (n : Nat) : Option Collective := s.cols.find? (fun c => c.id = n)

/-- A collective replaced. -/
def State.setCol (s : State) (c : Collective) : State :=
  { s with cols := s.cols.map (fun (x : Collective) => if x.id = c.id then c else x) }

/-- Elements of a segment. -/
def Collective.seg (c : Collective) : Nat := c.count / c.members.length

/-- This package's place in the ring. -/
def Collective.place (s : State) (c : Collective) : Nat := (c.members.findIdx? (fun m => m = s.pkg)).getD 0

/-- The bucket's ranges of a collective. -/
def Collective.ranges (c : Collective) : List (Nat × Nat) := bucketRanges c.bucket c.count c.dtype c.caoff

/-- A page of some ranges cannot be reached: the fault is recorded for the collective. -/
def State.colFault (s : State) (c : Collective) (rs : List (Nat × Nat)) (store : Bool) : Option State :=
  match rs.findSome? (fun r => s.rangeFault c.core.die c.asid r.1 r.2 store) with
  | none => none
  | some (a, k, e, l) => some ((s.recordFault c.asid a k e l 3 (engineSrc c.core) (.pcol c.id)).getD s)

/-- Element e of a word of the contribution, as the home slice of its sector holds it. -/
def State.colWord (s : State) (c : Collective) (lo : Bool) (e : Nat) : Word :=
  let base := if lo then c.bucket + c.caoff.toNat else c.bucket
  BitVec.ofNat 32 (bytesToNat (s.homeRead c.core.die c.asid ((base + 4 * e) % 2 ^ 64) 4))

/-- The sectors of a contribution: 4 words each, of the high words and for pairs of the low ones (14 R424, R428). -/
def Collective.sectors (c : Collective) : List (Bool × Nat) :=
  let half (lo : Bool) : List (Bool × Nat) := (List.range ((c.count + 3) / 4)).map (fun k => (lo, k))
  half false ++ (if c.dtype = 2 then half true else [])

/-- The bytes of a sector of the contribution. -/
def Collective.secRange (c : Collective) (x : Bool × Nat) : Nat × Nat :=
  (((if x.1 then c.bucket + c.caoff.toNat else c.bucket) + 16 * x.2) % 2 ^ 64, 4 * min 4 (c.count - 4 * x.2))

/-- The words of some sectors of the contribution taken as they are now, each sector whole (14 R428). -/
def State.takeSectors (s : State) (c : Collective) (now : List (Bool × Nat)) : Collective :=
  let get (lo : Bool) (l : List Word) : List Word :=
    l.mapIdx (fun e x => if now.contains (lo, e / 4) then s.colWord c lo e else x)
  { c with contrib := get false c.contrib, contribLo := get true c.contribLo, left := c.left.filter (fun x => !now.contains x) }

/-- Pieces of a segment's words that a member writes, cut at sector boundaries. -/
def Collective.pieces (c : Collective) (j : Nat) (hi lo : List Word) : List (Nat × List Byte) :=
  let cut (base : Nat) (l : List Word) : List (Nat × List Byte) :=
    let a := (base + 4 * j * (c.count / c.members.length)) % 2 ^ 64
    let bs := l.flatMap (fun x => natToBytes 4 x.toNat)
    (Sys2Proof.Machine.pieces a bs.length).map (fun r => (r.1, (bs.drop (r.1 - a)).take r.2))
  cut c.bucket hi ++ (if c.dtype = 2 then cut (c.bucket + c.caoff.toNat) lo else [])

/-- Which of some sectors an agent serves now is free (log 69). -/
def State.someOf {α : Type} (s : State) (l : List α) : List α :=
  (l.zipIdx.filter (fun x => Config.freePick (s.tick * 2 ^ 20 + x.2) % 2 == 1)).map (·.1)

/-- add(a, x) for element e at step i (14 R427): high and low words. -/
def Collective.add (c : Collective) (e i : Nat) (a x : Word × Word) : Word × Word :=
  match c.dtype with
  | 1 =>
    let md := (rmOf (bits c.rmode.toNat 2 0)).getD .rne
    let u := if md = Rm.sr then srBits (gen c.srseed 4 0 (BitVec.ofNat 64 e) (BitVec.ofNat 64 i)) else 0
    (BitVec.ofNat 32 (fAddElem .f32 ⟨md, false, c.rmode.getLsbD 4, false, u⟩ a.1.toNat x.1.toNat).b, 0)
  | 2 =>
    let r := (expand .f32 true [a.1.toNat, a.2.toNat, x.1.toNat, x.2.toNat] 2).1
    (BitVec.ofNat 32 (r.getD 0 0), BitVec.ofNat 32 (r.getD 1 0))
  | _ => (a.1 + x.1, 0)

/-- This member's words of a segment. -/
def Collective.own (c : Collective) (j : Nat) : List (Word × Word) :=
  (List.range c.seg).map (fun k => (c.contrib.getD (j * c.seg + k) 0, c.contribLo.getD (j * c.seg + k) 0))

/-- The collective with some more of its contribution read; the whole of it is read before the ring begins. The owner of an
all-gather's segment writes its own words (14 R427). -/
def Collective.read (c : Collective) (s : State) (now : List (Bool × Nat)) : Collective :=
  let x := s.takeSectors c now
  let q := c.place s
  let own := if c.op = 1 then x.pieces q ((x.own q).map (·.1)) ((x.own q).map (·.2)) else []
  if x.left.isEmpty then { x with state := .ring, todo := own } else { x with state := .reading }

/-- The bucket's addresses, one in each sector. -/
def Collective.addrs (c : Collective) : List Nat := c.sectors.map (fun x => (c.secRange x).1)

/-- Accesses of a collective to its bucket arrive at their controllers: they are of deadline class where its record or the page
says so (14 R416). -/
def State.colArrive (s : State) (c : Collective) (as : List Nat) : State :=
  s.dlEnter (.col c.id) (s.dlCtls c.core.die c.asid c.dl as)

/-- The collective waits for the answer to its fault record, or for overdue deadline requests at its controllers (14 R412,
R416). -/
def State.colAsks (s : State) (c : Collective) : Bool :=
  s.faults.any (fun f => f.joined.contains (.pcol c.id)) ||
  (!s.dls.isEmpty && s.dlYields (.col c.id) (s.dlCtls c.core.die c.asid true c.addrs))

/-- Poison met in the sectors of a contribution that are read. -/
def State.colPoison (s : State) (c : Collective) (now : List (Bool × Nat)) : Option (Nat × Bool × Nat) :=
  now.findSome? (fun x => s.poisonAt c.core.die c.asid (c.secRange x).1 (c.secRange x).2)

/-- A group of the block that opened a collective, which is the block that consumes poison for it (14 R419, log 122). -/
def State.colGroup (s : State) (c : Collective) : Option GRef :=
  (s.groups.find? (fun g => !g.isPack && g.lid == c.lid && g.blk == c.blk)).map (·.ref)

/-- PCOL_MEMBER_EXCHANGE (R427, R428): the members have compared what they agree on; a difference completes the collective with
STATUS 1. Otherwise its wait must hold; then the contribution is read, sector by sector. Poison completes it with STATUS 3 and
is escalated (R418). -/
def execPcolMemberExchange (n : Nat) (same : Bool) (s0 : State) : Out :=
  match s0.col? n with
  | none => .next s0
  | some c0 =>
    let s := s0.refSync c0.lid c0.wait
    let die := c0.core.die
    let waits := !c0.nowait && refKind c0.wait ≠ 0 && decide (s.refValue die c0.asid c0.lid c0.wait < c0.waitv.toNat)
    let zeros := List.replicate c0.count 0
    let c := if c0.state = .waiting then { c0 with contrib := zeros, contribLo := if c0.dtype = 2 then zeros else [], left := c0.sectors }
      else c0
    if c0.state = .ring || c0.state = .closing then .next s
    else if c0.state = .waiting && !same && 1 < c.members.length then .next (s.colFinish c 1)
    else if (c0.state = .waiting && waits) || s.colAsks c then .next s
    else
      match s.colFault c c.ranges false with
      | some s1 => .next s1
      | none =>
        let now := s.someOf c.left
        match s.colPoison c now with
        | some (own, dirty, pa) =>
          let level := containLevel own dirty
          match s.escalate level die c.asid pa 3 (engineSrc c.core) (s.colGroup c) with
          | none => .next s
          | some s1 =>
            let s2 := if level = 0 then s1.modLaunch c.lid (fun l => { l with endc := 3 }) else s1
            .next (s2.colFinish c 3)
        | none =>
          let s1 := if c0.state = .waiting then s.colArrive c c.addrs else s
          let x := c.read s now
          let s2 := (s1.setCol x).remapUse die c.asid (now.map (fun y => (c.secRange y).1))
          .next (if x.left.isEmpty then (s2.dlLeave (.col c.id)).colArrive x (x.todo.map (·.1)) else s2)

/-- PCOL_RING_STEP (R427): at step i < P this member adds its contribution to the accumulator of segment j that the member
before it sent; the last step gives the segment's words. With i = P the owner's final words of a segment arrive.
`data` holds the high words, then for pairs the low words. -/
def execPcolRingStep (n j i : Nat) (data : List Word) (s : State) : Out :=
  match s.col? n with
  | none => .next s
  | some c =>
    let p := c.members.length
    let q := c.place s
    let given : List (Word × Word) := (List.range c.seg).map (fun k => (data.getD k 0, data.getD (c.seg + k) 0))
    let put (l : List (Word × Word)) : State :=
      let ps := c.pieces j (l.map (·.1)) (l.map (·.2))
      (s.setCol { c with result := c.result ++ [(j, l.map (·.1), l.map (·.2))], todo := c.todo ++ ps }).colArrive c (ps.map (·.1))
    let known := c.result.any (fun r => r.1 = j)
    if c.state ≠ .ring || known || p ≤ j then .next s
    else if i = p then .next (if c.op ≠ 0 && j ≠ q then put given else s)
    else if c.op = 1 || (j + 1 + i) % p ≠ q || i + 1 ≠ p then .next s
    else
      let own := c.own j
      let acc := if i = 0 then own
        else (List.range c.seg).map (fun k => c.add (j * c.seg + k) i (given.getD k (0, 0)) (own.getD k (0, 0)))
      .next (put acc)

/-- Every segment that a member writes has its final words (14 R427). -/
def Collective.known (c : Collective) (q : Nat) : Bool :=
  let has (j : Nat) : Bool := (c.op == 1 && j == q) || c.result.any (fun r => r.1 = j)
  if c.op = 0 then has q else (List.range c.members.length).all has

/-- Pieces written at the home slices. -/
def State.putPieces (s : State) (c : Collective) (ps : List (Nat × List Byte)) : State :=
  ps.foldl (fun (s : State) x => s.homeWrite c.core.die c.asid x.1 x.2) s

/-- PCOL_COMPLETE (R427): some of the results are written at the home slices, those that a migration holds after its switch
(14 R414); once all are, STATA, then COMP. -/
def execPcolComplete (n : Nat) (s : State) : Out :=
  match s.col? n with
  | none => .next s
  | some c =>
    let outs := c.ranges ++ c.doneOuts.map (fun a => (a, 8))
    if c.state = .closing then .next (s.colFinish c c.status)
    else if c.state ≠ .ring || s.colAsks c then .next s
    else
      match s.colFault c outs true with
      | some s1 => .next s1
      | none =>
        let now := (s.someOf c.todo).filter (fun x => !s.gdMigrates c.core.die c.asid x.1)
        let rest := c.todo.filter (fun x => !now.contains x)
        let s0 := (s.putPieces c now).remapUse c.core.die c.asid (now.map (·.1))
        let s1 := if rest.isEmpty then s0.dlLeave (.col c.id) else s0
        .next (if rest.isEmpty && c.known (c.place s) then s1.colFinish c 0 else s1.setCol { c with todo := rest })

/-- PCOL_BUDGET_EXPIRY (R427): the member writes nothing further and completes with STATUS 2; the budget may run out at any
moment (log 6). -/
def execPcolBudgetExpiry (n : Nat) (s : State) : Out :=
  match s.col? n with
  | none => .next s
  | some c => .next (if c.budget = 0 || c.state = .closing then s else s.colFinish c 2)

end Sys2Proof.Machine
end

