-- ==== Sys2Proof/Machine/Host.lean ====
section
/-! DEFINITION. The host attachment (14 R429 to R433): port registers, ownership, shoot-downs, command pages, attestation;
resets and bring-up (R434). -/

namespace Sys2Proof.Machine

open Sys2Proof

/-! ### Writes to the port registers (14 R429, R430) -/

/-- A write to a port register: by an outside master, or (master 0) the next one of a privileged group, which writes as the
owner. Owner registers drop and count the writes of another master (14 R430). -/
def portWrite (master off : Nat) (isIt : DWord → Bool) (owner : Bool) (act : State → State) (s : State) : Out :=
  if master = 0 then
    match s.portWrites with
    | w :: rest => .next (if w.off = off && isIt w.val then act { s with portWrites := rest } else s)
    | [] => .next s
  else if 16 ≤ master then .next s
  else if owner && s.regs.owner ≠ master then
    let s1 : State := { s with regs := { s.regs with nonowner := s.regs.nonowner + 1 } }
    .next ((s1.parts.map (·.1)).foldl (fun (s : State) die => s.countPort die 0xF) s1)
  else .next (act s)

/-- CLAIM (R431): OWNER becomes `new` when it is the expected one and the master may pass it. -/
def execClaim (master : Nat) (v : DWord) (s : State) : Out :=
  portWrite master 0x010 (· == v) false (fun s =>
    let m := if master = 0 then s.regs.owner else master
    let exp := bits v.toNat 7 4
    let new := bits v.toNat 3 0
    if s.regs.owner = exp && ((exp = 0 && new = m) || exp = m) then { s with regs := { s.regs with owner := new } } else s) s

/-- LINK_DOWN_OWNER_CLEAR (R431): the owner's link goes down. -/
def execLinkDownOwnerClear (master : Nat) (s : State) : Out :=
  .next (if s.regs.owner = master then { s with regs := { s.regs with owner := 0 } } else s)

/-- The FQACK word of a record and a verdict. -/
def isFqack (fid verdict : Nat) (v : DWord) : Bool := bits v.toNat 47 32 == fid && bits v.toNat 0 0 == verdict

/-- FQACK_RETRY (R412). -/
def execFqackRetry (master fid : Nat) (s : State) : Out :=
  portWrite master 0x040 (isFqack fid 0) true (fun s => s.answerFault fid false) s

/-- FQACK_REFUSE (R412). -/
def execFqackRefuse (master fid : Nat) (s : State) : Out :=
  portWrite master 0x040 (isFqack fid 1) true (fun s => s.answerFault fid true) s

/-- FQHEAD_WRITE (R410): the count of records consumed. -/
def execFqheadWrite (master : Nat) (v : DWord) (s : State) : Out :=
  portWrite master 0x038 (· == v) true (fun s => { s with regs := { s.regs with fqhead := v } }) s

/-- Bits of a register that a write changes (14 R430); none for a register without writes of this kind. -/
def portMask (off : Nat) : Option DWord :=
  match off with
  | 0x020 => some 0x3
  | 0x028 => some 0x000FFFFFFFFF0000
  | 0x030 => some 0x00FFFFFFFFFFFFFF
  | 0x050 | 0x058 => some 0xFFFFFFFFFFFFFFFF
  | 0x068 => some 0xFFFF
  | 0x078 => some 0x000FFFFFFFFFFF00
  | _ => none

/-- The register with a value. -/
def PortRegs.put (r : PortRegs) (off : Nat) (v : DWord) : PortRegs :=
  match off with
  | 0x020 => { r with partcfg := v.setWidth 2 }
  | 0x028 => { r with ctxbase := v }
  | 0x030 => { r with fqbase := v }
  | 0x050 => { r with shootva := v }
  | 0x058 => { r with shootlen := v }
  | 0x068 => { r with dlmax := v }
  | 0x078 => { r with route := v }
  | _ => r

/-- Offsets of registers whose writes have events of their own. -/
def portEvent (off : Nat) (v : DWord) : Bool :=
  [0x010, 0x038, 0x040, 0x048, 0x070, 0x080].contains off || (off == 0x088 && (v.toNat % 4 == 1 || v.toNat % 4 == 2))

/-- PORT_REG_WRITE (R430): a register without behaviour of its own; writes of read-only and absent registers are
dropped, and so is a PRESET of another value, which only the owner may write. -/
def execPortRegWrite (master off : Nat) (v : DWord) (s : State) : Out :=
  if portEvent off v then .next s
  else
    match portMask off with
    | none => portWrite master off (· == v) (off == 0x088) (fun s => s) s
    | some m => portWrite master off (· == v) true (fun s => { s with regs := s.regs.put off (v &&& m) }) s

/-! ### Shoot-downs (14 R407) -/

/-- A line meets a range of an address space. -/
def Line.inRange (l : Line) (asid va len : Nat) : Bool := l.asid = asid && rangesMeet (l.line * 128) 128 va len

/-- The dirty bytes of a range's lines are written back and the lines leave every L1D, then every slice, of a partition
(R407). -/
def State.dropData (s : State) (pt asid va len : Nat) : State :=
  let dies := s.partDies pt
  let cs := (s.l1d.map (·.1)).filter (fun c => dies.contains c.die)
  let s1 := cs.foldl (fun (s : State) c =>
    ((s.l1Lines c).filter (fun l => l.inRange asid va len)).foldl (fun (s : State) l => s.l1Invalidate c l.asid (l.line * 128) false) s) s
  let hs := (s1.slices.map (·.1)).filter (fun h => dies.contains h.1)
  hs.foldl (fun (s : State) h =>
    ((s.sliceLines h).filter (fun l => l.inRange asid va len)).foldl (fun (s : State) l =>
      let s' := s.sliceFlush h.1 l
      s'.setSlice h (dropLine (s'.sliceLines h) l.asid (l.line * 128))) s) s1

/-- One part of a shoot-down is carried out in every partition. -/
def State.shootPart (s : State) (tr : Bool) (asid va len : Nat) : State :=
  (List.range s.parts.length).foldl (fun (s : State) pt =>
    if tr then s.dropTranslations pt asid va len else s.dropData pt asid va len) s

/-- One of the two parts of a SHOOT write: of an open shoot-down that still waits for it, else of a new one. -/
def shoot (tr : Bool) (master : Nat) (v : DWord) (s : State) : Out :=
  let asid := bits v.toNat 63 52
  let wants (x : Shoot) : Bool := if tr then x.tr else x.data
  let clear (x : Shoot) : Shoot := if tr then { x with tr := false } else { x with data := false }
  let first := bits v.toNat 1 0
  match s.shoots.find? (fun x => x.asid = asid && wants x) with
  | some x =>
    let s1 := s.shootPart tr x.asid x.va x.len
    .next { s1 with shoots := s1.shoots.map (fun y => if y.id = x.id then clear y else y) }
  | none =>
    if (tr && first = 2) || (!tr && (first = 0 || first = 1)) then .next s
    else
      portWrite master 0x048 (· == v) true (fun s =>
        let va := s.regs.shootva.toNat
        let len := s.regs.shootlen.toNat
        let (id, s1) := s.fresh
        let x : Shoot := { id := id, asid := asid, va := va, len := len, tr := v.getLsbD 0, data := v.getLsbD 1 }
        let s2 := if first = 0 then s1 else s1.shootPart tr asid va len
        { s2 with shoots := s2.shoots ++ [clear x] }) s

/-- SHOOT_TR (R407). -/
def execShootTr (master : Nat) (v : DWord) (s : State) : Out := shoot true master v s

/-- SHOOT_DATA (R407). -/
def execShootData (master : Nat) (v : DWord) (s : State) : Out := shoot false master v s

/-- SHOOT_COMPLETE (R407): both parts are done. -/
def execShootComplete (n : Nat) (s : State) : Out :=
  match s.shoots.find? (fun x => x.id = n) with
  | none => .next s
  | some x =>
    if x.tr || x.data then .next s
    else .next { s with
      shoots := s.shoots.filter (fun y => y.id ≠ n),
      regs := { s.regs with shootdone := s.regs.shootdone + 1 } }

/-! ### Command pages (14 R430, 04 R85) -/

/-- CMDPG (R430): a page is registered, its counts starting at 0, or disabled with PERR 2; a PART beyond the partitions drops
the write. A page that does not accept what this writes takes it once its fault is mended (R408). -/
def execCmdpg (master : Nat) (v : DWord) (s : State) : Out :=
  portWrite master 0x070 (· == v) true (fun s =>
    let x := v.toNat
    let pt := bits x 1 0
    let k := (pt, bits x 61 56)
    let put (p : CmdPage) : State :=
      let s1 : State := { s with pages := s.pages.set k p }
      (s1.engineFault (s.stewardCore pt) 0 p.va 8 true).getD (s1.clearPage k p)
    if s.parts.length ≤ pt then s
    else if bits x 63 63 = 1 then put { va := bits x 55 16 * 2 ^ 16, perr := 0, clear := true, cmd := none }
    else
      match s.pages.get? k with
      | none => s
      | some p => put { p with perr := 2, clear := true, cmd := none }) s

/-! ### The host window (14 R429) -/

/-- HOST_BAR2_WRITE (R429, R431): the owner's write through BAR2 is performed at the home slice. Without an owner it is
dropped; a page that faults is recorded. -/
def execHostBar2Write (va : Nat) (bytes : List Byte) (s : State) : Out :=
  if s.regs.owner = 0 || 2 ^ 40 < va + bytes.length then .next s
  else
    match s.rangeFault 0 0 va bytes.length true with
    | some (a, k, e, l) => .next ((s.recordFault 0 a k e l 3 0 .engine).getD s)
    | none => .next (s.homeWrite 0 0 va bytes)

/-! ### Attestation (14 R433) -/

/-- ATTEST (R433): the signature counter advances, then the report is written into the buffer, then the completion word. A
buffer that does not accept this has its fault recorded, and the request does nothing (log 29). -/
def execAttest (master : Nat) (v : DWord) (report : AttestReport) (s : State) : Out :=
  portWrite master 0x080 (· == v) false (fun s =>
    let va := bits v.toNat 55 0
    let b := s.boot
    match s.engineFault { home := false, die := 0, core := 0 } 0 va 4096 true with
    | some s1 => s1
    | none =>
    if b.attest < 2 ^ 20 then
      let nonce := s.homeRead 0 0 va 32
      let bytes := (Config.attestReport b.m0 b.m1 b.m2 nonce Config.serial b.attest report.signature).take 4088
      let s1 : State := { s with boot := { b with attest := b.attest + 1 } }
      (s1.homeWrite 0 0 va bytes).homeWrite 0 0 (va + 4088) (natToBytes 8 (Config.attestWord false).toNat)
    else s.homeWrite 0 0 (va + 4088) (natToBytes 8 (Config.attestWord true).toNat)) s

/-! ### Resets (14 R430, R433, R434) -/

/-- The partitions that PARTCFG names: first die and number of dies (14 R430). -/
def partsOf (cfg : BitVec 2) : List (Nat × Nat) :=
  match cfg.toNat with
  | 0 => [(0, 4)]
  | 1 => [(0, 2), (2, 2)]
  | 2 => [(0, 1), (1, 1), (2, 1), (3, 1)]
  | _ => [(0, 1), (1, 1), (2, 2)]

/-- The package after a reset with a PARTCFG: memory behind the controllers keeps its contents, and so do the signature
counter, the spare-row tables in flash and the package's place in its pod. -/
def State.afterReset (s : State) (cfg : BitVec 2) : State :=
  { State.reset with
    agenda := s.agenda, tick := s.tick, nextId := s.nextId, hbm := s.hbm, poison := s.poison,
    regs := { PortRegs.reset with partcfg := cfg }, parts := partsOf cfg,
    boot := { Boot.reset with attest := s.boot.attest, spares := s.boot.spares }, pkg := s.pkg, pod := s.pod, podSize := s.podSize }

/-- PRESET_PACKAGE (R430). -/
def execPresetPackage (master : Nat) (s : State) : Out :=
  portWrite master 0x088 (fun v => v.toNat % 4 == 1) true (fun s => s.afterReset s.regs.partcfg) s

/-- POWER_ON_RESET (R434). -/
def execPowerOnReset (s : State) : Out := .next (s.afterReset 0)

/-- Package memory, lost with power; memory of hosts and of other packages is kept. -/
def ownMemory (pkg a : Nat) : Bool := decide (a < 2 ^ 52) && bits a 51 44 == pkg

/-- POWER_LOSS (R433): device state ends; an attestation index committed at that moment stays skipped. -/
def execPowerLoss (s : State) : Out :=
  let s1 := s.afterReset 0
  let skip := if Config.freePick s.tick % 2 = 1 && s.boot.attest < 2 ^ 20 then 1 else 0
  .next { s1 with
    hbm := s1.hbm.filter (fun x => !ownMemory s.pkg x.1), poison := s1.poison.filter (fun a => !ownMemory s.pkg a),
    boot := { s1.boot with attest := s.boot.attest + skip } }

/-- A request of a partition's agents that joined a fault record. -/
def State.joinedBy (s : State) (dies : List Nat) (w : Requester) : Bool :=
  match w with
  | .parked g _ | .fetch g _ => dies.contains g.die
  | .chunk q => dies.contains q.c.die
  | .matOp c _ => dies.contains c.die
  | .pcol id => s.cols.any (fun c => c.id = id && dies.contains c.core.die)
  | .engine => false

/-- A partition reset: nothing of it is left but memory and the spare rows in use. Its Korilink ports, four to a die, come up
(R402). -/
def State.resetPart (s : State) (pt : Nat) : State :=
  let dies := s.partDies pt
  let off (d : Nat) : Bool := !dies.contains d
  let live (lid : Nat) : Bool := match s.launch? lid with | some l => l.part ≠ pt | none => false
  let others := (s.launches.filter (fun l => l.part ≠ pt)).map (fun l => l.lrec.asid)
  { s with
    onchip := s.onchip.filter (fun x => off (x.1 / 2 ^ 36)),
    l1d := s.l1d.filter (fun x => off x.1.die), roFilter := s.roFilter.filter (fun x => off x.1.die),
    lastPeer := s.lastPeer.filter (fun x => off x.1.die), slices := s.slices.filter (fun x => off x.1.1),
    remap := s.remap.filter (fun x => off x.1.1), tlb := s.tlb.filter (fun x => off (x.1 / 2)),
    quadCopies := s.quadCopies.filter (fun x => off x.1.1), quadWrites := s.quadWrites.filter (fun x => off x.die),
    ops := s.ops.filter (fun x => off x.g.die), mbox := s.mbox.filter (fun x => off x.g.die),
    icL0 := s.icL0.filter (fun x => off x.1.1.die), icL1 := s.icL1.filter (fun x => off x.1.die),
    icL2 := s.icL2.filter (fun x => off x.1.1), ifills := s.ifills.filter (fun x => off x.c.die),
    groups := s.groups.filter (fun x => off x.ref.die), blocks := s.blocks.filter (fun x => off x.die),
    bars := s.bars.filter (fun x => live x.lid), barMsgs := s.barMsgs.filter (fun x => live x.lid),
    tickets := s.tickets.filter (fun x => live x.lid), sched := s.sched.filter (fun x => off x.1.1.die),
    launches := s.launches.filter (fun l => l.part ≠ pt), dists := s.dists.filter (fun x => x.1 ≠ pt),
    pages := s.pages.filter (fun x => x.1.1 ≠ pt), ctxs := s.ctxs.filter (fun x => off x.1.1),
    engines := s.engines.filter (fun x => off x.1.1), regions := s.regions.filter (fun x => off x.1.1.die), mats := s.mats.filter (fun x => off x.1.die),
    gangs := s.gangs.filter (fun x => off x.g.die), ring := s.ring.filter (fun x => off x.1.die),
    objs := s.objs.filter (fun x => off x.die), queues := s.queues.filter (fun x => off x.1.1),
    cmbs := s.cmbs.filter (fun x => off x.die), packs := s.packs.filter (fun x => off x.c.die),
    replies := s.replies.filter (fun x => off x.req.g.die), steps := s.steps.filter (fun x => others.contains x.asid),
    dir := s.dir.filter (fun x => off x.1.1.die), censuses := s.censuses.filter (fun x => off x.g.die),
    moves := s.moves.filter (fun x => off x.g.die), migrs := s.migrs.filter (fun x => off x.g.die),
    cols := s.cols.filter (fun x => x.part ≠ pt), dls := s.dls.filter (fun x => off (x.ctl / 2)),
    ecc := s.ecc.map (fun x => if off (x.1 / 2) then x else (x.1, ⟨0, [], x.2.spares⟩)),
    kports := s.kports.filter (fun x => off (x.1 / 4)),
    faults := s.faults.map (fun f => { f with joined := f.joined.filter (fun w => !s.joinedBy dies w) }),
    portWrites := s.portWrites.filter (fun w => match s.op? w.op with | some o => off o.g.die | none => true),
    codeHist := s.codeHist.filter (fun x => x.1.1 / 4096 ≠ pt), counters := s.counters.filter (fun x => off x.1.1.die),
    stopped := s.stopped.filter (· ≠ pt),
    boot := { s.boot with stewards := s.boot.stewards.filter (· ≠ pt) } }

/-- PRESET_PARTITIONS (R430): the partitions that are stopped with PFAIL are reset; each steward starts anew (R402). -/
def execPresetPartitions (master : Nat) (s : State) : Out :=
  portWrite master 0x088 (fun v => v.toNat % 4 == 2) true (fun s =>
    let s1 := s.stopped.foldl (fun (s : State) pt => s.resetPart pt) s
    { s1 with regs := { s1.regs with pfail := false } }) s

/-! ### Bring-up (14 R432, R434) -/

/-- Bring-up stopped at a stage; FWFAIL tells a rejected image. -/
def State.bootFails (s : State) (stage : Nat) (image : Bool) : State :=
  { s with regs := { s.regs with fwfail := s.regs.fwfail || image, failStage := stage } }

/-- Bring-up stands before a stage and has not failed. -/
def State.bootAt (s : State) (stage : Nat) : Bool := s.boot.stage == stage && s.regs.failStage == 0 && s.held

/-- An image is accepted (R432): its signature verifies under the root key, and its version is at least the fused minimum of its
kind: 0 FW, 1 STEWARD, 2 IDENT. -/
def imageAccepted (kind : Nat) (i : BootImage) (signature : List Byte) : Bool :=
  Config.signed Config.rootDigest i.bytes i.version signature && decide (Config.minVersion kind ≤ i.version)

/-- BOOT_ROM_FW_VERIFY (R434 stage 1). -/
def execBootRomFwVerify (fw : BootImage) (signature : List Byte) (s : State) : Out :=
  if !s.bootAt 0 then .next s
  else if imageAccepted 0 fw signature then .next { s with boot := { s.boot with stage := 1, m0 := Config.shake256 fw.bytes } }
  else .next (s.bootFails 1 true)

/-- FW_BRINGUP (R434 stage 2): the package's memory holds what firmware wrote, without poison; the spare-row tables are loaded;
the base registers are set. -/
def execFwBringup (ok : Bool) (img : FwSetup) (s : State) : Out :=
  if !s.bootAt 1 then .next s
  else if !ok then .next (s.bootFails 2 false)
  else
    let kept := s.hbm.filter (fun x => !ownMemory s.pkg x.1)
    let hbm := img.cells.foldl (fun (m : Memory) x => if ownMemory s.pkg x.1 then memPut m x.1 x.2 else m) kept
    let core (i : Nat) : CoreRef := { home := decide (192 ≤ i), die := i % 192 / 48, core := i % 48 }
    .next { s with
      hbm := hbm, poison := s.poison.filter (fun a => !ownMemory s.pkg a), modTab := img.modTab,
      modAt := [], codeHist := [], ecc := s.boot.spares.map (fun x => (x.1, ⟨0, [], x.2⟩)),
      regs := { s.regs with ctxbase := img.ctxBase, fqbase := img.fqBase, route := img.route },
      spillBase := (img.spillBase.filter (fun x => x.1 < 384)).foldl (fun (m : AMap CoreRef DWord) x => m.set (core x.1) x.2) [],
      boot := { s.boot with stage := 2 } }

/-- STEWARD_INSTALL (R434 stage 3): STEWARD and IDENT are verified and STEWARD is installed as module 0 of ASID 0 in each
partition: the bytes are the firmware's. -/
def execStewardInstall (steward ident : BootImage) (signatures : List Byte × List Byte) (cells : List Host.Cell) (s : State) : Out :=
  if !s.bootAt 2 then .next s
  else if !imageAccepted 1 steward signatures.1 || !imageAccepted 2 ident signatures.2 then .next (s.bootFails 3 true)
  else
    let hbm := cells.foldl (fun (m : Memory) x => if ownMemory s.pkg x.1 then memPut m x.1 x.2 else m) s.hbm
    let s1 : State := { s with hbm := hbm, boot := { s.boot with stage := 3, m1 := Config.shake256 steward.bytes, m2 := Config.shake256 ident.bytes } }
    let e := s1.modEnt 0 0 0
    .next (if e.valid then s1.recordModule 0 0 0 e.base e.len else s1)

/-- STEWARD_START (R434 stage 4): a partition's steward starts; with the last one READY is set and the cores run. -/
def execStewardStart (pt : Nat) (s : State) : Out :=
  if s.boot.stage ≠ 3 || s.regs.failStage ≠ 0 || s.parts.length ≤ pt || s.boot.stewards.contains pt || s.stopped.contains pt then
    .next s
  else
    let on := s.boot.stewards ++ [pt]
    let all := (List.range s.parts.length).all (fun k => on.contains k)
    .next { s with
      boot := { s.boot with stewards := on },
      held := s.held && !all,
      regs := { s.regs with ready := s.regs.ready || all } }

end Sys2Proof.Machine
end

