-- ==== Sys2Proof/Machine/Dispatch.lean ====
section
/-! DEFINITION. One arm per row of spec/opcode_table.json: a call of its meaning. -/

namespace Sys2Proof.Machine

open Sys2Proof

/-- What a step of the machine does. -/
def exec (i : Instr) (s : State) : Host.Outcome State Fault Refusal :=
  match i with
  | .nop o => Sys2Proof.Machine.execNop o s
  | .bra o => Sys2Proof.Machine.execBra o s
  | .brx o => Sys2Proof.Machine.execBrx o s
  | .call o => Sys2Proof.Machine.execCall o s
  | .callx o => Sys2Proof.Machine.execCallx o s
  | .ret o => Sys2Proof.Machine.execRet o s
  | .jmpk o => Sys2Proof.Machine.execJmpk o s
  | .exit o => Sys2Proof.Machine.execExit o s
  | .yield o => Sys2Proof.Machine.execYield o s
  | .maskr o => Sys2Proof.Machine.execMaskr o s
  | .maskw o => Sys2Proof.Machine.execMaskw o s
  | .vote o => Sys2Proof.Machine.execVote o s
  | .plop o => Sys2Proof.Machine.execPlop o s
  | .chkf o => Sys2Proof.Machine.execChkf o s
  | .waitf o => Sys2Proof.Machine.execWaitf o s
  | .gsync o => Sys2Proof.Machine.execGsync o s
  | .kmov o => Sys2Proof.Machine.execKmov o s
  | .kmovi o => Sys2Proof.Machine.execKmovi o s
  | .klit o => Sys2Proof.Machine.execKlit o s
  | .kadd o => Sys2Proof.Machine.execKadd o s
  | .ksub o => Sys2Proof.Machine.execKsub o s
  | .kmul o => Sys2Proof.Machine.execKmul o s
  | .kmad o => Sys2Proof.Machine.execKmad o s
  | .kshl o => Sys2Proof.Machine.execKshl o s
  | .kshr o => Sys2Proof.Machine.execKshr o s
  | .klop o => Sys2Proof.Machine.execKlop o s
  | .kcmp o => Sys2Proof.Machine.execKcmp o s
  | .ksel o => Sys2Proof.Machine.execKsel o s
  | .krds o => Sys2Proof.Machine.execKrds o s
  | .kwrs o => Sys2Proof.Machine.execKwrs o s
  | .krdf o => Sys2Proof.Machine.execKrdf o s
  | .kmnx o => Sys2Proof.Machine.execKmnx o s
  | .iadd o => Sys2Proof.Machine.execIadd o s
  | .isub o => Sys2Proof.Machine.execIsub o s
  | .imul o => Sys2Proof.Machine.execImul o s
  | .imulh o => Sys2Proof.Machine.execImulh o s
  | .imad o => Sys2Proof.Machine.execImad o s
  | .imnx o => Sys2Proof.Machine.execImnx o s
  | .iabs o => Sys2Proof.Machine.execIabs o s
  | .shl o => Sys2Proof.Machine.execShl o s
  | .shr o => Sys2Proof.Machine.execShr o s
  | .sar o => Sys2Proof.Machine.execSar o s
  | .lop3 o => Sys2Proof.Machine.execLop3 o s
  | .popc o => Sys2Proof.Machine.execPopc o s
  | .clz o => Sys2Proof.Machine.execClz o s
  | .bfx o => Sys2Proof.Machine.execBfx o s
  | .bfi o => Sys2Proof.Machine.execBfi o s
  | .icmp o => Sys2Proof.Machine.execIcmp o s
  | .fadd o => Sys2Proof.Machine.execFadd o s
  | .fsub o => Sys2Proof.Machine.execFsub o s
  | .fmul o => Sys2Proof.Machine.execFmul o s
  | .ffma o => Sys2Proof.Machine.execFfma o s
  | .fmnx o => Sys2Proof.Machine.execFmnx o s
  | .fcmp o => Sys2Proof.Machine.execFcmp o s
  | .frcp o => Sys2Proof.Machine.execFrcp o s
  | .frsq o => Sys2Proof.Machine.execFrsq o s
  | .fsqrt o => Sys2Proof.Machine.execFsqrt o s
  | .fdiv o => Sys2Proof.Machine.execFdiv o s
  | .fex2 o => Sys2Proof.Machine.execFex2 o s
  | .flg2 o => Sys2Proof.Machine.execFlg2 o s
  | .fsin o => Sys2Proof.Machine.execFsin o s
  | .fcos o => Sys2Proof.Machine.execFcos o s
  | .fcls o => Sys2Proof.Machine.execFcls o s
  | .fscl o => Sys2Proof.Machine.execFscl o s
  | .mov o => Sys2Proof.Machine.execMov o s
  | .movi o => Sys2Proof.Machine.execMovi o s
  | .sel o => Sys2Proof.Machine.execSel o s
  | .cvt o => Sys2Proof.Machine.execCvt o s
  | .pack o => Sys2Proof.Machine.execPack o s
  | .unpk o => Sys2Proof.Machine.execUnpk o s
  | .prmb o => Sys2Proof.Machine.execPrmb o s
  | .xshf o => Sys2Proof.Machine.execXshf o s
  | .xred o => Sys2Proof.Machine.execXred o s
  | .xscn o => Sys2Proof.Machine.execXscn o s
  | .mxix o => Sys2Proof.Machine.execMxix o s
  | .rand o => Sys2Proof.Machine.execRand o s
  | .rdsr o => Sys2Proof.Machine.execRdsr o s
  | .clmp o => Sys2Proof.Machine.execClmp o s
  | .qnt o => Sys2Proof.Machine.execQnt o s
  | .dqnt o => Sys2Proof.Machine.execDqnt o s
  | .tsum o => Sys2Proof.Machine.execTsum o s
  | .tdif o => Sys2Proof.Machine.execTdif o s
  | .tprd o => Sys2Proof.Machine.execTprd o s
  | .tfma o => Sys2Proof.Machine.execTfma o s
  | .ftsm o => Sys2Proof.Machine.execFtsm o s
  | .xadd o => Sys2Proof.Machine.execXadd o s
  | .xsub o => Sys2Proof.Machine.execXsub o s
  | .xmul o => Sys2Proof.Machine.execXmul o s
  | .xacc o => Sys2Proof.Machine.execXacc o s
  | .xrnm o => Sys2Proof.Machine.execXrnm o s
  | .xcpr o => Sys2Proof.Machine.execXcpr o s
  | .xcmp o => Sys2Proof.Machine.execXcmp o s
  | .xcvt o => Sys2Proof.Machine.execXcvt o s
  | .xspl o => Sys2Proof.Machine.execXspl o s
  | .xtre o => Sys2Proof.Machine.execXtre o s
  | .xscl o => Sys2Proof.Machine.execXscl o s
  | .ldg o => Sys2Proof.Machine.execLdg o s
  | .stg o => Sys2Proof.Machine.execStg o s
  | .lds o => Sys2Proof.Machine.execLds o s
  | .sts o => Sys2Proof.Machine.execSts o s
  | .ldw o => Sys2Proof.Machine.execLdw o s
  | .stw o => Sys2Proof.Machine.execStw o s
  | .ldk o => Sys2Proof.Machine.execLdk o s
  | .stk o => Sys2Proof.Machine.execStk o s
  | .gthr o => Sys2Proof.Machine.execGthr o s
  | .sctr o => Sys2Proof.Machine.execSctr o s
  | .pref o => Sys2Proof.Machine.execPref o s
  | .wbk o => Sys2Proof.Machine.execWbk o s
  | .inv o => Sys2Proof.Machine.execInv o s
  | .fnc o => Sys2Proof.Machine.execFnc o s
  | .sbnd o => Sys2Proof.Machine.execSbnd o s
  | .sunb o => Sys2Proof.Machine.execSunb o s
  | .aadd o => Sys2Proof.Machine.execAadd o s
  | .afad o => Sys2Proof.Machine.execAfad o s
  | .acad o => Sys2Proof.Machine.execAcad o s
  | .amnx o => Sys2Proof.Machine.execAmnx o s
  | .afmx o => Sys2Proof.Machine.execAfmx o s
  | .amxi o => Sys2Proof.Machine.execAmxi o s
  | .alop o => Sys2Proof.Machine.execAlop o s
  | .axch o => Sys2Proof.Machine.execAxch o s
  | .acas o => Sys2Proof.Machine.execAcas o s
  | .ainc o => Sys2Proof.Machine.execAinc o s
  | .ared o => Sys2Proof.Machine.execAred o s
  | .waita o => Sys2Proof.Machine.execWaita o s
  | .tld o => Sys2Proof.Machine.execTld o s
  | .tst o => Sys2Proof.Machine.execTst o s
  | .tzro o => Sys2Proof.Machine.execTzro o s
  | .tzroAcc o => Sys2Proof.Machine.execTzroAcc o s
  | .tmvv o => Sys2Proof.Machine.execTmvv o s
  | .tmvvAcc o => Sys2Proof.Machine.execTmvvAcc o s
  | .tmvt o => Sys2Proof.Machine.execTmvt o s
  | .tmvtAcc o => Sys2Proof.Machine.execTmvtAcc o s
  | .ttrn o => Sys2Proof.Machine.execTtrn o s
  | .tscl o => Sys2Proof.Machine.execTscl o s
  | .wld o => Sys2Proof.Machine.execWld o s
  | .ald o => Sys2Proof.Machine.execAld o s
  | .ast o => Sys2Proof.Machine.execAst o s
  | .mma o => Sys2Proof.Machine.execMma o s
  | .mmag o => Sys2Proof.Machine.execMmag o s
  | .mfen o => Sys2Proof.Machine.execMfen o s
  | .mfenNum o => Sys2Proof.Machine.execMfenNum o s
  | .mfct o => Sys2Proof.Machine.execMfct o s
  | .mtrs o => Sys2Proof.Machine.execMtrs o s
  | .mestRd o => Sys2Proof.Machine.execMestRd o s
  | .mestClr o => Sys2Proof.Machine.execMestClr o s
  | .gang o => Sys2Proof.Machine.execGang o s
  | .gangDis o => Sys2Proof.Machine.execGangDis o s
  | .lrec o => Sys2Proof.Machine.execLrec o s
  | .rbnd o => Sys2Proof.Machine.execRbnd o s
  | .runb o => Sys2Proof.Machine.execRunb o s
  | .rtchFill o => Sys2Proof.Machine.execRtchFill o s
  | .rtchOut o => Sys2Proof.Machine.execRtchOut o s
  | .rtst o => Sys2Proof.Machine.execRtst o s
  | .rwt o => Sys2Proof.Machine.execRwt o s
  | .cfen o => Sys2Proof.Machine.execCfen o s
  | .cfenNum o => Sys2Proof.Machine.execCfenNum o s
  | .hnewNew o => Sys2Proof.Machine.execHnewNew o s
  | .hnewFree o => Sys2Proof.Machine.execHnewFree o s
  | .rstaE o => Sys2Proof.Machine.execRstaE o s
  | .rstaH o => Sys2Proof.Machine.execRstaH o s
  | .bar o => Sys2Proof.Machine.execBar o s
  | .bara o => Sys2Proof.Machine.execBara o s
  | .barw o => Sys2Proof.Machine.execBarw o s
  | .pha o => Sys2Proof.Machine.execPha o s
  | .phaExpect o => Sys2Proof.Machine.execPhaExpect o s
  | .phxExpect o => Sys2Proof.Machine.execPhxExpect o s
  | .phxInit o => Sys2Proof.Machine.execPhxInit o s
  | .phxRead o => Sys2Proof.Machine.execPhxRead o s
  | .phw o => Sys2Proof.Machine.execPhw o s
  | .tkg o => Sys2Proof.Machine.execTkg o s
  | .tkw o => Sys2Proof.Machine.execTkw o s
  | .tksSet o => Sys2Proof.Machine.execTksSet o s
  | .tksInc o => Sys2Proof.Machine.execTksInc o s
  | .tlw o => Sys2Proof.Machine.execTlw o s
  | .tlr o => Sys2Proof.Machine.execTlr o s
  | .tls o => Sys2Proof.Machine.execTls o s
  | .cmb o => Sys2Proof.Machine.execCmb o s
  | .cmbNt o => Sys2Proof.Machine.execCmbNt o s
  | .cmbr o => Sys2Proof.Machine.execCmbr o s
  | .objr o => Sys2Proof.Machine.execObjr o s
  | .objcClr o => Sys2Proof.Machine.execObjcClr o s
  | .objcDel o => Sys2Proof.Machine.execObjcDel o s
  | .gld o => Sys2Proof.Machine.execGld o s
  | .gadd o => Sys2Proof.Machine.execGadd o s
  | .gmrg o => Sys2Proof.Machine.execGmrg o s
  | .gset o => Sys2Proof.Machine.execGset o s
  | .gswpAdd o => Sys2Proof.Machine.execGswpAdd o s
  | .gswpRem o => Sys2Proof.Machine.execGswpRem o s
  | .gstpAdd o => Sys2Proof.Machine.execGstpAdd o s
  | .gstpRd o => Sys2Proof.Machine.execGstpRd o s
  | .sol o => Sys2Proof.Machine.execSol o s
  | .solw o => Sys2Proof.Machine.execSolw o s
  | .kins o => Sys2Proof.Machine.execKins o s
  | .kdel o => Sys2Proof.Machine.execKdel o s
  | .kdelMv o => Sys2Proof.Machine.execKdelMv o s
  | .rsp o => Sys2Proof.Machine.execRsp o s
  | .solr o => Sys2Proof.Machine.execSolr o s
  | .trap o => Sys2Proof.Machine.execTrap o s
  | .tret o => Sys2Proof.Machine.execTret o s
  | .tdone o => Sys2Proof.Machine.execTdone o s
  | .iprf o => Sys2Proof.Machine.execIprf o s
  | .modl o => Sys2Proof.Machine.execModl o s
  | .modu o => Sys2Proof.Machine.execModu o s
  | .cntr o => Sys2Proof.Machine.execCntr o s
  | .cntc o => Sys2Proof.Machine.execCntc o s
  | .cntcAll o => Sys2Proof.Machine.execCntcAll o s
  | .brk o => Sys2Proof.Machine.execBrk o s
  | .sregRd o => Sys2Proof.Machine.execSregRd o s
  | .sregWr o => Sys2Proof.Machine.execSregWr o s
  | .preemptreq o => Sys2Proof.Machine.execPreemptreq o s
  | .resumereq o => Sys2Proof.Machine.execResumereq o s
  | .lnch o => Sys2Proof.Machine.execLnch o s
  | .dgstOpen o => Sys2Proof.Machine.execDgstOpen o s
  | .dgstRead o => Sys2Proof.Machine.execDgstRead o s
  | .dgstRecord o => Sys2Proof.Machine.execDgstRecord o s
  | .dgstCheck o => Sys2Proof.Machine.execDgstCheck o s
  | .pcol o => Sys2Proof.Machine.execPcol o s
  | .pcolNowait o => Sys2Proof.Machine.execPcolNowait o s
  | .migr o => Sys2Proof.Machine.execMigr o s
  | .clauseSchedule c p => Sys2Proof.Machine.execClauseSchedule c p s
  | .agePromote g => Sys2Proof.Machine.execAgePromote g s
  | .clauseStart g e => Sys2Proof.Machine.execClauseStart g e s
  | .ifetchLineArrival n => Sys2Proof.Machine.execIfetchLineArrival n s
  | .trapEntry g e => Sys2Proof.Machine.execTrapEntry g e s
  | .preemptTrap g => Sys2Proof.Machine.execPreemptTrap g s
  | .forcedSave g => Sys2Proof.Machine.execForcedSave g s
  | .uncorrectedTrap g => Sys2Proof.Machine.execUncorrectedTrap g s
  | .registerSpill c p => Sys2Proof.Machine.execRegisterSpill c p s
  | .registerReload g r => Sys2Proof.Machine.execRegisterReload g r s
  | .accessVerdict op => Sys2Proof.Machine.execAccessVerdict op s
  | .parkedSetReplay g n => Sys2Proof.Machine.execParkedSetReplay g n s
  | .loadDataLand op => Sys2Proof.Machine.execLoadDataLand op s
  | .storeAck op => Sys2Proof.Machine.execStoreAck op s
  | .mailboxWriteLand n => Sys2Proof.Machine.execMailboxWriteLand n s
  | .waitaRetest op => Sys2Proof.Machine.execWaitaRetest op s
  | .homeAtomic op lane => Sys2Proof.Machine.execHomeAtomic op lane s
  | .quadAtomic op lane => Sys2Proof.Machine.execQuadAtomic op lane s
  | .portAtomic op lane => Sys2Proof.Machine.execPortAtomic op lane s
  | .aredGatewayCombine op1 lane1 op2 lane2 => Sys2Proof.Machine.execAredGatewayCombine op1 lane1 op2 lane2 s
  | .peerFill op lane => Sys2Proof.Machine.execPeerFill op lane s
  | .stewardPoll pt page => Sys2Proof.Machine.execStewardPoll pt page s
  | .launch pt page => Sys2Proof.Machine.execLaunch pt page s
  | .signal pt page => Sys2Proof.Machine.execSignal pt page s
  | .modload pt page => Sys2Proof.Machine.execModload pt page s
  | .modunload pt page => Sys2Proof.Machine.execModunload pt page s
  | .wait pt page => Sys2Proof.Machine.execWait pt page s
  | .badcmd pt page => Sys2Proof.Machine.execBadcmd pt page s
  | .launchReady pt q => Sys2Proof.Machine.execLaunchReady pt q s
  | .podPartAcceptMsg asid rec pkg => Sys2Proof.Machine.execPodPartAcceptMsg asid rec pkg s
  | .podPartRefusalMsg asid rec pkg => Sys2Proof.Machine.execPodPartRefusalMsg asid rec pkg s
  | .blockPlace pt => Sys2Proof.Machine.execBlockPlace pt s
  | .groupStart g => Sys2Proof.Machine.execGroupStart g s
  | .launchDone lid => Sys2Proof.Machine.execLaunchDone lid s
  | .barrierArrival n => Sys2Proof.Machine.execBarrierArrival n s
  | .barrierCompletionNotify g e => Sys2Proof.Machine.execBarrierCompletionNotify g e s
  | .ticketServeBroadcast lid blk tk core => Sys2Proof.Machine.execTicketServeBroadcast lid blk tk core s
  | .timelineSignalArrival g e => Sys2Proof.Machine.execTimelineSignalArrival g e s
  | .chunkRequest c n => Sys2Proof.Machine.execChunkRequest c n s
  | .chunkLandFill c n k => Sys2Proof.Machine.execChunkLandFill c n k s
  | .chunkLandWriteout c n k => Sys2Proof.Machine.execChunkLandWriteout c n k s
  | .chunkAbort c n k => Sys2Proof.Machine.execChunkAbort c n k s
  | .matOpAccept c => Sys2Proof.Machine.execMatOpAccept c s
  | .matOpComplete c => Sys2Proof.Machine.execMatOpComplete c s
  | .matOpAbandon c => Sys2Proof.Machine.execMatOpAbandon c s
  | .gangRendezvous c => Sys2Proof.Machine.execGangRendezvous c s
  | .liftLineMatch c => Sys2Proof.Machine.execLiftLineMatch c s
  | .throttleWindow c => Sys2Proof.Machine.execThrottleWindow c s
  | .cmbAccept n => Sys2Proof.Machine.execCmbAccept n s
  | .cmbResend n => Sys2Proof.Machine.execCmbResend n s
  | .packForm c => Sys2Proof.Machine.execPackForm c s
  | .replyLand n => Sys2Proof.Machine.execReplyLand n s
  | .methodFault g => Sys2Proof.Machine.execMethodFault g s
  | .stepPropagate asid place => Sys2Proof.Machine.execStepPropagate asid place s
  | .censusBroadcastArrive n c => Sys2Proof.Machine.execCensusBroadcastArrive n c s
  | .responderSpawn c => Sys2Proof.Machine.execResponderSpawn c s
  | .responderFault g => Sys2Proof.Machine.execResponderFault g s
  | .diePartialFold n r => Sys2Proof.Machine.execDiePartialFold n r s
  | .censusResponseArrive n r => Sys2Proof.Machine.execCensusResponseArrive n r s
  | .censusTimeout n => Sys2Proof.Machine.execCensusTimeout n s
  | .censusCloseArrive n c => Sys2Proof.Machine.execCensusCloseArrive n c s
  | .censusMoveAtNode n passed => Sys2Proof.Machine.execCensusMoveAtNode n passed s
  | .censusMoveAtCore n dst => Sys2Proof.Machine.execCensusMoveAtCore n dst s
  | .pageWalk ctl asid va => Sys2Proof.Machine.execPageWalk ctl asid va s
  | .gatherPacketExpand op stack => Sys2Proof.Machine.execGatherPacketExpand op stack s
  | .deadlineExpiry n => Sys2Proof.Machine.execDeadlineExpiry n s
  | .correctedError ctl region => Sys2Proof.Machine.execCorrectedError ctl region s
  | .uncorrectableError site => Sys2Proof.Machine.execUncorrectableError site s
  | .poisonConsume n => Sys2Proof.Machine.execPoisonConsume n s
  | .korilinkCrcResend port => Sys2Proof.Machine.execKorilinkCrcResend port s
  | .pcolMemberExchange n same => Sys2Proof.Machine.execPcolMemberExchange n same s
  | .pcolRingStep n seg it data => Sys2Proof.Machine.execPcolRingStep n seg it data s
  | .pcolComplete n => Sys2Proof.Machine.execPcolComplete n s
  | .pcolBudgetExpiry n => Sys2Proof.Machine.execPcolBudgetExpiry n s
  | .migrSwitch n => Sys2Proof.Machine.execMigrSwitch n s
  | .hostBar2Write va bytes => Sys2Proof.Machine.execHostBar2Write va bytes s
  | .claim master v => Sys2Proof.Machine.execClaim master v s
  | .fqackRetry master fid => Sys2Proof.Machine.execFqackRetry master fid s
  | .fqackRefuse master fid => Sys2Proof.Machine.execFqackRefuse master fid s
  | .shootTr master v => Sys2Proof.Machine.execShootTr master v s
  | .shootData master v => Sys2Proof.Machine.execShootData master v s
  | .shootComplete n => Sys2Proof.Machine.execShootComplete n s
  | .cmdpg master v => Sys2Proof.Machine.execCmdpg master v s
  | .attest master v report => Sys2Proof.Machine.execAttest master v report s
  | .presetPackage master => Sys2Proof.Machine.execPresetPackage master s
  | .presetPartitions master => Sys2Proof.Machine.execPresetPartitions master s
  | .portRegWrite master off v => Sys2Proof.Machine.execPortRegWrite master off v s
  | .linkDownOwnerClear master => Sys2Proof.Machine.execLinkDownOwnerClear master s
  | .powerOnReset => Sys2Proof.Machine.execPowerOnReset s
  | .bootRomFwVerify fw signature => Sys2Proof.Machine.execBootRomFwVerify fw signature s
  | .fwBringup ok img => Sys2Proof.Machine.execFwBringup ok img s
  | .stewardInstall steward ident signatures cells => Sys2Proof.Machine.execStewardInstall steward ident signatures cells s
  | .stewardStart pt => Sys2Proof.Machine.execStewardStart pt s
  | .fqheadWrite master v => Sys2Proof.Machine.execFqheadWrite master v s
  | .quadWriteThroughArrive n => Sys2Proof.Machine.execQuadWriteThroughArrive n s
  | .refreshInterval ctl => Sys2Proof.Machine.execRefreshInterval ctl s
  | .powerLoss => Sys2Proof.Machine.execPowerLoss s
  | .bindingChangePropagate lid c => Sys2Proof.Machine.execBindingChangePropagate lid c s

end Sys2Proof.Machine
end

