-- ==== Sys2Proof/Machine/Step.lean ====
section
/-! DEFINITION. One step of the machine: an event, or the issue of the next slot of a selected split (04 R101,
05 R112). -/

namespace Sys2Proof.Machine

open Sys2Proof

/-- The row is an instruction of a clause slot: it has words (02 R56). -/
def isSlotRow (i : Instr) : Bool := !(encode i).isEmpty

/-- What the machine does when a move is made. A move that is not enabled changes nothing. -/
def runMove (mv : Move) (s : State) : Out :=
  match mv with
  | .event i => if isSlotRow i then .next s else exec i { s with cur := none }
  | .issue c p =>
    match s.selected c p with
    | none => .next s
    | some (who, i) => exec i { s with cur := some who }

/-- ONE STEP: the first move of the agenda, else the free choice of the next one (log 4). Each step counts in `tick`, so that
no two steps share a free value (log 5). -/
def step (s : State) : Host.Outcome State Fault Refusal :=
  match s.agenda with
  | mv :: rest => runMove mv { s with agenda := rest, tick := s.tick + 1 }
  | [] => runMove (Config.nextMove s.tick) { s with tick := s.tick + 1 }

/-- The partition whose group `withFetchWord` places. -/
def fetchCore : CoreRef := { home := false, die := 0, core := 0 }

/-- The group that `withFetchWord` places. -/
def fetchGroup : GRef := { home := false, die := 0, core := 0, slot := 0 }

/-- The header of a clause of an engine class and a number of slots (02 R33). -/
def plainHeader (cls n : Nat) : DWord := BitVec.ofNat 64 (cls * 2 ^ 61 + (n - 1) * 2 ^ 57)

/-- The state with an instruction placed where the next step fetches it: a group of no launch in slot 0 of core 0 of die
0 has it as its clause, its partition has selected that split, and the next move issues it (log 23). -/
def State.withFetchWord (s : State) (nbits w : Nat) : State :=
  let x := w % 2 ^ nbits
  let w0 : DWord := BitVec.ofNat 64 x
  let ws := if twoSlot (opcOf w0) then [w0, BitVec.ofNat 64 (x / 2 ^ 64)] else [w0]
  let l : Launch := { (default : Launch) with lid := 0 }
  let g := Group.fresh fetchGroup .ordinary .running l 0 0 0 [] 0
  let g1 := g.modSplit 0 (fun sp => { sp with clause := some ⟨plainHeader (classOf (opcOf w0)) ws.length, ws⟩, started := true })
  { s with
    groups := g1 :: s.groups.filter (fun y => y.ref ≠ fetchGroup), held := false, stopped := [],
    sched := s.sched.set (fetchCore, 0) { sel := some (0, 0), yield := none },
    agenda := [.issue fetchCore 0] }

end Sys2Proof.Machine
end

