-- ==== Sys2Proof/Safety.lean ====
section
/-! DEFINITION. The terms in which statements speak: a slot that is ready to act, what a slot that completes leaves, what
a reader of a register sees, and the invariant of the machine. -/

namespace Sys2Proof.Machine

open Sys2Proof

/-- exec answers a next state, and it has this property. -/
def Answers (i : Instr) (s : State) (post : State → Prop) : Prop := ∃ t, exec i s = .next t ∧ post t

/-- A split stands at a slot that reads the registers `rds` in the lanes `lanesOf` gives and writes the v registers
`dsts`, and nothing that every slot waits for or traps on stands in its way: its sources are full (02 R28), none is read
dead in a DEBUG launch (05 R125), failed (05 R131 kind D) or spilled (05 R126), no write of the group's own is on its way to a
mailbox register it writes (01 R16), and a physical register is free for each it writes (05 R124, R126). `c` is what the meaning then works on. -/
structure ReadyOn (s : State) (lanesOf : Group → Split → Mask) (rds : List Rd) (dsts : List Nat) (c : Ctx) : Prop where
  issuer : s.cur = some ⟨c.r, c.e⟩
  group : s.group? c.r = some c.g
  split : c.sp = c.g.split c.e
  mask : c.m = lanesOf c.g c.sp
  start : c.s0 = s
  now : c.s = (s.modGroup c.r (fun g => applyLast s c.m g rds)).count c.r.coreRef 1 0x12
    ((rds.filter (fun rd => !rd.isK)).foldl (fun n rd => n + (deadLanes s c.g rd.n &&& c.m).card) 0)
  full : c.m ≠ 0 → ∀ rd ∈ rds, regEmpty s c.g rd.isK rd.n c.m c.sp.replay = false
  alive : s.debugOf c.g = true → ∀ rd ∈ rds, rd.isK = false → deadLanes s c.g rd.n &&& c.m = 0
  sound : ∀ rd ∈ rds, rd.isK = false → ∀ l ∈ c.m.toLanes, (c.g.vreg rd.n).fails.get? l = none
  loaded : ∀ rd ∈ rds, rd.isK = false → (c.g.vreg rd.n).spilled = false
  loadedD : c.m ≠ Mask.all → ∀ n ∈ dsts, (c.g.vreg n).spilled = false
  settled : c.m ≠ 0 → ∀ n ∈ dsts, s.isMbox c.g n = true → s.mboxPending c.r c.r n s.nextId = false
  room : c.m ≠ 0 → s.physUsed c.r.coreRef (partOf c.r) +
    (dsts.filter (fun n => !s.isMbox c.g n)).dedup.length ≤ physTotal c.r.coreRef

/-- The same for a slot with a guard (02 R42). -/
abbrev Ready (s : State) (gd : Guard) (rds : List Rd) (dsts : List Nat) (c : Ctx) : Prop :=
  ReadyOn s (fun g sp => g.guardMask gd sp.mask) rds dsts c

/-- The issuing group once the L bits of the slot's sources took effect (05 R125). -/
def Ctx.read (c : Ctx) (rds : List Rd) : Group := applyLast c.s0 c.m c.g rds

/-- The issuing group has become `new` from `old`; splits of it that became READY thereby, and a group of which none was, are
as young as the moment, the n-th (04 R101, log 32). -/
def Ctx.Became (c : Ctx) (old new : Group) (t : State) : Prop := ∃ n, t.group? c.r = some (new.readied n old)

/-- The accesses of a machine, of which WAITAs may meanwhile have met their condition: a write to a mailbox register is one
that they see (08 R249). -/
def MetOnly (old new : List MemOp) : Prop := ∃ f : MemOp → Bool, new = old.map (fun o => { o with met := f o })

/-- The slot is complete for the issuing group, which stands as g says. -/
def Ctx.Ends (c : Ctx) (g : Group) (t : State) : Prop := c.Became g (g.finish c.e) t

/-- The splits of a group that has become g are those of `new`, young where they have become READY since `old` (04 R101). -/
def Group.SplitsAfter (g old new : Group) : Prop := ∃ n, g.splits = (new.readied n old).splits

/-- Nothing outside the issuing group changed, counters, the number of the moment and what a WAITA has seen apart: no byte
of memory, no other group, no engine. -/
structure OthersKept (c : Ctx) (t : State) : Prop where
  others : ∀ r, r ≠ c.r → t.group? r = c.s0.group? r
  rest : t = { c.s0 with groups := t.groups, counters := t.counters, nextId := t.nextId, ops := t.ops }
  seen : MetOnly c.s0.ops t.ops

/-- The slot that waits for a value in a k register has it: the register takes it unless a later producer superseded the slot
(01 R29), and the split completes the slot if it still waits there. -/
def Answered (s : State) (w : Waiter) (x : DWord) (t : State) : Prop :=
  ∀ g, s.group? w.g = some g → ∃ n, t.group? w.g = some (
    if (g.split w.entry).awaits w.id then
      ((g.landK w.kd w.id x).finish w.entry).readied n (g.landK w.kd w.id x)
    else g.landK w.kd w.id x)

/-- The split stays at its slot until a value is answered, in which the k register kd is empty from now on (01 R27). -/
def Ctx.Awaits (c : Ctx) (kd id : Nat) (t : State) : Prop :=
  ∃ g, t.group? c.r = some g ∧ (g.split c.e).state = .blocked ∧ (g.split c.e).wait = .reply ∧
    (g.split c.e).slot = c.sp.slot ∧ g.kregs = (c.g.markK kd id).kregs

/-- The slot completes (05 R112): the split moves on by `k` words, the group's registers change as `w` says and in no other
way, and nothing outside the group changes. -/
structure Completes (c : Ctx) (rds : List Rd) (k : Nat) (w : Group → Group) (t : State) : Prop extends OthersKept c t where
  group : c.Became (w (c.read rds)) ((w (c.read rds)).finish c.e k) t

/-- The split ends its clause at another header (05 R112), the group's registers changed as `w` says. -/
structure Jumps (c : Ctx) (rds : List Rd) (tgt : Nat) (w : Group → Group) (t : State) : Prop extends OthersKept c t where
  group : c.Became (w (c.read rds)) ((w (c.read rds)).jump c.e tgt) t

/-- The splits that stand at a performed synchronising slot go on together: those that share a JREF in the lowest of
their entries (05 R120). -/
def Group.passSync (g : Group) (es : List Nat) (e : Nat) : Group :=
  es.foldl (fun g i => if (g.split i).state = .free then g else g.finish i) (g.mergeSync e)

/-- The synchronising slot is performed, for every split of the group that stands at it. -/
structure Synced (c : Ctx) (rds : List Rd) (w : Group → Group) (t : State) : Prop extends OthersKept c t where
  group : c.Became (w (c.read rds)) ((w (c.read rds)).passSync (c.g.syncers c.e) c.e) t

/-- The slot completes and the rest of the machine, groups, counters and the number of the moment apart, is that of u. -/
structure Updates (c : Ctx) (rds : List Rd) (w : Group → Group) (u t : State) : Prop where
  group : c.Became (w (c.read rds)) ((w (c.read rds)).finish c.e) t
  others : ∀ r, r ≠ c.r → t.group? r = c.s0.group? r
  rest : t = { u with groups := t.groups, counters := t.counters, nextId := t.nextId }

/-- The split stays at its slot until a condition holds (it keeps what it waits for in p), and nothing else changes. -/
structure Waits (c : Ctx) (rds : List Rd) (p : Option Nat) (t : State) : Prop extends OthersKept c t where
  group : t.group? c.r = some ((c.read rds).modSplit c.e (fun sp =>
    { sp with state := .blocked, wait := .retest, prog := p.or sp.prog }))

/-- The split is BLOCKED at its slot, waiting for w, and nothing else changes. -/
structure Blocks (c : Ctx) (rds : List Rd) (w : Wait) (t : State) : Prop extends OthersKept c t where
  group : t.group? c.r = some ((c.read rds).modSplit c.e (fun sp => { sp with state := .blocked, wait := w }))

/-- The synchronising slot is performed for every split that stands at it, and the rest of the machine is that of u. -/
structure SyncUpdates (c : Ctx) (rds : List Rd) (u t : State) : Prop where
  group : c.Became (c.read rds) ((c.read rds).passSync (c.g.syncers c.e) c.e) t
  others : ∀ r, r ≠ c.r → t.group? r = c.s0.group? r
  rest : t = { u with groups := t.groups, counters := t.counters, nextId := t.nextId }

/-- A synchronising slot that releases may be performed: an ordinary group outside its handler, every lane there, and every
earlier access of the group performed (05 R120, 03 R72). -/
structure AtSync (c : Ctx) : Prop where
  notPack : c.g.isPack = false
  notResponder : c.g.isResponder = false
  outside : c.g.inHandler c.e = false
  reached : c.g.allReached c.e = true
  drained : c.s0.groupDrained c.r = true

/-- The slot raises a trap with its `%tpc` at the slot and has no other effect than taking it (05 R131 kind S). -/
def Traps (c : Ctx) (ca : Cause) (detail : Nat) (t : State) : Prop :=
  t = (c.s0.count c.r.coreRef 3 4 (if ca = .barovf then 1 else 0)).takeTrap c.r c.e ca detail c.sp.pc

/-- The lanes that take a branch (05 R150): all or none by a q predicate or by the guard in the lowest active lane, else
those in which the guard holds. -/
def Ctx.taken (c : Ctx) (o : OpB) : Mask :=
  if o.qen then (if c.g.qs.getD o.qidx.toNat false then c.sp.mask else 0)
  else if o.uni then (if (c.g.guardMask o.g c.sp.mask).has c.sp.mask.lowest then c.sp.mask else 0)
  else c.g.guardMask o.g c.sp.mask

/-- The group with a predicate destination written: p in the slot's lanes, q true when the value holds anywhere. -/
def Group.writePred (g : Group) (d : BitVec 9) (m v : Mask) : Group :=
  match dstK d with | .p n => g.writeP n m v | .q n => g.writeQ n (v != 0) | _ => g

/-- A slot rounds in this mode (06 R175): the one RND gives or, without one, MODE of `%rmode`; with stochastic rounding a piste
launch allows one live split and no responder (06 R181, 13 R385). -/
abbrev Ctx.RoundsIn (c : Ctx) (rnd : Nat) (md : Rm) : Prop :=
  c.mode rnd = some md ∧
  (md = .sr → c.s0.pisteOf c.g = false ∨ (c.g.isResponder = false ∧ c.g.liveSplits ≤ 1))

/-- The draw counter advances by one when b holds (06 R181). -/
def Group.drawIf (b : Bool) (g : Group) : Group :=
  if b then { g with sp := { g.sp with draw := g.sp.draw + 1 } } else g

/-- Element h of a word read as an integer of a type: a half under a packed type, signed under an s type (06 R184). -/
def elInt (ty : Ty) (w : Word) (h : Nat) : Int :=
  if ty.packed then (if ty.signed then (w.extractLsb' (16 * h) 16).toInt else ((w.extractLsb' (16 * h) 16).toNat : Int))
  else (if ty.signed then w.toInt else (w.toNat : Int))

/-- An exact integer narrowed to a type's width (06 R184): clamped under SAT, else modulo 2^w. -/
def narrowed (ty : Ty) (sat : Bool) (x : Int) : Nat :=
  let y := if !sat then x
    else if ty.signed then max (-(2 ^ (ty.w - 1))) (min x (2 ^ (ty.w - 1) - 1)) else max 0 (min x (2 ^ ty.w - 1))
  (y % 2 ^ ty.w).toNat

/-- A word of one element, or of two halves under a packed type. -/
def packWord (packed : Bool) (f : Nat → Nat) : Word :=
  if packed then BitVec.ofNat 32 (f 0 % 2 ^ 16 + 2 ^ 16 * f 1) else BitVec.ofNat 32 (f 0)

/-- The registers an F-R lane slot with n sources reads. -/
def rRds (o : OpR) (n : Nat) : List Rd :=
  srcRds o.a ++ (if 2 ≤ n then srcRds o.b else []) ++ (if 3 ≤ n then srcRds o.c else [])

/-- The registers, predicates and special registers of a group are those of another. -/
def Group.SameRegs (g h : Group) : Prop :=
  g.vregs = h.vregs ∧ g.kregs = h.kregs ∧ g.preds = h.preds ∧ g.qs = h.qs ∧ g.sp = h.sp

/-- The lanes that stand at a cross-lane slot, in the issuing split and in those held there (06 R204). -/
def Ctx.reached (c : Ctx) (hs : List Nat) : Mask := hs.foldl (fun x i => x ||| (c.g.split i).mask) c.sp.mask

/-- The registers of its member mask that a cross-lane slot reads: none once the split was HELD there with its mask (06 R204). -/
def Ctx.memRds (c : Ctx) (mem : Src) : List Rd := if c.sp.prog.isSome then [] else srcRds mem

/-- A split stands at a cross-lane slot of member mask `m`; the splits `hs` are held there, and `whole` tells whether every
non-exited member has come, those outside a handler split counting as absent (06 R203, R204). It is ready to act: to be performed in
the lanes of its participants, or else to be held. -/
structure CrossAt (s : State) (c : Ctx) (gd : Guard) (mem : Src) (rds : List Rd) (dsts : List Nat) (m : Mask) (hs : List Nat)
    (whole : Bool) : Prop where
  mask : m = (match c.sp.prog with | some x => BitVec.ofNat 32 x | none => memberMask c.g c.sp mem)
  held : hs = if c.g.inHandler c.e then [] else (List.range 8).filter (fun i => i != c.e &&
    (c.g.split i).atSlot c.sp.hdr c.sp.slot && (c.g.split i).state == .held && (c.g.split i).crossMask.isSome)
  known : ∀ rd ∈ c.memRds mem, regEmpty s c.g rd.isK rd.n c.sp.mask c.sp.replay = false
  come : whole = (c.g.inHandler c.e || (m &&& ~~~c.g.exited &&& ~~~(c.reached hs)) == 0)
  ready : ReadyOn s (fun g sp => g.guardMask gd (if whole then m &&& ~~~g.exited &&& c.reached hs else sp.mask))
    (c.memRds mem ++ (if whole then rds else [])) (if whole then dsts else []) c

/-- Every lane of the issuing split that takes part by its guard is a member (06 R203). -/
abbrev Ctx.names (c : Ctx) (gd : Guard) (m : Mask) : Prop := c.g.guardMask gd c.sp.mask &&& ~~~m = 0

/-- Nothing stops a cross-lane slot from being performed for the splits that stand at it. -/
structure CrossReady (s : State) (c : Ctx) (gd : Guard) (mem : Src) (rds : List Rd) (dsts : List Nat) (m : Mask) (hs : List Nat) : Prop
    extends CrossAt s c gd mem rds dsts m hs true where
  names : c.names gd m
  agree : ∀ i ∈ hs, (c.g.split i).crossMask = some m

/-- EXITMEM of `%rmode` is set when the member mask names exited lanes (06 R203). -/
def Group.exitMem (b : Bool) (g : Group) : Group :=
  if b then { g with sp := { g.sp with rmode := g.sp.rmode ||| 0x10000 } } else g

/-- The cross-lane slot is performed once for the splits that stand at it, each of which goes on on its own (06 R204): the group's
registers change as `w` says. -/
structure Exchanged (c : Ctx) (rds : List Rd) (m : Mask) (hs : List Nat) (w : Group → Group) (t : State) : Prop extends OthersKept c t where
  group : ∃ g, t.group? c.r = some g ∧ g.SameRegs (Group.exitMem (m &&& c.g.exited != 0) (w (c.read rds))) ∧
    (∀ i ∈ c.e :: hs, ∃ n, g.split i = { ((c.read rds).finish i).split i with since := n }) ∧
    ∀ i, i ∉ c.e :: hs → g.split i = c.g.split i

/-- A run of m words of a format written to consecutive registers (09 R253). -/
def Group.writeRun (fmt m d : Nat) (mask : Mask) (f : Nat → List Nat) (g : Group) : Group :=
  (List.range (xRegs fmt m)).foldl (fun g r => g.writeV (d + r) mask (fun l => (xPack fmt m (f l)).getD r 0)) g

/-! ### Accesses -/

/-- The lanes an access is made for: the lowest active one for LDK and STK (08 R237). -/
def Ctx.accLanes (c : Ctx) (f : AccForm) : List Nat :=
  if f.kind = .ldk || f.kind = .stk then (if c.m = 0 then [] else [c.m.lowest]) else c.m.toLanes

/-- Where a lane's access goes: a scratchpad offset at its place in the on-chip map (01 R19). -/
def Ctx.accPlace (c : Ctx) (f : AccForm) (l : Nat) : Nat :=
  if f.space = .scratch then
    ocEncode c.r.die c.r.core 0 (((c.s0.blockOf c.g).map (·.scratchBase)).getD 0 + c.accAddr f l)
  else c.accAddr f l

/-- `o` is the access that slot i makes: who issues it, what it does, the controls sampled, and for each lane its address
and operand bytes. -/
structure MemOp.Of (o : MemOp) (c : Ctx) (i : Instr) (f : AccForm) : Prop where
  whose : o.g = c.r ∧ o.entry = c.e ∧ o.ins = i ∧ o.lid = c.g.lid ∧ o.asid = c.s0.asidOf c.g
  what : o.kind = f.kind ∧ o.space = f.space ∧ o.size = f.n ∧ o.ord = f.o.ord.toNat ∧ o.scope = f.o.scope.toNat ∧
    o.evict = f.o.evict.toNat
  dest : o.dest = dstNum f.o.d ∧ o.destK = f.destK
  sampled : o.rmode = c.g.sp.rmode ∧ o.seed = c.g.sp.seed ∧ o.draw = c.g.sp.draw ∧ o.caoff = c.g.sp.caoff
  lanes : o.lanes.map (fun l => (l.lane, l.addr, l.data)) =
    (c.accLanes f).map (fun l => (l, c.accPlace f l, c.accData f l))

/-- The conditions that an access instruction states for itself: a factor table for a glide word (12 R363), no float atomic
that returns and no glide write in a piste launch (04 R107), `%caoff` (08 R246), a rounding mode (06 R175). -/
def accOwn (i : Instr) (c : Ctx) : Prop :=
  let p := c.s0.pisteOf c.g = false
  let ca := c.g.sp.caoff ≠ 0 ∧ c.g.sp.caoff.toNat % 2 ^ 32 = 0
  let md := (c.mode 0).isSome = true
  match i with
  | .afad _ => p ∧ md
  | .acad _ => p ∧ ca
  | .ared o => (2 ≤ o.evict.toNat → p) ∧ (o.evict.toNat = 5 → ca) ∧ (2 ≤ o.evict.toNat → o.evict.toNat ≠ 5 → md)
  | .gld _ => (c.s0.recOf c.g).gft ≠ 0
  | .gadd _ | .gmrg _ | .gset _ => (c.s0.recOf c.g).gft ≠ 0 ∧ p
  | _ => True

/-- The access advances `%draw` when it rounds stochastically (06 R181). -/
def accDraws (i : Instr) (c : Ctx) : Bool :=
  (match i with | .afad _ => true | .ared o => decide (2 ≤ o.evict.toNat ∧ o.evict.toNat ≤ 4) | _ => false) &&
    decide (c.mode 0 = some .sr)

/-- Some lane of the slot carries an FNC release (03 R76). -/
def Ctx.fenced (c : Ctx) : Bool := c.m.toLanes.any (fun l => (c.g.fenceRel.getD l none).isSome)

/-- The access enters the block's merge buffer (04 R106, R107; for STK log 125): a float or pair ARED, and a store to global
memory that does not order. -/
def Ctx.buffers (c : Ctx) (i : Instr) (f : AccForm) : Prop :=
  c.s0.pisteOf c.g = true ∧
  ((∃ o, i = .ared o ∧ 2 ≤ o.evict.toNat) ∨
   ((f.kind = .store ∨ f.kind = .scatter ∨ f.kind = .stk) ∧ f.space = .global ∧ f.o.ord = 0))

/-- Nothing turns an access away: its addresses pass their checks (08 R230), it obeys the conditions of its instruction, its
wait counter has room (02 R34) and so has the merge buffer (04 R106). -/
structure AccOk (c : Ctx) (i : Instr) (f : AccForm) : Prop where
  place : f.space = .global ∨ c.r.home = false
  addrs : c.s0.accTrap c.g f ((c.accLanes f).map (c.accAddr f)) = none
  early : f.space = .global → c.s0.lateAccess c.g ((c.accLanes f).map (c.accAddr f)) f.n = false
  own : accOwn i c
  room : f.ctr = 0 ∨ c.g.ctr.sel f.ctr < 65535
  merge : c.buffers i f → c.s0.mergeRoom c.g ((c.accLanes f).map (c.accAddr f)) = true

/-- The number that the next access gets is in use nowhere: numbers are given once. -/
def State.FreshNumber (s : State) : Prop :=
  (∀ o ∈ s.ops, o.id ≠ s.nextId ∧ ∀ l ∈ o.lanes, ∀ j ∈ l.joined, j.1 ≠ s.nextId) ∧
  ∀ x ∈ s.regions, ∀ t ∈ x.2.waiting, t.op ≠ s.nextId

/-- The dirty bytes of a core's lines of some addresses put at home, line after line, each line once (08 R232, R240). -/
def State.sentHome (s : State) (c : CoreRef) (asid : Nat) (as : List Nat) : State :=
  (as.foldl (fun (r : State × List Nat) a =>
    if r.2.contains (a / 128) then r
    else ((match findLine (s.l1Lines c) asid a with
      | some x => x.dirty.foldl (fun (s : State) d => s.homePut c.die asid (x.line * 128 + d.1) x.prio d.2) r.1
      | none => r.1), (a / 128) :: r.2)) (s, [])).1

/-- No RWT waits for chunks of a region entry (10 R294). -/
def State.Unawaited (s : State) (k : CoreRef × Nat) : Prop :=
  ∀ g ∈ s.groups, g.ref.coreRef = k.1 → ∀ sp ∈ g.splits, ∀ h ka, sp.wait ≠ .chunks k.2 h ka

/-- No group is HELD at a PHA of a phase barrier (07 R217). -/
def State.NoneHeldAt (s : State) (n : Nat) : Prop := ∀ g ∈ s.groups, ∀ sp ∈ g.splits, sp.phaPosts n = none

/-- No window with fills covers a scratchpad access, so that no lane waits on a chunk (10 R284). -/
def Ctx.noTouch (c : Ctx) (f : AccForm) : Prop :=
  f.space = .scratch → ∀ l ∈ c.accLanes f, c.s0.windowAt c.r.coreRef c.g.lid c.g.blk (c.accAddr f l) = none

/-- Registers emptied for an operation in some lanes (01 R27); a mailbox register as a whole (01 R16). -/
def Group.emptied (s : State) (ds : List Nat) (m : Mask) (id : Nat) (g : Group) : Group :=
  ds.foldl (fun g n => if s.isMbox g n then g.setV n { g.vreg n with full := false } else g.markV n m id) g

/-- An access that waits for its verdict, each lane in it once, may have it: program order allows a write or a WAITA to be
accepted. -/
def MemOp.Judged (s : State) (op : Nat) (o : MemOp) (g : Group) : Prop :=
  s.op? op = some o ∧ s.group? o.g = some g ∧ (g.split o.entry).wait = .verdict op ∧ (o.lanes.map (·.lane)).Nodup ∧
  (o.writes = true ∨ o.kind = .waita → ∀ l ∈ o.lanes, s.mayAccept o l = true)

/-- The faulted lanes of an access with their faults. -/
def State.faulted (s : State) (o : MemOp) : List (LaneAcc × Nat × Nat × DWord × Nat) :=
  o.lanes.filterMap (fun l => (s.laneFault o l).map (fun f => (l, f)))

/-- The lanes that park: the whole split for LDK and STK, else those that faulted (08 R237, 05 R121). -/
def State.parking (s : State) (o : MemOp) (g : Group) : Mask :=
  if o.kind = .ldk ∨ o.kind = .stk then (g.split o.entry).mask
  else (s.faulted o).foldl (fun m x => m ||| BitVec.ofNat 32 (2 ^ x.1.lane)) 0

/-- What an accepted access is: the accepted lanes of `o`, with what it samples, each accepted or, a plain store, already performed. -/
def MemOp.Accepted (o p : MemOp) (lanes : List LaneAcc) : Prop :=
  p.id = o.id ∧ p.g = o.g ∧ p.entry = o.entry ∧ p.ins = o.ins ∧ p.asid = o.asid ∧
  p.lanes.map (fun l => (l.lane, l.addr, l.data)) = lanes.map (fun l => (l.lane, l.addr, l.data)) ∧
  (∀ l ∈ p.lanes, l.status = .accepted ∨ l.status = .performed) ∧
  (o.kind ≠ .store → o.kind ≠ .scatter → o.kind ≠ .stk → o.kind ≠ .ared → ∀ l ∈ p.lanes, l.status = .accepted)

/-- The split of an accepted access, in its place in the clause: at the next slot, or where it stood, waiting for the reply of
an acquire or a WAITA (08 R231). -/
def MemOp.PassedOn (o : MemOp) (g g' : Group) : Prop :=
  (o.holds = false → (g'.split o.entry).state = ((g.finish o.entry).split o.entry).state ∧
    (g'.split o.entry).hdr = ((g.finish o.entry).split o.entry).hdr ∧
    (g'.split o.entry).slot = ((g.finish o.entry).split o.entry).slot) ∧
  (o.holds = true → (g'.split o.entry).wait = .reply ∧ (g'.split o.entry).state = (g.split o.entry).state ∧
    (g'.split o.entry).hdr = (g.split o.entry).hdr ∧ (g'.split o.entry).slot = (g.split o.entry).slot)

/-! ### Matrix operations -/

/-- The registers that the issue of a matrix operation reads (11 R312, R317). -/
def matRds (i : Instr) : List Rd :=
  match i with
  | .tld o | .tst o | .ald o | .ast o => memRds o
  | .tmvt o | .tmvtAcc o => runRds o
  | _ => []

/-- The v registers it empties (11 R321). -/
def matDsts (i : Instr) : List Nat := match i with | .tmvv o | .tmvvAcc o => runOf o | _ => []

/-- The operation handed to the engine: everything sampled at issue (11 R312). -/
def Ctx.matIssued (c : Ctx) (i : Instr) (o : OpT) : MatOp :=
  match i with
  | .tmvt _ | .tmvtAcc _ => sampleRun o c (c.matOp i o)
  | _ => c.matOp i o

/-- What an instruction states for itself: a rounding mode (11 R311), a gang (R329), a threshold (R335). -/
def matOwn (i : Instr) (c : Ctx) : Prop :=
  match i with
  | .tscl o | .ast o => (c.mode (rndOf o.m)).isSome = true
  | .mmag _ => gangSize c.g.sp.gang ≠ 0
  | .mfct _ => badTau c.g.sp.pivot = false
  | _ => True

/-- The word of a lane of a v register of a group, as a slot that reads it sees it (05 R125). -/
def State.vWord (s : State) (r : GRef) (n l : Nat) : Word :=
  match s.group? r with | some g => Group.readLane s g n l | none => 0

/-- The value of a k register of a group. -/
def State.kWord (s : State) (r : GRef) (n : Nat) : DWord :=
  match s.group? r with | some g => (g.kreg n).val | none => 0

/-- A p predicate of a group. -/
def State.pMask (s : State) (r : GRef) (i : Nat) : Mask := match s.group? r with | some g => g.pred i | none => 0

/-- A q predicate of a group. -/
def State.qBit (s : State) (r : GRef) (i : Nat) : Bool :=
  match s.group? r with | some g => g.qs.getD i false | none => false

/-- THE INVARIANT: HBM and the on-chip storage are in canonical form. -/
def State.Inv (s : State) : Prop := Memory.wf s.hbm = true ∧ Memory.wf s.onchip = true

end Sys2Proof.Machine
end

