-- ==== Sys2Proof/Certificates/Slice0/Obligations.lean ====
section
/-! DEFINITION. The statements made about the machine. -/

open Sys2Proof Sys2Proof.Machine

/-! ### The machine as a whole -/

/-- The reset values the spec gives (14 R430, R434, R402, 05 R148): every core held, no owner, DLMAX 1,024, one partition of four dies,
no launch, no group, PREBUDGET 100,000. That no instruction cache holds code right after reset (`icL0 = []`) is no value the spec
gives: the clause is the model's reading (assumption log 10). -/
def Obligations.ResetLeavesSpecValues : Prop :=
  State.reset.held = true ∧ State.reset.regs.owner = 0 ∧ State.reset.regs.ready = false ∧ State.reset.regs.fwfail = false ∧
  State.reset.regs.pfail = false ∧ State.reset.regs.shootdone = 0 ∧ State.reset.regs.fqhead = 0 ∧
  State.reset.regs.dlmax = 1024 ∧ State.reset.parts = [(0, 4)] ∧ State.reset.groups = [] ∧ State.reset.launches = [] ∧
  State.reset.blocks = [] ∧ State.reset.icL0 = [] ∧ State.reset.preBudget = 100000 ∧
  (∀ c p, State.reset.selected c p = none)

/-- Right after reset HBM and the on-chip storage are in canonical form (addresses rising, no zero byte listed): the model's way of
writing the reset contents of 01 R19 and 14 R401, which it reads as zero (assumption log 1 and 2). -/
def Obligations.ResetMeetsInvariant : Prop := State.reset.Inv

/-- Every step keeps the memories in canonical form, from every state that has it. -/
def Obligations.StepKeepsCanonicalMemory : Prop :=
  ∀ s t : State, s.Inv → step s = .next t → t.Inv

/-- A STEP RUNS THE DECODED INSTRUCTION: when the next move issues for a partition that is not held or stopped, its selected
split may issue and the word at the split's position (with the word after it) decodes to i, the step is exec of i with
that split as issuer and the move gone from the agenda. -/
def Obligations.StepRunsDecodedInstruction : Prop :=
  ∀ (s : State) (c : CoreRef) (p slot e : Nat) (rest : List Move) (ps : PartSched) (g : Group) (cl : Clause) (w : DWord)
    (i : Instr),
    s.agenda = .issue c p :: rest → s.held = false → s.partIdx c.die ∉ s.stopped →
    s.sched.get? (c, p) = some ps → ps.sel = some (slot, e) →
    s.group? { home := c.home, die := c.die, core := c.core, slot := slot } = some g →
    g.phase = .running → (g.split e).state = .ready → (g.split e).started = true → (g.split e).trap = none →
    (g.split e).clause = some cl → cl.slots[(g.split e).slot]? = some w →
    decode w cl.slots[(g.split e).slot + 1]? = .ok i →
    step s = exec i { s with agenda := rest, tick := s.tick + 1, cur := some ⟨{ home := c.home, die := c.die, core := c.core, slot := slot }, e⟩ }

/-- An event of the agenda is executed, without an issuer; with an empty agenda the free choice of the next move is
made and counted, and a slot row is no event. The agenda, which orders what the spec leaves to happen at any moment, is the
model's own (assumption log 4). -/
def Obligations.StepRunsEvents : Prop :=
  (∀ (s : State) (i : Instr) (rest : List Move), s.agenda = .event i :: rest → encode i = [] →
    step s = exec i { s with agenda := rest, tick := s.tick + 1, cur := none }) ∧
  (∀ (s : State) (i : Instr), s.agenda = [] → Config.nextMove s.tick = .event i → encode i = [] →
    step s = exec i { s with tick := s.tick + 1, cur := none }) ∧
  (∀ (s : State) (i : Instr) (rest : List Move), s.agenda = .event i :: rest → encode i ≠ [] →
    step s = .next { s with agenda := rest, tick := s.tick + 1 })

/-- The decoder reads the words the spec writes out: `KADD k3, k3, 64` (05 R165), the two slots and the branch of 02's worked
clause, `LDG.b32 v6, [k4 + v2*4 + 64]` (08 R237), `ACAD.f32.pkg v10, [k8], v20` (08 R245), `BAR.die 2` (07 R213), `CMBR v8`
(12 R355), `TSUM.f16.hb v21:x2, v21, v20` (09 R260) and `MMA.res a0, t0` (11 R316). -/
def Obligations.DecodesSpecWords : Prop :=
  decode 0x137A1D0C00010001 none = .ok (.kadd (.i ⟨⟨false, 7⟩, 323, ⟨323, false, false⟩, 64, 1⟩)) ∧
  decode 0x3370202204804190 none =
    .ok (.ffma ⟨⟨false, 7⟩, 4, ⟨8, true, false⟩, ⟨9, false, false⟩, ⟨4, false, false⟩, 0x190⟩) ∧
  decode 0x2020502800019081 none = .ok (.iadd (.i ⟨⟨false, 2⟩, 10, ⟨10, false, false⟩, 100, 0x081⟩)) ∧
  decode 0x01100001E00002E0 none = .ok (.bra ⟨⟨false, 1⟩, 30, 46, false, false, 0⟩) ∧
  decode 0x6070351001000810 none =
    .ok (.ldg ⟨⟨false, 7⟩, 6, ⟨324, false, false⟩, ⟨2, false, false⟩, 0, 0, 0, 2, 16⟩) ∧
  decode 0x727055200A030800 none =
    .ok (.acad ⟨⟨false, 7⟩, 10, ⟨328, false, false⟩, ⟨20, false, false⟩, 0, 3, 0, 2, 0⟩) ∧
  decode 0xB070000040020000 none = .ok (.bar ⟨⟨false, 7⟩, 0, ⟨0, false, false⟩, 0x4002, 0, 0⟩) ∧
  decode 0xC170002000000000 none = .ok (.cmbr ⟨⟨false, 7⟩, 0, ⟨8, false, false⟩, 0, 0, 0⟩) ∧
  decode 0x5070A8540A000102 none =
    .ok (.tsum ⟨⟨false, 7⟩, 21, ⟨21, false, false⟩, ⟨20, false, false⟩, ⟨0, false, false⟩, 0x102⟩) ∧
  decode 0x9070008000000000 none = .ok (.mma ⟨⟨false, 7⟩, 0, 0, 0, true, 0, 0, 0, 0⟩)

/-- Encoding and decoding agree on every instruction and every operand value: the bytes of the words of a well-formed
instruction decode to it and leave the bytes that follow. -/
def Obligations.DecodeEncodeRoundTrip : Prop :=
  ∀ (i : Instr) (rest : List Byte), wellFormed i = true → illScope i = false → encode i ≠ [] →
    decodeBytes ((encode i).flatMap (fun w => natToBytes 8 w.toNat) ++ rest) = .ok (i, rest)

/-- The unassigned opcodes (02 R57) decode to no instruction whatever the other bits and the next word hold, and a clause whose
first slot has one raises ILLOP there (R40), whatever the clause's class. -/
def Obligations.UnassignedOpcodesRefused : Prop :=
  ∀ (w : DWord) (lit : Option DWord) (r : LaunchRec) (cls : Nat) (rest : List DWord),
    (0x7C ≤ opcOf w ∧ opcOf w ≤ 0x7F) ∨ (0x8A ≤ opcOf w ∧ opcOf w ≤ 0x8F) ∨ (0x97 ≤ opcOf w ∧ opcOf w ≤ 0x9F) ∨
      (0xA9 ≤ opcOf w ∧ opcOf w ≤ 0xAF) ∨ (0xBC ≤ opcOf w ∧ opcOf w ≤ 0xBF) ∨ (0xCA ≤ opcOf w ∧ opcOf w ≤ 0xCF) ∨
      (0xD6 ≤ opcOf w ∧ opcOf w ≤ 0xDF) ∨ 0xEE ≤ opcOf w →
    decode w lit = .error (.unassigned (opcOf w)) ∧ slotFault r cls 0 (w :: rest) = some (0, .illop)

/-! ### The group sequencer (05) -/

/-- NOP and GSYNC complete with no other effect, YIELD marks its group for the partition (05 R149); a GSYNC whose accesses are
performed completes for every split of the group that stands at it (05 R120). RET and JMPK transfer the whole split to the header in
k63 or in their k register (05 R152); a target that is not a multiple of 8 raises MISALIGN. EXIT (05 R153): its lanes leave the group for good; with its
last lane the group ends. In a handler, or in a responder or pack wave that has not answered, it raises ILLOP with DETAIL 0x0003. -/
def Obligations.PlainControl : Prop :=
  (((∀ o s c, Ready s o.g [] [] c → Answers (.nop o) s (Completes c [] 1 id)) ∧
      (∀ o s c, Ready s o.g [] [] c → Answers (.yield o) s (fun t =>
        c.Ends (c.read []) t ∧
        (t.sched.getD (c.r.coreRef, partOf c.r) default).yield = some c.r.slot)) ∧
      (∀ o s c, Ready s o.g [] [] c → c.g.inHandler c.e = false → c.g.isResponder = false → c.g.allReached c.e = true →
        s.groupDrained c.r = true → Answers (.gsync o) s (Synced c [] id))) ∧
    (∀ (s : State) (c : Ctx) (n : Nat) (et : Bool) (i : Instr),
        (∃ o, i = .ret o ∧ n = 63 ∧ et = false) ∨ (∃ o, i = .jmpk o ∧ n = o.a.kNum ∧ et = o.a.etrap) →
        Ready s Guard.yes [⟨true, n, false, et⟩] [] c →
        ((c.g.kreg n).val.toNat % 8 = 0 →
          Answers i s (Jumps c [⟨true, n, false, et⟩] (c.g.kreg n).val.toNat id)) ∧
        ((c.g.kreg n).val.toNat % 8 ≠ 0 → Answers i s (Traps c .misalign 0)))) ∧
  (∀ (o : OpS) (s : State) (c : Ctx), Ready s o.g [] [] c →
      (c.g.inHandler c.e = true ∨ (c.m ≠ 0 ∧ mayExit s c.g = false) → Answers (.exit o) s (Traps c .illop 3)) ∧
      (c.g.inHandler c.e = false → c.m = 0 → Answers (.exit o) s (Jumps c [] c.sp.nextHdr id)) ∧
      (c.g.inHandler c.e = false → mayExit s c.g = true → c.m ≠ 0 → c.g.exited ||| c.m ≠ Mask.all →
        Answers (.exit o) s (fun t => ∃ g, t.group? c.r = some g ∧ g.exited = c.g.exited ||| c.m ∧
          g.kregs = c.g.kregs ∧ g.preds = c.g.preds ∧ g.qs = c.g.qs)) ∧
      (c.g.inHandler c.e = false → mayExit s c.g = true → c.m ≠ 0 → c.g.exited ||| c.m = Mask.all →
        Answers (.exit o) s (fun t => ∃ u : State, t = (u.groupEnd c.r).count c.r.coreRef 1 1 ∧
          u = { s with groups := u.groups, counters := u.counters } ∧ ∃ g, u.group? c.r = some g ∧ g.exited = Mask.all)))

/-- A branch in the form without divergence (05 R150, R151): when no lane takes it the split goes to the clause after this one; when every active
lane takes it and the target is a multiple of 8 the split goes to the target, and CALL and CALLX write the return address into k63.
A branch that part of the active lanes take diverges (05 R116, R150): with a reconvergence offset, a free join record r of its
depth and a free entry e, the taken lanes run from the target in entry e, the others from the next header in the split's
own entry, both with record r, which waits for all of the split's lanes at the reconvergence header. -/
def Obligations.Branches : Prop :=
  (∀ (s : State) (c : Ctx), Ready s Guard.yes [] [] c →
      (∀ (o : OpB) (off : Int) (i : Instr) (isCall : Bool),
        (i = .bra o ∧ off = 8 * o.toff.toInt ∧ isCall = false) ∨ (i = .call o ∧ off = 8 * o.toff.toInt ∧ isCall = true) ∨
          (∃ x : OpBL, x.b = o ∧ off = x.lit.toInt ∧ ((i = .brx x ∧ isCall = false) ∨ (i = .callx x ∧ isCall = true))) →
        (c.taken o = 0 → Answers i s (Jumps c [] c.sp.nextHdr id)) ∧
        (c.taken o ≠ 0 → c.taken o = c.sp.mask → (c.sp.pc + off) % 8 = 0 →
          Answers i s (Jumps c [] ((c.sp.pc + off) % 2 ^ 64).toNat (fun g =>
            if isCall then g.writeK 63 (BitVec.ofNat 64 c.sp.nextHdr) else g))) ∧
        (c.taken o ≠ 0 → (c.sp.pc + off) % 8 ≠ 0 → Answers i s (Traps c .misalign 0)))) ∧
  (∀ (s : State) (c : Ctx), Ready s Guard.yes [] [] c → c.g.splits.length = 11 → c.g.joins.length = 16 →
      c.g.inHandler c.e = false → c.e < 8 → c.g.depth = 0 → (c.g.split c.e).state ≠ .free →
      (∀ (o : OpB) (off : Int) (i : Instr) (isCall : Bool) (r e : Nat),
        (i = .bra o ∧ off = 8 * o.toff.toInt ∧ isCall = false) ∨ (i = .call o ∧ off = 8 * o.toff.toInt ∧ isCall = true) ∨
          (∃ x : OpBL, x.b = o ∧ off = x.lit.toInt ∧ ((i = .brx x ∧ isCall = false) ∨ (i = .callx x ∧ isCall = true))) →
        c.taken o ≠ 0 → c.taken o ≠ c.sp.mask → (c.sp.pc + off) % 8 = 0 → o.joff ≠ 0 →
        r < 14 → (∀ x < r, (c.g.joins.getD x Join.free).valid = true) → (c.g.joins.getD r Join.free).valid = false →
        c.g.freeEntry (List.range 8) = some e →
        Answers i s (fun t => ∃ g, t.group? c.r = some g ∧
          (g.split e).mask = c.taken o ∧ (g.split e).state = .ready ∧ (g.split e).jref = r ∧
          (g.split e).hdr = ((c.sp.pc + off) % 2 ^ 64).toNat % 2 ^ 56 ∧
          (g.split c.e).mask = c.sp.mask &&& ~~~(c.taken o) ∧ (g.split c.e).state = .ready ∧ (g.split c.e).jref = r ∧
          (g.split c.e).hdr = c.sp.nextHdr % 2 ^ 56 ∧
          g.joins[r]? = some { mask := c.sp.mask ||| c.sp.dorm, arrived := c.sp.dorm, valid := true, outer := c.sp.jref,
                               defer := false, j := ((c.sp.pc + 8 * o.joff.toInt) % 2 ^ 64).toNat % 2 ^ 56, dmask := 0, dpc := 0 } ∧
          (isCall = true → (g.kreg 63).val = BitVec.ofNat 64 c.sp.nextHdr))))

/-- MASKR writes the active, dormant, parked or exited lanes; MASKW keeps the lanes of its operand active and lays the others
to rest, and raises MASKSELF when none would be left (05 R154, R122). VOTE, PLOP, CHKF and WAITF (05 R155 to R157): their predicate,
register or wait. -/
def Obligations.MasksAndPredicates : Prop :=
  ((∀ o s c, Ready s o.g [] [] c → Answers (.maskr o) s (Completes c [] 1 (fun g => g.writeK (dstNum o.d)
      ((match o.sub.toNat with | 0 => c.sp.mask | 1 => c.sp.dorm | 2 => c.g.parkedMask | _ => c.g.exited).setWidth 64)))) ∧
    (∀ o s c, Ready s o.g (srcRds o.a) [] c →
      (c.sp.mask &&& (c.g.kreg o.a.kNum).val.lo ≠ 0 →
        Answers (.maskw o) s (Completes c (srcRds o.a) 1 (fun g => g.modSplit c.e (fun sp =>
          { sp with mask := c.sp.mask &&& (c.g.kreg o.a.kNum).val.lo,
                    dorm := sp.dorm ||| (c.sp.mask &&& ~~~(c.g.kreg o.a.kNum).val.lo) })))) ∧
      (c.sp.mask &&& (c.g.kreg o.a.kNum).val.lo = 0 → Answers (.maskw o) s (Traps c .maskself 0)))) ∧
  ((∀ o s c, Ready s o.g [] (if isVDst o.d then [dstNum o.d] else []) c →
      let p := (if mbit o.m 3 then ~~~(c.pcode o.a.opnd.toNat) else c.pcode o.a.opnd.toNat) &&& c.sp.mask
      (mfield o.m 2 1 = 0 → isVDst o.d = true →
        Answers (.vote o) s (Completes c [] 1 (fun g => g.writeV (dstNum o.d) c.m (fun _ => p)))) ∧
      (mfield o.m 2 1 = 0 → isVDst o.d = false →
        Answers (.vote o) s (Completes c [] 1 (fun g => g.writeK (dstNum o.d) (p.setWidth 64)))) ∧
      (mfield o.m 2 1 ≠ 0 → Answers (.vote o) s (Completes c [] 1 (fun g => g.writePred o.d c.m
        (if (mfield o.m 2 1 = 1 ∧ p = c.sp.mask) ∨ (mfield o.m 2 1 = 2 ∧ p ≠ 0) ∨
            (mfield o.m 2 1 = 3 ∧ (p = c.sp.mask ∨ p = 0)) then Mask.all else 0))))) ∧
    (∀ o s c, Ready s o.g [] [] c → Answers (.plop o) s (Completes c [] 1 (fun g => g.writePred o.d c.m
      (lut3 (mfield o.m 8 1) (c.pcode o.a.opnd.toNat) (c.pcode o.b.opnd.toNat) (c.pcode o.c.opnd.toNat))))) ∧
    (∀ o s c, Ready s o.g [] [] c → Answers (.chkf o) s (Completes c [] 1 (fun g => g.writePred o.d c.m
      (if isQDst o.d then (if c.sp.mask &&& ~~~(landedLanes s c.g o.a) = 0 then Mask.all else 0)
        else landedLanes s c.g o.a)))) ∧
    (∀ o s c, Ready s o.g [] [] c →
      (c.sp.mask &&& ~~~(landedLanes s c.g o.a) = 0 → Answers (.waitf o) s (Completes c [] 1 id)) ∧
      (c.sp.mask &&& ~~~(landedLanes s c.g o.a) ≠ 0 → c.e < c.g.splits.length → Answers (.waitf o) s (fun t => ∃ g, t.group? c.r = some g ∧
        (g.split c.e).state = .blocked ∧ (g.split c.e).slot = c.sp.slot ∧ g.vregs = c.g.vregs ∧ g.kregs = c.g.kregs))))

/-- The uniform arithmetic of 05 R159 is exact modulo 2^64, with shifts by 64 and more giving 0 (KSHL, logical KSHR) or the sign
(arithmetic KSHR). The uniform moves, comparison, selection and register reads (05 R158, R160 to R162). The result goes to the destination and nothing else
changes. -/
def Obligations.UniformInstructions : Prop :=
  ((∀ (row : OpRI → Instr) (f : OpRI → DWord → DWord → DWord),
      (row, f) ∈ [
        (Instr.kadd, fun _ a b => a + b), (Instr.ksub, fun _ a b => a - b), (Instr.kmul, fun _ a b => a * b),
        (Instr.kshl, fun _ a b => BitVec.ofNat 64 (a.toNat * 2 ^ b.toNat)),
        (Instr.kshr, fun o a b => if mbit o.m 1 then BitVec.ofInt 64 (a.toInt / 2 ^ b.toNat)
          else BitVec.ofNat 64 (a.toNat / 2 ^ b.toNat)),
        (Instr.kmnx, fun o a b =>
          if mbit o.m 2 then BitVec.ofNat 64 (if mbit o.m 1 then max a.toNat b.toNat else min a.toNat b.toNat)
          else BitVec.ofInt 64 (if mbit o.m 1 then max a.toInt b.toInt else min a.toInt b.toInt))] →
      ∀ o s c, Ready s o.g (uniRds o) [] c →
        Answers (row o) s (Completes c (uniRds o) 1 (fun g => g.writeK (dstNum o.d) (f o (c.u o.a) (c.ub o))))) ∧
    (∀ o s c, Ready s o.g (srcRds o.a ++ srcRds o.b ++ srcRds o.c) [] c →
      Answers (.kmad o) s (Completes c (srcRds o.a ++ srcRds o.b ++ srcRds o.c) 1 (fun g =>
        g.writeK (dstNum o.d) (c.u o.a * c.u o.b + c.u o.c))) ∧
      Answers (.klop o) s (Completes c (srcRds o.a ++ srcRds o.b ++ srcRds o.c) 1 (fun g =>
        g.writeK (dstNum o.d) (lut3 (mfield o.m 8 1) (c.u o.a) (c.u o.b) (c.u o.c)))))) ∧
  ((∀ o s c, Ready s o.g (srcRds o.a) [] c → Answers (.kmov o) s (Completes c (srcRds o.a) 1 (fun g =>
      g.writeK (dstNum o.d) (c.u o.a)))) ∧
    (∀ o s c, Ready s o.g [] [] c → Answers (.kmovi o) s (Completes c [] 1 (fun g =>
      g.writeK (dstNum o.d) (BitVec.ofInt 64 o.imm.toInt)))) ∧
    (∀ o s c, Ready s o.w.g [] [] c → Answers (.klit o) s (Completes c [] 2 (fun g => g.writeK (dstNum o.w.d) o.lit))) ∧
    (∀ o s c, Ready s o.g (uniRds o) [] c →
      let r := kcmp (mfield o.m 4 1) (c.u o.a) (c.ub o)
      (isQDst o.d = true → Answers (.kcmp o) s (Completes c (uniRds o) 1 (fun g => g.writeQ (dstNum o.d) r))) ∧
      (isQDst o.d = false → Answers (.kcmp o) s (Completes c (uniRds o) 1 (fun g =>
        g.writeK (dstNum o.d) (if r then 1 else 0))))) ∧
    (∀ o s c, Ready s o.g (srcRds o.a ++ srcRds o.b) [] c →
      Answers (.ksel o) s (Completes c (srcRds o.a ++ srcRds o.b) 1 (fun g => g.writeK (dstNum o.d)
        (if c.g.qs.getD (mfield o.m 2 1) false != mbit o.m 3 then c.u o.a else c.u o.b)))) ∧
    (∀ o s c, Ready s o.g [] [] c → Answers (.krds o) s (Completes c [] 1 (fun g => g.writeK (dstNum o.d)
      (if o.imm = 2 then BitVec.ofNat 64 (c.g.blk % 2 ^ 32) else s.special c.g c.sp o.imm.toNat 0)))) ∧
    (∀ o s c, Ready s o.g (srcRds o.a) [] c → Answers (.kwrs o) s (Completes c (srcRds o.a) 1 (fun g =>
      { g with sp := g.sp.write o.imm.toNat (c.g.kreg o.a.kNum).val }))) ∧
    (∀ o s c, ReadyOn s (fun _ sp => (1 : Mask) <<< sp.mask.lowest) (srcRds o.a (if mbit o.m 1 then 2 else 1)) [] c →
      Answers (.krdf o) s (Completes c (srcRds o.a (if mbit o.m 1 then 2 else 1)) 1 (fun g => g.writeK (dstNum o.d)
        (if mbit o.m 1 then c.v (o.a.vNum + 1) c.sp.mask.lowest ++ c.v o.a.vNum c.sp.mask.lowest
          else (c.v o.a.vNum c.sp.mask.lowest).setWidth 64)))))

/-! ### Exceptions and their return (05 R131 to R142) -/

/-- TAKING AN EXCEPTION of kind S or D from an ordinary split whose launch has a handler (05 R131 to R133): `%tcause` takes DETAIL
and the code, `%tpc` the given address, the split is SUSPENDED, the handler runs in entry 8 with the split's active lanes at
the HANDLER address without a join record, and no register, predicate, mode or memory changes. TRAP and BRK (05 R163) take SWTRAP and
BREAK with their code as DETAIL and `%tpc` at the next header, where the split stands after the handler. In a launch without a handler
the group ends (R136). -/
def Obligations.TakingATrap : Prop :=
  (∀ (s : State) (r : GRef) (g : Group) (e : Nat) (ca : Cause) (detail tpc : Nat),
      s.group? r = some g → g.kind = .ordinary → g.depth = 0 → s.hasHandler g = true → g.splits.length = 11 → e < 8 →
      ∃ g', (s.takeTrap r e ca detail tpc).group? r = some g' ∧
        g'.sp = { g.sp with tcause := BitVec.ofNat 16 detail ++ BitVec.ofNat 16 (causeCode ca), tpc := BitVec.ofNat 64 tpc } ∧
        g'.depth = 1 ∧ (g'.split e).state = .suspended ∧ (g'.split e).mask = (g.split e).mask ∧
        (g'.split e).hdr = (g.split e).hdr ∧ (g'.split e).slot = (g.split e).slot ∧
        (g'.split 8).state = .ready ∧ (g'.split 8).mask = (g.split e).mask ∧ (g'.split 8).dorm = 0 ∧
        (g'.split 8).hdr = s.handlerOf g ∧ (g'.split 8).slot = 0 ∧ (g'.split 8).jref = 0x1F ∧
        (∀ i < 8, i ≠ e → (g.split i).state = .ready ∨ (g.split i).state = .blocked → (g.split i).inClause = false →
          (g'.split i).state = .held) ∧
        g'.vregs = g.vregs ∧ g'.kregs = g.kregs ∧ g'.preds = g.preds ∧ g'.qs = g.qs ∧
        (∀ r', r' ≠ r → (s.takeTrap r e ca detail tpc).group? r' = s.group? r') ∧
        (s.takeTrap r e ca detail tpc).hbm = s.hbm ∧ (s.takeTrap r e ca detail tpc).onchip = s.onchip) ∧
  (∀ (o : OpS) (s : State) (c : Ctx) (i : Instr) (code : Nat), Ready s o.g [] [] c →
      (i = .trap o ∧ code = 0x13) ∨ (i = .brk o ∧ code = 0x14) → c.g.kind = .ordinary → c.g.depth = 0 → c.e < 8 →
      c.g.splits.length = 11 →
      (s.hasHandler c.g = true → Answers i s (fun t => OthersKept c t ∧ ∃ g, t.group? c.r = some g ∧
        g.sp = { c.g.sp with tcause := o.imm ++ BitVec.ofNat 16 code, tpc := BitVec.ofNat 64 c.sp.nextHdr } ∧
        g.depth = 1 ∧ (g.split c.e).state = .suspended ∧ (g.split c.e).hdr = c.sp.nextHdr % 2 ^ 56 ∧ (g.split c.e).slot = 0 ∧
        (g.split 8).state = .ready ∧ (g.split 8).mask = c.sp.mask ∧ (g.split 8).hdr = s.handlerOf c.g ∧
        g.vregs = c.g.vregs ∧ g.kregs = c.g.kregs)) ∧
      (s.hasHandler c.g = false → Answers i s (fun t => ∃ u : State, t = u.groupTrapped c.r ∧ OthersKept c u ∧
        (u.group? c.r).isSome)))

/-- TRET (05 R134, R135). At depth 1 entries 8 and 9 and record 14 are freed, the HELD splits are READY, and the suspended split goes on
where it stood when `%tpc` is as handler entry set it, else at the header `%tpc` with its lanes and join record kept; with a PREEMPT
pending, or asked for before the handler was entered, they stay HELD for it. At depth 2 the
depth-1 handler goes on from its saved copy with the shadow pair restored. Where the conditions of R134 do not hold it
raises ILLOP with DETAIL 0x0003, and where `%tpc` is not a multiple of 8, MISALIGN. After the handler of UNCORRECTED the group
ends (R136). -/
def Obligations.TrapReturn : Prop :=
  ∀ (o : OpS) (s : State) (c : Ctx), Ready s o.g [] [] c →
    (c.g.mayReturn c.e = false → Answers (.tret o) s (Traps c .illop 3)) ∧
    (c.g.mayReturn c.e = true → c.g.causeNow = .uncorrected → Answers (.tret o) s (fun t => ∃ u : State,
      t = (u.groupTrapped c.r).count c.r.coreRef 1 1 ∧ OthersKept c u ∧ u.group? c.r = some (c.read []))) ∧
    (c.g.mayReturn c.e = true → c.g.causeNow ≠ .uncorrected → c.g.sp.tpc.toNat % 8 ≠ 0 →
      Answers (.tret o) s (Traps c .misalign 0)) ∧
    (c.g.mayReturn c.e = true → c.g.depth = 1 → c.g.cause1 ≠ .uncorrected → c.g.resumed = false → c.g.sp.tpc.toNat % 8 = 0 →
      c.g.splits.length = 11 →
      Answers (.tret o) s (fun t => OthersKept c t ∧ ∃ g, t.group? c.r = some g ∧ g.depth = 0 ∧ g.suspended = none ∧
        (g.split 8).state = .free ∧ (g.split 9).state = .free ∧
        (∀ i < 8, c.g.suspended ≠ some i → (c.g.split i).state = .held → (c.g.split i).wait = .handler →
          (g.split i).state = (if c.g.prepend = true ∨ c.g.preemptReq = true then .held else .ready)) ∧
        (∀ i < 8, c.g.suspended = some i → (g.split i).state = .ready ∧ (g.split i).mask = (c.g.split i).mask ∧
          (g.split i).dorm = (c.g.split i).dorm ∧ (g.split i).jref = (c.g.split i).jref ∧
          (c.g.sp.tpc = c.g.tpcSet → (g.split i).hdr = (c.g.split i).hdr ∧ (g.split i).slot = (c.g.split i).slot) ∧
          (c.g.sp.tpc ≠ c.g.tpcSet → (g.split i).hdr = c.g.sp.tpc.toNat % 2 ^ 56 ∧ (g.split i).slot = 0)) ∧
        g.vregs = c.g.vregs ∧ g.kregs = c.g.kregs ∧ g.preds = c.g.preds ∧ g.qs = c.g.qs ∧ g.sp = c.g.sp)) ∧
    (c.g.mayReturn c.e = true → c.g.depth = 2 → c.g.cause2 ≠ .uncorrected → c.g.sp.tpc.toNat % 8 = 0 → c.g.splits.length = 11 → c.g.nestEntry < 10 →
      Answers (.tret o) s (fun t => OthersKept c t ∧ ∃ g, t.group? c.r = some g ∧ g.depth = 1 ∧
        g.sp = { c.g.sp with tcause := c.g.shadowCause &&& ~~~0x100#32, tpc := c.g.shadowTpc } ∧
        (g.split 10).state = .free ∧ (g.split c.g.nestEntry).state = .ready ∧
        (g.split c.g.nestEntry).mask = (c.g.split 10).mask ∧
        (c.g.sp.tpc = c.g.tpcSet2 → (g.split c.g.nestEntry).hdr = (c.g.split 10).hdr ∧
          (g.split c.g.nestEntry).slot = (c.g.split 10).slot) ∧
        (c.g.sp.tpc ≠ c.g.tpcSet2 → (g.split c.g.nestEntry).hdr = c.g.sp.tpc.toNat % 2 ^ 56 ∧
          (g.split c.g.nestEntry).slot = 0) ∧
        g.vregs = c.g.vregs ∧ g.kregs = c.g.kregs))

/-- TDONE, PREEMPTREQ and RESUMEREQ (05 R137 to R140). TDONE in the handler of PREEMPT, or while PREEMPT is pending, with every wait
counter 0, saves the group: it is PREEMPTED with its cookie, its parked sets are discarded, an uncompleted WAITA or GANG is abandoned
and its handler is left. PREEMPTREQ stops the placement of the launch's blocks and asks each of its groups, a group in a handler later;
RESUMEREQ lets the placement go on, and a group saved by TDONE starts again in its handler. -/
def Obligations.SaveAndResume : Prop :=
  (∀ o s c, Ready s o.g (srcRds o.a) [] c → c.g.inHandler c.e = true →
    c.g.cause1 = .preempt ∨ c.g.prepend = true ∨ c.g.preemptReq = true →
    c.g.handles c.e = false ∨ c.g.causeNow ≠ .uncorrected → c.g.ctr.zero = true →
    Answers (.tdone o) s (fun t => ∃ u : State, OthersKept c u ∧
      let v := u.saveCookie c.g (c.k o.a.kNum)
      t = ((({ v with ops := t.ops, gangs := t.gangs, faults := t.faults } : State).modGroup c.r (fun g =>
        g.asPreempted s (c.k o.a.kNum))).count c.r.coreRef 1 1) ∧
      t.ops = v.ops.filter (fun o => !(o.g = c.r && o.kind = .waita)) ∧ t.gangs = v.gangs.filter (fun w => w.g ≠ c.r) ∧
      t.faults.map (·.fid) = v.faults.map (·.fid) ∧ ∀ f ∈ t.faults, ∀ n, Requester.parked c.r n ∉ f.joined)) ∧
  (∀ o s c, Ready s o.g (srcRds o.a) [] c → c.g.inHandler c.e = false → Answers (.tdone o) s (Traps c .illop 3)) ∧
  (∀ (s : State) (g : Group) (k : DWord), (g.asPreempted s k).phase = .preempted ∧ (g.asPreempted s k).cookie = k ∧
    (g.asPreempted s k).depth = 0 ∧ (g.asPreempted s k).parked = List.replicate 8 Parked.free) ∧
  (∀ o s c l, Ready s o.g (srcRds o.a) [] c → s.privileged c.g = true →
    s.launch? ((c.k o.a.kNum).toNat % 2 ^ 32) = some l →
    Answers (.preemptreq o) s (fun t => (∃ l', t.launch? ((c.k o.a.kNum).toNat % 2 ^ 32) = some l' ∧ l'.preempted = true) ∧
      ∀ r g, r ≠ c.r → s.group? r = some g → g.lid = (c.k o.a.kNum).toNat % 2 ^ 32 → g.kind = .ordinary →
        g.phase = .running ∨ g.phase = .placed → (s.groups.map (·.ref)).Nodup → ∃ g', t.group? r = some g' ∧ g'.depth = g.depth ∧
          (0 < g.depth → g'.prepend = true) ∧ (g.depth = 0 → g'.preemptReq = true))) ∧
  (∀ o s c l, Ready s o.g (srcRds o.a) [] c → s.privileged c.g = true →
    s.launch? ((c.k o.a.kNum).toNat % 2 ^ 32) = some l →
    Answers (.resumereq o) s (fun t => ∃ l', t.launch? ((c.k o.a.kNum).toNat % 2 ^ 32) = some l' ∧ l'.preempted = false ∧
      ∀ r g, r ≠ c.r → s.group? r = some g → g.lid = (c.k o.a.kNum).toNat % 2 ^ 32 → g.phase = .preempted →
        (s.groups.map (·.ref)).Nodup → ∃ g', t.group? r = some g' ∧ g'.phase = .running ∧ g'.depth = 1 ∧ g'.sp.tcause = 0x412)) ∧
  (∀ o s c, Ready s o.g (srcRds o.a) [] c → s.privileged c.g = false →
    Answers (.preemptreq o) s (Traps c .access 0) ∧ Answers (.resumereq o) s (Traps c .access 0))

/-- SREG (05 R148, R169): a privileged group reads and writes SPILLBASE, PREBUDGET and MODTAB; a register that is only written, PREEMPTREQ
or RESUMEREQ, reads 0 (their writes are statement O15's). Another group raises ACCESS with no effect, and a base that is not aligned raises
ILLOP and leaves its register. That a package has one PREBUDGET and one MODTAB also when it is divided into partitions is the model's
choice (assumption log 134). -/
def Obligations.SystemRegisters : Prop :=
  (∀ o s c, Ready s o.g [] [] c →
    (s.privileged c.g = true → o.imm = 0 → Answers (.sregRd o) s (Completes c [] 1 (fun g =>
      g.writeK (dstNum o.d) (s.spillBase.getD c.r.coreRef 0)))) ∧
    (s.privileged c.g = true → o.imm = 1 → Answers (.sregRd o) s (Completes c [] 1 (fun g =>
      g.writeK (dstNum o.d) (s.preBudget.setWidth 64)))) ∧
    (s.privileged c.g = true → o.imm = 4 → Answers (.sregRd o) s (Completes c [] 1 (fun g =>
      g.writeK (dstNum o.d) s.modTab))) ∧
    (s.privileged c.g = true → o.imm = 2 ∨ o.imm = 3 → Answers (.sregRd o) s (Completes c [] 1 (fun g =>
      g.writeK (dstNum o.d) 0))) ∧
    (s.privileged c.g = false → Answers (.sregRd o) s (Traps c .access 0))) ∧
  (∀ o s c, Ready s o.g (srcRds o.a) [] c →
    (s.privileged c.g = true → o.imm = 0 → (c.k o.a.kNum).toNat % 2 ^ 22 = 0 → Answers (.sregWr o) s (fun t =>
      t.spillBase.getD c.r.coreRef 0 = c.k o.a.kNum ∧ t.preBudget = s.preBudget ∧ t.modTab = s.modTab ∧
      (∀ k, k ≠ c.r.coreRef → t.spillBase.getD k 0 = s.spillBase.getD k 0) ∧
      t.hbm = s.hbm ∧ t.onchip = s.onchip ∧ (∀ r, r ≠ c.r → t.group? r = s.group? r) ∧ c.Ends (c.read (srcRds o.a)) t)) ∧
    (s.privileged c.g = true → o.imm = 0 → (c.k o.a.kNum).toNat % 2 ^ 22 ≠ 0 →
      Answers (.sregWr o) s (Traps c .illop 0)) ∧
    (s.privileged c.g = true → o.imm = 4 → (c.k o.a.kNum).toNat % 2 ^ 20 ≠ 0 →
      Answers (.sregWr o) s (Traps c .illop 0)) ∧
    (s.privileged c.g = true → o.imm = 1 → Answers (.sregWr o) s (fun t => t.preBudget = (c.k o.a.kNum).setWidth 32 ∧
      t.spillBase = s.spillBase ∧ t.modTab = s.modTab ∧ c.Ends (c.read (srcRds o.a)) t)) ∧
    (s.privileged c.g = true → o.imm = 4 → (c.k o.a.kNum).toNat % 2 ^ 20 = 0 → Answers (.sregWr o) s (fun t =>
      t.modTab = c.k o.a.kNum ∧ t.spillBase = s.spillBase ∧ t.preBudget = s.preBudget ∧
      c.Ends (c.read (srcRds o.a)) t)) ∧
    (s.privileged c.g = false → Answers (.sregWr o) s (Traps c .access 0)))

/-- The events that take traps (05 R131, R133, R137, R139): a trap a verdict or a decode check left in a split is taken, but for one of
a split outside the handler that runs, which is HELD with its trap until the handler ends. A group asked to stop, with no uncorrected error
waiting, takes PREEMPT between clauses once what was on its way to its registers has landed, with its uncompleted WAITA and GANG abandoned;
where a boundary lies, and that the abandoned split waits HELD at its slot, are the model's reading (assumption log 42). A group with an
uncorrected error takes UNCORRECTED once no split of it is inside a clause that it can still finish; that a split which waits for what the
error took can not, and is passed over, is the model's choice (assumption log 120). A group whose TDONE does not come is saved with its
phase SPILLED. -/
def Obligations.TrapEvents : Prop :=
  (∀ (s : State) (r : GRef) (g : Group) (e : Nat) (t : PendTrap), s.group? r = some g → (g.split e).trap = some t →
    g.kind = .ordinary →
    (g.depth = 0 ∨ g.handles e = true → Answers (.trapEntry r e) s (fun u =>
      u = (s.modSplit r e (fun sp => { sp with trap := none, state := .ready, wait := .none })).takeTrap r e t.cause t.detail t.tpc)) ∧
    (0 < g.depth → g.handles e = false → Answers (.trapEntry r e) s (fun u =>
      u = s.modSplit r e (fun sp => { sp with state := .held, wait := .handler })))) ∧
  (∀ (s : State) (r : GRef) (g y : Group), s.group? r = some g → g.depth = 0 → g.phase = .running →
    g.preemptReq = true ∨ g.prepend = true → g.uncorr = false → s.hasHandler g = true → g.splits.length = 11 →
    (s.abandonWaits r).group? r = some y → y.atBoundary = true → y.landed = true →
    Answers (.preemptTrap r) s (fun u => ∃ g', u.group? r = some g' ∧ g'.depth = 1 ∧ g'.sp.tcause = 0x12 ∧
      g'.preemptReq = false ∧ (g'.split 8).state = .ready ∧ (g'.split 8).mask = ~~~(g.exited ||| g.parkedMask) ∧
      (g'.split 8).hdr = s.handlerOf g ∧ g'.vregs = g.vregs ∧ g'.kregs = y.kregs)) ∧
  (∀ (s : State) (r : GRef) (g : Group), s.group? r = some g → g.uncorr = true → g.phase = .running → g.kind = .ordinary →
    (∀ e < 10, s.finishing g e = false) → g.depth = 0 →
    s.hasHandler g = true → g.splits.length = 11 →
    Answers (.uncorrectedTrap r) s (fun u => ∃ g', u.group? r = some g' ∧ g'.depth = 1 ∧ g'.sp.tcause = 0x15 ∧
      g'.uncorr = false ∧ (g'.split 8).state = .ready ∧ (g'.split 8).hdr = s.handlerOf g)) ∧
  (∀ (s : State) (r : GRef) (g y : Group), s.group? r = some g → g.phase = .running → g.kind = .ordinary → 0 < g.depth →
    g.cause1 = .preempt → (s.abandonWaits r).group? r = some y → y.landed = true → y.ctr.zero = true →
    Answers (.forcedSave r) s (fun u => ∃ g', u.group? r = some g' ∧ g'.phase = .spilled ∧ g'.preemptReq = false))

/-! ### The lane engine (06) -/

/-- Integer arithmetic (06 R184): the exact result of the elements read as the type says, narrowed to the type's width, in every
lane of the slot; IMULH gives the high word of the product. -/
def Obligations.IntegerArithmetic : Prop :=
  (∀ (row : OpRI → Instr) (f : OpRI → Int → Int → Int),
    (row, f) ∈ [(Instr.iadd, fun _ a b => a + b), (Instr.isub, fun _ a b => a - b), (Instr.imul, fun _ a b => a * b),
      (Instr.imnx, fun o a b => if mbit o.m 1 then max a b else min a b)] →
    ∀ o s c, Ready s o.g (riRds o) [dstNum o.d] c →
      Answers (row o) s (Completes c (riRds o) 1 (fun g => g.writeV (dstNum o.d) c.m (fun l =>
        packWord (tyOf o.m).packed (fun h => narrowed (tyOf o.m) (satOf o.m)
          (f o (elInt (tyOf o.m) (c.w (tyOf o.m) o.a l) h) (elInt (tyOf o.m) (c.lb o l) h))))))) ∧
  (∀ (row : OpR → Instr) (n : Nat) (f : Int → Int → Int → Int),
    (row, n, f) ∈ [(Instr.imad, 3, fun a b x => a * b + x), (Instr.iabs, 1, fun a _ _ => (a.natAbs : Int))] →
    ∀ o s c, Ready s o.g (rRds o n) [dstNum o.d] c →
      Answers (row o) s (Completes c (rRds o n) 1 (fun g => g.writeV (dstNum o.d) c.m (fun l =>
        packWord (tyOf o.m).packed (fun h => narrowed (tyOf o.m) (satOf o.m)
          (f (elInt (tyOf o.m) (c.w (tyOf o.m) o.a l) h) (elInt (tyOf o.m) (c.w (tyOf o.m) o.b l) h)
            (elInt (tyOf o.m) (c.w (tyOf o.m) o.c l) h))))))) ∧
  (∀ o s c, Ready s o.g (rRds o 2) [dstNum o.d] c → (tyOf o.m).packed = false →
    Answers (.imulh o) s (Completes c (rRds o 2) 1 (fun g => g.writeV (dstNum o.d) c.m (fun l =>
      BitVec.ofInt 32 (elInt (tyOf o.m) (c.w (tyOf o.m) o.a l) 0 * elInt (tyOf o.m) (c.w (tyOf o.m) o.b l) 0 / 2 ^ 32)))))

/-- Shifts (06 R185): amounts from the element of B, 0 past the width for SHL and SHR, copies of the sign for SAR. Bit logic, counting,
fields and byte permutation (06 R186, R187, R198), with LOP3 read bit by bit from its table. -/
def Obligations.ShiftsAndBits : Prop :=
  (∀ (row : OpRI → Instr) (f : Nat → Nat → Nat → Nat),
      (row, f) ∈ [(Instr.shl, fun w a n => a * 2 ^ n % 2 ^ w), (Instr.shr, fun _ a n => a / 2 ^ n),
        (Instr.sar, fun w a n => (sInt w a / 2 ^ n % 2 ^ w).toNat)] →
      ∀ o s c, Ready s o.g (riRds o) [dstNum o.d] c →
        Answers (row o) s (Completes c (riRds o) 1 (fun g => g.writeV (dstNum o.d) c.m (fun l =>
          packWord (tyOf o.m).packed (fun h =>
            f (tyOf o.m).w (elOf (tyOf o.m) (c.w (tyOf o.m) o.a l) h) (elOf (tyOf o.m) (c.lb o l) h)))))) ∧
  ((∀ (row : OpR → Instr) (n : Nat) (f : OpR → Word → Word → Word → Word),
      (row, n, f) ∈ [
        (Instr.lop3, 3, fun o a b x => lut3 (mfield o.m 8 1) a b x),
        (Instr.popc, 1, fun _ a _ _ => BitVec.ofNat 32 ((List.range 32).countP (fun i => a.getLsbD i))),
        (Instr.clz, 1, fun _ a _ _ => BitVec.ofNat 32 (32 - bitLen a.toNat)),
        (Instr.bfx, 2, fun o a b _ => bfx (tyOf o.m).signed a b), (Instr.bfi, 3, fun _ a b x => bfi a b x),
        (Instr.prmb, 3, fun _ a b x => prmb a b x)] →
      ∀ o s c, Ready s o.g (rRds o n) [dstNum o.d] c →
        Answers (row o) s (Completes c (rRds o n) 1 (fun g => g.writeV (dstNum o.d) c.m (fun l =>
          f o (c.w .b32 o.a l) (c.w .b32 o.b l) (c.w .b32 o.c l))))) ∧
    (∀ (lut : Nat) (a b x : Word) (i : Nat), i < 32 → (lut3 lut a b x).getLsbD i =
      lut.testBit (4 * (a.getLsbD i).toNat + 2 * (b.getLsbD i).toNat + (x.getLsbD i).toNat)) ∧
    (∀ (a ctl : Word) (i : Nat), i < 32 →
      let pos := (ctl.extractLsb' 0 8).toNat
      let len := (ctl.extractLsb' 8 8).toNat
      (bfx false a ctl).getLsbD i = (decide (i < len) && decide (pos + i < 32) && a.getLsbD (pos + i))))

/-- Floating arithmetic rounded once in the slot's mode (06 R175, R189), the draw counter advancing under stochastic rounding
(R181). Floating functions rounded to nearest even whatever the mode, minimum, maximum and clamp (06 R190, R191, R199). -/
def Obligations.FloatInstructions : Prop :=
  ((∀ (row : OpRI → Instr) (f : Rm → FV → FV → FV),
      (row, f) ∈ [(Instr.fadd, fun md a b => FV.add md a b), (Instr.fsub, fun md a b => FV.add md a b.negate),
        (Instr.fmul, fun _ a b => FV.mul a b)] →
      ∀ o s c md, Ready s o.g (riRds o) [dstNum o.d] c → c.RoundsIn (rndOf o.m) md →
        Answers (row o) s (Completes c (riRds o) 1 (fun g => (g.writeV (dstNum o.d) c.m (fun l =>
          packWord (tyOf o.m).packed (fun h => (roundF (fmtT (tyOf o.m)) (c.rc o.m md l h)
            (f md (decodeF (fmtT (tyOf o.m)) (elOf (tyOf o.m) (c.w (tyOf o.m) o.a l) h))
              (decodeF (fmtT (tyOf o.m)) (elOf (tyOf o.m) (c.lb o l) h)))).b))).drawIf (md = .sr)))) ∧
    (∀ (row : OpR → Instr) (n : Nat) (f : Rm → FV → FV → FV → FV),
      (row, n, f) ∈ [(Instr.ffma, 3, fun md a b x => FV.add md (FV.mul a b) x),
        (Instr.frcp, 1, fun _ a _ _ => FV.div (.num false 1 0 false) a), (Instr.fsqrt, 1, fun _ a _ _ => a.sqrt),
        (Instr.fdiv, 2, fun _ a b _ => FV.div a b)] →
      ∀ o s c md, Ready s o.g (rRds o n) [dstNum o.d] c → c.RoundsIn (rndOf o.m) md →
        Answers (row o) s (Completes c (rRds o n) 1 (fun g => (g.writeV (dstNum o.d) c.m (fun l =>
          packWord (tyOf o.m).packed (fun h => (roundF (fmtT (tyOf o.m)) (c.rc o.m md l h)
            (f md (decodeF (fmtT (tyOf o.m)) (elOf (tyOf o.m) (c.w (tyOf o.m) o.a l) h))
              (decodeF (fmtT (tyOf o.m)) (elOf (tyOf o.m) (c.w (tyOf o.m) o.b l) h))
              (decodeF (fmtT (tyOf o.m)) (elOf (tyOf o.m) (c.w (tyOf o.m) o.c l) h)))).b))).drawIf (md = .sr)))) ∧
    (∀ o s c md, Ready s o.g (rRds o 2) [dstNum o.d] c → c.RoundsIn (rndOf o.m) md →
      Answers (.fscl o) s (Completes c (rRds o 2) 1 (fun g => (g.writeV (dstNum o.d) c.m (fun l =>
        packWord (tyOf o.m).packed (fun h => (roundF (fmtT (tyOf o.m)) (c.rc o.m md l h)
          ((decodeF (fmtT (tyOf o.m)) (elOf (tyOf o.m) (c.w (tyOf o.m) o.a l) h)).scale
            (elInt (if (tyOf o.m).packed then .s16x2 else .s32) (c.w (tyOf o.m) o.b l) h))).b))).drawIf (md = .sr)))) ∧
    (∀ o s c, Ready s o.g (riRds o) [dstNum o.d] c → c.mode (rndOf o.m) = none → Answers (.fadd o) s (Traps c .illop 0x10))) ∧
  ((∀ (row : OpR → Instr) (f : FV → FV),
      (row, f) ∈ [(Instr.frsq, FV.rsqrt), (Instr.fex2, FV.exp2), (Instr.flg2, FV.log2), (Instr.fsin, FV.sin),
        (Instr.fcos, FV.cos)] →
      ∀ o s c, Ready s o.g (rRds o 1) [dstNum o.d] c →
        Answers (row o) s (Completes c (rRds o 1) 1 (fun g => g.writeV (dstNum o.d) c.m (fun l =>
          packWord (tyOf o.m).packed (fun h => (roundF (fmtT (tyOf o.m)) (c.rc o.m .rne l h)
            (f (decodeF (fmtT (tyOf o.m)) (elOf (tyOf o.m) (c.w (tyOf o.m) o.a l) h)))).b))))) ∧
    (∀ o s c, Ready s o.g (riRds o) [dstNum o.d] c →
      Answers (.fmnx o) s (Completes c (riRds o) 1 (fun g => g.writeV (dstNum o.d) c.m (fun l =>
        packWord (tyOf o.m).packed (fun h => fmnx (fmtT (tyOf o.m)) (mbit o.m 1) (mbit o.m 4)
          (elOf (tyOf o.m) (c.w (tyOf o.m) o.a l) h) (elOf (tyOf o.m) (c.lb o l) h)))))) ∧
    (∀ o s c, Ready s o.g (rRds o 3) [dstNum o.d] c →
      Answers (.clmp o) s (Completes c (rRds o 3) 1 (fun g => g.writeV (dstNum o.d) c.m (fun l =>
        packWord (tyOf o.m).packed (fun h =>
          let a := elOf (tyOf o.m) (c.w (tyOf o.m) o.a l) h
          let lo := elOf (tyOf o.m) (c.w (tyOf o.m) o.b l) h
          let hi := elOf (tyOf o.m) (c.w (tyOf o.m) o.c l) h
          if (tyOf o.m).isFloat then fmnx (fmtT (tyOf o.m)) false false (fmnx (fmtT (tyOf o.m)) true false a lo) hi
          else (clmpEl (tyOf o.m) a lo hi).b))))))

/-- Comparisons (06 R188, R192, R193): the active lanes of a p destination, or all-ones elements of a v one. -/
def Obligations.Comparisons : Prop :=
  (∀ (row : OpRI → Instr) (f : OpRI → Nat → Nat → Bool),
    (row, f) ∈ [
      (Instr.icmp, fun o a b => icmp (tyOf o.m).signed (tyOf o.m).w (mfield o.m 6 3) a b),
      (Instr.fcmp, fun o a b => fcmp (fmtT (tyOf o.m)) (mfield o.m 6 3) a b)] →
    ∀ o s c, Ready s o.g (riRds o) (cmpDsts o.d) c →
      (isPDst o.d = true → Answers (row o) s (Completes c (riRds o) 1 (fun g => g.writeP (dstNum o.d) c.m
        (maskOf (fun l => c.m.has l && f o (elOf (tyOf o.m) (c.w (tyOf o.m) o.a l) 0) (elOf (tyOf o.m) (c.lb o l) 0)))))) ∧
      (isPDst o.d = false → Answers (row o) s (Completes c (riRds o) 1 (fun g => g.writeV (dstNum o.d) c.m (fun l =>
        packWord (tyOf o.m).packed (fun h =>
          if f o (elOf (tyOf o.m) (c.w (tyOf o.m) o.a l) h) (elOf (tyOf o.m) (c.lb o l) h)
          then (if (tyOf o.m).packed then 0xFFFF else 0xFFFFFFFF) else 0)))))) ∧
  (∀ o s c, Ready s o.g (srcRds o.a ++ srcRds o.b) (cmpDsts o.d) c →
    let f := fun l h => fclass (fmtT (tyOf o.m)) (elOf (tyOf o.m) (c.w (tyOf o.m) o.a l) h) &&&
      elOf (tyOf o.m) (c.w (tyOf o.m) o.b l) h
    (isPDst o.d = true → Answers (.fcls o) s (Completes c (srcRds o.a ++ srcRds o.b) 1 (fun g =>
      g.writeP (dstNum o.d) c.m (maskOf (fun l => c.m.has l && f l 0 != 0))))) ∧
    (isPDst o.d = false → Answers (.fcls o) s (Completes c (srcRds o.a ++ srcRds o.b) 1 (fun g =>
      g.writeV (dstNum o.d) c.m (fun l => packWord (tyOf o.m).packed (f l)))))) ∧
  (∀ (signed : Bool) (w cc a b : Nat), cc < 6 → icmp signed w cc a b =
    let x : Int := if signed then sInt w a else a
    let y : Int := if signed then sInt w b else b
    match cc with
    | 0 => decide (x = y) | 1 => decide (x ≠ y) | 2 => decide (x < y) | 3 => decide (x ≤ y) | 4 => decide (x > y)
    | _ => decide (x ≥ y))

/-- Moves, selection, special registers and random bits (06 R194, R195, R201, R202). In a piste launch RAND draws by the lane's λ, and a
group with several live splits, or a responder, raises ILLPISTE instead (06 R181, 13 R385). -/
def Obligations.LaneMoves : Prop :=
  (∀ o s c, mbit o.m 1 = false → Ready s o.g (rRds o 1) [dstNum o.d] c →
    Answers (.mov o) s (Completes c (rRds o 1) 1 (fun g => g.writeV (dstNum o.d) c.m (fun l => c.w .b32 o.a l)))) ∧
  (∀ o s c, mbit o.m 1 = true → Ready s o.g (srcRds o.a 2) [dstNum o.d, dstNum o.d + 1] c →
    Answers (.mov o) s (Completes c (srcRds o.a 2) 1 (fun g => (g.writeV (dstNum o.d) c.m (fun l => (c.w64 o.a l).lo)).writeV
      (dstNum o.d + 1) c.m (fun l => (c.w64 o.a l).hi)))) ∧
  (∀ o s c, Ready s o.g [] [dstNum o.d] c →
    Answers (.movi o) s (Completes c [] 1 (fun g => g.writeV (dstNum o.d) c.m (fun _ => o.imm)))) ∧
  (∀ o s c, mbit o.m 2 = false → Ready s o.g (srcRds o.a ++ srcRds o.b) [dstNum o.d] c →
    Answers (.sel o) s (Completes c (srcRds o.a ++ srcRds o.b) 1 (fun g => g.writeV (dstNum o.d) c.m (fun l =>
      if (c.pcode o.c.opnd.toNat).has l != mbit o.m 1 then c.w .b32 o.a l else c.w .b32 o.b l)))) ∧
  (∀ o s c, mbit o.m 2 = true → Ready s o.g (srcRds o.a 2 ++ srcRds o.b 2) [dstNum o.d, dstNum o.d + 1] c →
    let v := fun l => if (c.pcode o.c.opnd.toNat).has l != mbit o.m 1 then c.w64 o.a l else c.w64 o.b l
    Answers (.sel o) s (Completes c (srcRds o.a 2 ++ srcRds o.b 2) 1 (fun g =>
      (g.writeV (dstNum o.d) c.m (fun l => (v l).lo)).writeV (dstNum o.d + 1) c.m (fun l => (v l).hi)))) ∧
  (∀ o s c, o.sub ≠ 1 → Ready s o.g [] [dstNum o.d] c →
    Answers (.rdsr o) s (Completes c [] 1 (fun g => g.writeV (dstNum o.d) c.m (fun l =>
      (s.special c.g c.sp o.imm.toNat l).lo)))) ∧
  (∀ o s c, o.sub = 1 → Ready s o.g [] [dstNum o.d, dstNum o.d + 1] c →
    Answers (.rdsr o) s (Completes c [] 1 (fun g => (g.writeV (dstNum o.d) c.m (fun l =>
      (s.special c.g c.sp o.imm.toNat l).lo)).writeV (dstNum o.d + 1) c.m (fun l =>
      (s.special c.g c.sp o.imm.toNat l).hi)))) ∧
  (∀ o s c, s.pisteOf c.g = true → c.g.isResponder = true ∨ 1 < c.g.liveSplits →
    Ready s o.g [] (if mbit o.m 1 then [dstNum o.d, dstNum o.d + 1] else [dstNum o.d]) c → Answers (.rand o) s (Traps c .illpiste 0)) ∧
  (∀ o s c, s.pisteOf c.g = false ∨ (c.g.isResponder = false ∧ c.g.liveSplits ≤ 1) →
    let z := fun l => gen c.g.sp.seed 0 (genLid s c.g) (BitVec.ofNat 64 (lambdaOf s c.g l)) c.g.sp.draw
    (mbit o.m 1 = false → tyOf o.m ≠ .f32 → Ready s o.g [] [dstNum o.d] c →
      Answers (.rand o) s (Completes c [] 1 (fun g => (g.writeV (dstNum o.d) c.m (fun l => (z l).lo)).drawIf true))) ∧
    (mbit o.m 1 = false → tyOf o.m = .f32 → Ready s o.g [] [dstNum o.d] c →
      Answers (.rand o) s (Completes c [] 1 (fun g => (g.writeV (dstNum o.d) c.m (fun l => BitVec.ofNat 32
        (roundF .f32 RndCtl.rne (ofInt .rne (bits (z l).toNat 63 40) (-24))).b)).drawIf true))) ∧
    (mbit o.m 1 = true → Ready s o.g [] [dstNum o.d, dstNum o.d + 1] c →
      Answers (.rand o) s (Completes c [] 1 (fun g => ((g.writeV (dstNum o.d) c.m (fun l => (z l).lo)).writeV
        (dstNum o.d + 1) c.m (fun l => (z l).hi)).drawIf true))))

/-- Conversions, packing and quantisation (06 R196, R197, R200) complete with the converted elements in the destination. -/
def Obligations.Conversions : Prop :=
  (∀ o s c md, Ready s o.g (srcRds o.a (if cvtWide (cvtSrc o) then 2 else 1))
      (if cvtWide (cvtDst o) then [dstNum o.d, dstNum o.d + 1] else [dstNum o.d]) c →
    (if cvtInt (cvtDst o) && cvtInt (cvtSrc o) then md = .rne else c.RoundsIn (rndOf o.m) md) →
    let x := fun l => cvtExtend (cvtDst o) (cvtEl (cvtDst o) (cvtSrc o)
      ⟨md, satOf o.m, c.ftz (nofOf o.m), mbit o.m 1, c.sr md l 0⟩
      (if cvtWide (cvtSrc o) then (c.w64 o.a l).toNat else (c.w .b32 o.a l).toNat)).b
    (cvtWide (cvtDst o) = false → Answers (.cvt o) s (Completes c (srcRds o.a (if cvtWide (cvtSrc o) then 2 else 1)) 1
      (fun g => (g.writeV (dstNum o.d) c.m (fun l => (x l).lo)).drawIf (md = .sr)))) ∧
    (cvtWide (cvtDst o) = true → Answers (.cvt o) s (Completes c (srcRds o.a (if cvtWide (cvtSrc o) then 2 else 1)) 1
      (fun g => ((g.writeV (dstNum o.d) c.m (fun l => (x l).lo)).writeV (dstNum o.d + 1) c.m (fun l => (x l).hi)).drawIf
        (md = .sr))))) ∧
  (∀ o s c md rds, rds = srcRds o.a ++ srcRds o.b ++ (if packBits (mfield o.m 9 7) = 16 then [] else srcRds o.c) →
    Ready s o.g rds [dstNum o.d] c → mfield o.m 9 7 < 5 → c.RoundsIn (rndOf o.m) md →
    let el := fun l h (x : Word) => (convTo (packFmt (mfield o.m 9 7))
      ⟨md, satOf o.m, c.ftz (nofOf o.m), false, c.sr md l h⟩ (decodeF .f32 x.toNat)).b
    Answers (.pack o) s (Completes c rds 1 (fun g =>
      (g.writeV (dstNum o.d) c.m (fun l => mergeEls (packBits (mfield o.m 9 7)) (mfield o.m 1 0)
        (if packBits (mfield o.m 9 7) = 16 then 0 else c.w .b32 o.c l)
        (el l 0 (c.w .b32 o.a l)) (el l 1 (c.w .b32 o.b l)))).drawIf (md = .sr)))) ∧
  (∀ o s c, Ready s o.g (srcRds o.a ++ srcRds o.b) [dstNum o.d] c → 5 ≤ mfield o.m 9 7 →
    let v := fun (x : Word) => if mfield o.m 9 7 = 5 then x.toInt else (x.toNat : Int)
    let el := fun (x : Word) => narrowed (if mfield o.m 9 7 = 5 then .s16x2 else .n16x2) (satOf o.m) (v x)
    Answers (.pack o) s (Completes c (srcRds o.a ++ srcRds o.b) 1 (fun g =>
      g.writeV (dstNum o.d) c.m (fun l => mergeEls 16 (mfield o.m 1 0) 0 (el (c.w .b32 o.a l)) (el (c.w .b32 o.b l)))))) ∧
  (∀ o s c, Ready s o.g (srcRds o.a) [dstNum o.d, dstNum o.d + 1] c →
    let el := fun l k => BitVec.ofNat 32 (unpackEl (mfield o.m 9 7) ((c.w .b32 o.a l).toNat /
      2 ^ (packBits (mfield o.m 9 7) * (2 * mfield o.m 1 0 + k)) % 2 ^ packBits (mfield o.m 9 7))).b
    Answers (.unpk o) s (Completes c (srcRds o.a) 1 (fun g => (g.writeV (dstNum o.d) c.m (fun l => el l 0)).writeV
      (dstNum o.d + 1) c.m (fun l => el l 1)))) ∧
  (∀ o s c md, Ready s o.g (srcRds o.a 2 ++ srcRds o.b ++ srcRds o.c) [dstNum o.d] c → c.RoundsIn (rndOf o.m) md →
    let el := fun l k (x : Word) => (roundF (qntF o) ⟨md, satOf o.m, false, false, c.sr md l k⟩
      (FV.div (decodeF .f32 x.toNat) (scaleVal (mbit o.m 7) (c.w .b32 o.b l)))).b
    Answers (.qnt o) s (Completes c (srcRds o.a 2 ++ srcRds o.b ++ srcRds o.c) 1 (fun g =>
      (g.writeV (dstNum o.d) c.m (fun l => mergeEls (packBits (qntFmt o)) (mfield o.m 1 0) (c.w .b32 o.c l)
        (el l 0 (c.w64 o.a l).lo) (el l 1 (c.w64 o.a l).hi))).drawIf (md = .sr)))) ∧
  (∀ o s c md, Ready s o.g (srcRds o.a ++ srcRds o.b) [dstNum o.d, dstNum o.d + 1] c → c.RoundsIn (rndOf o.m) md →
    let el := fun l k => BitVec.ofNat 32 (roundF .f32 ⟨md, satOf o.m, c.ftz (nofOf o.m), false, c.sr md l k⟩
      (FV.mul (decodeF (qntF o) ((c.w .b32 o.a l).toNat / 2 ^ (packBits (qntFmt o) * (2 * mfield o.m 1 0 + k)) %
        2 ^ packBits (qntFmt o))) (scaleVal (mbit o.m 7) (c.w .b32 o.b l)))).b
    Answers (.dqnt o) s (Completes c (srcRds o.a ++ srcRds o.b) 1 (fun g =>
      ((g.writeV (dstNum o.d) c.m (fun l => el l 0)).writeV (dstNum o.d + 1) c.m (fun l => el l 1)).drawIf (md = .sr))))

/-- Cross-lane slots (06 R203 to R208, 09 R270). One whose guard takes in a lane outside its member mask raises MASKSELF with DETAIL 1, and
one that finds a split held there with another mask MASKSELF with DETAIL 2, both without effect. While a non-exited member is missing the split
is HELD there with its mask. Once every member has come the slot is performed once, for the lanes of all the splits that stand at it: values
move, reduce, scan or merge over the participants, only their lanes are written, exited members count as absent and set EXITMEM, and each split
goes on on its own. That `%emask` is read as the performing split's in the held splits' lanes too is the model's choice (assumption log 44),
and so is that such a slot advances `%draw` once (assumption log 130). -/
def Obligations.CrossLaneInstructions : Prop :=
  (∀ (o : OpR) (i : Instr) (rds : List Rd) (dsts : List Nat) (rnd : Option Nat) (s : State) (c : Ctx) (m : Mask) (hs : List Nat) (whole : Bool),
    (i, rds, dsts, rnd) ∈ [
      (Instr.xshf o, srcRds o.a (if mbit o.m 4 then 2 else 1) ++ srcRds o.b,
        if mbit o.m 4 then [dstNum o.d, dstNum o.d + 1] else [dstNum o.d], none),
      (Instr.xred o, srcRds o.a, [dstNum o.d], redRnd o), (Instr.xscn o, srcRds o.a, [dstNum o.d], redRnd o),
      (Instr.mxix o, srcRds o.a 2 ++ srcRds o.b, [dstNum o.d, dstNum o.d + 1], none),
      (Instr.xtre o, xRds (xFmt o.m) (xLa o.m) o.a, xDsts (xFmt o.m) (xLd o.m) (dstNum o.d), none)] →
    CrossAt s c o.g o.c rds dsts m hs whole → (∀ r, rnd = some r → ∃ md, c.RoundsIn r md) →
    (¬c.names o.g m → Answers i s (Traps c .maskself 1)) ∧
    (c.names o.g m → (∃ j ∈ hs, (c.g.split j).crossMask ≠ some m) → Answers i s (Traps c .maskself 2)) ∧
    (c.names o.g m → (∀ j ∈ hs, (c.g.split j).crossMask = some m) → whole = false → Answers i s (fun t => OthersKept c t ∧
      t.group? c.r = some ((c.read (c.memRds o.c)).modSplit c.e (fun sp =>
        { sp with prog := some m.toNat, state := .held, wait := .crossLane m }))))) ∧
  (∀ (o : OpR) (s : State) (c : Ctx) (m : Mask) (hs : List Nat),
    (mbit o.m 4 = false → CrossReady s c o.g o.c (srcRds o.a ++ srcRds o.b) [dstNum o.d] m hs →
      Answers (.xshf o) s (Exchanged c (c.memRds o.c ++ (srcRds o.a ++ srcRds o.b)) m hs (fun g =>
        g.writeV (dstNum o.d) c.m (fun l =>
          c.w .b32 o.a (sourceLane c.m (mfield o.m 3 1) l (c.w .b32 o.b l)))))) ∧
    (mbit o.m 4 = true → CrossReady s c o.g o.c (srcRds o.a 2 ++ srcRds o.b) [dstNum o.d, dstNum o.d + 1] m hs →
      let v := fun l => c.w64 o.a (sourceLane c.m (mfield o.m 3 1) l (c.w .b32 o.b l))
      Answers (.xshf o) s (Exchanged c (c.memRds o.c ++ (srcRds o.a 2 ++ srcRds o.b)) m hs (fun g =>
        (g.writeV (dstNum o.d) c.m (fun l => (v l).lo)).writeV (dstNum o.d + 1) c.m (fun l => (v l).hi)))) ∧
    (∀ md, CrossReady s c o.g o.c (srcRds o.a) [dstNum o.d] m hs →
      (match redRnd o with | some r => c.RoundsIn r md | none => md = .rne) →
      Answers (.xred o) s (Exchanged c (c.memRds o.c ++ srcRds o.a) m hs (fun g => (g.writeV (dstNum o.d) c.m (fun _ =>
        (treeReduce (fun k i a b => c.comb o md k i a b)
          (perLane (fun l => if c.m.has l then some (c.w (tyOf o.m) o.a l) else none))).1.getD 0)).drawIf
          ((redRnd o).isSome && md == .sr))) ∧
      Answers (.xscn o) s (Exchanged c (c.memRds o.c ++ srcRds o.a) m hs (fun g => (g.writeV (dstNum o.d) c.m (fun l =>
        AMap.getD (scanLanes c o md (mbit o.m 0)).1 l 0)).drawIf ((redRnd o).isSome && md == .sr)))) ∧
    (CrossReady s c o.g o.c (srcRds o.a 2 ++ srcRds o.b) [dstNum o.d, dstNum o.d + 1] m hs →
      let v := fun l =>
        let x := sourceLane c.m (mfield o.m 3 1) l (c.w .b32 o.b l)
        if x = l then c.w64 o.a l else mxixBetter (tyOf o.m) (mbit o.m 0) (c.w64 o.a l) (c.w64 o.a x)
      Answers (.mxix o) s (Exchanged c (c.memRds o.c ++ (srcRds o.a 2 ++ srcRds o.b)) m hs (fun g =>
        (g.writeV (dstNum o.d) c.m (fun l => (v l).lo)).writeV (dstNum o.d + 1) c.m (fun l => (v l).hi)))))

/-! ### The expansion engine (09) -/

/-- Error-free transforms (09 R260 to R262): the rounded result and the words of its error, in the format of the slot, with the half
selects of MOD. Expansion arithmetic (09 R263 to R265): the terms of the operands expanded, or compressed for XCPR, to the destination's
length. -/
def Obligations.ExpansionArithmetic : Prop :=
  ((∀ (row : OpR → Instr) (f : Fmt → Nat → Nat → Nat × Nat),
      (row, f) ∈ [(Instr.tsum, twoSum), (Instr.tdif, fun f a b => twoSum f a (flipF f b)), (Instr.tprd, twoProd),
        (Instr.ftsm, fastTwoSum)] →
      ∀ o s c, Ready s o.g (xRds (xFmt o.m) 1 o.a ++ xRds (xFmt o.m) 1 o.b) (xDsts (xFmt o.m) 2 (dstNum o.d)) c →
        Answers (row o) s (Completes c (xRds (xFmt o.m) 1 o.a ++ xRds (xFmt o.m) 1 o.b) 1
          (Group.writeRun (xFmt o.m) 2 (dstNum o.d) c.m (fun l =>
            let r := f (xfmt (xFmt o.m)) (c.x1 (xFmt o.m) (mbit o.m 0) o.a l) (c.x1 (xFmt o.m) (mbit o.m 1) o.b l)
            [r.1, r.2])))) ∧
    (∀ o s c, Ready s o.g (xRds (xFmt o.m) 1 o.a ++ xRds (xFmt o.m) 1 o.b ++ xRds (xFmt o.m) 1 o.c)
        (xDsts (xFmt o.m) 3 (dstNum o.d)) c →
      Answers (.tfma o) s (Completes c (xRds (xFmt o.m) 1 o.a ++ xRds (xFmt o.m) 1 o.b ++ xRds (xFmt o.m) 1 o.c) 1
        (Group.writeRun (xFmt o.m) 3 (dstNum o.d) c.m (fun l => tfma (xfmt (xFmt o.m)) (c.x1 (xFmt o.m) (mbit o.m 0) o.a l)
          (c.x1 (xFmt o.m) (mbit o.m 1) o.b l) (c.x1 (xFmt o.m) (mbit o.m 2) o.c l))))) ∧
    (∀ (f : Fmt) (a b : Nat), finiteF f (xround f (xadd (decodeF f a) (decodeF f b))) = true →
      (twoSum f a b).1 = (roundF f RndCtl.rne (FV.add .rne (decodeF f a) (decodeF f b))).b ∧
      (twoSum f a b).2 = (roundF f RndCtl.rne (FV.add .rne (FV.add .rne (decodeF f a) (decodeF f b))
        (decodeF f (twoSum f a b).1).negate)).b)) ∧
  (∀ (row : OpR → Instr) (rds : OpR → List Rd) (merge : Bool) (terms : OpR → Ctx → Nat → List Nat),
      (row, rds, merge, terms) ∈ [
        (Instr.xadd, xRdsAB, true, fun o c l => c.xs (xFmt o.m) (xLa o.m) o.a l ++ c.xs (xFmt o.m) (xLb o.m) o.b l),
        (Instr.xsub, xRdsAB, true, fun o c l => c.xs (xFmt o.m) (xLa o.m) o.a l ++
          (c.xs (xFmt o.m) (xLb o.m) o.b l).map (flipF (xfmt (xFmt o.m)))),
        (Instr.xmul, xRdsAB, true, fun o c l => (c.xs (xFmt o.m) (xLa o.m) o.a l).flatMap (fun a =>
          (c.xs (xFmt o.m) (xLb o.m) o.b l).flatMap (fun b => prodTerms (xfmt (xFmt o.m)) a b))),
        (Instr.xacc, fun o => xRds (xFmt o.m) (xLa o.m) o.a ++ xRds (xFmt o.m) 1 o.b ++ xRds (xFmt o.m) 1 o.c, true,
          fun o c l => c.xs (xFmt o.m) (xLa o.m) o.a l ++
            prodTerms (xfmt (xFmt o.m)) (c.x1 (xFmt o.m) false o.b l) (c.x1 (xFmt o.m) false o.c l)),
        (Instr.xrnm, fun o => xRds (xFmt o.m) (xLa o.m) o.a, true, fun o c l => c.xs (xFmt o.m) (xLa o.m) o.a l),
        (Instr.xcpr, fun o => xRds (xFmt o.m) (xLa o.m) o.a, false, fun o c l => c.xs (xFmt o.m) (xLa o.m) o.a l)] →
      ∀ o s c, Ready s o.g (rds o) (xDsts (xFmt o.m) (xLd o.m) (dstNum o.d)) c →
        Answers (row o) s (Completes c (rds o) 1 (Group.writeRun (xFmt o.m) (xLd o.m) (dstNum o.d) c.m (fun l =>
          (expand (xfmt (xFmt o.m)) merge (terms o c l) (xLd o.m)).1))))

/-- Comparison, splitting, scaling, conversion and the cross-lane sum of expansions (09 R266 to R270). -/
def Obligations.ExpansionConversions : Prop :=
  (∀ o s c, Ready s o.g (xRdsAB o) (cmpDsts o.d) c →
    let f := fun l => xcmp (mfield o.m 3 0) (xsum (xfmt (xFmt o.m)) (c.xs (xFmt o.m) (xLa o.m) o.a l))
      (xsum (xfmt (xFmt o.m)) (c.xs (xFmt o.m) (xLb o.m) o.b l))
    (isPDst o.d = true → Answers (.xcmp o) s (Completes c (xRdsAB o) 1 (fun g =>
      g.writeP (dstNum o.d) c.m (maskOf (fun l => c.m.has l && f l))))) ∧
    (isPDst o.d = false → Answers (.xcmp o) s (Completes c (xRdsAB o) 1 (fun g =>
      g.writeV (dstNum o.d) c.m (fun l => if f l then 0xFFFFFFFF else 0))))) ∧
  (∀ o s c, Ready s o.g (xRds 0 (xLa o.m) o.a) (xDsts (xFmt o.m) (xLd o.m) (dstNum o.d)) c →
    Answers (.xspl o) s (Completes c (xRds 0 (xLa o.m) o.a) 1 (Group.writeRun (xFmt o.m) (xLd o.m) (dstNum o.d) c.m
      (fun l => xspl (xfmt (xFmt o.m)) (xsum .f32 (c.xs 0 (xLa o.m) o.a l)) (xLd o.m))))) ∧
  (∀ o s c, Ready s o.g (xRds (xFmt o.m) (xLa o.m) o.a ++ srcRds o.b) (xDsts (xFmt o.m) (xLd o.m) (dstNum o.d)) c →
    Answers (.xscl o) s (Completes c (xRds (xFmt o.m) (xLa o.m) o.a ++ srcRds o.b) 1
      (Group.writeRun (xFmt o.m) (xLd o.m) (dstNum o.d) c.m (fun l => (c.xs (xFmt o.m) (xLa o.m) o.a l).map (fun w =>
        xround (xfmt (xFmt o.m)) ((decodeF (xfmt (xFmt o.m)) w).scale (c.w .b32 o.b l).toInt)))))) ∧
  (∀ o s c rds, rds = (if cvtInt (cvtSrc o) then srcRds o.a (if cvtWide (cvtSrc o) then 2 else 1)
      else xRds (cvtSrc o) (xLa o.m) o.a) →
    let v := fun l => if cvtInt (cvtSrc o) then
        CFmt.value (cfmtOf (cvtSrc o)) (if cvtWide (cvtSrc o) then (c.w64 o.a l).toNat else (c.w .b32 o.a l).toNat)
      else xsum (xfmt (cvtSrc o)) (c.xs (cvtSrc o) (xLa o.m) o.a l)
    let n := fun l => BitVec.ofNat 64 (convTo (cfmtOf (cvtDst o)) RndCtl.rne (v l)).b
    (cvtInt (cvtDst o) = false → Ready s o.g rds (xDsts (cvtDst o) (xLd o.m) (dstNum o.d)) c →
      Answers (.xcvt o) s (Completes c rds 1 (Group.writeRun (cvtDst o) (xLd o.m) (dstNum o.d) c.m (fun l =>
        greedy (xfmt (cvtDst o)) (v l) (xLd o.m))))) ∧
    (cvtInt (cvtDst o) = true → cvtWide (cvtDst o) = false → Ready s o.g rds [dstNum o.d] c →
      Answers (.xcvt o) s (Completes c rds 1 (fun g => g.writeV (dstNum o.d) c.m (fun l => (DWord.lo (n l)))))) ∧
    (cvtInt (cvtDst o) = true → cvtWide (cvtDst o) = true → Ready s o.g rds [dstNum o.d, dstNum o.d + 1] c →
      Answers (.xcvt o) s (Completes c rds 1 (fun g => (g.writeV (dstNum o.d) c.m (fun l => (DWord.lo (n l)))).writeV
        (dstNum o.d + 1) c.m (fun l => (DWord.hi (n l))))))) ∧
  (∀ (o : OpR) (s : State) (c : Ctx) (m : Mask) (hs : List Nat),
    CrossReady s c o.g o.c (xRds (xFmt o.m) (xLa o.m) o.a) (xDsts (xFmt o.m) (xLd o.m) (dstNum o.d)) m hs →
    Answers (.xtre o) s (Exchanged c (c.memRds o.c ++ xRds (xFmt o.m) (xLa o.m) o.a) m hs
      (Group.writeRun (xFmt o.m) (xLd o.m) (dstNum o.d) c.m (fun _ =>
        (xtre (xfmt (xFmt o.m)) (xLd o.m) (perLane (fun l => if c.m.has l then
          some (expand (xfmt (xFmt o.m)) true (c.xs (xFmt o.m) (xLa o.m) o.a l) (xLd o.m)).1 else none))).1.getD []))))

/-! ### The access engine (08, 03) -/

/-- The issue of an access to global memory (08 R231, R236 to R238, R244 to R249, 12 R366 to R370) by LDG, GTHR, STG, SCTR, LDK, STK, AADD, AFAD, ACAD,
AMNX, AFMX, AMXI, ALOP, AXCH, ACAS, AINC, ARED, WAITA, GLD, GADD, GMRG and GSET: the operation goes out with
each lane's address and data, it counts in its wait counter, and the split stays at the slot until every lane has its
verdict. Its destination is empty at once, that of a WAITA apart. With no lane it completes. That the L bits of its sources wait for the
verdict, so that a lane which parks keeps what it reads, is the model's reading (assumption log 50). -/
def Obligations.GlobalAccesses : Prop :=
  ∀ (i : Instr) (f : AccForm) (s : State) (c : Ctx), accForm i = some f → f.kind ≠ .maint → f.space = .global →
    (f.kind = .ared → 2 ≤ f.o.evict.toNat → c.s0.pisteOf c.g = false) →
    Ready s f.o.g f.rds f.dests c → AccOk c i f →
    (c.accLanes f = [] → Answers i s (Completes c f.rds 1 (Group.drawIf (accDraws i c)))) ∧
    ((∃ l ∈ c.accLanes f, apertureVa (c.accAddr f l) = false ∨ f.kind = .waita) → c.e < c.g.splits.length → Answers i s (fun t =>
      ∃ o l g, t.ops = l ++ [o] ∧ MetOnly s.ops l ∧ o.id = s.nextId ∧ o.Of c i f ∧ t.group? c.r = some g ∧
        (g.split c.e).state = .blocked ∧ (g.split c.e).wait = .verdict o.id ∧ (g.split c.e).slot = c.sp.slot ∧
        g.vregs = (if f.destK = true ∨ f.kind = .waita then c.g else c.g.emptied s f.dests c.m o.id).vregs ∧ (f.destK = false → g.kregs = c.g.kregs) ∧
        (f.destK = true → ∀ j < f.destW, (g.kreg (dstNum f.o.d + j)).full = false) ∧
        g.preds = c.g.preds ∧ g.qs = c.g.qs ∧ g.sp = (c.g.drawIf (accDraws i c)).sp ∧
        g.ctr = (if f.ctr = 0 then c.g.ctr else (c.g.incCtr f.ctr).ctr) ∧
        (∀ r, r ≠ c.r → t.group? r = s.group? r) ∧ t.hbm = s.hbm ∧ t.onchip = s.onchip ∧ t.slices = s.slices ∧
        t.l1d = s.l1d ∧ t.blocks = s.blocks))

/-- The issue of an access to on-chip storage whose data or acknowledgment come later (LDS, LDW, STW, and atomics through the aperture;
08 R234, R236, R244): it needs no verdict, its destination is empty at once, and the split goes on, or waits for the reply
of an acquire. -/
def Obligations.OnChipAccesses : Prop :=
  ∀ (i : Instr) (f : AccForm) (s : State) (c : Ctx), accForm i = some f → f.kind ≠ .maint → f.kind ≠ .waita →
    ¬(f.space = .scratch ∧ f.kind = .store) → (f.kind = .ared → 2 ≤ f.o.evict.toNat → c.s0.pisteOf c.g = false) →
    Ready s f.o.g f.rds f.dests c → AccOk c i f → c.noTouch f → c.accLanes f ≠ [] →
    (f.space = .global → ∀ l ∈ c.accLanes f, apertureVa (c.accAddr f l) = true) → f.destK = false → c.e < c.g.splits.length →
    Answers i s (fun t => ∃ o l g, t.ops = l ++ [o] ∧ MetOnly s.ops l ∧ o.id = s.nextId ∧ o.Of c i f ∧ t.group? c.r = some g ∧
      g.vregs = ((c.read f.rds).emptied s f.dests c.m o.id).vregs ∧ g.kregs = c.g.kregs ∧ g.preds = c.g.preds ∧ g.qs = c.g.qs ∧
      g.sp = (c.g.drawIf (accDraws i c)).sp ∧ g.ctr = (if f.ctr = 0 then c.g.ctr else (c.g.incCtr f.ctr).ctr) ∧
      (f.o.ord.toNat % 2 = 0 → g.SplitsAfter c.g (c.g.finish c.e)) ∧
      (f.o.ord.toNat % 2 = 1 → (g.split c.e).state = .blocked ∧ (g.split c.e).wait = .reply ∧ (g.split c.e).slot = c.sp.slot) ∧
      (∀ r, r ≠ c.r → t.group? r = s.group? r) ∧ t.hbm = s.hbm ∧ t.onchip = s.onchip)

/-- STS (08 R236, 03 R61, R62, R66): when no earlier access of the group is unperformed, the lanes' bytes are stored at issue in
increasing lane order, each at the scratchpad address R46 forms, and no other byte of on-chip storage changes, nor, unless it releases, of
memory; registers keep their values, L bits apart. The number that the access gets is in use nowhere, as in every state that is reached. A float ARED of a piste launch (04 R107) goes out for its verdict like any
other, and an accepted lane is held in the block's merge buffer with the λ of the lane; no memory changes. -/
def Obligations.StoresPerformedAtIssue : Prop :=
  (∀ (o : OpM) (f : AccForm) (s : State) (c : Ctx), accForm (.sts o) = some f → Ready s o.g f.rds [] c → AccOk c (.sts o) f →
      c.noTouch f → s.FreshNumber → (∀ p ∈ s.ops, p.g = c.r → p.lanes.all LaneAcc.isDone = true) → o.ord.toNat % 2 = 0 → s.Inv →
      (2 ≤ o.ord.toNat ∨ c.fenced = true → s.groupDrained c.r = true) →
      (∀ l ∈ c.m.toLanes, ∃ x, ocDecode (c.accPlace f l) = some x ∧ x.kind = 0) →
      Answers (.sts o) s (fun t =>
        t.onchip = c.m.toLanes.foldl (fun m l => memWrite m (c.accPlace f l) (c.accData f l)) s.onchip ∧
        (∀ a, (∀ l ∈ c.m.toLanes, a < c.accPlace f l ∨ c.accPlace f l + f.n ≤ a) → memGet t.onchip a = memGet s.onchip a) ∧
        (o.ord.toNat < 2 → c.fenced = false → t.hbm = s.hbm ∧ t.slices = s.slices ∧ t.l1d = s.l1d) ∧
        ∃ g, t.group? c.r = some g ∧ g.SameRegs (c.read f.rds) ∧ g.SplitsAfter c.g (c.g.finish c.e))) ∧
  (∀ (o : OpM) (f : AccForm) (s : State) (c : Ctx), accForm (.ared o) = some f → 2 ≤ o.evict.toNat → o.evict.toNat ≤ 5 →
      s.pisteOf c.g = true → Ready s o.g f.rds [] c → s.accTrap c.g f (c.m.toLanes.map (c.accAddr f)) = none → c.m ≠ 0 →
      (o.evict.toNat = 5 → c.g.sp.caoff ≠ 0 ∧ c.g.sp.caoff.toNat % 2 ^ 32 = 0) → c.g.ctr.st < 65535 → c.e < c.g.splits.length →
      s.mergeRoom c.g (c.m.toLanes.map (c.accAddr f)) = true → s.lateAccess c.g (c.m.toLanes.map (c.accAddr f)) f.n = false →
      Answers (.ared o) s (fun t => t.hbm = s.hbm ∧ t.onchip = s.onchip ∧ t.slices = s.slices ∧ t.blocks = s.blocks ∧
        ∃ p l g, t.ops = l ++ [p] ∧ MetOnly s.ops l ∧ p.id = s.nextId ∧ p.Of c (.ared o) f ∧ (∀ k ∈ p.lanes, k.status = .waiting) ∧
          p.lam0 = lambdaOf s c.g 0 ∧ t.group? c.r = some g ∧ (g.split c.e).wait = .verdict p.id ∧ g.ctr = (c.g.incCtr 5).ctr)) ∧
  (∀ (s : State) (o : MemOp) (q : OpM) (l : LaneAcc) (g : Group) (b : Block), o.ins = .ared q → 2 ≤ q.evict.toNat →
      o.piste = true → s.group? o.g = some g → s.blockOf g = some b → o.ord < 2 → l.fence = none →
      s.placeFor o l = .merge ∧ (s.performAt o .merge l).2 = { l with status := .performed } ∧
      (s.performAt o .merge l).1.hbm = s.hbm ∧ (s.performAt o .merge l).1.onchip = s.onchip ∧
      ∃ b', (s.performAt o .merge l).1.blockOf g = some b' ∧ b'.merge = b.merge ∧ b'.areds = b.areds ++ [
        { lam := o.lam0 + l.lane, addr := l.addr, ins := o.ins, data := l.data, caoff := o.caoff, rmode := o.rmode, task := b.task }])

/-- The checks of 08 R230 on a load or store of a global address: a lane whose address reaches the global spaces and is not a
multiple of the access size raises MISALIGN; with none such, a lane whose bits [63:56] are nonzero or whose bits [55:40] are all ones raises
ACCESS. The slot has no effect in any lane. R230 lists the checks of one lane, ACCESS first; that of the causes of several lanes the one of
the lowest rank in R131 is raised, MISALIGN before ACCESS, is the model's reading (assumption log 51). -/
def Obligations.AccessChecks : Prop :=
  ∀ (i : Instr) (f : AccForm) (s : State) (c : Ctx), accForm i = some f → f.space = .global →
    f.kind = .load ∨ f.kind = .store ∨ f.kind = .ldk ∨ f.kind = .stk ∨ f.kind = .gather ∨ f.kind = .scatter →
    Ready s f.o.g f.rds f.dests c → c.g.isPack = false →
    ((∃ l ∈ c.accLanes f, globalVa (c.accAddr f l) = true ∧ c.accAddr f l % f.n ≠ 0) → Answers i s (Traps c .misalign 0)) ∧
    ((∀ l ∈ c.accLanes f, globalVa (c.accAddr f l) = true → c.accAddr f l % f.n = 0) →
      (∃ l ∈ c.accLanes f, bits (c.accAddr f l) 63 56 ≠ 0 ∨ bits (c.accAddr f l) 55 40 = 0xFFFF) →
      Answers i s (Traps c .access 0))

/-- PREF, WBK, INV and FNC (08 R240, R241, 03 R76). Once their lanes' earlier stores to the lines are performed, WBK leaves no dirty byte in the
lines of its lanes, INV leaves those lines out of the L1D, and the bytes that were dirty stand at home: each is put at its point of order, in the
slice's line, or in memory on a gather-direct page that is reached and does not migrate. Both go on at once and count in `st`. PREF changes no
register and issues no access. FNC.rel marks its lanes' next store. -/
def Obligations.Maintenance : Prop :=
  (∀ (o : OpM) (i : Instr) (s : State) (c : Ctx) (f : AccForm), i = .wbk o ∨ i = .inv o → accForm i = some f → Ready s o.g f.rds [] c →
    c.g.ctr.st < 65535 → (∀ l ∈ c.m.toLanes, globalVa (c.accAddr f l) = true) →
    (∀ l ∈ c.m.toLanes, s.storesPending c.r l (s.asidOf c.g) (c.accAddr f l / 128 * 128) 128 = false) →
    Answers i s (fun t => c.Ends ((c.read f.rds).incCtr (if c.m = 0 then 0 else 5)) t ∧
      (i = .wbk o → ∀ l ∈ c.m.toLanes, ∀ x, findLine (t.l1Lines c.r.coreRef) (s.asidOf c.g) (c.accAddr f l) = some x → x.dirty = []) ∧
      (i = .inv o → ∀ l ∈ c.m.toLanes, findLine (t.l1Lines c.r.coreRef) (s.asidOf c.g) (c.accAddr f l) = none) ∧
      ((∀ x ∈ s.l1Lines c.r.coreRef, x.poison = []) →
        let u := s.sentHome c.r.coreRef (s.asidOf c.g) (c.maintAddrs f)
        t.hbm = u.hbm ∧ t.slices = u.slices))) ∧
  (∀ (s : State) (die asid va prio : Nat) (b : Byte) (p : Xl), s.xlate die asid va = .ok p →
    let u := s.homePut die asid va prio b
    (leafGd p.leaf = true → s.migrOf (s.memKey p) = none → s.unreachable p = false → Memory.wf s.hbm = true →
      memGet u.hbm (s.memKey p) = b) ∧
    (leafGd p.leaf = false → ∃ y, findLine (u.sliceLines (s.homeOf die p.asid p.va)) p.asid p.va = some y ∧
      bmGet? y.dirty (p.va % 128) = some b)) ∧
  (∀ o s c f, accForm (.pref o) = some f → Ready s o.g f.rds [] c →
    Answers (.pref o) s (fun t => c.Ends (c.read f.rds) t ∧ MetOnly s.ops t.ops ∧ t.onchip = s.onchip)) ∧
  (∀ o s c, Ready s o.g [] [] c → o.ord.getLsbD 0 = false ∨ s.loadsPending c.r c.m = false →
    Answers (.fnc o) s (fun t => t.onchip = s.onchip ∧ MetOnly s.ops t.ops ∧ c.Ends { c.g with
      engSeen := if o.ord.getLsbD 0 then c.g.engSeen &&& ~~~c.m else c.g.engSeen,
      fenceRel := if o.ord.getLsbD 1 then c.g.fenceRel.mapIdx (fun l x => if c.m.has l then some (max o.scope.toNat (x.getD 0)) else x)
        else c.g.fenceRel } t))

/-- SBND, SUNB and BINDING_CHANGE_PROPAGATE (08 R242, 03 R69): a legal change of the binding set waits until every core of the launch
holds the new set, and then writes status 0; a change that is refused, or changes nothing, writes its status at once. That a binding of
no byte answers 0 beside 64 others, and that an identifier with a bit of [19:10] set names no object, are the model's readings
(assumption log 137 and assumption log 136). -/
def Obligations.Bindings : Prop :=
  (∀ o s c l b, Ready s o.g (kRds o.a 2) [] c → s.launch? c.g.lid = some l → l.change = none →
    bindingOf (c.k o.a.kNum).toNat (c.k (o.a.kNum + 1)).toNat = some b →
    (objNamed l.lrec b.obj = true → b.len ≠ 0 → l.bindings.length < 64 → c.e < c.g.splits.length → Answers (.sbnd o) s (fun t =>
      c.Awaits (dstNum o.d) s.nextId t ∧
      ∃ l', t.launch? c.g.lid = some l' ∧ l'.bindings = l.bindings ++ [b] ∧
        l'.change = some ⟨⟨c.r, c.e, dstNum o.d, s.nextId⟩, l.bindings, s.coresOf l.lid, 0⟩)) ∧
    (objNamed l.lrec b.obj = true → b.len ≠ 0 → 64 ≤ l.bindings.length →
      Answers (.sbnd o) s (Completes c (kRds o.a 2) 1 (fun g => g.writeK (dstNum o.d) 1))) ∧
    (objNamed l.lrec b.obj = false → Answers (.sbnd o) s (Completes c (kRds o.a 2) 1 (fun g => g.writeK (dstNum o.d) 2))) ∧
    (objNamed l.lrec b.obj = true → b.len = 0 →
      Answers (.sbnd o) s (Completes c (kRds o.a 2) 1 (fun g => g.writeK (dstNum o.d) 0)))) ∧
  (∀ o s c l, Ready s o.g (kRds o.a 1) [] c → s.launch? c.g.lid = some l → l.change = none →
    (c.k o.a.kNum).toNat < 2 ^ 24 → objNamed l.lrec (c.k o.a.kNum).toNat = true →
    ((∃ b ∈ l.bindings, b.obj = (c.k o.a.kNum).toNat) → c.e < c.g.splits.length → Answers (.sunb o) s (fun t =>
      c.Awaits (dstNum o.d) s.nextId t ∧
      ∃ l', t.launch? c.g.lid = some l' ∧ l'.bindings = l.bindings.filter (fun b => b.obj ≠ (c.k o.a.kNum).toNat))) ∧
    ((∀ b ∈ l.bindings, b.obj ≠ (c.k o.a.kNum).toNat) →
      Answers (.sunb o) s (Completes c (kRds o.a 1) 1 (fun g => g.writeK (dstNum o.d) 4)))) ∧
  (∀ s lid k l ch, s.launch? lid = some l → l.change = some ch →
    (ch.left.filter (· ≠ k) ≠ [] → Answers (.bindingChangePropagate lid k) s (fun t => t.groups = s.groups ∧
      ∃ l', t.launch? lid = some l' ∧ l'.bindings = l.bindings ∧ l'.change = some { ch with left := ch.left.filter (· ≠ k) })) ∧
    (ch.left.filter (· ≠ k) = [] → Answers (.bindingChangePropagate lid k) s (fun t =>
      (∃ l', t.launch? lid = some l' ∧ l'.bindings = l.bindings ∧ l'.change = none) ∧
      Answered s ch.toWaiter (BitVec.ofNat 64 ch.status) t)))

/-- Verdicts and parking (08 R231, 05 R121). Once every lane of an access is accepted the slot is complete, and its lanes are accepted: they wait
to be performed, but for plain stores, which the L1D, the merge buffer or the pack's view may have performed at once; a store of one lane to
a page that its L1D may keep stands there. When some lanes fault, those lanes, the whole split for LDK and STK, leave their split for the
lowest free parked set, with a fault record for each; the other lanes are accepted as if they were the slot's only ones, and the split goes on with
the lanes that did not park. Without a free set nothing parks and the slot is tested again; while the fault queue has no room for a
record the verdict waits. A served set takes the lowest free entry and executes its slot again; a refused one raises ACCESS there. -/
def Obligations.VerdictsAndParking : Prop :=
  (∀ s op o g, MemOp.Judged s op o g → (∀ l ∈ o.lanes, s.laneFault o l = none) → (accForm o.ins).isSome = true →
    Answers (.accessVerdict op) s (fun t => t = s.acceptOp o ∧ t.onchip = s.onchip ∧ t.faults = s.faults ∧
      (∃ p, t.op? op = some p ∧ o.Accepted p o.lanes) ∧
      (∀ r, r ≠ o.g → t.group? r = s.group? r) ∧
      ∃ g', t.group? o.g = some g' ∧ (o.entry < g.splits.length → o.PassedOn g g') ∧ g'.kregs = g.kregs ∧ g'.preds = g.preds ∧
        g'.qs = g.qs ∧ g'.sp = g.sp ∧ g'.parked = g.parked ∧
        (∀ f, accForm o.ins = some f → (∀ rd ∈ f.rds, rd.last = false) → g'.vregs = g.vregs))) ∧
  (∀ s op o g l f p, MemOp.Judged s op o g → s.laneFault o l = none → accForm o.ins = some f → f.kind = .store → o.kind = .store → o.lanes = [l] →
    o.g.home = false → l.data.length = o.size → 0 < o.size → l.addr % 128 + o.size ≤ 128 →
    let o1 : MemOp := { o with lanes := [{ l with status := .accepted }] }
    let u := (((s.transCounts o1).dlArrive o1).setOp o1).unfenceFor o1
    u.placeFor o1 { l with status := .accepted } = .cache → u.mayPerform o1 { l with status := .accepted } = true →
    (u.policyAt o1 l.addr).alloc = true → (u.policyAt o1 l.addr).last = false → u.xlate o.g.die o.asid l.addr = .ok p → leafGd p.leaf = false →
    Answers (.accessVerdict op) s (fun t => (∃ q, t.op? op = some q ∧ q.lanes.map (·.status) = [.performed]) ∧
      ∃ x, findLine (t.l1Lines o.g.coreRef) o.asid l.addr = some x ∧
        ∀ i < o.size, x.byte? (l.addr % 128 + i) = some (l.data.getD i 0))) ∧
  (∀ s op o g i s1, MemOp.Judged s op o g → s.faulted o ≠ [] → (accForm o.ins).isSome = true →
    (∀ l ∈ o.lanes, l.lane < 32 ∧ (g.split o.entry).mask.has l.lane = true) → o.entry < g.splits.length →
    (List.range 8).find? (fun i => !(g.parked.getD i Parked.free).valid) = some i → i < g.parked.length →
    s.recordLanes o i (s.faulted o) = (s1, true) →
    let m := s.parking o g
    let sp := g.split o.entry
    let rest := if o.kind = .ldk ∨ o.kind = .stk then [] else o.lanes.filter (fun l => !m.has l.lane)
    Answers (.accessVerdict op) s (fun t => t.faults = s1.faults ∧ ∃ g', t.group? o.g = some g' ∧
      g'.parked[i]? = some ⟨m, if m = sp.mask then sp.dorm else 0, true, false, false, sp.jref, sp.hdr, sp.slot,
        if 8 ≤ o.entry then g.depth else 0, op⟩ ∧
      g'.kregs = g.kregs ∧ g'.preds = g.preds ∧ g'.qs = g.qs ∧ g'.sp = g.sp ∧
      (m = sp.mask → (g'.split o.entry).state = .free) ∧ (m ≠ sp.mask → (g'.split o.entry).mask = sp.mask &&& ~~~m) ∧
      (rest = [] → t.op? op = none ∧ g'.vregs = g.vregs ∧ (m ≠ sp.mask →
        (g'.split o.entry).state = ((g.finish o.entry).split o.entry).state ∧
        (g'.split o.entry).hdr = ((g.finish o.entry).split o.entry).hdr ∧
        (g'.split o.entry).slot = ((g.finish o.entry).split o.entry).slot)) ∧
      (rest ≠ [] → m ≠ sp.mask → (∃ p, t.op? op = some p ∧ o.Accepted p rest) ∧ o.PassedOn g g'))) ∧
  (∀ s op o g, MemOp.Judged s op o g → s.faulted o ≠ [] → (∀ i < 8, (g.parked.getD i Parked.free).valid = true) → o.entry < g.splits.length →
    Answers (.accessVerdict op) s (fun t => t.op? op = none ∧ t.faults = s.faults ∧ ∃ g', t.group? o.g = some g' ∧ g'.parked = g.parked ∧
      (g'.split o.entry).mask = (g.split o.entry).mask ∧ (g'.split o.entry).state = (g.split o.entry).state ∧
      (g'.split o.entry).wait = .retest ∧ (g'.split o.entry).slot = (g.split o.entry).slot ∧ g'.SameRegs g)) ∧
  (∀ s op o g i s1, MemOp.Judged s op o g → s.faulted o ≠ [] →
    (List.range 8).find? (fun i => !(g.parked.getD i Parked.free).valid) = some i →
    s.recordLanes o i (s.faulted o) = (s1, false) → Answers (.accessVerdict op) s (fun t => t = s1 ∧ t.groups = s.groups)) ∧
  (∀ s r g i e p, s.group? r = some g → g.parked[i]? = some p → p.valid = true → p.served = true → g.phase = .running →
    p.hdepth = g.depth → g.freeEntry (if 0 < g.depth then [9] else List.range 8) = some e → e < g.splits.length →
    Answers (.parkedSetReplay r i) s (fun t => ∃ g', t.group? r = some g' ∧ (g'.split e).mask = p.mask ∧
      (g'.split e).dorm = p.dorm ∧ (g'.split e).replay = p.prod ∧ (g'.split e).hdr = p.hdr ∧ (g'.split e).slot = p.slot ∧ (g'.split e).jref = p.jref ∧
      (p.refused = false → (g'.split e).state = .ready ∧ (g'.split e).trap = none) ∧
      (p.refused = true → (g'.split e).trap = some ⟨.access, 0xA0, p.hdr + 8 + 8 * p.slot⟩) ∧
      (∀ j, j ≠ e → g'.split j = g.split j) ∧
      g'.parked[i]? = some Parked.free ∧ g'.SameRegs g ∧ (∀ q, q ≠ r → t.group? q = s.group? q) ∧ t.hbm = s.hbm ∧ t.onchip = s.onchip))

/-- Landing, acknowledgment and mailbox writes (08 R236, 01 R16, R27, R34). The reply of each lane lands in its destination,
where no later producer has taken the register over, and the wait counter of the operation falls; a performed store is
acknowledged; a message's bytes land in a mailbox register, which is full when they include lane 31's word. A scratchpad
load reads the bytes of its own lanes' places. -/
def Obligations.LandingAndAcknowledgment : Prop :=
  (∀ s op o g f, s.op? op = some o → accForm o.ins = some f → f.ctr = 6 → f.destK = false → s.group? o.g = some g →
    (g.split o.entry).wait ≠ .verdict op → o.lanes.all LaneAcc.isDone = true → o.holds = false → o.lanes ≠ [] →
    (o.lanes.map (·.lane)).Nodup → (∀ l ∈ o.lanes, l.lane < 32) → (∀ i < f.destW, s.isMbox g (o.dest + i) = false) →
    Answers (.loadDataLand op) s (fun t => t.op? op = none ∧ t.hbm = s.hbm ∧ t.onchip = s.onchip ∧
      ∃ g', t.group? o.g = some g' ∧ g'.ctr = (g.decCtr 6).ctr ∧ g'.kregs = g.kregs ∧ g'.splits = g.splits ∧
        (∀ i < f.destW, ∀ l ∈ o.lanes, (g.vreg (o.dest + i)).prod.getD l.lane 0 = op →
          (g'.vreg (o.dest + i)).lane l.lane = replyWord l.reply i ∧ (g'.vreg (o.dest + i)).prod.getD l.lane 0 = 0) ∧
        (∀ i < f.destW, ∀ l ∈ o.lanes, (g.vreg (o.dest + i)).prod.getD l.lane 0 ≠ op →
          (g'.vreg (o.dest + i)).lane l.lane = (g.vreg (o.dest + i)).lane l.lane) ∧
        (∀ n, n < o.dest ∨ o.dest + f.destW ≤ n → g'.vreg n = g.vreg n))) ∧
  (∀ (s : State) (o : MemOp) (q : OpM) (l : LaneAcc), o.ins = .lds q → o.kind = .load → o.space = .scratch → l.fence = none →
    (s.migrs.map (·.id)).Nodup → s.placeFor o l = .chip ∧
      s.performAt o .chip l = (s, { l with status := .performed, reply := s.ocRead l.addr o.size, eng := false })) ∧
  (∀ s op o g f, s.op? op = some o → accForm o.ins = some f → f.ctr = 5 → s.group? o.g = some g →
    (g.split o.entry).wait ≠ .verdict op → o.lanes.all LaneAcc.isDone = true → o.holds = false → s.heldByMigr o = false →
    s.portWrites.all (fun w => w.op ≠ op) = true →
    Answers (.storeAck op) s (fun t => t.op? op = none ∧ t.hbm = s.hbm ∧ t.onchip = s.onchip ∧
      ∃ g', t.group? o.g = some g' ∧ g'.ctr = (g.decCtr 5).ctr ∧ g'.SameRegs g ∧ g'.splits = g.splits)) ∧
  (∀ s n w g, s.mbox.find? (fun w => w.id = n) = some w → s.group? w.g = some g → s.isMbox g w.reg = true → g.phase = .running →
    s.mbox.any (fun x => x.id < n && x.g = w.g && x.reg = w.reg && x.src = w.src) = false → s.mboxClear w = true →
    (∀ o, s.op? w.op = some o → ∀ l ∈ o.lanes, o.releases l = false) →
    Answers (.mailboxWriteLand n) s (fun t => t.mbox = s.mbox.filter (fun x => x.id ≠ n) ∧ t.onchip = s.onchip ∧ t.hbm = s.hbm ∧
      ∃ g', t.group? w.g = some g' ∧ g'.vreg w.reg = (g.vreg w.reg).mboxLand w.bytes ∧
        (g'.vreg w.reg).full = ((g.vreg w.reg).full || w.bytes.any (fun x => x.1 / 4 == 31)) ∧
        (∀ k, k ≠ w.reg → g'.vreg k = g.vreg k) ∧ g'.kregs = g.kregs)) ∧
  (∀ s n w, s.mbox.find? (fun w => w.id = n) = some w →
    s.mbox.any (fun x => x.id < n && x.g = w.g && x.reg = w.reg && x.src = w.src) = true ∨ s.mboxClear w = false →
    Answers (.mailboxWriteLand n) s (fun t => t = s))

/-- What the integer atomics make of a word (08 R245): the operand added, the smaller or larger value, a bitwise operation, an exchange, a
compare and swap, and the wrapping counters; each returns the old bytes. -/
def Obligations.AtomicFunctions : Prop :=
  ∀ (o : MemOp) (l : LaneAcc) (step : Word) (ft : List Word) (x b : Word) (q : OpM), o.size = 4 → l.data = natToBytes 4 b.toNat →
    let old := natToBytes 4 x.toNat
    let is (i : Instr) (y : Word) : Prop := o.ins = i → o.apply l step ft old = (some (natToBytes 4 y.toNat), old)
    (q.evict = 0 → is (.aadd q) (x + b)) ∧
    (q.evict = 2 → is (.aadd q) (BitVec.ofInt 32 (max (-(2 ^ 31)) (min (x.toInt + b.toInt) (2 ^ 31 - 1))))) ∧
    (q.evict = 3 → is (.aadd q) (BitVec.ofNat 32 (min (x.toNat + b.toNat) (2 ^ 32 - 1)))) ∧
    (q.evict = 0 → is (.amnx q) (if b.slt x then b else x)) ∧ (q.evict = 1 → is (.amnx q) (if x.slt b then b else x)) ∧
    (q.evict = 2 → is (.amnx q) (if b.ult x then b else x)) ∧ (q.evict = 3 → is (.amnx q) (if x.ult b then b else x)) ∧
    (q.evict = 0 → is (.alop q) (x &&& b)) ∧ (q.evict = 1 → is (.alop q) (x ||| b)) ∧ (q.evict = 2 → is (.alop q) (x ^^^ b)) ∧
    is (.axch q) b ∧
    (q.evict = 0 → is (.ainc q) (if b.ule x then 0 else x + 1)) ∧
    (q.evict = 1 → is (.ainc q) (if x = 0 ∨ b.ult x then b else x - 1)) ∧
    (∀ cmp new : Word, o.ins = .acas q →
      o.apply { l with data := natToBytes 4 cmp.toNat ++ natToBytes 4 new.toNat } step ft old =
        (some (natToBytes 4 (if x = cmp then new else x).toNat), old))

/-- The places that perform accesses of a wider scope (03 R62, R73, R80, 12 R343, 14 R415, R422): a lane is performed there in one step, reads
the bytes the place holds, and is done with the old bytes or what its instruction replies; the lanes of a load or store that have its
address are performed with it, the highest one's bytes remaining; a quad unit sends its new word home, where it arrives in the unit's order;
two integer AREDs to one word that leave a die through its gateway combine exactly; a packet's elements are read from the stack; a load
miss is filled from a peer's line. Which accesses wait for one another across the quad unit, the L1D and the home slice is the model's
reading of program order (assumption log 110), and so are the gateways of a die (assumption log 112) and the number of a packet's elements
served before another access comes between (assumption log 69); a port atomic acts on the value at the home slice's place of its address (assumption
log 54); what a peer holds is decided by log 127. -/
def Obligations.AtomicPlaces : Prop :=
  (∀ (s : State) (op lane : Nat) (o : MemOp) (l : LaneAcc) (p : PlaceK) (i : Instr),
    (p = .home ∧ i = .homeAtomic op lane) ∨ (p = .port ∧ i = .portAtomic op lane) →
    s.op? op = some o → o.lanes.find? (fun l => l.lane = lane) = some l → s.placeFor o l = p → o.kind ≠ .waita →
    s.mayPerform o l = true → o.isPair = false → (∀ x ∈ o.lanes, x.fence = none) → o.ord < 2 →
    let k := (o.mates p l).getLast?.getD l
    let u := s.reach o p l.addr o.size
    let r := o.apply k (u.stepFor o p l.addr) (u.factorsOf o) (u.overlay o l.addr (u.homeRead o.g.die o.asid l.addr o.size))
    Answers i s (fun t => t.groups = s.groups ∧ t.onchip = s.onchip ∧
      (∃ o' l', t.op? op = some o' ∧ o'.lanes.find? (fun l => l.lane = lane) = some l' ∧ l'.status = .performed ∧ l'.reply = r.2) ∧
      (r.1 = none → t.hbm = (u.readTouch o p l.addr).hbm ∧ t.slices = (u.readTouch o p l.addr).slices) ∧
      (∀ bs, r.1 = some bs →
        let v := (u.homeWrite o.g.die o.asid l.addr bs).sliceTouch o.g.die o.asid l.addr (u.policyAt o l.addr).sl (u.policyAt o l.addr).last
        t.hbm = v.hbm ∧ t.slices = v.slices))) ∧
  (∀ (s : State) (op lane : Nat) (o : MemOp) (l : LaneAcc), s.op? op = some o →
    o.lanes.find? (fun l => l.lane = lane) = some l → o.kind ≠ .waita → o.isPair = false → (∀ x ∈ o.lanes, x.fence = none) → o.ord < 2 →
    let s' := s.quadReplace (o.g.die, quadOf o.g.core) o.asid l.addr o.size
    s'.placeFor o l = .quad → s'.mayPerform o l = true →
    let k := (o.mates .quad l).getLast?.getD l
    let u := s'.reach o .quad l.addr o.size
    let r := o.apply k (u.stepFor o .quad l.addr) (u.factorsOf o)
      (u.overlay o l.addr (u.quadRead (o.g.die, quadOf o.g.core) o.asid l.addr o.size))
    Answers (.quadAtomic op lane) s (fun t => t.groups = s.groups ∧
      (∃ o' l', t.op? op = some o' ∧ o'.lanes.find? (fun l => l.lane = lane) = some l' ∧ l'.status = .performed ∧ l'.reply = r.2) ∧
      (r.1 = none → t.quadWrites = u.quadWrites ∧ t.quadCopies = u.quadCopies ∧ t.hbm = (u.readTouch o .quad l.addr).hbm) ∧
      (∀ bs, r.1 = some bs → t.hbm = u.hbm ∧
        t.quadWrites = u.quadWrites ++ [⟨u.nextId, o.g.die, quadOf o.g.core, o.asid, l.addr, bs, o.g, (o.mates .quad l).map (·.lane)⟩] ∧
        t.quadCopies = (u.quadPut (o.g.die, quadOf o.g.core) o.asid l.addr bs).quadCopies))) ∧
  (∀ s n w, s.quadWrites.find? (fun w => w.id = n) = some w →
    s.quadWrites.any (fun x => x.id < n && x.die = w.die && x.quad = w.quad && x.asid = w.asid &&
      meet x.addr x.bytes.length w.addr w.bytes.length) = false →
    Answers (.quadWriteThroughArrive n) s (fun t => t.quadWrites = s.quadWrites.filter (fun x => x.id ≠ n) ∧
      t.groups = s.groups ∧ t.hbm = (s.homeWriteDef w.die w.asid w.addr w.bytes).hbm ∧
      t.slices = (s.homeWriteDef w.die w.asid w.addr w.bytes).slices)) ∧
  (∀ (s : State) (op1 lane1 op2 lane2 : Nat) (o1 o2 : MemOp) (l1 l2 : LaneAcc) (q : OpM), op1 ≠ op2 → s.op? op1 = some o1 →
    s.op? op2 = some o2 → o1.lanes.find? (fun l => l.lane = lane1) = some l1 → o2.lanes.find? (fun l => l.lane = lane2) = some l2 →
    o1.ins = .ared q → o2.ins = .ared q → q.evict = 0 → o1.size = 4 → l1.status = .accepted → l2.status = .accepted →
    s.placeFor o1 l1 = .home → s.placeFor o2 l2 = .home → (s.gatewayOf o1 l1).isSome = true → s.gatewayOf o2 l2 = s.gatewayOf o1 l1 →
    o1.releases l1 = false → o2.releases l2 = false → o1.g.die = o2.g.die → o1.asid = o2.asid → l1.addr = l2.addr →
    (∀ o ∈ s.ops, ∀ l ∈ o.lanes, (op1, lane1) ∉ l.joined ∧ (op2, lane2) ∉ l.joined) →
    Answers (.aredGatewayCombine op1 lane1 op2 lane2) s (fun t => t.hbm = s.hbm ∧ t.groups = s.groups ∧
      ∃ o' l', t.op? op1 = some o' ∧ o'.lanes.find? (fun l => l.lane = lane1) = some l' ∧ (op2, lane2) ∈ l'.joined ∧
        l'.data = natToBytes 4 ((bytesToNat l1.data + bytesToNat l2.data) % 2 ^ 32))) ∧
  (∀ (s : State) (op k : Nat) (o : MemOp) (l : LaneAcc) (x : Xl) (q : OpM), s.op? op = some o → o.lanes = [l] → o.ins = .gthr q →
    o.kind = .gather → l.fence = none → s.placeFor o l = .stack → s.mayPerform o l = true → s.xlate o.g.die o.asid l.addr = .ok x →
    s.stackOf o.g.die x.pa = k → (∀ g, s.group? o.g = some g → s.pisteOf g = false) →
    let u := s.reach o .stack l.addr o.size
    ∀ y, u.xlate o.g.die o.asid l.addr = .ok y → Answers (.gatherPacketExpand op k) s (fun t => t.hbm = u.hbm ∧ t.groups = s.groups ∧
      ∃ b, t.op? op = some { o with lanes := [{ l with status := .performed, reply := memRead u.hbm (u.memKey y) o.size, eng := b }] })) ∧
  (∀ (s : State) (op lane : Nat) (o : MemOp) (l : LaneAcc) (ln : Line), s.op? op = some o →
    o.lanes.find? (fun l => l.lane = lane && l.status = .accepted) = some l → o.g.home = false → s.lastPeer.get? o.g.coreRef = none →
    findLine (s.l1Lines { o.g.coreRef with core := o.g.core ^^^ 1 }) o.asid l.addr = some ln → ln.ro = true → ln.poison = [] →
    (s.roFilter.getD o.g.coreRef []).contains (o.asid, l.addr / 2 ^ 16) = true → o.kind = .load → s.mayPerform o l = true →
    s.l1Holds { o.g.coreRef with core := o.g.core ^^^ 1 } o.asid l.addr o.size = true → s.placeFor o l = .cache →
    s.l1Holds o.g.coreRef o.asid l.addr o.size = false →
    Answers (.peerFill op lane) s (fun t => t.groups = s.groups ∧ MetOnly s.ops t.ops ∧
      t.lastPeer.get? o.g.coreRef = some (o.g.core ^^^ 1) ∧
      ((s.policyAt o l.addr).alloc = false → t.l1d = s.l1d) ∧
      ((s.policyAt o l.addr).alloc = true → (s.policyAt o l.addr).last = false →
        ∃ x, findLine (t.l1Lines o.g.coreRef) o.asid l.addr = some x ∧ ∀ i < 128, (ln.byte? i).isSome → (x.byte? i).isSome)))

/-- WAITA_RETEST, REGISTER_SPILL and REGISTER_RELOAD (08 R249, 05 R126): a WAITA whose condition held in some lane when it was tested reads every
lane's word at its place, where its own earlier writes have come, and completes; the victim register of a full partition goes to its image and
its physical register is free; a reloaded register holds what it was spilled with, whatever a program stored in its image meanwhile
(05 R142), and its waiting splits are READY. -/
def Obligations.WaitsAndSpills : Prop :=
  (∀ s op o g, s.op? op = some o → s.group? o.g = some g → o.kind = .waita → (g.split o.entry).wait = .reply → o.ord % 2 = 0 →
    (∀ l ∈ o.lanes, l.status = .accepted ∧ s.lanePoison o l = none ∧ l.lane < 32) → (o.lanes.map (·.lane)).Nodup →
    o.size = 4 → o.met = true ∨ s.waitaPort o = true → s.isMbox g o.dest = false →
    (∀ f, accForm o.ins = some f → f.ctr = 0 ∧ ∀ rd ∈ f.rds, rd.last = false) →
    let u := s.waitaReach o
    Answers (.waitaRetest op) s (fun t => t.op? op = none ∧ t.hbm = u.hbm ∧ t.onchip = s.onchip ∧
      ∃ g', t.group? o.g = some g' ∧ g'.SplitsAfter g (g.finish o.entry) ∧ g'.kregs = g.kregs ∧
        (∀ l ∈ o.lanes, (g'.vreg o.dest).lane l.lane = replyWord (u.waitaRead o l) 0) ∧
        (∀ n, n ≠ o.dest → g'.vreg n = g.vreg n))) ∧
  (∀ (s : State) (c : CoreRef) (p n w : Nat) (g : Group) (e : Nat),
    s.groups.filter (fun g => g.ref.coreRef = c && partOf g.ref = p && g.phase = .running) = [g] → s.group? g.ref = some g →
    (g.split e).state = .blocked → (g.split e).wait = .phys w → e < g.splits.length → physTotal c < s.physUsed c p + w → n < 320 →
    (g.vreg n).mapped = true → (g.vreg n).spilled = false → (g.vreg n).pending = 0 → s.isMbox g n = false → s.bringsTo g.ref n = false →
    (∀ k, n < k → k < 320 → (g.vreg k).mapped = false ∨ (g.vreg k).spilled = true ∨ (g.vreg k).pending ≠ 0 ∨ s.isMbox g k = true ∨
      s.bringsTo g.ref k = true) →
    Answers (.registerSpill c p) s (fun t => t.hbm = (s.imgSpill g.ref n).hbm ∧ t.slices = (s.imgSpill g.ref n).slices ∧
      ∃ g', t.group? g.ref = some g' ∧ (g'.vreg n).spilled = true ∧ (∀ k, k ≠ n → g'.vreg k = g.vreg k) ∧
        g'.kregs = g.kregs ∧ g'.splits = g.splits)) ∧
  (∀ (s : State) (r : GRef) (g : Group) (n e : Nat), s.group? r = some g → (g.split e).state = .blocked →
    (g.split e).wait = .reload n → e < g.splits.length → (g.vreg n).spilled = true →
    s.physUsed r.coreRef (partOf r) < physTotal r.coreRef →
    Answers (.registerReload r n) s (fun t => t.hbm = s.hbm ∧ ∃ g', t.group? r = some g' ∧
      g'.vreg n = { g.vreg n with spilled := false } ∧ (g'.split e).state = .ready ∧
      (∀ k, k ≠ n → g'.vreg k = g.vreg k) ∧ g'.kregs = g.kregs))
/-! ### The matrix engine (11) -/

/-- The issue of a matrix operation (03 R75, 11 R312, R313, R316), that is TLD, TST, TZRO, TZRO.acc, TMVV, TMVV.acc, TMVT, TMVT.acc, TTRN, TSCL, WLD, ALD, AST, MMA,
MMAG, MFCT and MTRS: once the group's earlier writes to the global ranges that it reads are performed it waits for its engine with all that it
samples, in the group's open batch, and counts in `mat`; a run that TMVV writes is empty. An operation that fails a
check traps with no effect. -/
def Obligations.MatrixIssue : Prop :=
  ∀ (i : Instr) (o : OpT) (s : State) (c : Ctx), tileOf i = some o → Ready s o.g (matRds i) (matDsts i) c → matOwn i c →
    c.g.ctr.mat < 65535 → c.sp.mask ≠ 0 →
    (s.matCheck (c.matIssued i o) (s.recOf c.g) = none → s.wldHeld (c.matIssued i o) = false →
      (c.matIssued i o).stores = true ∨ s.sourcesDone c.r false (c.matIssued i o).farRanges s.nextId = true → Answers i s (fun t =>
      (t.mat c.r.coreRef).waiting = (s.mat c.r.coreRef).waiting ++
        [{ c.matIssued i o with id := s.nextId, batch := c.g.mtl.closed + 1 }] ∧
      (t.mat c.r.coreRef).accepted = (s.mat c.r.coreRef).accepted ∧ t.onchip = s.onchip ∧ MetOnly s.ops t.ops ∧
      (∀ r, r ≠ c.r → t.group? r = s.group? r) ∧
      ∃ g, t.group? c.r = some g ∧ g.ctr = (c.g.incCtr 2).ctr ∧ g.mtl.out = c.g.mtl.out ++ [c.g.mtl.closed + 1] ∧
        g.SplitsAfter c.g (c.g.finish c.e) ∧ g.kregs = c.g.kregs ∧ g.preds = c.g.preds ∧ g.qs = c.g.qs ∧
        g.vregs = (c.g.emptied s (matDsts i) c.sp.mask s.nextId).vregs ∧
        (isMmag i = false → g.sp = c.g.sp) ∧
        (isMmag i = true → bits g.sp.gang.toNat 47 40 = (bits c.g.sp.gang.toNat 47 40 + 1) % 256))) ∧
    (∀ ca d, s.matCheck (c.matIssued i o) (s.recOf c.g) = some (ca, d) → Answers i s (Traps c ca d))

/-- The synchronisation of the matrix engine and its gangs (11 R326 to R328, R332, R333): MFEN closes the open batch, MFEN.num also gives its
number; MEST reads or clears the toggle counter; GANG and GANG.dis wait at the rendezvous, or answer at once where they may
not; at the rendezvous every member of the list holds its position and the size of the gang. -/
def Obligations.MatrixSync : Prop :=
  (∀ o s c, Ready s o.g [] [] c →
    Answers (.mfen o) s (Completes c [] 1 (fun g => { g with mtl := g.mtl.close })) ∧
    Answers (.mfenNum o) s (Completes c [] 1 (fun g =>
      ({ g with mtl := g.mtl.close } : Group).writeK (dstNum o.d) (BitVec.ofNat 64 (c.g.mtl.closed + 1)))) ∧
    Answers (.mestRd o) s (Completes c [] 1 (fun g => g.writeK (dstNum o.d) (s.mat c.r.coreRef).toggles)) ∧
    Answers (.mestClr o) s (fun t => t.mat c.r.coreRef = { s.mat c.r.coreRef with toggles := 0 } ∧
      (∀ k, k ≠ c.r.coreRef → t.mat k = s.mat k) ∧ c.Ends c.g t)) ∧
  (∀ o s c, Ready s o.g (srcRds o.a) [] c →
    (badGang (c.k o.a.kNum) c.r.core = true →
      Answers (.gang o) s (Completes c (srcRds o.a) 1 (fun g => g.writeK (dstNum o.d) 1))) ∧
    (badGang (c.k o.a.kNum) c.r.core = false → gangSize c.g.sp.gang ≠ 0 ∨ s.ringBusy c.r.coreRef = true →
      Answers (.gang o) s (Completes c (srcRds o.a) 1 (fun g => g.writeK (dstNum o.d) 2))) ∧
    (badGang (c.k o.a.kNum) c.r.core = false → gangSize c.g.sp.gang = 0 → s.ringBusy c.r.coreRef = false →
      (c.g.kreg (dstNum o.d)).full = true → c.e < c.g.splits.length → Answers (.gang o) s (fun t =>
        t.gangs = s.gangs ++ [⟨⟨c.r, c.e, dstNum o.d, s.nextId⟩, (c.k o.a.kNum).toNat, false⟩] ∧ c.Awaits (dstNum o.d) s.nextId t))) ∧
  (∀ o s c, Ready s o.g [] [] c →
    (gangSize c.g.sp.gang = 0 → Answers (.gangDis o) s (Completes c [] 1 (fun g => g.writeK (dstNum o.d) 1))) ∧
    (gangSize c.g.sp.gang ≠ 0 → (c.g.kreg (dstNum o.d)).full = true → c.e < c.g.splits.length → Answers (.gangDis o) s (fun t =>
      t.gangs = s.gangs ++ [⟨⟨c.r, c.e, dstNum o.d, s.nextId⟩, gangCols c.g.sp.gang, true⟩] ∧ c.Awaits (dstNum o.d) s.nextId t))) ∧
  (∀ (s : State) (k : CoreRef) (w : GangWait) (g : Group) (ms : List GangWait), s.gangs.find? (fun w => w.g.coreRef = k) = some w →
    s.group? w.g = some g → w.dis = false → (ms.map (·.g)).Nodup →
    (gangCores k w.list).map (fun k => s.gangs.find? (fun x => x.g.coreRef = k && !x.dis && x.list = w.list &&
      (match s.group? x.g with | some y => y.lid == g.lid | none => false))) = ms.map some →
    Answers (.gangRendezvous k) s (fun t => t.onchip = s.onchip ∧ t.hbm = s.hbm ∧
      ∀ (p : Nat) (x : GangWait) (gx : Group), ms[p]? = some x → s.group? x.g = some gx →
        (gx.kreg x.kd).prod = x.id → (gx.split x.entry).awaits x.id = true →
        ∃ g', t.group? x.g = some g' ∧ g'.sp.gang = gangJoin w.list p ms.length gx.sp.gang ∧ (g'.kreg x.kd).val = 0 ∧
          (g'.kreg x.kd).full = true ∧ g'.SplitsAfter gx (gx.finish x.entry) ∧ g'.vregs = gx.vregs)) ∧
  (∀ (s : State) (k : CoreRef), Answers (.throttleWindow k) s (fun t => (t.mat k).window = 0 ∧
    (t.mat k).toggles = (s.mat k).toggles ∧ (t.mat k).accepted = (s.mat k).accepted ∧ t.groups = s.groups ∧ t.onchip = s.onchip))

/-- The engine's own steps (11 R312 to R315, R318, R329). It accepts the first operation of the next partition in turn. The operation at its
head, with nothing to wait for, is computed whole: each byte on the chip is then as before or as the operation leaves it; the sectors left change at
later points, and with the last of them the operation leaves the engine and lowers `mat`. TZRO.acc, for one, zeroes its accumulator
blocks and nothing else; an operation whose source is poisoned is abandoned, bytes already written staying; at the lift line MMAGs of one shape are
multiplied, of different shapes cancelled with GERR. That an operation is computed whole from sources read at one moment, its remaining
sectors changing at free later ones, is the model's choice among what R315 allows (assumption log 69). -/
def Obligations.MatrixSteps : Prop :=
  (∀ (s : State) (k : CoreRef) (o : MatOp) (i : Nat), i < 4 →
    (∀ j < i, (s.mat k).waiting.find? (fun o => o.p = ((s.mat k).lastPart + 1 + j) % 4) = none) →
    (s.mat k).waiting.find? (fun o => o.p = ((s.mat k).lastPart + 1 + i) % 4) = some o →
    Answers (.matOpAccept k) s (fun t => (t.mat k).accepted = (s.mat k).accepted ++ [o] ∧
      (t.mat k).waiting = (s.mat k).waiting.filter (fun x => x.id ≠ o.id) ∧ (t.mat k).lastPart = o.p ∧
      t.groups = s.groups ∧ t.onchip = s.onchip ∧ t.hbm = s.hbm)) ∧
  (∀ (s : State) (k : CoreRef) (o : MatOp) (rest : List MatOp), (s.mat k).accepted = o :: rest → o.g.coreRef = k → o.cancelled = false →
    s.matAsks k o = false → (∀ g, s.group? o.g = some g → g.isRunning = true) →
    o.todo = none → isMmag o.ins = false → s.matWaits o = false → s.chipReady o = true → s.matFault o = none →
    s.matPoison o = false → s.Inv →
    Answers (.matOpComplete k) s (fun t =>
      (∀ a, memGet t.onchip a = memGet s.onchip a ∨ memGet t.onchip a = memGet (s.perform o).onchip a) ∧
      (o.stores = false → t.hbm = s.hbm) ∧
      ((t.mat k).accepted = rest.filter (fun x => x.id ≠ o.id) ∨
        ∃ y ∈ (t.mat k).accepted, y.id = o.id ∧ y.todo.isSome = true))) ∧
  (∀ (s : State) (k : CoreRef) (o : MatOp) (rest : List MatOp) (ws : List SecWrite) (g : Group), (s.mat k).accepted = o :: rest →
    o.g.coreRef = k → o.cancelled = false → s.matAsks k o = false → o.todo = some ws → (o.stores = true → s.matFault o = none) → s.matLive o = true → s.Inv →
    (∀ w ∈ ws, w.chip = true) → (ws.flatMap (fun w => w.cells.map (·.1))).Nodup → s.group? o.g = some g →
    Answers (.matOpComplete k) s (fun t =>
      (∀ w ∈ ws, (∀ x ∈ w.cells, memGet t.onchip x.1 = x.2) ∨
        ∃ y ∈ (t.mat k).accepted, y.id = o.id ∧ ∃ us, y.todo = some us ∧ w ∈ us) ∧
      (∀ a, (∀ w ∈ ws, ∀ x ∈ w.cells, x.1 ≠ a) → memGet t.onchip a = memGet s.onchip a) ∧ t.hbm = s.hbm ∧
      (ws = [] → (t.mat k).accepted = rest.filter (fun x => x.id ≠ o.id) ∧
        ∃ g', t.group? o.g = some g' ∧ g'.ctr = (g.decCtr 2).ctr ∧ g'.mtl = g.mtl.finish o.batch ∧ g'.SameRegs g))) ∧
  (∀ (s : State) (k : CoreRef) (o : MatOp) (rest : List MatOp) (q : OpT) (g : Group), (s.mat k).accepted = o :: rest →
    o.g.coreRef = k → o.cancelled = false → s.matAsks k o = false → o.todo = none → o.ins = .tzroAcc q → s.chipReady o = true → s.matLive o = true →
    s.group? o.g = some g → s.Inv →
    let a := o.at 1 (q.acc.toNat * 0x8000)
    Answers (.matOpComplete k) s (fun t =>
      (∀ i < q.nblk * 0x8000, memGet t.onchip (a + i) = 0 ∨ memGet t.onchip (a + i) = memGet s.onchip (a + i)) ∧
      (∀ b, b < a ∨ a + q.nblk * 0x8000 ≤ b → memGet t.onchip b = memGet s.onchip b) ∧ t.hbm = s.hbm ∧
      (((∀ i < q.nblk * 0x8000, memGet t.onchip (a + i) = 0) ∧ (t.mat k).accepted = rest.filter (fun x => x.id ≠ o.id) ∧
          ∃ g', t.group? o.g = some g' ∧ g'.ctr = (g.decCtr 2).ctr ∧ g'.mtl = g.mtl.finish o.batch ∧ g'.SameRegs g) ∨
        ∃ y ∈ (t.mat k).accepted, y.id = o.id ∧ y.todo.isSome = true))) ∧
  (∀ (s : State) (k : CoreRef) (o : MatOp) (rest : List MatOp) (g : Group), (s.mat k).accepted = o :: rest → o.g.coreRef = k →
    o.cancelled = false → s.matAsks k o = false → o.todo = none → s.matFault o = none → s.matPoison o = true → s.group? o.g = some g → s.Inv →
    Answers (.matOpAbandon k) s (fun t => t.hbm = s.hbm ∧
      (∀ a, memGet t.onchip a = memGet s.onchip a ∨ memGet t.onchip a = memGet (s.perform o).onchip a) ∧
      (t.mat k).accepted = rest.filter (fun x => x.id ≠ o.id) ∧
      ∃ g', t.group? o.g = some g' ∧ g'.sp.gang.getLsbD 35 = true ∧ g'.ctr = (g.decCtr 2).ctr ∧ g'.kregs = g.kregs ∧
        g'.vregs = g.vregs)) ∧
  (∀ (s : State) (k : CoreRef) (o : MatOp) (rest : List MatOp) (g : Group), (s.mat k).accepted = o :: rest → s.group? o.g = some g →
    isMmag o.ins = true → s.gangMembers g ≠ [] → (∀ r ∈ s.gangMembers g, (s.atLift r).isSome = true) →
    (∀ x ∈ (s.gangMembers g).filterMap s.atLift, x.gseq = o.gseq) →
    let ops := (s.gangMembers g).filterMap s.atLift
    ((∀ x ∈ ops, x.liftKey = o.liftKey) → (∀ x ∈ ops, s.chipReady x = true) →
      (∃ x ∈ ops, s.matWaits x = false ∧ ops.find? (fun x =>
        (match s.group? x.g with | some y => bits y.sp.gang.toNat 60 58 | none => 0) = 0) = some x) →
      Answers (.liftLineMatch k) s (fun t => t.onchip = s.onchip ∧ t.hbm = s.hbm ∧ ∀ x ∈ ops,
        ∃ y ∈ (t.mat x.g.coreRef).accepted, y.id = x.id ∧ y.lifted = true ∧ y.todo.isSome = true)) ∧
    ((∃ x ∈ ops, x.liftKey ≠ o.liftKey) →
      Answers (.liftLineMatch k) s (fun t => t.onchip = s.onchip ∧ t.hbm = s.hbm ∧ ∀ x ∈ ops,
        (∃ y ∈ (t.mat x.g.coreRef).accepted, y.id = x.id ∧ y.cancelled = true) ∧
        ∃ g', t.group? x.g = some g' ∧ g'.sp.gang.getLsbD 34 = true)))

/-! ### The tile copy engine (10) -/

/-- R295 and R296. CFEN closes the group's open copy batch, and CFEN.num also writes the number of the batch just closed, full. RSTA.e on an
entry of the issuing block, or a free one, writes STATE, DIR, REASON, NARR, NABT, HANDLE, NCH and OUTBUSY at their places, every
other bit 0; RSTA.h writes LIVE and the context's current handle. Neither form raises STALEHANDLE. -/
def Obligations.CopyFenceAndStatus : Prop :=
  (∀ o s c, Ready s o.g [] [] c →
    Answers (.cfen o) s (Completes c [] 1 (fun g => { g with ctl := g.ctl.close })) ∧
    Answers (.cfenNum o) s (Completes c [] 1 (fun g =>
      ({ g with ctl := g.ctl.close } : Group).writeK (dstNum o.d) (BitVec.ofNat 64 (c.g.ctl.closed + 1))))) ∧
  (∀ o s c, Ready s o.g [] [] c →
    let r := s.region (c.r.coreRef, o.imm.toNat)
    let st := match r.state with | .free => 0 | .absent => 1 | .filling => 2 | .present => 3 | .revoked => 4 | .flushing => 5
    (r.state = .free ∨ (r.lid = c.g.lid ∧ r.blk = c.g.blk) → Answers (.rstaE o) s (Completes c [] 1 (fun g => g.writeK (dstNum o.d)
      (BitVec.ofNat 64 (st * 2 ^ 61 + r.dir * 2 ^ 59 + r.reason * 2 ^ 56 + ((List.range r.chunks).filter r.has).length * 2 ^ 48 +
        r.nabt * 2 ^ 40 + r.handle * 2 ^ 24 + r.chunks * 2 ^ 16 + (if r.out.isSome then 1 else 0)))))) ∧
    (¬(r.state = .free ∨ (r.lid = c.g.lid ∧ r.blk = c.g.blk)) → Answers (.rstaE o) s (Traps c .access 0))) ∧
  (∀ o s c, Ready s o.g (srcRds o.a) [] c →
    let h := (c.k o.a.kNum).toNat
    let x := s.copyCtx (c.r.die, bits h 15 8)
    Answers (.rstaH o) s (Completes c (srcRds o.a) 1 (fun g => g.writeK (dstNum o.d) (BitVec.ofNat 64
      ((if h < 2 ^ 16 ∧ h % 2 ^ 8 = x.gen then 2 ^ 16 else 0) + bits h 15 8 * 2 ^ 8 + x.gen)))))

/-- Contexts, layouts and bindings (10 R275, R276, R281, R290 to R292). HNEW.new gives the lowest free context of the die to the launch and
writes its handle, or 0; a handle that is stale, or another launch's, traps; HNEW.free advances the generation, and no entry
of that handle is left ABSENT, FILLING or PRESENT. LREC loads a record, read once earlier stores are released, or writes why not. RBND binds a
free entry, or writes why not; that BADENTRY is tested before OVERLAP is the model's choice (assumption log 62). -/
def Obligations.CopyContexts : Prop :=
  (∀ o s c, Ready s o.g [] [] c →
    ((∀ n < 256, (s.copyCtx (c.r.die, n)).owner ≠ none) →
      Answers (.hnewNew o) s (Completes c [] 1 (fun g => g.writeK (dstNum o.d) 0))) ∧
    (∀ n < 256, (s.copyCtx (c.r.die, n)).owner = none → (∀ j < n, (s.copyCtx (c.r.die, j)).owner ≠ none) →
      let x := s.copyCtx (c.r.die, n)
      Answers (.hnewNew o) s (Updates c [] (fun g => g.writeK (dstNum o.d) (BitVec.ofNat 64 (n * 2 ^ 8 + x.gen)))
        { s with ctxs := s.ctxs.set (c.r.die, n) { x with owner := some c.g.lid } }))) ∧
  (∀ o s c, Ready s o.g (srcRds o.a) [] c →
    let h := (c.k o.a.kNum).toNat
    let x := s.copyCtx (c.r.die, bits h 15 8)
    (2 ^ 16 ≤ h ∨ h % 2 ^ 8 ≠ x.gen → Answers (.hnewFree o) s (Traps c .stalehandle 0)) ∧
    (h < 2 ^ 16 → h % 2 ^ 8 = x.gen → x.owner ≠ some c.g.lid → s.privileged c.g = false →
      Answers (.hnewFree o) s (Traps c .access 0)) ∧
    (h < 2 ^ 16 → h % 2 ^ 8 = x.gen → x.owner = some c.g.lid ∨ s.privileged c.g = true → (s.regions.map (·.1)).Nodup →
      (∀ y ∈ s.regions, y.2.handle = h → s.Unawaited y.1) → Answers (.hnewFree o) s (fun t =>
      t.ctxs = s.ctxs.set (c.r.die, bits h 15 8) ⟨none, if x.gen = 255 then 1 else x.gen + 1, none⟩ ∧
      (∀ k, k.1.die = c.r.die → (s.region k).handle = h → (t.region k).state = .free ∨ (t.region k).state = .revoked ∨
        (t.region k).state = .flushing) ∧
      (∀ k, k.1.die ≠ c.r.die ∨ (s.region k).handle ≠ h → t.region k = s.region k) ∧ t.hbm = s.hbm ∧ t.slices = s.slices ∧
      ∃ g, t.group? c.r = some g ∧ g.SameRegs (c.read (srcRds o.a)) ∧ g.SplitsAfter c.g (c.g.finish c.e)))) ∧
  (∀ o s c, Ready s o.g (kRds o.a 2) [] c →
    let h := (c.k o.a.kNum).toNat
    let a := (c.k (o.a.kNum + 1)).toNat
    let u := s.releaseAt c.r.coreRef (s.asidOf c.g) 2 (some [(a, 32)])
    let w (i : Nat) : Nat := (u.homeRead64 c.r.die (s.asidOf c.g) (a + 8 * i)).toNat
    let l := layoutOf (w 0) (w 1) (w 2) (w 3)
    let k := (c.r.die, bits h 15 8)
    (∀ ca, s.handleTrap c.g h = some ca → Answers (.lrec o) s (Traps c ca 0)) ∧
    (s.handleTrap c.g h = none → a % 32 ≠ 0 →
      Answers (.lrec o) s (Completes c (kRds o.a 2) 1 (fun g => g.writeK (dstNum o.d) 2))) ∧
    (s.handleTrap c.g h = none → a % 32 = 0 → globalVa a = true → s.engineFault c.r.coreRef (s.asidOf c.g) a 32 false = none →
      (l.wf = false → Answers (.lrec o) s (Updates c (kRds o.a 2) (fun g => g.writeK (dstNum o.d) 1) u)) ∧
      (l.wf = true → Answers (.lrec o) s (Updates c (kRds o.a 2) (fun g => g.writeK (dstNum o.d) 0)
        { u with ctxs := u.ctxs.set k { s.copyCtx k with layout := some l } })))) ∧
  (∀ o s c, Ready s o.g (kRds o.a 4) [] c →
    let w (i : Nat) : Nat := (c.k (o.a.kNum + i)).toNat
    let h := bits (w 1) 63 48
    let key := (c.r.coreRef, o.imm.toNat)
    let lay := (s.copyCtx (c.r.die, bits h 15 8)).layout
    let st (n : Nat) : Prop := Answers (.rbnd o) s (Completes c (kRds o.a 4) 1 (fun g => g.writeK (dstNum o.d) (BitVec.ofNat 64 n)))
    let clash := ∃ x ∈ s.regions, x.1.1 = c.r.coreRef ∧ x.2.state ≠ .free ∧ x.2.lid = c.g.lid ∧ x.2.blk = c.g.blk ∧
      meet x.2.woff x.2.len (bits (w 1) 31 0) (bits (w 2) 31 0) = true
    (∀ ca, s.handleTrap c.g h = some ca → Answers (.rbnd o) s (Traps c ca 0)) ∧
    (s.handleTrap c.g h = none →
      ((s.region key).state ≠ .free → st 1) ∧
      ((s.region key).state = .free → badEntry (s.recOf c.g) lay (w 0) (w 1) (w 2) (w 3) = true → st 2) ∧
      ((s.region key).state = .free → badEntry (s.recOf c.g) lay (w 0) (w 1) (w 2) (w 3) = false → clash → st 3) ∧
      ((s.region key).state = .free → badEntry (s.recOf c.g) lay (w 0) (w 1) (w 2) (w 3) = false → ¬clash →
        (w 0).testBit 63 = true ∨ c.badMode ((lay.map (·.conv)).getD 0) = false →
        Answers (.rbnd o) s (fun t => ∃ r, Updates c (kRds o.a 4) (fun g => g.writeK (dstNum o.d) 0) (s.setRegion key r) t ∧
          r.state = (if bits (w 0) 62 61 = 1 then .present else .absent) ∧ r.lid = c.g.lid ∧ r.blk = c.g.blk ∧
          r.fark = (w 0).testBit 63 ∧ r.dir = bits (w 0) 62 61 ∧ r.far = bits (w 0) 55 0 ∧ r.handle = h ∧
          r.phen = (w 1).testBit 39 ∧ r.phb = bits (w 1) 36 32 ∧ r.woff = bits (w 1) 31 0 ∧ r.touch = (w 2).testBit 32 ∧
          r.len = bits (w 2) 31 0 ∧ r.layout = lay.getD default ∧ r.rmode = c.g.sp.rmode ∧ r.arrived = 0 ∧ r.aborted = 0 ∧
          r.nabt = 0 ∧ r.reason = 0 ∧ r.fill = none ∧ r.out = none))))

/-- A bound window (10 R282, R292 to R294). RUNB frees a window at once when no chunk is under way and no write-out is due, starts the final write-out of an
outbound one, and aborts the chunks of a fill that have not started; RTCH begins a fill from chunk 0 or a write-out, in
the group's open batch; RTST reads a bitmap half; RWT waits for chunks and traps on an aborted one. On an entry that is FREE or another
block's each raises ACCESS. That a second RUNB of a FILLING entry, RTCH.fill on a FLUSHING one and RTCH.out on a FILLING or FLUSHING one
answer BUSY is the model's choice (assumption log 63). -/
def Obligations.CopyWindows : Prop :=
  (∀ (i : Instr) (o : OpS) (s : State) (c : Ctx), i = .runb o ∨ i = .rtchFill o ∨ i = .rtchOut o →
    Ready s o.g [] [] c → s.Unawaited (c.r.coreRef, o.imm.toNat) →
    let key := (c.r.coreRef, o.imm.toNat)
    let r := s.region key
    let all := List.range r.chunks
    let st (n : DWord) (u : State) : Prop := Answers i s (Updates c [] (fun g => g.writeK (dstNum o.d) n) u)
    let copied (u : State) : Prop := Answers i s (Updates c []
      (fun g => ({ g.incCtr 1 with ctl := g.ctl.join.2 } : Group).writeK (dstNum o.d) 0) u)
    let outing (x : RState) (b : Bool) (todo : List Nat) : Region := { r with
      state := x, unbind := b,
      out := some { g := some c.r, batch := c.g.ctl.closed + 1, seq := s.nextId, todo := todo, flight := [], done := [] } }
    (r.state = .free ∨ r.lid ≠ c.g.lid ∨ r.blk ≠ c.g.blk → Answers i s (Traps c .access 0)) ∧
    (r.lid = c.g.lid → r.blk = c.g.blk → c.g.ctr.copy < 65535 →
      (i = .runb o →
        (r.state = .flushing ∨ (r.state = .present ∧ r.out.isSome = true) ∨
          (r.state = .filling ∧ (r.out.isSome = true ∨ r.unbind = true)) → st 1 s) ∧
        (r.state = .revoked → r.fill = none → r.out = none → st 2 { s with regions := s.regions.erase key }) ∧
        (r.state = .absent → r.fill = none → r.out = none → r.waiting = [] → st 0 { s with regions := s.regions.erase key }) ∧
        (r.state = .present → r.dir = 0 → r.out = none → st 0 { s with regions := s.regions.erase key }) ∧
        (r.state = .present → r.dir ≠ 0 → r.out = none → copied (s.setRegion key (outing .flushing true all))) ∧
        (∀ x, r.state = .filling → r.fill = some x → (∃ k ∈ x.flight, k ∉ x.todo) → r.out = none → r.unbind = false → r.waiting = [] →
          (r.dir ≠ 2 → st 0 (s.setRegion key (({ r with unbind := true } : Region).abortFill x.todo))) ∧
          (r.dir = 2 → copied (s.setRegion key ((outing .filling true []).abortFill x.todo))))) ∧
      (i = .rtchFill o →
        (r.state = .revoked → st 2 s) ∧
        (r.state ≠ .free → r.state ≠ .revoked → r.dir = 1 → st 3 s) ∧
        (r.state = .filling ∨ r.state = .flushing → r.dir ≠ 1 → st 1 s) ∧
        (r.state = .absent ∨ r.state = .present → r.dir ≠ 1 → r.fark = true ∨ c.badMode r.layout.conv = false →
          s.sourcesDone c.r r.fark [(r.far, if r.fark then r.len else r.layout.span)] s.nextId = true →
          let u := if r.fark then s else s.releaseAt c.r.coreRef r.asid 2 (some [(r.far, r.layout.span)])
          copied (u.setRegion key (({ r with rmode := c.g.sp.rmode, seed := c.g.sp.seed } : Region).begin 0 (some c.r)
            (c.g.ctl.closed + 1) s.nextId)))) ∧
      (i = .rtchOut o →
        (r.state = .revoked → st 2 s) ∧
        (r.state ≠ .free → r.state ≠ .revoked → r.dir = 0 → st 3 s) ∧
        (r.state = .filling ∨ r.state = .flushing ∨ (r.state ≠ .free ∧ r.state ≠ .revoked ∧ r.out.isSome = true) → r.dir ≠ 0 → st 1 s) ∧
        (r.state = .present → r.dir ≠ 0 → r.out = none → copied (s.setRegion key (outing .present false all)))))) ∧
  (∀ (i : Instr) (o : OpS) (s : State) (c : Ctx), i = .rtst o ∨ i = .rwt o → Ready s o.g (srcRds o.a) [] c →
    let r := s.region (c.r.coreRef, o.imm.toNat)
    let ka := c.k o.a.kNum
    let half (m : BitVec 128) : DWord := if o.sub.toNat % 2 = 0 then m.extractLsb' 0 64 else m.extractLsb' 64 64
    let m := half (if o.sub.toNat < 2 then r.arrived else r.aborted) &&& ka
    let acq := if r.fark ∨ r.dir = 1 then s else s.acquireAt c.r.coreRef r.asid 0 (some [(r.far, r.layout.span)]) true
    (r.state = .free ∨ r.lid ≠ c.g.lid ∨ r.blk ≠ c.g.blk → Answers i s (Traps c .access 0)) ∧
    (r.state ≠ .free → r.lid = c.g.lid → r.blk = c.g.blk →
      (i = .rtst o →
        Answers i s (Updates c (srcRds o.a) (fun g =>
          if isQDst o.d then g.writePred o.d Mask.all (if m = ka then Mask.all else 0) else g.writeK (dstNum o.d) m)
          (if o.sub.toNat < 2 ∧ m ≠ 0 then acq else s))) ∧
      (i = .rwt o → o.sub.toNat < 2 →
        (half r.aborted &&& ka ≠ 0 → Answers i s (Traps c .chunkabort 0)) ∧
        (half r.aborted &&& ka = 0 → half r.arrived &&& ka = ka → Answers i s (Updates c (srcRds o.a) id acq)) ∧
        (half r.aborted &&& ka = 0 → half r.arrived &&& ka ≠ ka →
          Answers i s (Blocks c (srcRds o.a) (.chunks o.imm.toNat o.sub.toNat ka))))))

/-- The chunks of a window (10 R274, R279, R283, R286 to R288). At most 16 of a context are in flight, those of a freed generation among
them; its engine serves them in the order of their requests, one that waits for the answer to a fault apart, and those on pages of deadline
class are requests of their controllers. A fill chunk that lands puts each element, converted, at its place in the window, sets ARRIVED and
counts into the phase barrier, and the last one makes the window PRESENT; a write-out chunk puts the window's bytes at the far side; a chunk
whose far side fails its checks, or is poisoned, aborts and the entry is REVOKED. That a chunk which waits for an answer does not hold the
others of its engine up is the model's reading (assumption log 65). -/
def Obligations.CopyChunks : Prop :=
  (∀ (s : State) (c : CoreRef) (n k : Nat) (r : Region) (x : Transfer) (rest : List Nat), s.region (c, n) = r →
    s.inFlight c.die r.handle < 16 →
    let e := (c.die, bits r.handle 15 8 / 4)
    let asked (u : State) (b : Bool) (t : State) : Prop :=
      t = ({ u with engines := s.engines.set e ((s.engines.getD e []).filter (s.engLive e) ++ [⟨c, n, k, b⟩]) } : State).dlEnter
        (.chunk ⟨c, n, k, b⟩) (s.dlCtls c.die r.asid false (r.farAddrs k))
    (r.fill = some x → x.todo = k :: rest → Answers (.chunkRequest c n) s
      (asked (s.setRegion (c, n) { r with fill := some { x with todo := rest, flight := x.flight ++ [k] } }) false)) ∧
    ((∀ y, r.fill = some y → y.todo = []) → r.out = some x → x.todo = k :: rest → Answers (.chunkRequest c n) s
      (asked (s.setRegion (c, n) { r with out := some { x with todo := rest, flight := x.flight ++ [k] } }) true))) ∧
  (∀ (s : State) (c : CoreRef) (n : Nat), 16 ≤ s.inFlight c.die (s.region (c, n)).handle →
    Answers (.chunkRequest c n) s (fun t => t = s)) ∧
  (∀ (s : State) (c : CoreRef) (n k : Nat) (r : Region) (x : Transfer), s.region (c, n) = r → r.fill = some x → k ∈ x.flight → k < 128 →
    s.farLegal r k = true → s.chunkPoison c r k = false → (r.phen = true → s.phaseRoom r.lid r.blk r.phb = true ∧ s.NoneHeldAt r.phb) →
    s.chunkTurn ⟨c, n, k, false⟩ = true → s.chunkFault c r k false = none → (∀ w ∈ r.waiting, w.chunk ≠ k) → s.Unawaited (c, n) → r.state = .filling → r.unbind = false → s.Inv →
    r.layout.ebytes ∈ [1, 2, 4] →
    Answers (.chunkLandFill c n k) s (fun t => t.hbm = s.hbm ∧ t.slices = s.slices ∧
      (r.fark = true → memRead t.onchip (s.windowAddr c r (512 * k)) 512 = s.ocRead (r.far + 512 * k) 512) ∧
      (r.fark = false → ∀ e ∈ r.elements k, memRead t.onchip (s.windowAddr c r e.1) r.layout.ebytes =
        natToBytes r.layout.ebytes (convElem r (s.rndLid r.lid) e.2.2
          (bytesToNat (s.homeRead c.die r.asid e.2.1 r.layout.sbytes)))) ∧
      (∀ a, a < s.windowAddr c r (512 * k) ∨ s.windowAddr c r (512 * k) + 512 ≤ a → memGet t.onchip a = memGet s.onchip a) ∧
      (t.region (c, n)).arrived = setChunk r.arrived k ∧ (t.region (c, n)).aborted = r.aborted ∧
      (∀ b, r.phen = true → s.block? r.lid r.blk = some b → ∃ b', t.block? r.lid r.blk = some b' ∧
        b'.phase = b.phase.modify r.phb (fun _ =>
          (PhaseBar.eval { (b.phase.getD r.phb (PhaseBar.start 0)) with
                           pend := (b.phase.getD r.phb (PhaseBar.start 0)).pend - 1 }).1)) ∧
      (x.todo = [] → (∀ j ∈ x.flight, j = k) → (t.region (c, n)).state = .present ∧ (t.region (c, n)).fill = none) ∧
      (¬(x.todo = [] ∧ ∀ j ∈ x.flight, j = k) → (t.region (c, n)).state = .filling ∧
        ∃ y, (t.region (c, n)).fill = some y ∧ y.todo = x.todo ∧ y.flight = x.flight.filter (· ≠ k)))) ∧
  (∀ (s : State) (c : CoreRef) (n k : Nat) (r : Region) (x : Transfer), s.region (c, n) = r → r.out = some x → k ∈ x.flight →
    s.farLegal r k = true → s.chunkFault c r k true = none → s.Inv → r.fill = none → r.state = .present → r.unbind = false →
    (r.fark = true → r.phen = true → s.NoneHeldAt r.phb ∧ ∀ l b, s.ocOwner (r.far + 512 * k) = some (l, b) → s.phaseRoom l b r.phb = true) →
    s.chunkTurn ⟨c, n, k, true⟩ = true → s.chunkReady c r x k = true → s.chunkHeld c r k = false →
    let bs := s.ocRead (s.windowAddr c r (512 * k)) 512
    Answers (.chunkLandWriteout c n k) s (fun t =>
      (r.fark = false → t.onchip = s.onchip ∧ t.hbm = ((r.elements k).foldl (fun (u : State) e =>
        u.homeWrite c.die r.asid e.2.1 ((bs.drop (e.1 - 512 * k)).take r.layout.ebytes)) s).hbm) ∧
      (r.fark = true → bits r.far 29 28 ≠ 2 → memRead t.onchip (r.far + 512 * k) 512 = bs ∧ t.hbm = s.hbm ∧
        ∀ a, a < r.far + 512 * k ∨ r.far + 512 * k + 512 ≤ a → memGet t.onchip a = memGet s.onchip a) ∧
      (r.fark = true → bits r.far 29 28 = 2 → ∀ i < 4, ∀ y g m, ocDecode (r.far + 512 * k + 128 * i) = some y →
        s.ocMbox y = some (g, m, 0) → ∃ g', t.group? g.ref = some g' ∧ (g'.vreg m).full = true) ∧
      (t.region (c, n)).arrived = r.arrived ∧ (t.region (c, n)).state = .present ∧
      (x.todo = [] → (∀ j ∈ x.flight, j = k) → (t.region (c, n)).out = none) ∧
      (¬(x.todo = [] ∧ ∀ j ∈ x.flight, j = k) →
        (t.region (c, n)).out = some { x with flight := x.flight.filter (· ≠ k), done := x.done ++ [k] }))) ∧
  (∀ (s : State) (c : CoreRef) (n k : Nat) (r : Region) (x : Transfer), s.region (c, n) = r → r.fill = some x → k ∈ x.flight → k < 128 →
    r.state = .filling → r.unbind = false → r.waiting = [] → s.Unawaited (c, n) →
    (s.farLegal r k = false → Answers (.chunkAbort c n k) s (fun t => t.hbm = s.hbm ∧ t.onchip = s.onchip ∧
      (t.region (c, n)).state = .revoked ∧ (t.region (c, n)).reason = 2 ∧ (t.region (c, n)).lost k = true ∧
      (t.region (c, n)).arrived = r.arrived)) ∧
    (s.farLegal r k = true → s.chunkPoison c r k = true → Answers (.chunkAbort c n k) s (fun t => t.hbm = s.hbm ∧ t.onchip = s.onchip ∧
      (t.region (c, n)).state = .revoked ∧ (t.region (c, n)).reason = 4 ∧ (t.region (c, n)).lost k = true ∧
      (t.region (c, n)).arrived = r.arrived)))

/-! ### The barrier and ticket unit (07) -/

/-- Hardware barriers (07 R211 to R214, R225). BAR and BARA send one arrival for the group, once all its lanes stand there, and release; a level that is
not legal in the launch raises ILLOP, DETAIL 0x20, and one that ends a merge epoch inside a task ILLPISTE; while the phase of an earlier
arrival has not completed it stays HELD. The arrival counts into phase C, BARA's number is that phase, and the last one completes the phase.
BARW, and BAR once it has arrived, wait until their phase has completed and then acquire. -/
def Obligations.HardwareBarriers : Prop :=
  let inTask (s : State) (c : Ctx) (o : OpS) : Prop := (s.recOf c.g).piste = true ∧ barLevel o = spanLevel (s.recOf c.g) ∧
    ∃ b, s.blockOf c.g = some b ∧ b.task ≠ none
  (∀ (i : Instr) (o : OpS) (s : State) (c : Ctx) (kd : Option Nat), (i = .bar o ∧ kd = none) ∨ (i = .bara o ∧ kd = some (dstNum o.d)) →
    Ready s o.g [] [] c → c.g.isPack = false →
    (barLegal (s.recOf c.g) (barLevel o) (barId o) = false → Answers i s (Traps c .illop 0x20)) ∧
    (barLegal (s.recOf c.g) (barLevel o) (barId o) = true → c.sp.prog = none → inTask s c o → Answers i s (Traps c .illpiste 0)) ∧
    (barLegal (s.recOf c.g) (barLevel o) (barId o) = true → ¬inTask s c o → AtSync c → c.sp.prog = none →
      s.stillArrived c.r c.g.lid (barLevel o) (barInst (barLevel o) c.g) (barId o) = true →
      Answers i s (fun t => t = s.modSplit c.r c.e (fun sp => { sp with state := .held, wait := .syncSlot }))) ∧
    (barLegal (s.recOf c.g) (barLevel o) (barId o) = true → ¬inTask s c o → AtSync c → c.sp.prog = none →
      s.stillArrived c.r c.g.lid (barLevel o) (barInst (barLevel o) c.g) (barId o) = false →
      c.sp.state = .ready → c.e < 8 → 8 ≤ c.g.splits.length →
      Answers i s (fun t => t.barMsgs = s.barMsgs ++ [⟨if kd = none then s.nextId else s.nextId + 1, c.g.lid, barLevel o,
          barInst (barLevel o) c.g, barId o, c.r, c.e, kd.map (fun n => ⟨c.r, c.e, n, s.nextId⟩)⟩] ∧
        t.barCount c.g.lid (barLevel o) (barInst (barLevel o) c.g) (barId o) =
          s.barCount c.g.lid (barLevel o) (barInst (barLevel o) c.g) (barId o) ∧
        t.onchip = s.onchip ∧ MetOnly s.ops t.ops ∧ (∀ r, r ≠ c.r → t.group? r = s.group? r) ∧
        ∃ g, t.group? c.r = some g ∧ g.SameRegs (match kd with | some n => c.g.markK n s.nextId | none => c.g) ∧
          ∀ j ∈ c.g.syncers c.e, (∀ x ∈ c.g.syncers c.e, x < j → (c.g.split x).jref ≠ (c.g.split j).jref) →
            (g.split j).state = .blocked ∧ (g.split j).slot = c.sp.slot ∧ (g.split j).prog = some inTransit))) ∧
  (∀ o s c p, Ready s o.g [] [] c → c.g.isPack = false → barLegal (s.recOf c.g) (barLevel o) (barId o) = true →
    c.sp.prog = some p → p < 2 ^ 32 →
    let d := (s.barCount c.g.lid (barLevel o) (barInst (barLevel o) c.g) (barId o) - BitVec.ofNat 32 p).toNat
    (1 ≤ d ∧ d < 2 ^ 31 → Answers (.bar o) s (Updates c [] id (s.acquireObj c.g (barObj (barLevel o) (barId o)) (barLevel o) false))) ∧
    (¬(1 ≤ d ∧ d < 2 ^ 31) → Answers (.bar o) s (Waits c [] none))) ∧
  (∀ o s c, Ready s o.g (srcRds o.a) [] c → c.g.isPack = false →
    let ka := (c.k o.a.kNum).setWidth 32
    let d := (s.barCount c.g.lid (barLevel o) (barInst (barLevel o) c.g) (barId o) - ka).toNat
    (barLegal (s.recOf c.g) (barLevel o) (barId o) = false → Answers (.barw o) s (Traps c .illop 0x20)) ∧
    (barLegal (s.recOf c.g) (barLevel o) (barId o) = true → 1 ≤ d ∧ d < 2 ^ 31 → Answers (.barw o) s
      (Updates c (srcRds o.a) id (s.acquireObj c.g (barObj (barLevel o) (barId o)) (barLevel o) false))) ∧
    (barLegal (s.recOf c.g) (barLevel o) (barId o) = true → ¬(1 ≤ d ∧ d < 2 ^ 31) →
      Answers (.barw o) s (Waits c (srcRds o.a) (some ka.toNat)))) ∧
  (∀ (s : State) (n : Nat) (m : BarMsg) (b : HBar) (g : Group), s.barMsgs.find? (fun m => m.id = n) = some m →
    s.group? m.g = some g → b ∈ s.bars → b.lid = m.lid → b.level = m.level → b.inst = m.inst → b.id = m.bar →
    (∀ x ∈ s.bars, x.lid = b.lid → x.level = b.level → x.inst = b.inst → x.id = b.id → x = b) → s.bars.Nodup → m.g ∉ b.arrived →
    (∀ l, s.launch? m.lid = some l → l.lrec.piste = false) →
    let b' : HBar := { b with arrived := b.arrived ++ [m.g] }
    let s' : State := { s with bars := s.bars.map (fun x => if x = b then b' else x) }
    ((∀ x ∈ s'.bars, x.lid = m.lid → s'.barComplete x = false) → Answers (.barrierArrival n) s (fun t => t.bars = s'.bars ∧
      t.barMsgs = s.barMsgs.filter (fun x => x.id ≠ n) ∧ t.hbm = s.hbm ∧ t.onchip = s.onchip ∧
      ∃ g', t.group? m.g = some g' ∧ g'.vregs = g.vregs ∧ (m.waiter = none → g'.kregs = g.kregs) ∧
        (∀ w, m.waiter = some w → g'.kregs = (g.landK w.kd w.id (b.c.setWidth 64)).kregs) ∧
        ∀ e ∈ g.arriving, e < g.splits.length →
          (m.waiter = none → (g'.split e).prog = some b.c.toNat ∧ (g'.split e).state = (g.split e).state) ∧
          (m.waiter ≠ none → ∃ n, g'.split e = ((g.finish e).readied n g).split e))) ∧
    ((∀ x ∈ s'.bars, x.lid = m.lid → x ≠ b' → s'.barComplete x = false) → s'.barComplete b' = true →
      Answers (.barrierArrival n) s (fun t => t.bars = s.bars.map (fun x => if x = b then { b with c := b.c + 1, arrived := [] } else x) ∧
        t.barMsgs = s.barMsgs.filter (fun x => x.id ≠ n) ∧ t.hbm = s.hbm ∧ t.onchip = s.onchip))) ∧
  (∀ (s : State) (r : GRef) (e : Nat) (g : Group) (cl : Clause) (w : DWord) (p : Nat), s.group? r = some g →
    (g.split e).clause = some cl → cl.slots[(g.split e).slot]? = some w → (g.split e).prog = some p → p < 2 ^ 32 →
    (g.split e).state = .blocked → (g.split e).wait = .retest → bits w.toNat 63 56 = 0xB0 ∨ bits w.toNat 63 56 = 0xB2 →
    g.isRunning = true → (∀ b ∈ s.bars, b.lid = g.lid → s.barComplete b = false) →
    let lv := bits w.toNat 31 29
    let id := bits w.toNat 19 16
    let d := (s.barCount g.lid lv (barInst lv g) id - BitVec.ofNat 32 p).toNat
    (1 ≤ d ∧ d < 2 ^ 31 → Answers (.barrierCompletionNotify r e) s (fun t =>
      t = (s.acquireObj g (barObj lv id) lv false).finishSlot r e)) ∧
    (¬(1 ≤ d ∧ d < 2 ^ 31) → Answers (.barrierCompletionNotify r e) s (fun t => t = s)))

/-- Phase barriers (07 R215 to R219). PHA that finds ARR = EXP is HELD, its release made, until the phase completes, and then counts into
the next one before any later arrival. An expectation past PEND's range raises BAROVF and changes nothing; else it is
added to PEND, and PHA also counts its arrival; a phase whose arrivals and chunks are complete turns P over, which every PHW that
waits at the barrier sees. PHX.init sets EXP of an idle barrier; PHX.read gives the word of R215; PHW waits while P is the
parity and no phase has completed since, and acquires. -/
def Obligations.PhaseBarriers : Prop :=
  let next (p : PhaseBar) : PhaseBar := if p.arr = p.exp ∧ p.pend = 0 then { p with p := !p.p, arr := 0 } else p
  let put (s : State) (c : Ctx) (n : Nat) (x : PhaseBar) : State :=
    s.modBlock c.g.lid c.g.blk (fun b => { b with phase := b.phase.modify n (fun _ => next x) })
  let seen (c : Ctx) (n : Nat) (x : PhaseBar) (t : State) : State :=
    if x.arr = x.exp ∧ x.pend = 0 then t.phwSee c.g.lid c.g.blk n (!x.p) else t
  (∀ (i : Instr) (o : OpS) (s : State) (c : Ctx) (b : Block) (k : Nat) (rds : List Rd),
    (i = .pha o ∧ k = 0 ∧ rds = []) ∨ (i = .phaExpect o ∧ k = (c.u o.a).toNat ∧ rds = srcRds o.a) →
    Ready s o.g rds [] c → s.blockOf c.g = some b →
    let x := b.phase.getD o.imm.toNat (PhaseBar.start 0)
    (c.g.isPack = false → c.g.inHandler c.e = true → Answers i s (Traps c .illop 3)) ∧
    (AtSync c → x.arr ≠ x.exp → (1048575 : Int) < x.pend + k → Answers i s (Traps c .barovf 0)) ∧
    (AtSync c → x.arr = x.exp → c.sp.state = .ready → c.e < 8 → 8 ≤ c.g.splits.length → Answers i s (fun t => OthersKept c t ∧
      ∃ g, t.group? c.r = some g ∧ g.SameRegs (c.read rds) ∧
        ∀ j ∈ c.g.syncers c.e, (∀ y ∈ c.g.syncers c.e, y < j → (c.g.split y).jref ≠ (c.g.split j).jref) →
          (g.split j).state = .held ∧ (g.split j).wait = .phase o.imm.toNat k ∧ (g.split j).slot = c.sp.slot)) ∧
    (AtSync c → x.pend + k ≤ (1048575 : Int) → x.arr ≠ x.exp → s.NoneHeldAt o.imm.toNat →
      let y := { x with pend := x.pend + k, arr := x.arr + 1 }
      Answers i s (fun t => ∃ u, SyncUpdates c rds (put s c o.imm.toNat y) u ∧ t = seen c o.imm.toNat y u))) ∧
  (∀ (o : OpS) (s : State) (c : Ctx) (b : Block), Ready s o.g (srcRds o.a) [] c → c.g.isPack = false → s.blockOf c.g = some b →
    let x := b.phase.getD o.imm.toNat (PhaseBar.start 0)
    let k := (c.u o.a).toNat
    ((1048575 : Int) < x.pend + k → Answers (.phxExpect o) s (Traps c .barovf 0)) ∧
    (x.pend + k ≤ (1048575 : Int) → s.NoneHeldAt o.imm.toNat →
      let y := { x with pend := x.pend + k }
      Answers (.phxExpect o) s (fun t => ∃ u, Updates c (srcRds o.a) id (put s c o.imm.toNat y) u ∧ t = seen c o.imm.toNat y u)) ∧
    (k < 1 ∨ 1024 < k ∨ x.arr ≠ 0 ∨ x.pend ≠ 0 → Answers (.phxInit o) s (Traps c .illop 0x21)) ∧
    (1 ≤ k → k ≤ 1024 → x.arr = 0 → x.pend = 0 → s.NoneHeldAt o.imm.toNat → Answers (.phxInit o) s
      (Updates c (srcRds o.a) id (put s c o.imm.toNat { x with exp := k })))) ∧
  (∀ (o : OpS) (s : State) (c : Ctx) (b : Block) (g : Group) (kb : Nat), Ready s o.g (srcRds o.a) [] c → c.g.isPack = false →
    s.blockOf c.g = some b → o.imm.toNat < b.phase.length →
    let n := o.imm.toNat
    let x := b.phase.getD n (PhaseBar.start 0)
    g ∈ s.groups → (s.groups.map (·.ref)).Nodup → g.ref ≠ c.r → g.lid = c.g.lid → g.blk = c.g.blk → g.isRunning = true →
    g.splits.findSome? (fun sp => sp.phaPosts n) = some kb → (∀ e, 8 ≤ e → (g.split e).phaPosts n = none) →
    (∀ h ∈ s.groups, h ≠ g → ∀ sp ∈ h.splits, sp.phaPosts n = none) →
    x.arr = x.exp → x.pend + (c.u o.a).toNat = 0 → 1 < x.exp → kb ≤ 1048575 →
    Answers (.phxExpect o) s (fun t =>
      (∃ b', t.blockOf c.g = some b' ∧ b'.phase.getD n (PhaseBar.start 0) = { x with p := !x.p, arr := 1, pend := kb }) ∧
      ∃ g', t.group? g.ref = some g' ∧ g'.SameRegs g ∧ ∀ e < 8, ((g.split e).phaPosts n).isSome = true →
        ∃ m, g'.split e = ((g.finish e).readied m g).split e)) ∧
  (∀ (o : OpS) (s : State) (c : Ctx) (b : Block), Ready s o.g [] [] c → c.g.isPack = false → s.blockOf c.g = some b →
    let x := b.phase.getD o.imm.toNat (PhaseBar.start 0)
    Answers (.phxRead o) s (Completes c [] 1 (fun g => g.writeK (dstNum o.d) (BitVec.ofNat 64
      ((if x.p then 2 ^ 63 else 0) + x.arr * 2 ^ 52 + x.exp * 2 ^ 41 + (x.pend % 2 ^ 21).toNat * 2 ^ 20)))) ∧
    let was := c.sp.prog = some (phwWaits o.imm.toNat o.sub.toNat + 1)
    (o.sub.toNat < 2 → (x.p = true ↔ o.sub.toNat = 1) → ¬was →
      Answers (.phw o) s (Waits c [] (some (phwWaits o.imm.toNat o.sub.toNat)))) ∧
    (o.sub.toNat < 2 → ¬(x.p = true ↔ o.sub.toNat = 1) ∨ was →
      Answers (.phw o) s (Updates c [] id (s.acquireObj c.g (0x200000 + o.imm.toNat) 0 true))))

/-- Tickets and timelines (07 R220 to R223). TKG draws NEXT; TKW waits until its place is served, then acquires; TKS sets SERV, releases, and the
value goes to each core of the quad, where it wakes the waits it serves. TLW waits until the timeline has its value, then
acquires, and traps on an index beyond NTL or a batch not closed; TLR reads the value; TLS raises a named timeline and
releases, or changes nothing. A named timeline of a pod-span launch may first have been raised by other packages (04 R94). -/
def Obligations.TicketsAndTimelines : Prop :=
  (∀ (o : OpS) (s : State) (c : Ctx), Ready s o.g [] [] c → c.g.isPack = false →
    let x := s.ticket c.g.lid (s.ticketBlk c.g) o.imm.toNat
    (s.pisteOf c.g = true → Answers (.tkg o) s (Traps c .illpiste 0)) ∧
    (s.pisteOf c.g = false → Answers (.tkg o) s (Updates c [] (fun g => g.writeK (dstNum o.d) (x.next.setWidth 64))
      (s.setTicket { x with next := x.next + 1 })))) ∧
  (∀ (o : OpS) (s : State) (c : Ctx), Ready s o.g (srcRds o.a) [] c → c.g.isPack = false →
    let x := s.ticket c.g.lid (s.ticketBlk c.g) o.imm.toNat
    let ka := (c.k o.a.kNum).setWidth 32
    ((x.seen.getD c.r.core 0 - ka).toNat < 2 ^ 31 → Answers (.tkw o) s
      (Updates c (srcRds o.a) id (s.acquireObj c.g (0x300000 + o.imm.toNat) 1 false))) ∧
    (¬(x.seen.getD c.r.core 0 - ka).toNat < 2 ^ 31 →
      Answers (.tkw o) s (Waits c (srcRds o.a) (some (2 ^ 71 + o.imm.toNat * 2 ^ 32 + ka.toNat))))) ∧
  (∀ (i : Instr) (o : OpS) (s : State) (c : Ctx) (rds : List Rd) (v : Word),
    let x := s.ticket c.g.lid (s.ticketBlk c.g) o.imm.toNat
    (i = .tksSet o ∧ rds = srcRds o.a ∧ v = (c.u o.a).setWidth 32) ∨ (i = .tksInc o ∧ rds = [] ∧ v = x.serv + 1) →
    Ready s o.g rds [] c → AtSync c → Answers i s (fun t => ∃ q, SyncUpdates c rds
      ((c.release s (0x300000 + o.imm.toNat) 1).setTicket { x with serv := v, queue := q }) t ∧
      ∀ k ∈ quadCores (quadOf c.r.core), q.getD k [] = x.queue.getD k [] ++ [v])) ∧
  (∀ (s : State) (lid blk tk core : Nat) (v : Word) (rest : List Word), (s.ticket lid blk tk).queue.getD core [] = v :: rest →
    Answers (.ticketServeBroadcast lid blk tk core) s (fun t =>
      (t.ticket lid blk tk).seen.getD core 0 = v ∧ (t.ticket lid blk tk).queue.getD core [] = rest ∧
      (t.ticket lid blk tk).serv = (s.ticket lid blk tk).serv ∧ (t.ticket lid blk tk).next = (s.ticket lid blk tk).next ∧
      ∀ (g : Group) (e : Nat) (ka : Word), g ∈ s.groups → (s.groups.map (·.ref)).Nodup → g.lid = lid →
        s.ticketBlk g = blk → g.ref.core = core → g.ref.home = false → g.isRunning = true → e < 10 → e < g.splits.length →
        (g.split e).prog = some (2 ^ 71 + tk * 2 ^ 32 + ka.toNat) → (g.split e).state = .blocked ∨ (g.split e).state = .ready →
        (v - ka).toNat < 2 ^ 31 →
        ∃ g' n, t.group? g.ref = some g' ∧ g'.split e = ((g.finish e).readied n g).split e ∧ g'.SameRegs g)) ∧
  (∀ (o : OpS) (s : State) (c : Ctx), Ready s o.g (srcRds o.a) [] c →
    let n := c.u o.a
    let sel := bits o.imm.toNat 15 14
    let ix := bits o.imm.toNat 9 0
    (sel = 0 → (s.recOf c.g).ntl ≤ ix → Answers (.tlw o) s (Traps c .access 0)) ∧
    (sel = 1 → c.g.ctl.closed < n.toNat → Answers (.tlw o) s (Traps c .illop 0x22)) ∧
    (sel = 2 → c.g.mtl.closed < n.toNat → Answers (.tlw o) s (Traps c .illop 0x22)) ∧
    ((sel = 0 ∧ ix < (s.recOf c.g).ntl) ∨ (sel = 1 ∧ n.toNat ≤ c.g.ctl.closed) ∨ (sel = 2 ∧ n.toNat ≤ c.g.mtl.closed) →
      let u := s.tlSync c.g o.imm.toNat
      let v := if sel = 0 then u.named c.g.lid ix else if sel = 1 then c.g.ctl.value else c.g.mtl.value
      (n.toNat ≤ v.toNat → Answers (.tlw o) s (Updates c (srcRds o.a) id (u.tlAcquire c.g o.imm.toNat))) ∧
      (v.toNat < n.toNat → Answers (.tlw o) s (fun t =>
        ∃ y, Waits c (srcRds o.a) (some n.toNat) y ∧ t = { y with launches := u.launches })))) ∧
  (∀ (o : OpS) (s : State) (c : Ctx), Ready s o.g [] [] c →
    (bits o.imm.toNat 15 14 = 0 → (s.recOf c.g).ntl ≤ bits o.imm.toNat 9 0 → Answers (.tlr o) s (Traps c .access 0)) ∧
    (bits o.imm.toNat 15 14 = 0 → bits o.imm.toNat 9 0 < (s.recOf c.g).ntl →
      let u := s.tlSync c.g o.imm.toNat
      Answers (.tlr o) s (Updates c [] (fun g => g.writeK (dstNum o.d) (u.named c.g.lid (bits o.imm.toNat 9 0))) u)) ∧
    (bits o.imm.toNat 15 14 = 1 → Answers (.tlr o) s (Completes c [] 1 (fun g => g.writeK (dstNum o.d) c.g.ctl.value))) ∧
    (bits o.imm.toNat 15 14 = 2 → Answers (.tlr o) s (Completes c [] 1 (fun g => g.writeK (dstNum o.d) c.g.mtl.value)))) ∧
  (∀ (o : OpS) (s : State) (c : Ctx), Ready s o.g (srcRds o.a) [] c → c.g.isPack = false → bits o.imm.toNat 15 14 = 0 →
    let ix := bits o.imm.toNat 9 0
    let n := c.u o.a
    let u := s.tlSync c.g o.imm.toNat
    ((s.recOf c.g).ntl ≤ ix → Answers (.tls o) s (Traps c .access 0)) ∧
    (ix < (s.recOf c.g).ntl → AtSync c → n.toNat ≤ (u.named c.g.lid ix).toNat → Answers (.tls o) s (SyncUpdates c (srcRds o.a) u)) ∧
    (ix < (s.recOf c.g).ntl → AtSync c → (u.named c.g.lid ix).toNat < n.toNat → Answers (.tls o) s (SyncUpdates c (srcRds o.a)
      ((c.release u (0x400000 + ix) (spanLevel (s.recOf c.g))).modLaunch c.g.lid (fun l => { l with
        tls := l.tls.modify ix (fun x => if x.toNat < n.toNat then n else x) }))))) ∧
  (∀ (s : State) (r : GRef) (e : Nat) (g : Group) (cl : Clause) (w : DWord) (n : Nat), s.group? r = some g →
    (g.split e).clause = some cl → cl.slots[(g.split e).slot]? = some w → (g.split e).prog = some n →
    (g.split e).state = .blocked → (g.split e).wait = .retest → bits w.toNat 63 56 = 0xB9 → g.isRunning = true →
    let u := s.tlSync g (bits w.toNat 31 16)
    (n ≤ (u.tlValue g (bits w.toNat 31 16)).toNat → Answers (.timelineSignalArrival r e) s (fun t =>
      t = (u.tlAcquire g (bits w.toNat 31 16)).finishSlot r e)) ∧
    ((u.tlValue g (bits w.toNat 31 16)).toNat < n → Answers (.timelineSignalArrival r e) s (fun t => t = u)))

/-! ### The home engine (12) -/

/-- Combine requests and their instructions (12 R345 to R349, R355, R358). CMB sends one message with a request for each active lane, in increasing lane
order, and empties their reply run; its checks trap before anything is sent, and a full `cmb` stalls it. CMBR is performed once for the pack: it writes the pack's bytes at their home
slices, a line at a time, then sends each request its reply and frees the object for the next pack; without a pack, a second time, or with a run that is not one, it raises
ILLOP, DETAIL 3, once every lane has reached it. OBJR and OBJC write
the first status of their order, and only status 0 changes an object. -/
def Obligations.HomeObjects : Prop :=
  (∀ (i : Instr) (o : OpS) (nt : Option Nat) (s : State) (c : Ctx),
    (i = .cmb o ∧ nt = none) ∨ (i = .cmbNt o ∧ nt = some (o.m.toNat % 8)) →
    let asz := bits o.m.toNat 9 8
    let rsz := bits o.m.toNat 7 6
    let rds := srcRds o.a (runWords asz) ++ [⟨true, o.imm.toNat, false, false⟩]
    let dsts := (List.range (runWords rsz)).map (fun j => dstNum o.d + j)
    let home := (c.k o.imm.toNat).toNat
    let h := s.homeOf c.r.die (s.asidOf c.g) home
    let own := c.g.isPack = true ∧ c.r.home = true ∧ h = (c.r.die, c.r.core)
    let det := s.pisteOf c.g = true ∧ ∃ ob ∈ s.objs, ob.home = home ∧ ob.asid = s.asidOf c.g ∧ ob.comm = false
    Ready s o.g rds dsts c → (c.g.kreg o.imm.toNat).full = true →
    (home % 128 ≠ 0 → Answers i s (Traps c .misalign 0)) ∧
    (home % 128 = 0 → globalVa home = false ∨ own → Answers i s (Traps c .access 0)) ∧
    (home % 128 = 0 → globalVa home = true → ¬own → det → Answers i s (Traps c .illpiste 0)) ∧
    (home % 128 = 0 → globalVa home = true → ¬own → ¬det → c.m = 0 → Answers i s (Completes c rds 1 id)) ∧
    (home % 128 = 0 → globalVa home = true → ¬own → ¬det → c.m ≠ 0 → 65535 ≤ c.g.ctr.cmb → Answers i s (fun t => t =
      s.modSplit c.r c.e (fun sp => { sp with state := .blocked, wait := .room }))) ∧
    (home % 128 = 0 → globalVa home = true → ¬own → ¬det → c.m ≠ 0 → c.g.ctr.cmb < 65535 → Answers i s (fun t => ∃ reqs g,
      t.cmbs = s.cmbs ++ [⟨s.nextId, h.1, h.2, reqs, 0, false⟩] ∧ reqs.map (·.lane) = c.m.toLanes ∧
      (∀ q ∈ reqs, q.home = home ∧ q.asid = s.asidOf c.g ∧ q.g = c.r ∧ q.op = s.nextId ∧ q.dest = dstNum o.d ∧ q.nt = nt ∧
        q.asz = asz ∧ q.rsz = rsz ∧ q.word = BitVec.ofNat 32 (c.r.die * 2 ^ 30 + (if c.r.home then 2 ^ 29 else 0) + c.r.core * 2 ^ 23 +
          c.r.slot * 2 ^ 17 + q.lane * 2 ^ 12) ∧
        q.args = (List.range (runWords asz)).map (fun j => c.v (o.a.vNum + j) q.lane)) ∧
      t.group? c.r = some g ∧ g.vregs = ((c.read rds).emptied s dsts c.m s.nextId).vregs ∧ g.kregs = c.g.kregs ∧
      g.preds = c.g.preds ∧ g.qs = c.g.qs ∧ g.ctr = (c.g.incCtr 3).ctr ∧ g.SplitsAfter c.g (c.g.finish c.e) ∧
      (∀ r, r ≠ c.r → t.group? r = s.group? r) ∧ t.hbm = s.hbm ∧ t.onchip = s.onchip ∧ t.slices = s.slices))) ∧
  (∀ (o : OpS) (s : State) (c : Ctx) (p : Pack),
    let w := runWords p.rsz
    s.packOf c.g = some p → o.a.vNum % w = 0 → o.a.vNum + w ≤ 320 → Ready s o.g (srcRds o.a w) [] c →
    (p.committed = false → c.sp.prog = none → c.g.inHandler c.e = false → c.g.allReached c.e = true → s.groupDrained c.r = true →
      c.g.isResponder = false → c.e < 8 → 8 ≤ c.g.splits.length →
      Answers (.cmbr o) s (fun t => t.hbm = s.hbm ∧ t.onchip = s.onchip ∧ t.replies = s.replies ∧ t.objs = s.objs ∧
        t.packs.find? (fun x => x.id = p.id) = some { p with committed := true } ∧
        ∃ g, t.group? c.r = some g ∧ g.SameRegs (c.read (srcRds o.a w)) ∧
          ∀ j ∈ c.g.syncers c.e, (∀ x ∈ c.g.syncers c.e, x < j → (c.g.split x).jref ≠ (c.g.split j).jref) →
            (g.split j).state = .blocked ∧ (g.split j).slot = c.sp.slot ∧ (g.split j).prog = some 0)) ∧
    (c.sp.prog.isSome = true → p.buf ≠ [] → Answers (.cmbr o) s (fun t =>
      t.hbm = ((bufRuns p.firstLine).foldl (fun (u : State) r => u.homeWrite p.c.die p.asid r.1 r.2) s).hbm ∧ t.onchip = s.onchip ∧
      t.replies = s.replies ∧ t.objs = s.objs ∧
      t.packs.find? (fun x => x.id = p.id) = some { p with buf := p.buf.filter (fun y => !p.firstLine.contains y) } ∧
      t.group? c.r = some (c.g.modSplit c.e (fun sp => { sp with state := .blocked, wait := .retest })))) ∧
    (c.sp.prog.isSome = true → p.buf = [] → Answers (.cmbr o) s (fun t => t.hbm = s.hbm ∧ t.onchip = s.onchip ∧
      (∃ rs : List Reply, t.replies = s.replies ++ rs ∧ rs.map (·.req) = p.reqs ∧ ∀ (j : Nat) (x : Reply), rs[j]? = some x → x.fail = none ∧
        x.slen = p.slen ∧ x.words = (List.range w).map (fun k => c.v (o.a.vNum + k) j)) ∧
      t.packs.find? (fun x => x.id = p.id) = some { p with reqs := [] } ∧
      (p.reqs ≠ [] → ∀ ob, s.obj? p.home = some ob → ob.state ≠ .closing → t.obj? p.home = some { ob with state := .idle }) ∧
      (p.reqs ≠ [] → ∀ ob, s.obj? p.home = some ob → ob.state = .closing → t.obj? p.home = none) ∧
      ((∀ ob, s.obj? p.home = some ob → ob.delBy = []) →
        c.Became (c.read (srcRds o.a w)) ((c.read (srcRds o.a w)).finish c.e) t)))) ∧
  (∀ (o : OpS) (s : State) (c : Ctx), Ready s o.g [] [] c →
    (s.packOf c.g = none ∨ ∃ p, s.packOf c.g = some p ∧
      ((p.committed = true ∧ c.sp.prog = none) ∨ o.a.vNum % runWords p.rsz ≠ 0 ∨ 320 < o.a.vNum + runWords p.rsz)) →
    (c.g.isResponder = true ∨ c.g.inHandler c.e = true ∨ c.g.allReached c.e = true → Answers (.cmbr o) s (Traps c .illop 3)) ∧
    (c.g.isResponder = false → c.g.inHandler c.e = false → c.g.allReached c.e = false → Answers (.cmbr o) s (fun t => t =
      s.modSplit c.r c.e (fun sp => { sp with state := .held, wait := .syncSlot })))) ∧
  (∀ (o : OpS) (s : State) (c : Ctx), Ready s o.g (srcRds o.a) [] c → c.g.isPack = false →
    let ka := (c.k o.a.kNum).toNat
    let asid := s.asidOf c.g
    let u := s.acquireAt c.r.coreRef asid 3 (some [(ka, 32)]) false
    let w (j : Nat) : Nat := (u.homeRead64 c.r.die asid (ka + 8 * j)).toNat
    let r := objRecOf (w 0) (w 1) (w 2) (w 3)
    let m := u.modEnt c.r.die asid r.mdl
    let h := u.homeOf c.r.die asid r.home
    let st (n : Nat) : Prop := Answers (.objr o) s (Updates c (srcRds o.a) (fun g => g.writeK (dstNum o.d) (BitVec.ofNat 64 n)) u)
    let bad := r.wf = false ∨ m.valid = false ∨ m.len ≤ r.method
    let same := ∃ x ∈ s.objs, x.home = r.home
    let clash := ∃ x ∈ s.objs, x.home < r.home + r.slen ∧ r.home < x.home + x.slen
    let full := 64 ≤ (s.objs.filter (fun x => x.die = h.1 && x.slice = h.2)).length
    (ka % 32 ≠ 0 → Answers (.objr o) s (Completes c (srcRds o.a) 1 (fun g => g.writeK (dstNum o.d) 5))) ∧
    (ka % 32 = 0 → s.engineFault c.r.coreRef asid ka 32 false = none →
      (bad → st 2) ∧ (¬bad → same → st 3) ∧ (¬bad → ¬same → clash → st 4) ∧ (¬bad → ¬same → ¬clash → full → st 1) ∧
      (¬bad → ¬same → ¬clash → ¬full → Answers (.objr o) s (fun t => ∃ ob : Obj,
        Updates c (srcRds o.a) (fun g => g.writeK (dstNum o.d) 0) { u with objs := s.objs ++ [ob] } t ∧ (ob.die, ob.slice) = h ∧
        ob.home = r.home ∧ ob.asid = asid ∧ ob.lid = c.g.lid ∧ ob.mdl = r.mdl ∧ ob.method = r.method ∧ ob.asz = r.asz ∧
        ob.rsz = r.rsz ∧ ob.comm = r.comm ∧ ob.slen = r.slen ∧ ob.mbud = r.mbud ∧ ob.recAddr = ka ∧ ob.state = .idle ∧
        ob.packNo = 0)))) ∧
  (∀ (i : Instr) (o : OpS) (s : State) (c : Ctx), i = .objcClr o ∨ i = .objcDel o → Ready s o.g (srcRds o.a) [] c → c.g.isPack = false →
    let ka := (c.k o.a.kNum).toNat
    let st (n : Nat) (u : State) : Prop := Answers i s (Updates c (srcRds o.a) (fun g => g.writeK (dstNum o.d) (BitVec.ofNat 64 n)) u)
    (s.obj? ka = none → st 2 s) ∧
    (∀ ob, s.obj? ka = some ob → ob.lid ≠ c.g.lid → s.privileged c.g = false → st 6 s) ∧
    (∀ ob, s.obj? ka = some ob → ob.lid = c.g.lid ∨ s.privileged c.g = true →
      (i = .objcClr o → ob.state ≠ .poisoned → st 1 s) ∧
      (i = .objcClr o → ob.state = .poisoned → st 0 (s.modObj ka (fun x => { x with state := .idle }))) ∧
      (i = .objcDel o → ob.state ≠ .running → ob.state ≠ .closing → ob.delBy = [] →
        (∀ q ∈ s.queueOf (ob.die, ob.slice), ¬(q.home = ob.home ∧ q.asid = ob.asid)) → Answers i s (fun t =>
          t.objs = s.objs.filter (fun x => x.home ≠ ka) ∧ t.replies = s.replies ∧ t.hbm = s.hbm ∧
          c.Became ((c.read (srcRds o.a)).writeK (dstNum o.d) 0) (((c.read (srcRds o.a)).writeK (dstNum o.d) 0).finish c.e) t)) ∧
      (i = .objcDel o → ob.state = .running ∨ ob.state = .closing → c.e < c.g.splits.length → Answers i s (fun t =>
        (∃ ob' n, t.obj? ka = some ob' ∧ ob'.state = .closing ∧ ob'.delBy = ob.delBy ++ [⟨c.r, c.e, dstNum o.d, n⟩] ∧
          c.Awaits (dstNum o.d) n t) ∧
        (∃ rs : List Reply, t.replies = s.replies ++ rs ∧ rs.map (fun x => (x.req, x.fail)) =
          ((s.queueOf (ob.die, ob.slice)).filter (fun q => q.home = ob.home && q.asid = ob.asid)).map (fun q => (q, some 0x6400))) ∧
        t.hbm = s.hbm))))

/-- The step register and the sweep table (12 R364, R371, R372). GSTP.add changes the master's value, and its split waits until every copy has adopted it;
GSTP.rd reads the master; each copy adopts the changes in order, and a home slice that crosses a multiple of 2^22 sweeps the
registered words homed there: a word whose age has reached 2^22 is brought up to date. GSWP.add registers a region, or writes why not; GSWP.rem removes one.
That a sweep takes one word at each step, and that its slice adopts no further change before it is over, is the model's choice (assumption log 116), and so
is the order in which GSWP.add tests its conditions (log 119). -/
def Obligations.StepRegister : Prop :=
  (∀ (o : OpS) (s : State) (c : Ctx), Ready s o.g (srcRds o.a) [] c → c.g.isPack = false →
    let ka := c.k o.a.kNum
    let x := s.stepReg (s.asidOf c.g)
    (s.pisteOf c.g = true → Answers (.gstpAdd o) s (Traps c .illpiste 0)) ∧
    (s.pisteOf c.g = false → 2 ^ 22 < ka.toNat → Answers (.gstpAdd o) s (Traps c .illop 0x70)) ∧
    (s.pisteOf c.g = false → ka.toNat ≤ 2 ^ 22 → c.e < c.g.splits.length → Answers (.gstpAdd o) s (fun t =>
      (t.stepReg (s.asidOf c.g)).history = x.history ++ [x.history.getLastD 0 + ka.setWidth 32] ∧
      (t.stepReg (s.asidOf c.g)).waiting = x.waiting ++ [(⟨c.r, c.e, dstNum o.d, s.nextId⟩, x.history.length + 1)] ∧
      t.hbm = s.hbm ∧ t.onchip = s.onchip ∧ c.Awaits (dstNum o.d) s.nextId t))) ∧
  (∀ (o : OpS) (s : State) (c : Ctx), Ready s o.g [] [] c → c.g.isPack = false →
    (s.pisteOf c.g = true → Answers (.gstpRd o) s (Traps c .illpiste 0)) ∧
    (s.pisteOf c.g = false → Answers (.gstpRd o) s (Completes c [] 1 (fun g =>
      g.writeK (dstNum o.d) (((s.stepReg (s.asidOf c.g)).history.getLastD 0).setWidth 64))))) ∧
  (∀ (o : OpS) (s : State) (c : Ctx), Ready s o.g (kRds o.a 2) [] c → c.g.isPack = false →
    let x := s.stepReg (s.asidOf c.g)
    let base := (c.k o.a.kNum).toNat
    let len := (c.k (o.a.kNum + 1)).toNat
    let bad := base % 8 ≠ 0 ∨ len % 8 ≠ 0 ∨ len < 8 ∨ 2 ^ 32 < len ∨ 2 ^ 56 < base + len ∨ 2 ^ 56 - 2 ^ 40 < base + len
    let clash := ∃ r ∈ x.sweeps, r.base < base + len ∧ base < r.base + r.len
    let st (n : Nat) (u : State) : Prop :=
      Answers (.gswpAdd o) s (Updates c (kRds o.a 2) (fun g => g.writeK (dstNum o.d) (BitVec.ofNat 64 n)) u)
    (bad → st 2 s) ∧ (¬bad → clash → st 3 s) ∧ (¬bad → ¬clash → 64 ≤ x.sweeps.length → st 1 s) ∧
    (∀ l, s.launch? c.g.lid = some l → ¬bad → ¬clash → x.sweeps.length < 64 →
      st 0 (s.setStepReg { x with sweeps := x.sweeps ++ [⟨base, len, l.ft⟩] }))) ∧
  (∀ (o : OpS) (s : State) (c : Ctx), Ready s o.g (srcRds o.a) [] c → c.g.isPack = false →
    let x := s.stepReg (s.asidOf c.g)
    let base := (c.k o.a.kNum).toNat
    ((∃ r ∈ x.sweeps, r.base = base) → Answers (.gswpRem o) s (Updates c (srcRds o.a) (fun g => g.writeK (dstNum o.d) 0)
      (s.setStepReg { x with sweeps := x.sweeps.filter (fun r => r.base ≠ base) }))) ∧
    ((∀ r ∈ x.sweeps, r.base ≠ base) → Answers (.gswpRem o) s (Completes c (srcRds o.a) 1 (fun g => g.writeK (dstNum o.d) 4)))) ∧
  (∀ (s : State) (asid : Nat) (p : Place), p ∈ allPlaces →
    let x := s.stepReg asid
    let n := x.adopted.getD p 0
    let v := x.history.getD n 0
    x.todo.getD p [] = [] → n < x.history.length → Answers (.stepPropagate asid p) s (fun t =>
      let y := t.stepReg asid
      y.history = x.history ∧ y.adopted = x.adopted.set p (n + 1) ∧ t.onchip = s.onchip ∧ t.hbm = s.hbm ∧
      (∀ a, a ∈ y.todo.getD p [] ↔ v.toNat / 2 ^ 22 ≠ (x.copy p).toNat / 2 ^ 22 ∧ ∃ d j, p = .slice d j ∧ s.homeOf d x.asid a = (d, j) ∧
        ∃ r ∈ x.sweeps, ∃ i < r.len / 8, a = r.base + 8 * i) ∧
      (x.waiting = [] → t.groups = s.groups) ∧
      (∀ w m, x.waiting = [(w, m)] →
        ((∀ q ∈ allPlaces, m < y.adopted.getD q 0 ∨ (m = y.adopted.getD q 0 ∧ y.todo.getD q [] = [])) →
          y.waiting = [] ∧ Answered s w ((x.history.getD (m - 1) 0).setWidth 64) t) ∧
        ((∃ q ∈ allPlaces, y.adopted.getD q 0 < m) → y.waiting = x.waiting ∧ t.groups = s.groups)))) ∧
  (∀ (s : State) (asid : Nat) (p : Place), p ∈ allPlaces →
    let x := s.stepReg asid
    x.todo.getD p [] ≠ [] → Answers (.stepPropagate asid p) s (fun t => ∃ a ∈ x.todo.getD p [],
      let v := (x.copy p).toNat
      (t.stepReg asid).todo.getD p [] = (x.todo.getD p []).filter (· ≠ a) ∧ (t.stepReg asid).adopted = x.adopted ∧
      (t.stepReg asid).history = x.history ∧ t.onchip = s.onchip ∧
      ∀ d j r y, p = .slice d j → x.sweeps.find? (fun r => decide (r.base ≤ a) && decide (a < r.base + r.len)) = some r →
        s.xlate d asid a = .ok y →
        let w := bytesToNat (s.homeRead d asid a 8)
        ((v % 2 ^ 24 + 2 ^ 24 - w / 2 ^ 8 % 2 ^ 24) % 2 ^ 24 < 2 ^ 22 → t.hbm = s.hbm) ∧
        (2 ^ 22 ≤ (v % 2 ^ 24 + 2 ^ 24 - w / 2 ^ 8 % 2 ^ 24) % 2 ^ 24 → t.hbm = (s.homeWrite d asid a
          (natToBytes 8 (decayTo w v r.ft * 2 ^ 32 + v % 2 ^ 24 * 2 ^ 8 + w % 2 ^ 8))).hbm)))

/-- Requests and packs at a home core (12 R350 to R353, R356, R357). A message is accepted whole, its requests queued in order and those that may not run
failed, or refused whole, to be sent again. A pack takes the requests of the object in order, one to a lane. A reply
writes its lane's run and fills it, or marks it failed; a method fault commits nothing, poisons the object and fails the pack's and
the queued requests. The order in which the causes of a refusal are tested is the model's choice (assumption log 24), and so is that a pack takes
the lowest free method slot (log 25). -/
def Obligations.CombineSteps : Prop :=
  let why (s : State) (q : Req) : Option Nat := match s.objs.find? (fun ob => ob.home = q.home && ob.asid = q.asid) with
    | none => some 0x6200
    | some ob => if ob.state = .closing then some 0x6400 else if ob.asz ≠ q.asz ∨ ob.rsz ≠ q.rsz then some 0x6300
        else if ob.state = .poisoned then some 0x6100 else none
  (∀ (s : State) (n : Nat) (m : CmbMsg), s.cmbs.find? (fun m => m.id = n) = some m → m.backoff = false →
    let old := s.queueOf (m.die, m.slice)
    (old.length + m.reqs.length ≤ 512 → Answers (.cmbAccept n) s (fun t => t.cmbs = s.cmbs.filter (fun x => x.id ≠ n) ∧
      t.queueOf (m.die, m.slice) = old ++ m.reqs.filter (fun q => (why s q).isNone) ∧ t.objs = s.objs ∧ t.groups = s.groups ∧
      t.hbm = s.hbm ∧ ∃ rs : List Reply, t.replies = s.replies ++ rs ∧ rs.map (fun x => (x.req, x.fail)) =
        (m.reqs.filter (fun q => (why s q).isSome)).map (fun q => (q, why s q)))) ∧
    (512 < old.length + m.reqs.length → Answers (.cmbAccept n) s (fun t => t.queues = s.queues ∧ t.replies = s.replies ∧
      t.hbm = s.hbm ∧ t.groups = s.groups ∧ t.cmbs = s.cmbs.map (fun x =>
        if x.id = n then { x with refusals := x.refusals + 1, backoff := true } else x)))) ∧
  (∀ (s : State) (n : Nat), Answers (.cmbResend n) s (fun t => t = { s with cmbs := s.cmbs.map (fun x =>
    if x.id = n then { x with backoff := false } else x) })) ∧
  (∀ (s : State) (c : CoreRef) (ob : Obj) (j : Nat), c.home = true → s.held = false → s.partIdx c.die ∉ s.stopped →
    let qs := s.queueOf (c.die, c.core)
    let ref (j : Nat) : GRef := { home := true, die := c.die, core := c.core, slot := j }
    let reqs := (qs.filter (fun q => q.home == ob.home && q.asid == ob.asid)).take 32
    qs.findSome? (fun q => s.objs.find? (fun o => o.home = q.home && o.asid = q.asid && o.state = .idle)) = some ob →
    [6, 7, 14, 15].find? (fun j => (s.group? (ref j)).isNone) = some j → ob.asz < 3 →
    Answers (.packForm c) s (fun t => t.queueOf (c.die, c.core) = qs.filter (fun q => !(reqs.contains q)) ∧
      t.hbm = s.hbm ∧ t.onchip = s.onchip ∧
      (∀ ob0, s.obj? ob.home = some ob0 → t.obj? ob.home = some { ob0 with state := .running, packNo := ob0.packNo + 1 }) ∧
      (∃ pk : Pack, t.packs = s.packs ++ [pk] ∧ pk.reqs = reqs ∧ pk.home = ob.home ∧ pk.g = ref j ∧ pk.buf = [] ∧ pk.committed = false) ∧
      ∃ g : Group, t.groups = s.groups ++ [g] ∧ g.ref = ref j ∧ g.lid = ob.lid ∧ (g.kreg 0).val = BitVec.ofNat 64 ob.home ∧
        (g.kreg 1).val = BitVec.ofNat 64 reqs.length ∧ (g.kreg 2).val = ob.packNo ∧ (g.kreg 3).val = BitVec.ofNat 64 ob.recAddr ∧
        (g.split 0).mask = maskOf (fun l => decide (l < reqs.length)) ∧ g.exited = ~~~(g.split 0).mask ∧
        (g.split 0).hdr = ((s.modEnt c.die ob.asid ob.mdl).base + ob.method) % 2 ^ 56 ∧ (g.split 0).state = .ready ∧
        ∀ (l : Nat) (q : Req), reqs[l]? = some q → (g.vreg 4).lane l = q.word ∧
          ∀ k < runWords ob.asz, (g.vreg k).lane l = q.args.getD k 0)) ∧
  (∀ (s : State) (n : Nat) (r : Reply) (g : Group), s.replies.find? (fun r => r.id = n) = some r → s.group? r.req.g = some g →
    (∀ k < runWords r.req.rsz, s.isMbox g (r.req.dest + k) = false) → r.req.lane < 32 → g.exited.has r.req.lane = false →
    Answers (.replyLand n) s (fun t => t.replies = s.replies.filter (fun x => x.id ≠ n) ∧ t.onchip = s.onchip ∧
      ∃ g', t.group? r.req.g = some g' ∧ g'.kregs = g.kregs ∧ g'.splits = g.splits ∧
        (∀ k < runWords r.req.rsz, (g.vreg (r.req.dest + k)).prod.getD r.req.lane 0 = r.req.op →
          (g'.vreg (r.req.dest + k)).lane r.req.lane = (if r.fail.isSome then 0 else r.words.getD k 0) ∧
          (g'.vreg (r.req.dest + k)).prod.getD r.req.lane 0 = 0 ∧
          (∀ d, r.fail = some d → r.req.nt = none → (g'.vreg (r.req.dest + k)).fails.get? r.req.lane = some (.combfault, d)) ∧
          (r.fail = none ∨ r.req.nt ≠ none → (g'.vreg (r.req.dest + k)).fails = (g.vreg (r.req.dest + k)).fails)) ∧
        (∀ k, k < r.req.dest ∨ r.req.dest + runWords r.req.rsz ≤ k → g'.vreg k = g.vreg k) ∧
        (r.req.nt = none → g'.preds = g.preds) ∧
        (∀ p < 7, r.req.nt = some p → p < g.preds.length → (g'.pred p).has r.req.lane = r.fail.isNone ∧
          ∀ l < 32, l ≠ r.req.lane → (g'.pred p).has l = (g.pred p).has l) ∧
        (({ s with replies := s.replies.filter (fun x => x.id ≠ n) } : State).cmbOpen r.req.g r.req.op = true → g'.ctr = g.ctr) ∧
        (({ s with replies := s.replies.filter (fun x => x.id ≠ n) } : State).cmbOpen r.req.g r.req.op = false →
          g'.ctr = (g.decCtr 3).ctr))) ∧
  (∀ (s : State) (r : GRef) (g : Group) (p : Pack) (ob : Obj) (tr : PendTrap), s.group? r = some g → s.packOf g = some p → p.g = r →
    g.splits.findSome? (fun sp => if sp.state = .free then none else sp.trap) = some tr → p.committed = false →
    s.obj? p.home = some ob → ob.state = .running →
    let nn := if 2 ^ 20 < g.clauses then 0xFF else causeCode tr.cause
    Answers (.methodFault r) s (fun t => t.hbm = s.hbm ∧ t.onchip = s.onchip ∧ t.group? r = none ∧
      (∃ ob', t.obj? p.home = some ob' ∧ ob'.state = .poisoned) ∧
      (∀ q ∈ p.reqs, q.g ≠ r → ∃ x ∈ t.replies, x.req = q ∧ x.fail = some (0x6000 + nn)) ∧
      (∀ q ∈ s.queueOf (ob.die, ob.slice), q.home = ob.home → q.asid = ob.asid → q.g ≠ r →
        ∃ x ∈ t.replies, x.req = q ∧ x.fail = some 0x6100)))

/-! ### The census engine (13) -/

/-- The census instructions (13 R381, R382, R386, R393 to R395). SOL releases, empties the result run in the split's lanes, opens its slot and sends
the solicitation, or raises ILLOP with its DETAIL; SOLW waits while the slot is OPEN; SOLR writes the slot's word; RSP, once every lane of the responder is
there, its checks then made, sends the run of the lanes in which its guard holds; KINS takes the lowest free entry, KDEL deletes one once no open
census holds it, and KDEL.mv sends it off to another block. The precedence of SOL's DETAIL values is the model's choice (assumption log 87), and so
is the order in which KINS and KDEL test their conditions (log 84). -/
def Obligations.CensusInstructions : Prop :=
  (∀ (o : OpS) (s : State) (c : Ctx),
    let w := cenWidth o.sub.toNat
    let dsts := (List.range w).map (fun j => dstNum o.d + j)
    let scope := bits o.m.toNat 9 7
    let rnd := bits o.m.toNat 6 4
    let k (j : Nat) : DWord := c.k (o.a.kNum + j)
    let ctl := (k 3).toNat
    let sl := o.imm.toNat % 4
    let span := (s.recOf c.g).span + 2
    let ordinary := c.g.kind = .ordinary ∧ c.g.inHandler c.e = false
    Ready s o.g (kRds o.a 4) dsts c →
    (c.mode rnd = some .sr → Answers (.sol o) s (Traps c .illop 0x80)) ∧
    (c.mode rnd = none → Answers (.sol o) s (Traps c .illop 0x10)) ∧
    (∀ md, c.mode rnd = some md → md ≠ .sr →
      (span < scope → Answers (.sol o) s (Traps c .illop 0x83)) ∧
      (scope ≤ span → ¬ordinary → Answers (.sol o) s (Traps c .illop 3)) ∧
      (scope ≤ span → ordinary → bits ctl 47 32 ≠ 0 → Answers (.sol o) s (Traps c .illop 0)) ∧
      (scope ≤ span → ordinary → bits ctl 47 32 = 0 → (c.g.census.getD sl default).state ≠ 1 →
        (c.g.census.getD sl default).closing = [] → c.g.ctr.cen = 65535 → Answers (.sol o) s (fun t => t =
          s.modSplit c.r c.e (fun sp => { sp with state := .blocked, wait := .room }))) ∧
      (scope ≤ span → ordinary → bits ctl 47 32 = 0 → sl < c.g.census.length → (c.g.census.getD sl default).state ≠ 1 →
        (c.g.census.getD sl default).closing = [] → c.g.ctr.cen < 65535 → s.groupDrained c.r = true → c.m ≠ 0 → c.m = c.sp.mask →
        Answers (.sol o) s (fun t => t.hbm = (s.releaseAt c.r.coreRef (s.asidOf c.g) scope none).hbm ∧ t.onchip = s.onchip ∧
          (∃ x : Census, t.censuses = s.censuses ++ [x] ∧ x.id = s.nextId ∧ x.g = c.r ∧ x.slot = sl ∧ x.lid = c.g.lid ∧ x.key = k 0 ∧
            x.kmask = k 1 ∧ x.arg = k 2 ∧ x.budget = bits ctl 63 48 ∧ x.entry = bits ctl 31 0 ∧ x.op = o.sub.toNat ∧ x.scope = scope ∧
            x.mode = (if rnd = 0 then bits c.g.sp.rmode.toNat 2 0 else rnd) ∧ x.nt = o.m.getLsbD 3 ∧ x.dest = dstNum o.d ∧
            x.mask = c.sp.mask ∧ x.complete = false ∧ x.pending = s.cenCores c.r.coreRef scope ∧ x.counted = 0 ∧ x.matched = 0 ∧
            x.responded = 0 ∧ x.faulted = 0 ∧ x.msgs = [] ∧ x.foreign = false) ∧
          ∃ g, t.group? c.r = some g ∧ g.ctr = (c.g.incCtr 4).ctr ∧ (g.census.getD sl default).state = 1 ∧
            g.vregs = ((c.read (kRds o.a 4)).emptied s dsts c.sp.mask s.nextId).vregs ∧ g.kregs = c.g.kregs ∧ g.preds = c.g.preds ∧
            g.SplitsAfter c.g (c.g.finish c.e))))) ∧
  (∀ (o : OpS) (s : State) (c : Ctx), Ready s o.g [] [] c →
    let z := c.g.census.getD (o.imm.toNat % 4) default
    (c.g.isResponder = true → Answers (.solw o) s (Traps c .illop 3)) ∧
    (c.g.isResponder = false → z.state = 1 → Answers (.solw o) s (Waits c [] none)) ∧
    (c.g.isResponder = false → z.state = 0 → Answers (.solw o) s (Completes c [] 1 id)) ∧
    (c.g.isResponder = false → z.state = 2 →
      Answers (.solw o) s (Updates c [] id (s.acquireAt c.r.coreRef (s.asidOf c.g) z.scope none false))) ∧
    (Answers (.solr o) s (Completes c [] 1 (fun g => g.writeK (dstNum o.d) (BitVec.ofNat 64 (z.state * 2 ^ 62 +
      (if z.fail then 2 ^ 61 else 0) + (if z.timeout then 2 ^ 60 else 0) + z.matched % 2 ^ 24 * 2 ^ 36 +
      z.responded % 2 ^ 24 * 2 ^ 12 + min z.faulted 4095)))))) ∧
  (∀ (o : OpS) (s : State) (c : Ctx) (n e : Nat) (x : Census) (rds : List Rd),
    c.g.kind = .responder n e false → s.census? n = some x →
    let w := if x.op = 6 then 0 else cenWidth x.op
    let m := c.g.guardMask o.g (~~~c.g.exited)
    let ok := if w = 0 then o.a.unused = true else o.a.isV = true ∧ expRun o.a.vNum w = true
    (rds = if w = 0 ∨ ¬ok then [] else srcRds o.a w) → Ready s o.g rds [] c →
    (¬ok → c.g.inHandler c.e = false → c.g.allReached c.e = true → Answers (.rsp o) s (Traps c .illop 0x82)) ∧
    (c.g.inHandler c.e = true → Answers (.rsp o) s (Traps c .illop 3)) ∧
    (c.g.inHandler c.e = false → c.g.allReached c.e = false → Answers (.rsp o) s (fun t => t =
      s.modSplit c.r c.e (fun sp => { sp with state := .held, wait := .syncSlot }))) ∧
    (ok → c.g.inHandler c.e = false → c.g.allReached c.e = true → s.groupDrained c.r = true → Answers (.rsp o) s (fun t =>
      t.census? n = some { x with msgs := if x.foreign then [] else x.msgs ++ [⟨s.nextId, c.r.coreRef, e, none, false, perLane (fun l =>
        if m.has l then some (if w = 0 then [1] else (List.range w).map (fun j => c.v (o.a.vNum + j) l)) else none)⟩] } ∧
      t.hbm = (s.releaseAt c.r.coreRef (s.asidOf c.g) x.scope none).hbm ∧ t.onchip = s.onchip ∧
      ∃ g, t.group? c.r = some g ∧ g.kind = .responder n e true ∧ g.kregs = c.g.kregs ∧
        g.SplitsAfter c.g (c.g.passSync (c.g.syncers c.e) c.e)))) ∧
  (∀ (o : OpS) (s : State) (c : Ctx), Ready s o.g [] [] c → (∀ n e, c.g.kind ≠ .responder n e false) →
    c.g.inHandler c.e = true ∨ c.g.allReached c.e = true → Answers (.rsp o) s (Traps c .illop 3)) ∧
  (∀ (o : OpS) (s : State) (c : Ctx), Ready s o.g (kRds o.a 2) [] c →
    let loc := (c.k (o.a.kNum + 1)).toNat
    let bad := bits loc 63 57 ≠ 0 ∨ bits loc 47 32 ≠ 0 ∨ bits loc 31 0 % 128 ≠ 0 ∨
      (s.recOf c.g).scratch < bits loc 31 0 + 128 * (bits loc 56 48 + 1)
    let free := (List.range 256).filter (fun e => (s.dir.get? (c.r.coreRef, e)).isNone)
    (c.g.isResponder = true → Answers (.kins o) s (Traps c .illop 3)) ∧
    (c.g.isResponder = false → bad → Answers (.kins o) s (fun t => ∃ v, Completes c (kRds o.a 2) 1 (fun g =>
      g.writeK (dstNum o.d) v) t ∧ v.toNat % 256 = 2 ∧ v.toNat < 2 ^ 16)) ∧
    (c.g.isResponder = false → ¬bad → free = [] → Answers (.kins o) s (fun t => ∃ v, Completes c (kRds o.a 2) 1 (fun g =>
      g.writeK (dstNum o.d) v) t ∧ v.toNat % 256 = 1 ∧ v.toNat < 2 ^ 16)) ∧
    (∀ e rest, c.g.isResponder = false → ¬bad → c.r.home = false → free = e :: rest →
      (s.moves.filter (fun m => m.dst = c.r.coreRef && m.atNode && m.dstDone.isNone)).length ≤ rest.length →
      Answers (.kins o) s (Updates c (kRds o.a 2) (fun g => g.writeK (dstNum o.d) (BitVec.ofNat 64 (e * 2 ^ 8)))
        { s with dir := s.dir.set (c.r.coreRef, e) ⟨c.k o.a.kNum, c.k (o.a.kNum + 1), c.g.lid, c.g.blk, false, [], none⟩ }))) ∧
  (∀ (o : OpS) (s : State) (c : Ctx), Ready s o.g (kRds o.a 1) [] c →
    let a := (c.k o.a.kNum).toNat
    let key := (c.r.coreRef, a)
    (c.g.isResponder = true → Answers (.kdel o) s (Traps c .illop 3)) ∧
    (c.g.isResponder = false → a < 256 → (∀ d, s.dir.get? key = some d → d.leaving = true ∨ d.lid ≠ c.g.lid ∨ d.blk ≠ c.g.blk) →
      Answers (.kdel o) s (Completes c (kRds o.a 1) 1 (fun g => g.writeK (dstNum o.d) (BitVec.ofNat 64 (4 + a * 2 ^ 8))))) ∧
    (∀ d, c.g.kind = .ordinary → a < 256 → s.dir.get? key = some d → d.leaving = false → d.lid = c.g.lid → d.blk = c.g.blk →
      c.e < c.g.splits.length →
      (d.matchedBy = [] → d.waiter = none → (∀ m ∈ s.moves, ¬(m.srcAt = true ∧ m.src = c.r.coreRef ∧ m.ent = a)) → Answers (.kdel o) s (fun t =>
        t.dir = s.dir.erase key ∧ t.hbm = s.hbm ∧ t.onchip = s.onchip ∧ ∃ g, t.group? c.r = some g ∧
          g.SameRegs (c.g.writeK (dstNum o.d) (BitVec.ofNat 64 (a * 2 ^ 8))) ∧ g.SplitsAfter c.g (c.g.finish c.e))) ∧
      (d.matchedBy ≠ [] → Answers (.kdel o) s (fun t =>
        t.dir = s.dir.set key { d with leaving := true, waiter := some (⟨c.r, c.e, dstNum o.d, s.nextId⟩, a * 2 ^ 8) } ∧
        t.hbm = s.hbm ∧ t.onchip = s.onchip ∧ c.Awaits (dstNum o.d) s.nextId t)))) ∧
  (∀ (o : OpS) (s : State) (c : Ctx) (d : DirEnt) (b : Block), Ready s o.g (kRds o.a 2) [] c →
    let a := (c.k o.a.kNum).toNat
    let tw := (c.k (o.a.kNum + 1)).toNat
    let off := bits tw 31 0
    c.g.kind = .ordinary → a < 256 → c.g.ctr.st = 0 → s.groupDrained c.r = true → s.dir.get? (c.r.coreRef, a) = some d →
    d.leaving = false → d.lid = c.g.lid → d.blk = c.g.blk → s.block? c.g.lid (bits tw 63 32) = some b → b.closed = false →
    off % 128 = 0 → off + 128 * (bits d.loc.toNat 56 48 + 1) ≤ (s.recOf c.g).scratch → c.e < c.g.splits.length →
    Answers (.kdelMv o) s (fun t => t.hbm = (s.releaseAt c.r.coreRef (s.asidOf c.g) 3 none).hbm ∧ t.dir = s.dir ∧
      t.onchip = s.onchip ∧
      (∃ m : KMove, t.moves = s.moves ++ [m] ∧ m.id = s.nextId ∧ m.g = c.r ∧ m.entry = c.e ∧ m.kd = dstNum o.d ∧ m.src = c.r.coreRef ∧
        m.dst = ⟨false, b.die, b.core⟩ ∧ m.ent = a ∧ m.key = d.key ∧ bits m.loc.toNat 31 0 = off ∧
        bits m.loc.toNat 63 32 = bits d.loc.toNat 63 32 ∧ m.lid = c.g.lid ∧ m.blk = b.idx ∧ m.atNode = false ∧ m.srcAt = false ∧
        m.srcFree = false ∧ m.dstDone = none) ∧ c.Awaits (dstNum o.d) s.nextId t))

/-- The steps of a census (13 R377, R383 to R385, R389 to R392, R395). A broadcast takes the match set of its core, opens the census there and sends
the count; a matched entry gets its responder; the asker's node and the dies' nodes fold what arrives, and the census completes with
its result, or times out with FAIL (in a pod span the dies of other packages send partials that are free, log 107); a close releases the entries; a move is ordered at its node among broadcasts
and moves, leaves its source and takes the lowest free entry at its destination. That a move without a free entry is refused at its node, where entries are kept for the
moves that have passed it, is the model's choice (assumption log 85). Outside piste mode. -/
def Obligations.CensusSteps : Prop :=
  let fold (x : Census) (a b : List LanePart) : List LanePart := perLane (fun l => match a.getD l none, b.getD l none with
    | none, y => y
    | y, none => y
    | some y, some z => some (cenComb x.op ((rmOf x.mode).getD .rne) y z))
  let lands (s : State) (g : Group) (x : Census) (timeout : Bool) (t : State) : Prop :=
    let fail := timeout = true ∨ 0 < x.faulted
    (∃ y, t.census? x.id = some y ∧ y.complete = true ∧ y.closes = s.covered x) ∧
    ∃ g', t.group? x.g = some g' ∧ g'.ctr = (g.decCtr 4).ctr ∧ g'.kregs = g.kregs ∧ g'.splits = g.splits ∧
      (∃ z, g'.census[x.slot]? = some z ∧ z.state = 2 ∧ (z.fail = true ↔ fail) ∧ z.timeout = timeout ∧ z.matched = x.matched ∧
        z.responded = x.responded ∧ z.faulted = x.faulted ∧ z.closing = (s.covered x).map (fun c => (x.id, c))) ∧
      ∀ j < cenWidth x.op, ∀ l < 32, x.mask.has l = true → (g.vreg (x.dest + j)).prod.getD l 0 = x.prodId →
        (g'.vreg (x.dest + j)).prod.getD l 0 = 0 ∧
        (¬fail ∨ x.nt = true → (g'.vreg (x.dest + j)).lane l = ((x.acc.getD l none).getD (cenIdentity x.op)).getD j 0) ∧
        (fail → x.nt = false → (g'.vreg (x.dest + j)).lane l = 0 ∧
          (g'.vreg (x.dest + j)).fails.get? l = some (.censusfail, if timeout then 0x90 else 0x91))
  (∀ (s : State) (n : Nat) (c : CoreRef) (x : Census), s.census? n = some x → c ∈ x.pending →
    (∀ z ∈ x.after, s.isBefore c z = true) → (∀ k ∈ x.cores, k.c ≠ c) → x.foreign = false →
    let hit (d : DirEnt) : Prop := d.leaving = false ∧ d.lid = x.lid ∧ (d.key ^^^ x.key) &&& x.kmask = 0
    Answers (.censusBroadcastArrive n c) s (fun t => t.hbm = s.hbm ∧ t.onchip = s.onchip ∧ t.groups = s.groups ∧
      (∃ y k m, t.census? n = some y ∧ y.pending = x.pending.filter (· ≠ c) ∧ y.cores = x.cores ++ [k] ∧ k.c = c ∧ k.running = 0 ∧
        k.closeArrived = false ∧ k.spawn.Pairwise (· ≤ ·) ∧ (∀ e, e ∈ k.spawn ↔ ∃ d, ((c, e), d) ∈ s.dir ∧ hit d) ∧
        y.msgs = x.msgs ++ [m] ∧ m.c = c ∧ m.count = some k.spawn.length ∧ m.fault = false) ∧
      ∀ e d, s.dir.get? (c, e) = some d → ∃ d', t.dir.get? (c, e) = some d' ∧ d'.leaving = d.leaving ∧ d'.key = d.key ∧
        (hit d → d'.matchedBy = d.matchedBy ++ [n]) ∧ (¬hit d → d'.matchedBy = d.matchedBy))) ∧
  (∀ (s : State) (c : CoreRef) (x : Census) (e k : Nat) (d : DirEnt) (l : Launch), s.nextSpawn c = some (x, e) →
    s.held = false → s.partIdx c.die ∉ s.stopped → s.dir.get? (c, e) = some d → s.launch? x.lid = some l → s.responderSlot c l.lrec.gregs = some k →
    let ka := l.lrec.kargs
    s.needPages c l.lrec.asid [(ka, if ka = 0 then 0 else 128)] = none →
    let u := s.acquireAt c l.lrec.asid x.scope none true
    Answers (.responderSpawn c) s (fun t => t.onchip = s.onchip ∧ t.hbm = u.hbm ∧ ∃ g : Group, t.groups = s.groups ++ [g] ∧ g.ref = ⟨false, c.die, c.core, k⟩ ∧
      g.kind = .responder x.id e false ∧ g.lid = l.lid ∧ g.blk = d.blk ∧ g.gidx = 16 ∧ (g.kreg 16).val = x.arg ∧
      (∀ j < 16, (g.kreg j).val = if ka = 0 then 0 else u.homeRead64 c.die l.lrec.asid (ka + 8 * j)) ∧
      (∀ j, 17 ≤ j → j < 64 → (g.kreg j).val = 0) ∧ (∀ j < 64, (g.kreg j).full = true) ∧ g.sp.key = d.key ∧
      g.sp.kloc = d.loc ||| BitVec.ofNat 64 (e * 2 ^ 40) ∧ (g.split 0).mask = Mask.all ∧
      (g.split 0).hdr = (l.base + x.entry) % 2 ^ 56 ∧ (g.split 0).state = .ready)) ∧
  (∀ (s : State) (r : GRef) (g : Group) (n e : Nat) (x : Census), s.group? r = some g → g.kind = .responder n e false →
    (∃ sp ∈ g.splits, sp.state ≠ .free ∧ sp.trap ≠ none) → s.census? n = some x → x.complete = false →
    x.foreign = false → Answers (.responderFault r) s (fun t => t.group? r = none ∧ t.hbm = s.hbm ∧
      ∃ y, t.census? n = some y ∧ y.msgs = x.msgs ++ [⟨s.nextId, r.coreRef, e, none, true, noParts⟩])) ∧
  (∀ (s : State) (n r : Nat) (x : Census) (m : CenMsg), s.census? n = some x → x.msgs.find? (fun m => m.id = r) = some m →
    m.c.die ≠ x.g.die → s.cenPiste x = false →
    let p := x.diePart m.c.die
    let p' : DiePart := match m.count with
      | some k => { p with counted := p.counted ++ [m.c.core], count := p.count + k }
      | none => if m.fault then { p with faulted := p.faulted + 1 }
          else { p with responded := p.responded + 1, acc := fold x p.acc m.contrib }
    let whole := p'.counted.length = 48 ∧ p'.responded + p'.faulted = p'.count ∧ p'.sent = false
    Answers (.diePartialFold n r) s (fun t => t.groups = s.groups ∧ t.hbm = s.hbm ∧ ∃ y, t.census? n = some y ∧
      y.msgs = x.msgs.filter (fun z => z.id ≠ r) ∧ (y.diePart m.c.die).acc = p'.acc ∧
      (y.diePart m.c.die).responded = p'.responded ∧ (y.diePart m.c.die).faulted = p'.faulted ∧ (y.diePart m.c.die).count = p'.count ∧
      (¬whole → y.dieMsgs = x.dieMsgs) ∧
      (whole → ∃ d, y.dieMsgs = x.dieMsgs ++ [d] ∧ d.die = m.c.die ∧ d.cores = 48 ∧ d.count = p'.count ∧ d.acc = p'.acc ∧
        d.responded = p'.responded ∧ d.faulted = p'.faulted))) ∧
  (∀ (s : State) (n r : Nat) (x y : Census) (g : Group), s.census? n = some x → x.complete = false → s.cenPiste x = false →
    s.group? x.g = some g → x.slot < g.census.length → (∀ j < cenWidth x.op, s.isMbox g (x.dest + j) = false) →
    (∃ m, x.msgs.find? (fun m => m.id = r && m.c.die = x.g.die) = some m ∧
      y = match m.count with
        | some k => { x with counted := x.counted + 1, matched := x.matched + k, acc := fold x x.acc noParts,
                             msgs := x.msgs.filter (fun z => z.id ≠ r) }
        | none => if m.fault then { x with faulted := x.faulted + 1, acc := fold x x.acc noParts,
                                           msgs := x.msgs.filter (fun z => z.id ≠ r) }
            else { x with responded := x.responded + 1, acc := fold x x.acc m.contrib, msgs := x.msgs.filter (fun z => z.id ≠ r) }) ∨
    (∃ d, (∀ m ∈ x.msgs, ¬(m.id = r ∧ m.c.die = x.g.die)) ∧ x.dieMsgs.find? (fun m => m.id = r) = some d ∧
      y = { x with counted := x.counted + d.cores, matched := x.matched + d.count, responded := x.responded + d.responded,
                   faulted := x.faulted + d.faulted, acc := fold x x.acc d.acc, dieMsgs := x.dieMsgs.filter (fun z => z.id ≠ r) }) ∨
    (∃ k, (∀ m ∈ x.msgs, ¬(m.id = r ∧ m.c.die = x.g.die)) ∧ (∀ m ∈ x.dieMsgs, m.id ≠ r) ∧ s.cenPod x = some k ∧ x.foreign = false ∧
      r % (4 * (k + 1)) / 4 ≠ s.pkg ∧ r % (4 * (k + 1)) ∉ x.far ∧ y = s.farPartial x (r % (4 * (k + 1)))) →
    (s.cenAll y = false → Answers (.censusResponseArrive n r) s (fun t => t.census? n = some y ∧ t.hbm = s.hbm ∧
      ∃ g', t.group? x.g = some g' ∧ g'.SameRegs g ∧ g'.ctr = g.ctr ∧ ∃ z, g'.census[x.slot]? = some z ∧ z.matched = y.matched ∧
        z.responded = y.responded ∧ z.faulted = y.faulted)) ∧
    (s.cenAll y = true → Answers (.censusResponseArrive n r) s (lands s g y false))) ∧
  (∀ (s : State) (n : Nat) (x : Census) (g : Group), s.census? n = some x → x.complete = false → s.cenPiste x = false → x.budget ≠ 0 →
    s.group? x.g = some g → x.slot < g.census.length → (∀ j < cenWidth x.op, s.isMbox g (x.dest + j) = false) →
    Answers (.censusTimeout n) s (lands s g x true)) ∧
  (∀ (s : State) (n : Nat) (c : CoreRef) (x : Census) (k : CenCore), s.census? n = some x → c ∈ x.closes → c ∉ x.pending →
    x.cores.find? (fun k => k.c = c) = some k → k.spawn = [] → k.running = 0 →
    Answers (.censusCloseArrive n c) s (fun t => t.hbm = s.hbm ∧ t.onchip = s.onchip ∧
      (∀ e d, s.dir.get? (c, e) = some d → d.leaving = true → d.matchedBy = [n] → t.dir.get? (c, e) = none) ∧
      (∀ e d, s.dir.get? (c, e) = some d → d.leaving = false → ∃ d', t.dir.get? (c, e) = some d' ∧ d'.leaving = false ∧
        d'.matchedBy = d.matchedBy.filter (· ≠ n) ∧ d'.key = d.key ∧ d'.loc = d.loc) ∧
      (∀ g, s.group? x.g = some g → x.slot < g.census.length → ∃ g' z, t.group? x.g = some g' ∧ g'.census[x.slot]? = some z ∧
        z.closing = (g.census.getD x.slot default).closing.filter (· ≠ (n, c))))) ∧
  (∀ (s : State) (n : Nat) (passed : List Nat) (m : KMove), s.moves.find? (fun m => m.id = n) = some m → m.atNode = false →
    let both (x : Census) : Prop := m.src ∈ s.covered x ∧ m.dst ∈ s.covered x
    (∀ x ∈ s.censuses, both x → x.id ∈ passed ∨ ∀ c ∈ s.underNode m.src m.dst, s.cenAt x c = false) →
    (∀ z ∈ passed, ∃ x ∈ s.censuses, both x ∧ x.id = z) →
    (∀ x ∈ s.censuses, both x → x.id ∈ passed → ∀ y ∈ s.censuses, both y → y.id ∈ x.after → y.id ∈ passed) →
    let mates := s.moves.filter (fun y => y.id != n && y.atNode && s.underNode y.src y.dst == s.underNode m.src m.dst)
    let first := passed ++ (mates.filter (fun y => y.src = m.src || y.src = m.dst || y.dst = m.src || y.dst = m.dst)).map (·.id)
    (∀ x ∈ s.censuses, both x → x.id ∉ passed → ∀ y ∈ mates, x.id ∉ y.before) →
    (∀ f, s.freeDir m.dst (s.reserved m.dst) = some f → Answers (.censusMoveAtNode n passed) s (fun t =>
      t.moves = s.moves.map (fun x => if x.id = n then { x with atNode := true, before := first } else x) ∧
      (∀ x ∈ s.censuses, both x → x.id ∉ passed → ∃ y ∈ t.censuses, y.id = x.id ∧ n ∈ y.after) ∧ t.groups = s.groups ∧
      t.dir = s.dir)) ∧
    (s.freeDir m.dst (s.reserved m.dst) = none → Answers (.censusMoveAtNode n passed) s (fun t =>
      t.moves = s.moves.filter (fun x => x.id ≠ n) ∧ t.dir = s.dir ∧ ∃ v, v.toNat % 256 = 1 ∧ v.toNat < 2 ^ 16 ∧
        Answered s m.toWaiter v t))) ∧
  (∀ (s : State) (n : Nat) (m : KMove), s.moves.find? (fun m => m.id = n) = some m → m.atNode = true →
    (∀ z ∈ m.before, s.isBefore m.dst z = true) → m.dstDone = none →
    ∀ b f, s.block? m.lid m.blk = some b → b.closed = false → s.freeDir m.dst 0 = some f →
      (m.srcFree = false → Answers (.censusMoveAtCore n true) s (fun t =>
        t.dir = s.dir.set (m.dst, f) ⟨m.key, m.loc, m.lid, m.blk, false, [], none⟩ ∧ t.groups = s.groups ∧ t.hbm = s.hbm ∧
        ∃ m', t.moves.find? (fun m => m.id = n) = some m' ∧ m'.dstDone = some f)) ∧
      (m.srcFree = true → Answers (.censusMoveAtCore n true) s (fun t =>
        t.dir = s.dir.set (m.dst, f) ⟨m.key, m.loc, m.lid, m.blk, false, [], none⟩ ∧ t.hbm = s.hbm ∧
        Answered s m.toWaiter (BitVec.ofNat 64 (f * 2 ^ 8)) t))) ∧
  (∀ (s : State) (n : Nat) (m : KMove) (d : DirEnt), s.moves.find? (fun m => m.id = n) = some m → m.atNode = true →
    (∀ z ∈ m.before, s.isBefore m.src z = true) → m.srcAt = false → s.dir.get? (m.src, m.ent) = some d →
    d.key = m.key → d.matchedBy ≠ [] → Answers (.censusMoveAtCore n false) s (fun t => t.groups = s.groups ∧ t.hbm = s.hbm ∧
      t.dir = s.dir.set (m.src, m.ent) { d with leaving := true } ∧
      ∃ m', t.moves.find? (fun m => m.id = n) = some m' ∧ m'.srcAt = true ∧ m'.srcFree = m.srcFree))

/-! ### The launch engine, modules and counters (04, 05) -/

/-- Modules and counters (05 R145, R165 to R168). IPRF fills the caches of its level and of those above that missed on the way with lines of the modules and nothing
else, and drops the others. MODL acquires the whole image; it answers BUSY, BADIMAGE or OVERLAP and installs nothing, or writes the entry {VALID, image + CODEOFF, CODELEN} after the old and
the new code left the instruction caches; MODU answers BUSY or EMPTY, or clears VALID. CNTR reads a counter, CNTC clears one and CNTC.all the core's, in a privileged
group. The number of a cleared SLOTS counter is not stated, because the slot itself counts there. -/
def Obligations.ModulesAndCounters : Prop :=
  (∀ (o : OpS) (s : State) (c : Ctx), Ready s o.g (srcRds o.a) [] c →
    let va := (c.k o.a.kNum).toNat
    let asid := s.asidOf c.g
    Answers (.iprf o) s (fun t => c.Ends (c.read (srcRds o.a)) t ∧
      (∀ r, r ≠ c.r → t.group? r = s.group? r) ∧
      t = { s with groups := t.groups, counters := t.counters, nextId := t.nextId, icL0 := t.icL0, icL1 := t.icL1, icL2 := t.icL2 } ∧
      ((∀ i < o.imm.toNat, 2 ^ 56 ≤ (va / 128 + i) * 128 ∨ s.codeReachable c.r.coreRef asid ((va / 128 + i) * 128) = false) →
        t.icL0 = s.icL0 ∧ t.icL1 = s.icL1 ∧ t.icL2 = s.icL2) ∧
      (o.imm = 1 → va / 128 * 128 < 2 ^ 56 → s.codeReachable c.r.coreRef asid (va / 128 * 128) = true →
        ((icFind (s.icL1.getD c.r.coreRef []) asid va).isNone ∨ 1 < o.sub.toNat →
          (icFind (t.icL2.getD (icQuad c.r.coreRef) []) asid va).isSome) ∧
        (o.sub.toNat ≤ 1 → c.r.home = false → (icFind (t.icL1.getD c.r.coreRef []) asid va).isSome) ∧
        (o.sub = 0 → 0 < l0Lines c.r.coreRef → (icFind (t.icL0.getD (c.r.coreRef, partOf c.r) []) asid va).isSome)))) ∧
  (∀ (o : OpS) (s : State) (c : Ctx), Ready s o.g (srcRds o.a) [] c →
    let idx := o.imm.toNat
    let asid := s.asidOf c.g
    let die := c.r.die
    let img := (c.k o.a.kNum).toNat % 2 ^ 56
    let u0 := s.l1Acquire c.r.coreRef asid (some [(img, 64)])
    let u := u0.l1Acquire c.r.coreRef asid (some [(img, imageLen (u0.imageWords die asid img))])
    let w (i : Nat) : Nat := (u.homeRead64 die asid (img + 8 * i)).toNat
    let image : Prop := w 0 % 2 ^ 32 = 0x4C444F4D ∧ w 0 / 2 ^ 32 = 1 ∧ w 1 % 128 = 0 ∧ 64 ≤ w 1 ∧ w 2 < 2 ^ 32 ∧ w 2 % 8 = 0 ∧
      w 2 ≠ 0 ∧ w 3 = 0 ∧ w 4 = 0 ∧ w 5 = 0 ∧ w 6 = 0 ∧ w 7 = 0
    let base := (img + w 1) % 2 ^ 56
    let old := u.modEnt die asid idx
    let busy : Prop := old.valid = true ∧ ∃ l ∈ s.launches, l.part = s.partIdx die ∧ l.lrec.asid = asid ∧ l.lrec.mdl = idx ∧ l.state ≠ .done
    let meets : Prop := ∃ i < 256, i ≠ idx ∧ (u.modEnt die asid i).valid = true ∧
      base < (u.modEnt die asid i).base + (u.modEnt die asid i).len ∧ (u.modEnt die asid i).base < base + w 2
    let gives (n : Nat) (v : State) : Prop := Answers (.modl o) s (Updates c (srcRds o.a) (fun g =>
      g.writeK (dstNum o.d) (BitVec.ofNat 64 n)) v)
    (255 < idx → Answers (.modl o) s (Traps c .illop 0)) ∧
    (idx ≤ 255 → s.engineFault c.r.coreRef asid img 64 false = none →
      s.engineFault c.r.coreRef 0 (s.modTab.toNat + asid * 0x1000) 4096 true = none →
      (busy → gives 1 u) ∧ (¬busy → ¬image → gives 2 u) ∧ (¬busy → image → meets → gives 3 u) ∧
      (¬busy → image → ¬meets → gives 0 ((((if old.valid then u.icInvalidate asid old.base old.len else u).icInvalidate asid base (w 2)).recordModule
        die asid idx base (w 2)).putModEnt die asid idx ⟨true, base, w 2⟩)))) ∧
  (∀ (o : OpS) (s : State) (c : Ctx), Ready s o.g [] [] c →
    let idx := o.imm.toNat
    let asid := s.asidOf c.g
    let old := s.modEnt c.r.die asid idx
    let busy : Prop := ∃ l ∈ s.launches, l.part = s.partIdx c.r.die ∧ l.lrec.asid = asid ∧ l.lrec.mdl = idx ∧ l.state ≠ .done
    let gives (n : Nat) (v : State) : Prop := Answers (.modu o) s (Updates c [] (fun g =>
      g.writeK (dstNum o.d) (BitVec.ofNat 64 n)) v)
    s.engineFault c.r.coreRef 0 (s.modEntAddr asid idx) 16 true = none →
    (busy → gives 1 s) ∧ (¬busy → old.valid = false → gives 4 s) ∧
    (¬busy → old.valid = true → gives 0 ((s.icInvalidate asid old.base old.len).putModEnt c.r.die asid idx ⟨false, old.base, old.len⟩))) ∧
  (∀ (o : OpS) (s : State) (c : Ctx), Ready s o.g [] [] c →
    (11 ≤ o.imm.toNat / 256 → Answers (.cntr o) s (Traps c .illop 0)) ∧
    (o.imm.toNat / 256 < 11 → openCounter o.imm.toNat = true →
      Answers (.cntr o) s (fun t => ∃ v, Completes c [] 1 (fun g => g.writeK (dstNum o.d) v) t)) ∧
    (o.imm.toNat / 256 < 11 → openCounter o.imm.toNat = false → Answers (.cntr o) s (Completes c [] 1 (fun g =>
      g.writeK (dstNum o.d) (s.counters.getD (s.counterKey c.r.coreRef o.imm.toNat) 0))))) ∧
  (∀ (o : OpS) (s : State) (c : Ctx), Ready s o.g [] [] c →
    let slots : CoreRef × Nat := (c.r.coreRef, 0x101)
    let key := s.counterKey c.r.coreRef o.imm.toNat
    (s.privileged c.g = false → Answers (.cntc o) s (Traps c .access 0) ∧ Answers (.cntcAll o) s (Traps c .access 0)) ∧
    (s.privileged c.g = true → Answers (.cntc o) s (fun t => Completes c [] 1 id t ∧
      (key ≠ slots → t.counters.getD key 0 = 0) ∧
      ∀ k, k ≠ key → k ≠ slots → t.counters.getD k 0 = s.counters.getD k 0)) ∧
    (s.privileged c.g = true → Answers (.cntcAll o) s (fun t => Completes c [] 1 id t ∧
      (∀ n, s.counterKey c.r.coreRef n ≠ slots → t.counters.getD (s.counterKey c.r.coreRef n) 0 = 0) ∧
      ∀ k n, (k, n) ≠ s.counterKey c.r.coreRef n → (k, n) ≠ slots → t.counters.getD (k, n) 0 = s.counters.getD (k, n) 0)))

/-- Task digests (04 R105, R108 to R110). DGST.open opens a task of the wave's sequence with digest 0 and the next header as its restart point; read answers the digest;
record stores it in the table, once the table's page accepts it, and closes the task into LDIG; check compares it with the table: a match closes the task and lifts the hold on the other waves, a first mismatch
discards what the task wrote, holds them and raises DIGEST with `%tpc` at the restart point (while another split's handler runs it only waits there, 05 R133), a second one
ends the launch with END 2. Every other use raises ILLPISTE. -/
def Obligations.TaskDigests : Prop :=
  let owned (r : LaunchRec) (blk t : Nat) : Prop := t < r.ptasks ∧ blk ≤ t ∧ (t - blk) % (r.plcores * r.pwaves) = 0
  let addr (s : State) (c : Ctx) (t : Nat) : Nat := ((s.recOf c.g).pdtab + 8 * t) % 2 ^ 64
  let close (u : State) (c : Ctx) (t : Nat) (d : DWord) : State :=
    (u.modBlock c.g.lid c.g.blk (fun b => { b with task := none, mismatch := false })).modLaunch c.g.lid (fun l =>
      { l with ldig := l.ldig + d.rotateLeft (t % 64) })
  (∀ (o : OpS) (s : State) (c : Ctx) (b : Block), Ready s o.g (srcRds o.a) [] c → s.blockOf c.g = some b →
    let t := (c.k o.a.kNum).toNat
    let ok : Prop := (s.recOf c.g).piste = true ∧ b.task = none ∧ owned (s.recOf c.g) c.g.blk t
    (¬ok → Answers (.dgstOpen o) s (Traps c .illpiste 0)) ∧
    (ok → Answers (.dgstOpen o) s (Updates c (srcRds o.a) id (s.modBlock c.g.lid c.g.blk (fun b =>
      { b with task := some t, dig := 0, restart := c.sp.nextHdr, mismatch := false }))))) ∧
  (∀ (o : OpS) (s : State) (c : Ctx), Ready s o.g [] [] c →
    ((s.recOf c.g).piste = false ∨ (∀ b, s.blockOf c.g = some b → b.task = none) →
      Answers (.dgstRead o) s (Traps c .illpiste 0) ∧ Answers (.dgstRecord o) s (Traps c .illpiste 0) ∧
      Answers (.dgstCheck o) s (Traps c .illpiste 0)) ∧
    (∀ b t, (s.recOf c.g).piste = true → s.blockOf c.g = some b → b.task = some t →
      Answers (.dgstRead o) s (Completes c [] 1 (fun g => g.writeK (dstNum o.d) b.dig)) ∧
      (s.engineFault c.r.coreRef (s.recOf c.g).asid (addr s c t) 8 true = none →
        s.gdMigrates c.r.die (s.recOf c.g).asid (addr s c t) = true → Answers (.dgstRecord o) s (fun t => t =
          s.modSplit c.r c.e (fun sp => { sp with state := .blocked, wait := .retest }))) ∧
      (s.engineFault c.r.coreRef (s.recOf c.g).asid (addr s c t) 8 true = none →
        s.gdMigrates c.r.die (s.recOf c.g).asid (addr s c t) = false → Answers (.dgstRecord o) s
        (Updates c [] id (close (s.homeWrite c.r.die (s.recOf c.g).asid (addr s c t) (natToBytes 8 b.dig.toNat)) c t b.dig))) ∧
      (s.engineFault c.r.coreRef (s.recOf c.g).asid (addr s c t) 8 false = none →
        let same : Prop := s.homeRead64 c.r.die (s.recOf c.g).asid (addr s c t) = b.dig
        (same → Answers (.dgstCheck o) s (Updates c [] id
          (close (if b.mismatch then s.holdWaves c.g.lid c.g.blk false else s) c t b.dig))) ∧
        (¬same → b.mismatch = false → 0 < c.g.depth → c.g.handles c.e = false →
          Answers (.dgstCheck o) s (fun u => u = s.takeTrap c.r c.e .digest 0 b.restart)) ∧
        (¬same → b.mismatch = false → c.g.depth = 0 ∨ c.g.handles c.e = true → Answers (.dgstCheck o) s (fun u => ∃ v : State,
          u = ((v.modGroup c.r (fun g => g.modSplit c.e (fun sp => sp.goto b.restart))).takeTrap c.r c.e .digest 0 b.restart) ∧
          (v.group? c.r) = some c.g ∧ v.hbm = s.hbm ∧ v.onchip = s.onchip ∧
          ∃ b', v.blockOf c.g = some b' ∧ b'.task = some t ∧ b'.dig = 0 ∧ b'.mismatch = true ∧
            b'.merge = b.merge.filter (fun m => m.task ≠ some t) ∧ b'.areds = b.areds.filter (fun m => m.task ≠ some t) ∧
            b'.epochs = b.epochs.map (fun x => { x with
              bytes := x.bytes.filter (fun m => m.task ≠ some t), areds := x.areds.filter (fun m => m.task ≠ some t) }))) ∧
        (∀ l, ¬same → b.mismatch = true → s.launch? c.g.lid = some l → Answers (.dgstCheck o) s (fun u =>
          (∀ g ∈ u.groups, g.lid = c.g.lid → g.isPack = true) ∧
          ∃ l', u.launch? c.g.lid = some l' ∧ l'.endc = 2 ∧ l'.unplaced = [])))))

/-- LNCH and the steward (04 R86, R87, R90 to R95). LNCH releases the record at die scope and answers the first code of R92 that applies, or puts a new
launch, QUEUED, at the end of its queue and answers its LID with CODE 0; a misaligned record raises MISALIGN, a responder or a pack ILLOP, DETAIL 3, a piste
launch ILLPISTE. A launch that the part of another package was refused for completes with END 4. The steward takes the command at HEAD, executes it, writes CSTAT and
raises HEAD; a TAIL above HEAD + 511 gives PERR 1; a page that has been registered is cleared first. -/
def Obligations.LaunchCommands : Prop :=
  let refused (s : State) (pt die : Nat) (r : LaunchRec) (ntl page : Option Nat) (n : Nat) : Prop :=
    let m := s.modEnt die r.asid r.mdl
    let q := s.queueLaunches pt r.queue
    let c1 : Prop := r.wf = false ∨ (∃ d ∈ r.deps, refWf d.1 ntl = false) ∨ refWf r.comp ntl = false ∨
      bindEntries r (s.readBinds die r) = none ∨ (r.span = 2 ∧ (s.podSize < r.podn + 1 ∨ r.podn < s.pkg))
    let c2 : Prop := m.valid = false ∨ m.len ≤ r.entry ∨ (r.hen = true ∧ m.len ≤ r.handler)
    let c3 : Prop := noFit (s.partDies pt) s.pkg r = true
    let c4 : Prop := r.piste = true ∧ (r.persist = false ∨ r.blocks + 1 ≠ r.plcores * r.pwaves ∨ (spanCores (s.partDies pt) r).length < r.plcores)
    let c5 : Prop := 128 ≤ q.length
    let c6 : Prop := (∃ l ∈ q, l.lrec.asid ≠ r.asid) ∨ ∃ p, page = some p ∧ p ≠ r.queue
    (n = 1 ∧ c1) ∨ (n = 2 ∧ ¬c1 ∧ c2) ∨ (n = 3 ∧ ¬c1 ∧ ¬c2 ∧ c3) ∨ (n = 4 ∧ ¬c1 ∧ ¬c2 ∧ ¬c3 ∧ c4) ∨
    (n = 5 ∧ ¬c1 ∧ ¬c2 ∧ ¬c3 ∧ ¬c4 ∧ c5) ∨ (n = 6 ∧ ¬c1 ∧ ¬c2 ∧ ¬c3 ∧ ¬c4 ∧ ¬c5 ∧ c6)
  let queued (s : State) (pt die ka : Nat) (r : LaunchRec) (t : State) : Prop :=
    t.nextLid = s.nextLid + 1 ∧ t.hbm = s.hbm ∧ (∃ l : Launch, t.launches = s.launches ++ [l] ∧ l.lid = s.nextLid ∧ l.part = pt ∧
      l.lrec = r ∧ l.recAddr = ka ∧ l.state = .queued ∧ l.endc = 0 ∧ l.trapped = 0 ∧ l.unplaced = ownBlocks s.pkg r ∧
      l.base = (s.modEnt die r.asid r.mdl).base ∧ l.preempted = false) ∧
    (t.dist pt).queues.getD r.queue [] = (s.dist pt).queues.getD r.queue [] ++ [s.nextLid] ∧
    ∀ q, q ≠ r.queue → (t.dist pt).queues.getD q [] = (s.dist pt).queues.getD q []
  let free (s : State) (asid ka : Nat) : Prop := ∀ n ∈ s.podNews, n.asid = asid → n.recAddr = ka → ∀ m ∈ n.msgs, m.2 = true
  let turned (s : State) (r : LaunchRec) (ka : Nat) : Prop := ∃ p ∈ s.podOthers r, ∃ m,
    (s.news r.asid ka).msgs.find? (fun m => m.1 = p) = some m ∧ m.2 = false
  let ended (s t : State) : Prop := ∃ l ∈ t.launches, l.lid = s.nextLid ∧ l.endc = 4 ∧ l.unplaced = [] ∧ (l.state = .draining ∨ l.state = .done)
  let done (s : State) (pt page : Nat) (p : CmdPage) (n : Nat) (v : DWord) : State :=
    let die := (s.stewardCore pt).die
    ((s.homeWrite die 0 (p.va + 0x80 + 128 * (n % 511) + 0x20) (natToBytes 8 v.toNat)).homeWrite die 0 (p.va + 8)
      (natToBytes 8 (n + 1))).modPage (pt, page) (fun p => { p with cmd := none })
  (∀ (o : OpS) (s : State) (c : Ctx), Ready s o.g (srcRds o.a) [] c →
    let ka := (c.k o.a.kNum).toNat
    let asid := s.asidOf c.g
    let die := c.r.die
    let u := s.releaseAt c.r.coreRef asid 2 (some [(ka, 256)])
    let r := recordOf (u.readWords die asid ka 32)
    let pt := s.partIdx die
    let ntl := some (s.recOf c.g).ntl
    let ordinary : Prop := c.g.isResponder = false ∧ c.g.isPack = false
    (ka % 256 ≠ 0 → Answers (.lnch o) s (Traps c .misalign 0)) ∧
    (ka % 256 = 0 → ¬ordinary → Answers (.lnch o) s (Traps c .illop 3)) ∧
    (ka % 256 = 0 → ordinary → s.pisteOf c.g = true → Answers (.lnch o) s (Traps c .illpiste 0)) ∧
    (ka % 256 = 0 → ordinary → s.pisteOf c.g = false → s.groupDrained c.r = false → Answers (.lnch o) s (fun t => t =
      s.modSplit c.r c.e (fun sp => { sp with state := .blocked, wait := .retest }))) ∧
    (ka % 256 = 0 → ordinary → s.pisteOf c.g = false → s.groupDrained c.r = true →
      u.needPages c.r.coreRef asid [(ka, 256)] = none → u.needPages c.r.coreRef r.asid [(r.bindt, if r.wf then 16 * r.nbind else 0)] = none →
      (∀ n, refused u pt die r ntl none n → Answers (.lnch o) s (fun t => (u.podOthers r = [] → t.podNews = u.podNews) ∧
        Updates c (srcRds o.a) (fun g => g.writeK (dstNum o.d) (BitVec.ofNat 64 n)) { u with podNews := t.podNews } t)) ∧
      (¬(∃ n, refused u pt die r ntl none n) → turned u r ka → Answers (.lnch o) s (ended u)) ∧
      (¬(∃ n, refused u pt die r ntl none n) → free u r.asid ka → Answers (.lnch o) s (fun t => queued u pt die ka r t ∧
        c.Ends ((c.read (srcRds o.a)).writeK (dstNum o.d) (BitVec.ofNat 64 (u.nextLid * 2 ^ 32))) t ∧
        ∀ x, x ≠ c.r → t.group? x = s.group? x)))) ∧
  (∀ (s : State) (pt page : Nat) (p : CmdPage), s.pages.get? (pt, page) = some p → p.clear = true →
    let die := (s.stewardCore pt).die
    s.engineFault (s.stewardCore pt) 0 p.va 8 true = none → Answers (.stewardPoll pt page) s (fun t =>
      t = { (if p.perr = 0 then s.homeWrite die 0 (p.va + 8) (List.replicate 0x78 0)
        else s.homeWrite die 0 (p.va + 0x10) (natToBytes 8 p.perr)) with pages := t.pages } ∧
      t.pages.get? (pt, page) = some { p with clear := false })) ∧
  (∀ (s : State) (pt page : Nat) (p : CmdPage), s.pages.get? (pt, page) = some p → s.stewardRuns pt = true → p.perr = 0 →
    p.cmd = none → p.clear = false → s.engineFault (s.stewardCore pt) 0 p.va 8 true = none →
    let die := (s.stewardCore pt).die
    let tail := (s.homeRead64 die 0 p.va).toNat
    let head := (s.homeRead64 die 0 (p.va + 8)).toNat
    let w (i : Nat) : DWord := s.homeRead64 die 0 (p.va + 0x80 + 128 * (head % 511) + 8 * i)
    (tail ≤ head → Answers (.stewardPoll pt page) s (fun t => t = s)) ∧
    (head + 511 < tail → Answers (.stewardPoll pt page) s (fun t =>
      t.hbm = (s.homeWrite die 0 (p.va + 0x10) (natToBytes 8 1)).hbm ∧
      ∃ p', t.pages.get? (pt, page) = some p' ∧ p'.perr = 1 ∧ p'.cmd = none)) ∧
    (head < tail → tail ≤ head + 511 → Answers (.stewardPoll pt page) s (fun t => t.hbm = s.hbm ∧
      t.pages.get? (pt, page) = some { p with cmd := some ⟨(w 0).toNat, w 1, w 2, w 3, head⟩ }))) ∧
  (∀ (s : State) (pt page : Nat) (p : CmdPage) (c : Command), s.pages.get? (pt, page) = some p → s.stewardRuns pt = true →
    p.cmd = some c → s.engineFault (s.stewardCore pt) 0 p.va 8 true = none →
    let core := s.stewardCore pt
    let die := core.die
    let ka := c.arg0.toNat
    let r := recordOf (s.readWords die 0 ka 32)
    let img := c.arg0.toNat % 2 ^ 56
    let tl := bits c.arg0.toNat 55 0
    let is (i : Instr) (v : DWord) (u : State) : Prop := Answers i s (fun t => t = done u pt page p c.number v)
    (c.op = 1 → ka % 256 ≠ 0 → is (.launch pt page) 1 s) ∧
    (c.op = 1 → ka % 256 = 0 → s.needPages core 0 [(ka, 256)] = none →
      s.needPages core r.asid [(r.bindt, if r.wf then 16 * r.nbind else 0)] = none →
      (∀ n, refused s pt die r none (some page) n → Answers (.launch pt page) s (fun t => (s.podOthers r = [] → t.podNews = s.podNews) ∧
        t = { done (s.count (s.distCore pt) 0 1) pt page p c.number (BitVec.ofNat 64 n) with podNews := t.podNews })) ∧
      (¬(∃ n, refused s pt die r none (some page) n) → turned s r ka → Answers (.launch pt page) s (ended s)) ∧
      (¬(∃ n, refused s pt die r none (some page) n) → free s r.asid ka → Answers (.launch pt page) s (fun t => ∃ u,
        queued s pt die ka r u ∧ u.groups = s.groups ∧
        t = done u pt page p c.number (BitVec.ofNat 64 (s.nextLid * 2 ^ 32))))) ∧
    (c.op = 2 → refKind c.arg0 = 1 → refWf c.arg0 none = true → s.engineFault core 0 tl 8 true = none →
      (s.gdMigrates die 0 tl = true → Answers (.signal pt page) s (fun t => t = s)) ∧
      (s.gdMigrates die 0 tl = false → is (.signal pt page) 0 (if (s.homeRead64 die 0 tl).toNat < c.arg1.toNat then
        (s.homeWrite die 0 tl (natToBytes 8 c.arg1.toNat)).engNote die 0 tl else s))) ∧
    (c.op = 3 → c.arg1.toNat ≤ 255 → s.needPages core 0 [(img, 64), (s.modTab.toNat, 4096)] = none →
      is (.modload pt page) (BitVec.ofNat 64 (s.installModule die 0 c.arg1.toNat img).1) (s.installModule die 0 c.arg1.toNat img).2) ∧
    (c.op = 4 → c.arg1.toNat ≤ 255 →
      is (.modunload pt page) (BitVec.ofNat 64 (s.removeModule die 0 c.arg1.toNat).1) (s.removeModule die 0 c.arg1.toNat).2) ∧
    (c.op = 5 → refKind c.arg0 = 1 → refWf c.arg0 none = true → s.engineFault core 0 tl 8 false = none →
      (c.arg1.toNat ≤ (s.homeRead64 die 0 tl).toNat → is (.wait pt page) 0 s) ∧
      ((s.homeRead64 die 0 tl).toNat < c.arg1.toNat → Answers (.wait pt page) s (fun t => t = s))) ∧
    (c.op = 0 ∨ 5 < c.op → is (.badcmd pt page) 0xFF s))

/-- The states of a launch (04 R94, R96 to R99). The head of a queue becomes READY once its dependences hold and every part of a pod-span launch is accepted; the blocks of the
first offer that has room become resident, their groups waiting for KARGS, and the launch is RUNNING with its last block; a group starts with KARGS in k0 to k15 and zero in k16 to k63; a
refused part completes with END 4, and the answers to it that come later end with it; a quiet DRAINING launch is DONE with its status written and COMP signalled, and its objects and copy contexts are gone.
To which submission of a record an answer belongs is the model's reading (assumption log 141), and so are the slots and the storage that a block takes on its core (assumption log 26). -/
def Obligations.LaunchSteps : Prop :=
  (∀ (s : State) (pt q : Nat) (l : Launch),
    (s.queueLaunches pt q).find? (fun l => l.state = .queued || l.state = .ready) = some l → l.state = .queued →
    let die := (s.distCore pt).die
    let r := l.lrec
    let u := r.deps.foldl (fun (u : State) d => u.refSync l.issuer d.1) s
    let deps : Prop := ∀ d ∈ r.deps, refKind d.1 = 0 ∨ d.2.toNat ≤ (u.refValue (s.distCore l.part).die r.asid l.issuer d.1)
    let parts : Prop := r.span = 2 → ∀ p ≤ r.podn, p = s.pkg ∨ p ∈ l.podAccepted
    (¬(deps ∧ parts) → Answers (.launchReady pt q) s (fun t => t = u)) ∧
    (deps → parts → s.needPages (s.distCore pt) r.asid [(r.bindt, 16 * r.nbind), (r.gft, if r.gft = 0 then 0 else 1024),
        (r.tlinit, if r.tlinit = 0 then 0 else 8 * r.ntl)] = none →
      Answers (.launchReady pt q) s (fun t => t.hbm = s.hbm ∧ t.groups = s.groups ∧
        ∃ l', t.launch? l.lid = some l' ∧ l'.state = .ready ∧ l'.lrec = r ∧ l'.readySeq = (s.dist pt).readyCount ∧
          l'.tls.length = r.ntl ∧ (∀ i < r.ntl, l'.tls[i]? = some (if r.tlinit = 0 then 0 else s.homeRead64 die r.asid (r.tlinit + 8 * i))) ∧
          (∀ bs, bindEntries r (s.readBinds die r) = some bs → l'.bindings = bs)))) ∧
  (∀ (s : State) (asid rec pkg : Nat) (l : Launch), s.podPart asid rec pkg = some l → pkg ∉ (s.news asid rec).stale →
    let c := s.distCore l.part
    Answers (.podPartAcceptMsg asid rec pkg) s (fun t =>
      t = s.modLaunch l.lid (fun l => { l with podAccepted := l.podAccepted ++ [pkg] })) ∧
    ((∀ x ∈ l.doneOuts, s.engineFault c l.lrec.asid x.1 x.2 true = none) → s.outsHeld c.die l.lrec.asid l.doneOuts = false →
      s.launch? l.lid = some l → Answers (.podPartRefusalMsg asid rec pkg) s (fun t =>
        (∃ l', t.launch? l.lid = some l' ∧ l'.state = .done ∧ l'.endc = 4 ∧ l'.unplaced = []) ∧
        ∀ p ∈ s.podOthers l.lrec, p ≠ pkg → p ∉ l.podAccepted → p ∈ (t.news asid rec).stale))) ∧
  (∀ (i : Instr) (ok : Bool) (s : State) (asid rec pkg : Nat),
    (i = .podPartAcceptMsg asid rec pkg ∧ ok = true) ∨ (i = .podPartRefusalMsg asid rec pkg ∧ ok = false) →
    (pkg ∈ (s.news asid rec).stale → Answers i s (fun t => t = { s with podNews := t.podNews } ∧
      (t.news asid rec).stale = (s.news asid rec).stale.erase pkg ∧ (t.news asid rec).msgs = (s.news asid rec).msgs)) ∧
    (pkg ∉ (s.news asid rec).stale → s.podPart asid rec pkg = none → Answers i s (fun t => t = { s with podNews := t.podNews } ∧
      (t.news asid rec).msgs = (s.news asid rec).msgs ++ [(pkg, ok)]))) ∧
  (∀ (s : State) (pt ptr : Nat) (l : Launch) (ps : List BlockPlan) (before after : List Launch), s.held = false → pt ∉ s.stopped →
    s.offers pt = before ++ l :: after → (∀ x ∈ before, s.planFor x = none) → s.planFor l = some (ps, ptr) → l.unplaced ≠ [] →
    s.launch? l.lid = some l → pt < 4 →
    Answers (.blockPlace pt) s (fun t =>
      t.blocks.map (fun b => (b.lid, b.idx, b.die, b.core, b.slots, b.scratchBase, b.tileBase, b.accBase)) =
        s.blocks.map (fun b => (b.lid, b.idx, b.die, b.core, b.slots, b.scratchBase, b.tileBase, b.accBase)) ++
        ps.map (fun p => (l.lid, p.blk, p.at_ / 48, p.at_ % 48, p.slots, p.scr, p.tile, p.acc)) ∧
      (∃ gs : List Group, t.groups = s.groups ++ gs ∧ gs.map (·.ref) = ps.flatMap (fun p => p.slots.map (fun x => ⟨false, p.at_ / 48, p.at_ % 48, x⟩)) ∧
        ∀ g ∈ gs, g.phase = .placed ∧ g.kind = .ordinary ∧ g.lid = l.lid ∧ (g.split 0).mask = Mask.all ∧
          (g.split 0).hdr = (l.base + l.lrec.entry) % 2 ^ 56 ∧ g.sp.rmode = l.lrec.rmode ∧ g.sp.seed = l.lrec.seed) ∧
      ∃ l', t.launch? l.lid = some l' ∧ l'.unplaced = l.unplaced.filter (fun b => !(ps.map (·.blk)).contains b) ∧
        l'.state = (if l'.unplaced = [] then .running else .placing) ∧ (t.dist pt).pointer = ptr)) ∧
  (∀ (s : State) (r : GRef) (g : Group) (l : Launch), s.group? r = some g → s.launch? g.lid = some l → g.phase = .placed →
    let ka := l.lrec.kargs
    s.needPages r.coreRef l.lrec.asid [(ka, if ka = 0 then 0 else 128)] = none →
    Answers (.groupStart r) s (fun t => OthersKept ⟨s, s, g, default, r, 0, 0⟩ t ∧ ∃ g', t.group? r = some g' ∧ g'.phase = .running ∧
      (∀ j < 16, (g'.kreg j).val = (if ka = 0 then 0 else s.homeRead64 r.die l.lrec.asid (ka + 8 * j)) ∧ (g'.kreg j).full = true) ∧
      (∀ j, 16 ≤ j → j < 64 → (g'.kreg j).val = 0 ∧ (g'.kreg j).full = true) ∧ g'.vregs = g.vregs ∧ g'.sp = g.sp ∧
      ∀ e, ∃ n, g'.split e = { g.split e with since := n })) ∧
  (∀ (s : State) (n : Nat) (l : Launch), s.launch? n = some l → l.state = .draining → s.launchQuiet n l.lrec.asid = true →
    let r := l.lrec
    let c := s.distCore l.part
    let e := if l.endc ≠ 0 then l.endc else if 0 < l.trapped then 1 else 0
    let u1 := if r.stata = 0 then s else s.homeWrite c.die r.asid r.stata (natToBytes 8 (l.trapped * 2 ^ 32 + e) ++ natToBytes 8 l.ldig.toNat)
    let u2 := ((s.l1d.map (·.1)).foldl (fun (s : State) k => s.l1Release k r.asid none) u1).modLaunch n (fun l => { l with tls := [] })
    (r.stata ≠ 0 → s.engineFault c r.asid r.stata 16 true = none) →
    (refKind r.comp = 1 → s.engineFault c r.asid (bits r.comp.toNat 55 0) 8 true = none) →
    s.outsHeld c.die r.asid l.doneOuts = false → (∀ y ∈ s.regions, s.Unawaited y.1) →
    Answers (.launchDone n) s (fun t => t.hbm = (u2.refSignal c.die r.asid l.issuer r.comp r.compv).hbm ∧
      t.onchip = (u2.refSignal c.die r.asid l.issuer r.comp r.compv).onchip ∧
      (∃ l', t.launch? n = some l' ∧ l'.state = .done ∧ l'.endc = l.endc ∧ (refKind r.comp ≠ 2 → l'.tls = [])) ∧
      (∀ o ∈ t.objs, o.lid ≠ n) ∧ (∀ k, (t.copyCtx k).owner ≠ some n) ∧ (∀ b ∈ t.bars, b.lid ≠ n) ∧
      ∀ q, n ∉ (t.dist l.part).queues.getD q []))

/-! ### Scheduling and code fetch (02, 04, 05) -/

/-- The scheduler (04 R101, 05 R112, R114, R117, R143, 02 R35, R40). CLAUSE_SCHEDULE ends the waits that are over and selects, unless the clause it is in goes
on, the group of the lowest class, among those the oldest, then the lowest slot, a yielding group last, and of it the oldest ready split. CLAUSE_START fetches the clause of
the selected split, asking for its line and the two after it, takes the trap of a misaligned header (MISALIGN), of a header outside the modules (ACCESS) or of a
failed decode check, arrives at a join, and starts the clause or BLOCKS its split until its wait slots hold. A line that arrives fills the
levels that missed. That a split is as old as the moment it last became ready is the model's reading (assumption log 32). -/
def Obligations.SchedulerAndFetch : Prop :=
  (∀ (s : State) (c : CoreRef) (p : Nat), s.held = false → s.partIdx c.die ∉ s.stopped →
    let u := ((s.resident c p).map (·.ref)).foldl (fun (s : State) r => s.wakeGroup r) s
    let old := s.sched.getD (c, p) default
    let keeps : Prop := ∃ n e g, old.sel = some (n, e) ∧ u.group? ⟨c.home, c.die, c.core, n⟩ = some g ∧
      (g.split e).started = true ∧ u.splitReady g e = true
    (keeps → Answers (.clauseSchedule c p) s (fun t => t = u)) ∧
    (¬keeps → Answers (.clauseSchedule c p) s (fun t => t = { u with sched := t.sched, counters := t.counters } ∧
      ∃ x, t.sched.get? (c, p) = some x ∧
      (x.sel = none → x.yield = old.yield ∧ ∀ g ∈ u.resident c p, ∀ e < 10, u.splitReady g e = false) ∧
      (∀ n e, x.sel = some (n, e) → x.yield = none ∧ ∃ g ∈ u.resident c p, g.ref.slot = n ∧ e < 10 ∧ u.splitReady g e = true ∧
        (∀ i < 10, u.splitReady g i = true → (g.split e).since ≤ (g.split i).since) ∧
        ∀ h ∈ u.resident c p, (∃ i < 10, u.splitReady h i = true) → some h.ref.slot ≠ old.yield → some n ≠ old.yield ∧
          (g.klass < h.klass ∨ (g.klass = h.klass ∧ (g.age < h.age ∨ (g.age = h.age ∧ n ≤ h.ref.slot)))))))) ∧
  (∀ (s : State) (r : GRef) (g : Group) (e : Nat) (cl : Clause), s.group? r = some g → e < 10 → (g.split e).state = .blocked →
    (g.split e).trap = none → (g.split e).wait = .waitSlot → (g.split e).clause = some cl →
    g.depth = 0 ∨ g.suspended ≠ none ∨ 8 ≤ e →
    (waitsHold g cl.hdr = true → ∃ g', (s.wakeGroup r).group? r = some g' ∧ (g'.split e).state = .ready ∧ g'.SameRegs g) ∧
    (waitsHold g cl.hdr = false → ∃ g', (s.wakeGroup r).group? r = some g' ∧ (g'.split e).state = .blocked ∧ g'.SameRegs g)) ∧
  (∀ (s : State) (r : GRef) (g : Group), s.group? r = some g →
    (s.oldestReady g ≠ none → (∀ e, (s.sched.getD (r.coreRef, partOf r) default).sel ≠ some (r.slot, e)) →
      (g.klass ≠ 0 → Answers (.agePromote r) s (fun t =>
        t = (s.modGroup r (fun x => { x with klass := x.klass - 1 })).count r.coreRef 0 6)) ∧
      (g.klass = 0 → Answers (.agePromote r) s (fun t => t = s)))) ∧
  (∀ (s : State) (r : GRef) (g : Group) (e : Nat), s.group? r = some g →
    (s.sched.getD (r.coreRef, partOf r) default).sel = some (r.slot, e) → (g.split e).started = false → s.splitReady g e = true →
    s.held = false → s.partIdx r.die ∉ s.stopped → s.spent g = false →
    let c := r.coreRef
    let p := partOf r
    let asid := s.asidOf g
    let h := (g.split e).hdr
    let same (t : State) : Prop := t.hbm = s.hbm ∧ t.onchip = s.onchip ∧ ∀ x, x ≠ r → t.group? x = s.group? x
    let off (t : State) : Prop := (t.sched.getD (c, p) default).sel = none
    let begins (cl : Clause) (m : Mask) (jr : Nat) (t : State) : Prop := same t ∧ ∃ g', t.group? r = some g' ∧ g'.SameRegs g ∧
      (g'.split e).clause = some cl ∧ (g'.split e).mask = m ∧ (g'.split e).jref = jr ∧ (g'.split e).hdr = h ∧
      (g'.split e).slot = (g.split e).slot ∧
      (waitsHold g cl.hdr = true → (g'.split e).started = true ∧ (g'.split e).state = .ready ∧ g'.klass = (s.recOf g).prio) ∧
      (waitsHold g cl.hdr = false → (g'.split e).started = false ∧ (g'.split e).state = .blocked ∧ (g'.split e).wait = .waitSlot)
    (∀ cl, (g.split e).clause = some cl → Answers (.clauseStart r e) s (begins cl (g.split e).mask (g.split e).jref)) ∧
    ((g.split e).clause = none → h % 8 ≠ 0 → Answers (.clauseStart r e) s (fun t => ∃ u : State, off u ∧ t = u.takeTrap r e .misalign 0 h ∧
      u = { s with sched := u.sched })) ∧
    ((g.split e).clause = none → h % 8 = 0 → s.moduleAt r.die asid h = none → Answers (.clauseStart r e) s (fun t => ∃ u : State,
      off u ∧ t = u.takeTrap r e .access 0 h ∧ u = { s with sched := u.sched })) ∧
    (∀ a, (g.split e).clause = none → h < 2 ^ 56 → h % 8 = 0 → (s.moduleAt r.die asid h).isSome → s.fetchClause c p asid h = .inr a →
      (s.moduleAt r.die asid a).isSome → Answers (.clauseStart r e) s (fun t => same t ∧ off t ∧
        (∃ g', t.group? r = some g' ∧ g'.SameRegs g ∧ (g'.split e).state = .blocked ∧ (g'.split e).wait = .fetch ∧
          (g'.split e).hdr = h ∧ (g'.split e).mask = (g.split e).mask) ∧
        ∃ f ∈ t.ifills, f.c = c ∧ f.p = p ∧ f.asid = asid ∧ f.line = a / 128)) ∧
    (∀ cl, (g.split e).clause = none → h % 8 = 0 → (s.moduleAt r.die asid h).isSome → s.fetchClause c p asid h = .inl cl →
      cl.hdr = (s.l0Word c p asid h).getD 0 ∧ cl.slots.length = bits cl.hdr.toNat 60 57 + 1 ∧
      (∀ ca tpc, clauseFault (s.recOf g) g h cl = some (ca, tpc) → Answers (.clauseStart r e) s (fun t => ∃ u : State,
        off u ∧ t = u.takeTrap r e ca 0 tpc ∧ u = { s with sched := u.sched, ifills := u.ifills, nextId := u.nextId })) ∧
      (clauseFault (s.recOf g) g h cl = none →
        (cl.slots.length ≤ (g.split e).slot → Answers (.clauseStart r e) s (fun t => same t ∧ off t ∧ ∃ g' n, t.group? r = some g' ∧
          g'.splits = ((g.jump e (h + 8 + 8 * cl.slots.length)).readied n g).splits ∧ g'.SameRegs g)) ∧
        ((g.split e).slot < cl.slots.length → bits cl.hdr.toNat 38 38 = 0 ∨ (g.split e).slot ≠ 0 →
          Answers (.clauseStart r e) s (begins cl (g.split e).mask (g.split e).jref)) ∧
        (bits cl.hdr.toNat 38 38 = 1 → (g.split e).slot = 0 →
          ((g.split e).jref = 0x1F → Answers (.clauseStart r e) s (begins cl ((g.split e).mask ||| (g.split e).dorm) 0x1F)) ∧
          (∀ j, g.joins[(g.split e).jref]? = some j → (g.split e).jref ≠ 0x1F → (j.valid = false ∨ j.j ≠ h) →
            Answers (.clauseStart r e) s (begins cl (g.split e).mask (g.split e).jref)) ∧
          (∀ j, g.joins[(g.split e).jref]? = some j → (g.split e).jref ≠ 0x1F → j.valid = true → j.j = h →
            let arr := j.arrived ||| (g.split e).mask ||| (g.split e).dorm
            (j.defer = true → Answers (.clauseStart r e) s (fun t => same t ∧ off t ∧ ∃ g', t.group? r = some g' ∧ g'.SameRegs g ∧
              (g'.split e).mask = j.dmask ∧ (g'.split e).dorm = 0 ∧ (g'.split e).hdr = j.dpc % 2 ^ 56 ∧ (g'.split e).slot = 0 ∧
              g'.joins[(g.split e).jref]? = some { j with arrived := arr, defer := false })) ∧
            (j.defer = false → arr ≠ j.mask → Answers (.clauseStart r e) s (fun t => same t ∧ off t ∧ ∃ g', t.group? r = some g' ∧
              g'.SameRegs g ∧ (g'.split e).state = .free ∧ g'.joins[(g.split e).jref]? = some { j with arrived := arr })) ∧
            (j.defer = false → arr = j.mask → j.outer = 0x1F → Answers (.clauseStart r e) s (fun t => begins cl arr 0x1F t ∧
              ∃ g' j', t.group? r = some g' ∧ g'.joins[(g.split e).jref]? = some j' ∧ j'.valid = false))))))) ∧
  (∀ (s : State) (n : Nat) (f : IFill), s.ifills.find? (fun f => f.id = n) = some f →
    let va := f.line * 128
    (s.rangeFault f.c.die f.asid va 128 false = none → s.poisonAt f.c.die f.asid va 128 = none →
      Answers (.ifetchLineArrival n) s (fun t => t.hbm = s.hbm ∧ t.onchip = s.onchip ∧
        t.ifills = s.ifills.filter (fun x => x.id ≠ n) ∧ (icFind (s.icL1.getD f.c []) f.asid va = none → (icFind (t.icL2.getD (icQuad f.c) []) f.asid va).isSome) ∧
        (f.c.home = false → (icFind (t.icL1.getD f.c []) f.asid va).isSome) ∧
        (∃ l, icFind (t.icL0.getD (f.c, f.p) []) f.asid va = some l ∧
          (icFind (s.icL0.getD (f.c, f.p) []) f.asid va = none → icFind (s.icL1.getD f.c []) f.asid va = none →
            icFind (s.icL2.getD (icQuad f.c) []) f.asid va = none →
            l.words ∈ s.codeHist.getD (s.codeKey f.c.die f.asid va) [] ∨ ∀ i < 16, l.words[i]? = some (s.homeRead64 f.c.die f.asid (va + 8 * i)))) ∧
        ∀ r e, (r, e) ∈ s.lineWaiters f → ∃ g', t.group? r = some g' ∧ (g'.split e).state = .ready)) ∧
    (s.rangeFault f.c.die f.asid va 128 false ≠ none → Answers (.ifetchLineArrival n) s (fun t => t.groups = s.groups ∧
      t.icL0 = s.icL0 ∧ t.icL1 = s.icL1 ∧ t.icL2 = s.icL2)))

/-! ### Translation, migration and errors (14) -/

/-- Translation, migration and errors in memory (14 R405 to R409, R413 to R420). MIGR, in a privileged group, answers BADPAGE or BUSY or locks the page, its split waiting; the
switch copies the page with its poison, rewrites the leaf, drops the page's translations and performs the held writes, then answers OK. A walk keeps its leaf. Corrected errors are counted by row region, and
the fourth within 8,192 refresh intervals writes a KIND 9 record; an uncorrectable error poisons the sectors of its codeword, and poison that meets an access is escalated
without landing anything. A deadline request that has run out is overdue in its place. A flit resent 16 times takes its port down. That an address with VA[63:56] not zero
gives BADPAGE is the model's choice (assumption log 101), and so is that a codeword's error poisons both of its sectors (log 98). -/
def Obligations.TranslationAndErrors : Prop :=
  (∀ (o : OpS) (s : State) (c : Ctx), Ready s o.g (kRds o.a 2) [] c →
    let a := (c.k o.a.kNum).toNat
    let dst := (c.k (o.a.kNum + 1)).toNat
    let asid := bits dst 63 52
    let pa := bits dst 51 0
    let die := c.r.die
    let gives (n : Nat) : Prop := Answers (.migr o) s (Completes c (kRds o.a 2) 1 (fun g => g.writeK (dstNum o.d) (BitVec.ofNat 64 n)))
    (s.privileged c.g = false → Answers (.migr o) s (Traps c .access 0)) ∧
    (s.privileged c.g = true → (∀ x ∈ (s.walkAll die asid a).2, s.physKey die x / 16 * 16 ∉ s.poison) →
      (2 ^ 56 ≤ a → gives 2) ∧ (∀ k w l, a < 2 ^ 56 → (s.walkAll die asid a).1 = .fault k w l → gives 2) ∧
      (∀ l lv, a < 2 ^ 56 → (s.walkAll die asid a).1 = .leaf l lv →
        let size := levelSize lv
        let old := s.physKey die (leafPa l)
        let new := s.physKey die pa
        let bad : Prop := leafSec l = true ∨ leafOwn l = 3 ∨ lv = 2 ∨ pa % size ≠ 0 ∨ bits pa 51 44 ≠ s.pkg ∨
          s.outside die (pa + size - 1) = true ∨ s.outside die pa = true ∨ new = old
        let open' := s.migrs.filter (fun m => s.partIdx m.g.die = s.partIdx die)
        let busy : Prop := 4 ≤ open'.length ∨ ∃ m ∈ s.migrs, m.old = old
        (bad → gives 2) ∧ (¬bad → busy → gives 1) ∧
        (¬bad → ¬busy → Answers (.migr o) s (fun t => (∃ m : Migr, t.migrs = s.migrs ++ [m] ∧ m.toWaiter = { id := s.nextId, g := c.r, entry := c.e, kd := dstNum o.d } ∧
          m.asid = asid ∧ m.va = a / size * size ∧ m.size = size ∧ m.old = old ∧ m.new = new ∧ m.leaf = l ∧ m.held = []) ∧
          t.hbm = s.hbm ∧ (c.e < c.g.splits.length → c.Awaits (dstNum o.d) s.nextId t)))))) ∧
  (∀ (s : State) (n : Nat) (m : Migr) (g : Group), s.migrs.find? (fun m => m.id = n) = some m → s.group? m.g = some g → s.Inv →
    (m.old + m.size ≤ m.new ∨ m.new + m.size ≤ m.old) → (m.leafAt + 8 ≤ m.new ∨ m.new + m.size ≤ m.leafAt) →
    Answers (.migrSwitch n) s (fun t => ∃ v : State,
      (∀ i < m.size, memGet v.hbm (m.new + i) = memGet s.hbm (m.old + i)) ∧
      memRead64 v.hbm m.leafAt = BitVec.ofNat 64 (bits m.leaf.toNat 63 52 * 2 ^ 52 + bits (m.new - s.localBase m.g.die) 51 16 * 2 ^ 16 + bits m.leaf.toNat 15 0) ∧
      (∀ a, (a < m.new ∨ m.new + m.size ≤ a) → (a < m.leafAt ∨ m.leafAt + 8 ≤ a) → memGet v.hbm a = memGet s.hbm a) ∧
      (∀ i < m.size, (m.new + i ∈ v.poison ↔ m.old + i ∈ s.poison)) ∧
      t.hbm = (m.held.foldl (fun (u : State) h => u.hbmWrite (m.new + h.off) h.bytes) v).hbm ∧
      t.migrs = s.migrs.filter (fun x => x.id ≠ n) ∧ t.onchip = s.onchip ∧
      (∀ x ∈ t.tlb, (s.partDies (s.partIdx m.g.die)).contains (x.1 / 2) = true → ∀ y ∈ x.2, y.asid = m.asid →
        y.base + levelSize y.level ≤ m.va ∨ m.va + m.size ≤ y.base) ∧
      Answered s m.toWaiter 0 t)) ∧
  (∀ (s : State) (ctl asid va : Nat), ctlOf (s.homeOf (ctl / 2) asid va) = ctl → tlbFind (s.tlb.getD ctl []) asid va = none →
    globalVa va = true → asid < 4096 → (∀ x ∈ (s.walkAll (ctl / 2) asid va).2, s.physKey (ctl / 2) x / 16 * 16 ∉ s.poison) →
    (∀ k w l, (s.walkAll (ctl / 2) asid va).1 = .fault k w l → Answers (.pageWalk ctl asid va) s (fun t => t = s)) ∧
    (∀ l lv, (s.walkAll (ctl / 2) asid va).1 = .leaf l lv → Answers (.pageWalk ctl asid va) s (fun t =>
      t = { s with tlb := t.tlb, remap := t.remap } ∧ (leafSec l = false → t.remap = s.remap) ∧
      (∃ kept, t.tlb.getD ctl [] = ⟨asid, va / levelSize lv * levelSize lv, lv, l⟩ :: kept ∧
        ((s.tlb.getD ctl []).length < 2048 → kept = s.tlb.getD ctl []) ∧
        (2048 ≤ (s.tlb.getD ctl []).length → ∃ i < (s.tlb.getD ctl []).length, kept = (s.tlb.getD ctl []).eraseIdx i)) ∧
      ∀ k, k ≠ ctl → t.tlb.getD k [] = s.tlb.getD k []))) ∧
  (∀ (s : State) (n : Nat) (d : DlReq), s.dls.find? (fun d => d.id = n) = some d →
    (d.overdue = true ∨ s.dlHere d = false → Answers (.deadlineExpiry n) s (fun t => t = s)) ∧
    (d.overdue = false → s.dlHere d = true → Answers (.deadlineExpiry n) s (fun t => t = { s with
      dls := s.dls.map (fun x => if x.id = n then { x with overdue := true } else x), counters := t.counters }))) ∧
  (∀ (s : State) (ctl region : Nat),
    let e := s.ecc.getD ctl ⟨0, [], []⟩
    let old := e.rows.find? (fun r => r.1 = region)
    let n := match old with | some r => if 8192 ≤ e.i - r.2.2 then 1 else r.2.1 + 1 | none => 1
    let first := match old with | some r => if 8192 ≤ e.i - r.2.2 then e.i else r.2.2 | none => e.i
    let used := e.spares.getD (bankOf region) 0
    (n ≠ 4 → Answers (.correctedError ctl region) s (fun t => t = { s with ecc := t.ecc, counters := t.counters } ∧
      (t.ecc.getD ctl ⟨0, [], []⟩).rows.find? (fun r => r.1 = region) = some (region, n, first) ∧
      (t.ecc.getD ctl ⟨0, [], []⟩).spares = e.spares)) ∧
    (n = 4 → s.fqRoom = true → Answers (.correctedError ctl region) s (fun t => t.groups = s.groups ∧
      (∃ (src : Nat) (v : State), src < 64 ∧ v = { s with ecc := v.ecc, boot := v.boot, counters := v.counters } ∧
        t.hbm = (v.fqPut (Config.regionPa ctl region % 2 ^ 56) (9 * 2 ^ 48 + 3 * 2 ^ 30 + (ctl / 2 * 2 ^ 6 + src)) 0
          (if used < 8 then 0 else 2 ^ 4)).hbm) ∧
      t.boot.spares.get? ctl = some (t.ecc.getD ctl ⟨0, [], []⟩).spares ∧
      (t.ecc.getD ctl ⟨0, [], []⟩).spares.getD (bankOf region) 0 = (if used < 8 then used + 1 else used)))) ∧
  (∀ (s : State) (ctl : Nat), Answers (.refreshInterval ctl) s (fun t => t = { s with ecc := t.ecc } ∧
    (t.ecc.getD ctl ⟨0, [], []⟩).i = (s.ecc.getD ctl ⟨0, [], []⟩).i + 1 ∧
    (t.ecc.getD ctl ⟨0, [], []⟩).rows = (s.ecc.getD ctl ⟨0, [], []⟩).rows)) ∧
  (∀ (s : State) (pa : Nat), Answers (.uncorrectableError (.memory pa)) s (fun t => t = { s with poison := t.poison } ∧
    ∀ a, a ∈ t.poison ↔ a ∈ s.poison ∨ a = pa / 32 * 32 ∨ a = pa / 32 * 32 + 16)) ∧
  (∀ (s : State) (die n asid va : Nat) (l : Line), findLine (s.sliceLines (die, n)) asid va = some l → l.dirty ≠ [] →
    Answers (.uncorrectableError (.slice die n asid va)) s (fun t => t = { s with slices := t.slices } ∧
      ∃ l', findLine (t.sliceLines (die, n)) asid va = some l' ∧ va % 128 / 16 ∈ l'.poison ∧ l'.dirty = l.dirty)) ∧
  (∀ (s : State) (n : Nat) (o : MemOp) (l : LaneAcc) (own pa : Nat) (dirty : Bool), s.op? n = some o → o.holds = false →
    o.lanes.findSome? (fun l => if l.status = .accepted then (s.lanePoison o l).map (fun x => (l, x)) else none) = some (l, own, dirty, pa) →
    let lv := match own with | 0 => if dirty then 1 else 0 | 1 => 1 | 2 => 2 | _ => if dirty then 3 else 2
    (s.fqRoom = false → Answers (.poisonConsume n) s (fun t => t = s)) ∧
    (s.fqRoom = true → Answers (.poisonConsume n) s (fun t =>
      (∀ g, lv = 0 → s.group? o.g = some g → t.op? n = none ∧ ∃ g', t.group? o.g = some g' ∧ g'.uncorr = true ∧ g'.SameRegs g) ∧
      (lv = 2 → t.regs.pfail = true ∧ s.partIdx o.g.die ∈ t.stopped) ∧
      (lv = 3 → t.regs.pfail = true ∧ (∀ p < s.parts.length, p ∈ t.stopped) ∧
        ∀ p < 16, (t.kports.getD p ⟨false, 0⟩).down = true)))) ∧
  (∀ (s : State) (port : Nat), port < 16 → (s.kports.getD port ⟨false, 0⟩).down = false →
    Answers (.korilinkCrcResend port) s (fun t => t = { s with kports := t.kports, counters := t.counters } ∧
      ∃ k, t.kports.get? port = some k ∧ (k.resends = 1 ∨ k.resends = (s.kports.getD port ⟨false, 0⟩).resends + 1) ∧
        (k.down = true ↔ 16 ≤ k.resends)))

/-! ### Port collectives and the host attachment (14) -/

/-- Port collectives (14 R424 to R428). PCOL raises ILLOP with its DETAIL, ILLPISTE for `.nowait` in a piste launch, or is performed once for the group: kd takes MISALIGNED, or, after a release over the
bucket, BADREC, BUSY or 0, and only 0 opens a collective. Members that differ complete with STATUS 1; otherwise the contribution is read once WAIT holds, sector by sector, and the
ring begins with the whole of it. The last step of a segment adds this member's words to what came round the ring, under the collective's type; the results are
written sector by sector at the home slices, not to pages that migrate, STATA and COMP after the last of them, and an expired budget completes with STATUS 2. That DETAIL
0x10 is tested before ILLPISTE, and that before DETAIL 0x30, is the model's choice (assumption log 135); so are that STATA and COMP are written only where their pages
accept them (log 103), and that a MISALIGNED collective is performed once and releases nothing (log 104). -/
def Obligations.PortCollectives : Prop :=
  (∀ (i : Instr) (nw : Bool) (o : OpS) (s : State) (c : Ctx), (i = .pcol o ∧ nw = false) ∨ (i = .pcolNowait o ∧ nw = true) →
    Ready s o.g (kRds o.a 1) [] c →
    let ka := (c.k o.a.kNum).toNat
    let core := c.r.coreRef
    let asid := s.asidOf c.g
    let ws := s.readWords core.die asid ka 16
    let w (i : Nat) : Nat := (ws.getD i 0).toNat
    let p := bits (w 2) 39 32 + 1
    let ms := (s.homeRead core.die asid (w 3) p).map BitVec.toNat
    let off := c.g.sp.caoff.toNat
    let ordinary : Prop := c.g.isResponder = false ∧ c.g.isPack = false ∧ c.g.inHandler c.e = false
    let mode7 : Prop := bits c.g.sp.rmode.toNat 2 0 = 7
    let piste : Prop := nw = true ∧ s.pisteOf c.g = true
    let u := s.releaseAt core asid 2 (some (bucketRanges (w 1) (bits (w 2) 31 0) (bits (w 0) 53 51) c.g.sp.caoff))
    let does (n : Nat) (v : State) (t : State) : Prop :=
      c.Became ((c.read (kRds o.a 1)).writeK (dstNum o.d) (BitVec.ofNat 64 n))
        (((c.read (kRds o.a 1)).writeK (dstNum o.d) (BitVec.ofNat 64 n)).passSync (c.g.syncers c.e) c.e) t ∧
      (∀ r, r ≠ c.r → t.group? r = s.group? r) ∧ t = { v with groups := t.groups, counters := t.counters, cols := t.cols, nextId := t.nextId }
    let mine := s.cols.filter (fun x => x.part = s.partIdx core.die)
    let busy : Prop := 16 ≤ mine.length ∨ ∃ x ∈ mine, x.colid = bits (w 0) 31 0
    let pair : Prop := bits (w 0) 53 51 = 2
    (¬ordinary → Answers i s (Traps c .illop 3)) ∧
    (ordinary → mode7 → Answers i s (Traps c .illop 0x10)) ∧
    (ordinary → ¬mode7 → piste → Answers i s (Traps c .illpiste 0)) ∧
    (ordinary → ¬mode7 → ¬piste → ka % 128 ≠ 0 → AtSync c → Answers i s (fun t => does 3 s t ∧ t.cols = s.cols)) ∧
    (ordinary → ¬mode7 → ¬piste → ka % 128 = 0 → s.needPages core asid [(ka, 128)] = none →
      (pair → off = 0 ∨ off % 2 ^ 32 ≠ 0 → Answers i s (Traps c .illop 0x30)) ∧
      (¬(pair ∧ (off = 0 ∨ off % 2 ^ 32 ≠ 0)) → s.needPages core asid [(w 3, p)] = none → AtSync c →
        (colBad ws ms s.pkg (s.recOf c.g).ntl = true → Answers i s (fun t => does 1 u t ∧ t.cols = s.cols)) ∧
        (colBad ws ms s.pkg (s.recOf c.g).ntl = false → busy → Answers i s (fun t => does 2 u t ∧ t.cols = s.cols)) ∧
        (colBad ws ms s.pkg (s.recOf c.g).ntl = false → ¬busy → Answers i s (fun t => does 0 u t ∧
          ∃ x : Collective, t.cols = s.cols ++ [x] ∧ x.lid = c.g.lid ∧ x.core = core ∧ x.op = bits (w 0) 55 54 ∧
            x.dtype = bits (w 0) 53 51 ∧ x.dl = (bits (w 0) 50 50 == 1) ∧ x.colid = bits (w 0) 31 0 ∧ x.bucket = w 1 ∧
            x.count = bits (w 2) 31 0 ∧ x.members = ms ∧ x.wait = ws.getD 4 0 ∧ x.waitv = ws.getD 5 0 ∧ x.comp = ws.getD 6 0 ∧
            x.compv = ws.getD 7 0 ∧ x.stata = w 8 ∧ x.srseed = ws.getD 9 0 ∧ x.budget = bits (w 10) 63 48 ∧ x.nowait = nw ∧
            x.caoff = c.g.sp.caoff ∧ x.rmode = c.g.sp.rmode ∧ x.state = .waiting))))) ∧
  (∀ (s : State) (n : Nat) (c : Collective), s.col? n = some c →
    let die := c.core.die
    let w := s.refSync c.lid c.wait
    let q := (c.members.findIdx? (fun m => m = s.pkg)).getD 0
    let p := c.members.length
    let seg := c.count / p
    let ends (v : Nat) (u : State) (t : State) : Prop :=
      let u1 := if c.stata ≠ 0 ∧ u.rangeFault die c.asid c.stata 8 true = none then u.homeWrite die c.asid c.stata (natToBytes 8 v) else u
      let u2 := if refKind c.comp ≠ 1 ∨ u.rangeFault die c.asid (bits c.comp.toNat 55 0) 8 true = none
        then u1.refSignal die c.asid c.lid c.comp c.compv else u1
      let held : Prop := ∃ a ∈ c.doneOuts, u.gdMigrates die c.asid a = true
      t.groups = s.groups ∧
      (held → t.col? n = some { c with state := .closing, status := v, left := [], todo := [] } ∧ t.hbm = u.hbm) ∧
      (¬held → t.cols = s.cols.filter (fun x => x.id ≠ n) ∧ t.hbm = u2.hbm)
    let word (base e : Nat) : Word := BitVec.ofNat 32 (bytesToNat (w.homeRead die c.asid ((base + 4 * e) % 2 ^ 64) 4))
    let own (j k : Nat) : Word × Word := (c.contrib.getD (j * seg + k) 0, c.contribLo.getD (j * seg + k) 0)
    let add (e i : Nat) (a x : Word × Word) : Word × Word :=
      if c.dtype = 1 then
        let md := (rmOf (bits c.rmode.toNat 2 0)).getD .rne
        let u := if md = .sr then srBits (gen c.srseed 4 0 (BitVec.ofNat 64 e) (BitVec.ofNat 64 i)) else 0
        (BitVec.ofNat 32 (fAddElem .f32 ⟨md, false, c.rmode.getLsbD 4, false, u⟩ a.1.toNat x.1.toNat).b, 0)
      else if c.dtype = 2 then
        let r := (expand .f32 true [a.1.toNat, a.2.toNat, x.1.toNat, x.2.toNat] 2).1
        (BitVec.ofNat 32 (r.getD 0 0), BitVec.ofNat 32 (r.getD 1 0))
      else (a.1 + x.1, 0)
    let open' : Prop := c.nowait = true ∨ refKind c.wait = 0 ∨ c.waitv.toNat ≤ w.refValue die c.asid c.lid c.wait
    let sound (now : List (Bool × Nat)) : Prop := ∀ x ∈ now, w.poisonAt die c.asid (c.secRange x).1 (c.secRange x).2 = none
    let reached (store : Bool) (u : State) : Prop :=
      ∀ r ∈ bucketRanges c.bucket c.count c.dtype c.caoff, u.rangeFault die c.asid r.1 r.2 store = none
    let reads (now : List (Bool × Nat)) (from' : Collective) (t : State) : Prop :=
      t = { w with cols := t.cols, dls := t.dls, counters := t.counters, nextId := t.nextId, remap := t.remap } ∧ ∃ x, t.col? n = some x ∧
      x.bucket = c.bucket ∧ x.members = c.members ∧ x.left = from'.left.filter (fun y => !now.contains y) ∧
      x.state = (if x.left = [] then .ring else .reading) ∧
      x.todo = (if x.left = [] then (if c.op = 1 then x.pieces q ((x.own q).map (·.1)) ((x.own q).map (·.2)) else []) else from'.todo) ∧
      x.contrib.length = from'.contrib.length ∧
      (∀ e < from'.contrib.length, x.contrib[e]? = if (false, e / 4) ∈ now then some (word c.bucket e) else from'.contrib[e]?) ∧
      (∀ e < from'.contribLo.length, x.contribLo[e]? =
        if (true, e / 4) ∈ now then some (word (c.bucket + c.caoff.toNat) e) else from'.contribLo[e]?)
    let zeros : List Word := List.replicate c.count 0
    let begun : Collective := { c with contrib := zeros, contribLo := if c.dtype = 2 then zeros else [], left := c.sectors }
    (c.state = .waiting → 1 < p → Answers (.pcolMemberExchange n false) s (ends 1 w)) ∧
    (c.state = .waiting → ¬open' → Answers (.pcolMemberExchange n true) s (fun t => t = w)) ∧
    (c.state = .waiting → open' → w.colAsks c = false → reached false w → sound (w.someOf c.sectors) →
      Answers (.pcolMemberExchange n true) s (reads (w.someOf c.sectors) begun)) ∧
    (c.state = .reading → w.colAsks c = false → reached false w → sound (w.someOf c.left) →
      Answers (.pcolMemberExchange n true) s (reads (w.someOf c.left) c)) ∧
    (∀ j i data, c.state = .ring → (∀ r ∈ c.result, r.1 ≠ j) → j < p →
      let given (k : Nat) : Word × Word := (data.getD k 0, data.getD (seg + k) 0)
      let puts (f : Nat → Word × Word) (t : State) : Prop := t = { s with cols := t.cols, dls := t.dls, counters := t.counters, nextId := t.nextId } ∧
        let hi := (List.range seg).map (fun k => (f k).1)
        let lo := (List.range seg).map (fun k => (f k).2)
        t.col? n = some { c with result := c.result ++ [(j, hi, lo)], todo := c.todo ++ c.pieces j hi lo }
      (i = p → c.op ≠ 0 → j ≠ q → Answers (.pcolRingStep n j i data) s (puts given)) ∧
      (i + 1 = p → c.op ≠ 1 → (j + 1 + i) % p = q → Answers (.pcolRingStep n j i data) s
        (puts (fun k => if i = 0 then own j k else add (j * seg + k) i (given k) (own j k))))) ∧
    (c.state = .ring → s.colAsks c = false → reached true s → (∀ a ∈ c.doneOuts, s.rangeFault die c.asid a 8 true = none) →
      ∃ now : List (Nat × List Byte), (∀ x ∈ now, x ∈ c.todo ∧ s.gdMigrates die c.asid x.1 = false) ∧
        let rest := c.todo.filter (fun x => !now.contains x)
        let u := (now.foldl (fun (u : State) (x : Nat × List Byte) => u.homeWrite die c.asid x.1 x.2) s).remapUse die c.asid (now.map (·.1))
        (rest = [] ∧ c.known q = true → Answers (.pcolComplete n) s (ends 0 u)) ∧
        (¬(rest = [] ∧ c.known q = true) → Answers (.pcolComplete n) s (fun t => t = { u with cols := t.cols, dls := t.dls } ∧
          t.col? n = some { c with todo := rest }))) ∧
    (c.state = .closing → Answers (.pcolComplete n) s (ends c.status s)) ∧
    (c.budget ≠ 0 → c.state ≠ .closing → Answers (.pcolBudgetExpiry n) s (ends 2 s)))

/-- The port registers and what they start (14 R407, R410, R412, R429 to R434). A write by an outside master is performed at once, a privileged group's as the owner's; writes of owner
registers by another master are dropped and counted, a PRESET that starts nothing among them. CLAIM passes OWNER on, FQACK answers a record, SHOOT drops translations or lines and counts in SHOOTDONE when both are done, CMDPG registers a page, which is cleared once it accepts that, ATTEST advances
its counter and then writes its report, or records the fault of its buffer, BAR2 writes are performed at the home slice; resets and bring-up follow R434, an image being accepted by its signature and its version.
The report's layout, what a buffer that faults does and the reset values that R434 does not give are the model's (assumption log 9, 13 and 29); the digest and the signature test are uninterpreted (log 131). -/
def Obligations.HostAttachment : Prop :=
  let acts (owner : Bool) (master off : Nat) (v : DWord) (s u : State) : Prop :=
    (1 ≤ master ∧ master < 16 ∧ (owner = true → s.regs.owner = master) ∧ u = s) ∨
    (master = 0 ∧ ∃ w rest, s.portWrites = w :: rest ∧ w.off = off ∧ w.val = v ∧ u = { s with portWrites := rest })
  (∀ (s : State) (m : Nat) (v : DWord), 1 ≤ m → m < 16 → s.regs.owner ≠ m →
    let dropped (t : State) : Prop := t = { s with regs := { s.regs with nonowner := s.regs.nonowner + 1 }, counters := t.counters }
    Answers (.fqheadWrite m v) s dropped ∧ Answers (.cmdpg m v) s dropped ∧ Answers (.presetPackage m) s dropped ∧
    Answers (.presetPartitions m) s dropped ∧ (∀ f, Answers (.fqackRetry m f) s dropped ∧ Answers (.fqackRefuse m f) s dropped) ∧
    (v.toNat % 4 ≠ 1 → v.toNat % 4 ≠ 2 → Answers (.portRegWrite m 0x088 v) s dropped) ∧
    (∀ off ∈ [0x020, 0x028, 0x030, 0x050, 0x058, 0x068, 0x078], Answers (.portRegWrite m off v) s dropped)) ∧
  (∀ (s u : State) (m : Nat) (v : DWord), acts false m 0x010 v s u →
    let me := if m = 0 then s.regs.owner else m
    let exp := bits v.toNat 7 4
    let new := bits v.toNat 3 0
    Answers (.claim m v) s (fun t => t = if s.regs.owner = exp ∧ ((exp = 0 ∧ new = me) ∨ exp = me)
      then { u with regs := { u.regs with owner := new } } else u)) ∧
  (∀ (s : State) (m : Nat), Answers (.linkDownOwnerClear m) s (fun t => t = { s with regs := { s.regs with owner := if s.regs.owner = m then 0 else s.regs.owner } })) ∧
  (∀ (s u : State) (m fid : Nat) (v : DWord) (i : Instr) (refuse : Bool), acts true m 0x040 v s u → bits v.toNat 47 32 = fid →
    bits v.toNat 0 0 = (if refuse then 1 else 0) → i = (if refuse then .fqackRefuse m fid else .fqackRetry m fid) →
    ((∀ f ∈ s.faults, f.fid ≠ fid) → Answers i s (fun t => t = u)) ∧
    (∀ f, s.faults.find? (fun f => f.fid = fid) = some f →
      (∀ r k g p, f.joined = [.parked r k] → s.group? r = some g → g.parked[k]? = some p → Answers i s (fun t =>
        t = { u with faults := t.faults, groups := t.groups } ∧ t.faults = s.faults.filter (fun x => x.fid ≠ fid) ∧
        ∃ g', t.group? r = some g' ∧ g'.parked[k]? = some { p with
          served := !(t.faults.any (fun f => f.joined.contains (.parked r k))), refused := p.refused || refuse })) ∧
      (∀ r e g, f.joined = [.fetch r e] → s.group? r = some g → (g.split e).state = .blocked → (g.split e).wait = .fetch →
        (refuse = false → Answers i s (fun t => ∃ g', t.group? r = some g' ∧ (g'.split e).state = .ready ∧ g'.SameRegs g)) ∧
        (refuse = true → Answers i s (fun t => ∃ x : State, t = x.takeTrap r e .access 0 (g.split e).hdr ∧
          x = { u with faults := x.faults, groups := x.groups }))))) ∧
  (∀ (s u : State) (m : Nat) (v : DWord), acts true m 0x038 v s u →
    Answers (.fqheadWrite m v) s (fun t => t = { u with regs := { u.regs with fqhead := v } })) ∧
  (∀ (s u : State) (m off : Nat) (v : DWord), acts true m off v s u →
    let put (r : PortRegs) : Prop := Answers (.portRegWrite m off v) s (fun t => t = { u with regs := r })
    (off = 0x020 → put { u.regs with partcfg := v.setWidth 2 }) ∧
    (off = 0x028 → put { u.regs with ctxbase := v &&& 0x000FFFFFFFFF0000 }) ∧
    (off = 0x030 → put { u.regs with fqbase := v &&& 0x00FFFFFFFFFFFFFF }) ∧
    (off = 0x050 → put { u.regs with shootva := v }) ∧ (off = 0x058 → put { u.regs with shootlen := v }) ∧
    (off = 0x068 → put { u.regs with dlmax := v &&& 0xFFFF }) ∧
    (off = 0x078 → put { u.regs with route := v &&& 0x000FFFFFFFFFFF00 }) ∧
    (off ∈ [0x000, 0x008, 0x018, 0x060, 0x090, 0x098] → put u.regs)) ∧
  (∀ (s u : State) (m : Nat) (v : DWord), acts true m 0x048 v s u →
    let asid := bits v.toNat 63 52
    let va := s.regs.shootva.toNat
    let len := s.regs.shootlen.toNat
    let all (tr : Bool) (x : State) : State := (List.range s.parts.length).foldl (fun (y : State) pt =>
      if tr then y.dropTranslations pt asid va len else y.dropData pt asid va len) x
    let opens (tr data : Bool) (x t : State) : Prop := ∃ z : Shoot, t = { x with nextId := t.nextId, shoots := s.shoots ++ [z] } ∧
      z.asid = asid ∧ z.va = va ∧ z.len = len ∧ z.tr = tr ∧ z.data = data
    (bits v.toNat 0 0 = 1 → (∀ x ∈ s.shoots, ¬(x.asid = asid ∧ x.tr = true)) → Answers (.shootTr m v) s
      (opens false (v.getLsbD 1) (all true { u with nextId := u.nextId + 1 }))) ∧
    (bits v.toNat 1 0 = 2 → (∀ x ∈ s.shoots, ¬(x.asid = asid ∧ x.data = true)) → Answers (.shootData m v) s
      (opens false false (all false { u with nextId := u.nextId + 1 })))) ∧
  (∀ (s : State) (m : Nat) (v : DWord) (x : Shoot), s.shoots.find? (fun x => x.asid = bits v.toNat 63 52 && x.data) = some x →
    Answers (.shootData m v) s (fun t => t = { (List.range s.parts.length).foldl (fun (y : State) pt =>
      y.dropData pt x.asid x.va x.len) s with shoots := t.shoots } ∧
      ∀ y ∈ t.shoots, y.id = x.id → y.data = false)) ∧
  (∀ (s : State) (n : Nat) (x : Shoot), s.shoots.find? (fun x => x.id = n) = some x →
    (x.tr = true ∨ x.data = true → Answers (.shootComplete n) s (fun t => t = s)) ∧
    (x.tr = false → x.data = false → Answers (.shootComplete n) s (fun t => t = { s with
      shoots := s.shoots.filter (fun y => y.id ≠ n), regs := { s.regs with shootdone := s.regs.shootdone + 1 } }))) ∧
  (∀ (s u : State) (m : Nat) (v : DWord), acts true m 0x070 v s u →
    let pt := bits v.toNat 1 0
    let k := (pt, bits v.toNat 61 56)
    let va := bits v.toNat 55 16 * 2 ^ 16
    let die := (s.stewardCore pt).die
    (s.parts.length ≤ pt → Answers (.cmdpg m v) s (fun t => t = u)) ∧
    (pt < s.parts.length → bits v.toNat 63 63 = 1 → u.engineFault (s.stewardCore pt) 0 va 8 true = none → Answers (.cmdpg m v) s (fun t =>
      t = { (u.homeWrite die 0 (va + 8) (List.replicate 0x78 0)) with pages := t.pages } ∧
      t.pages.get? k = some { va := va, perr := 0, clear := false, cmd := none } ∧ ∀ j, j ≠ k → t.pages.get? j = s.pages.get? j)) ∧
    (pt < s.parts.length → bits v.toNat 63 63 = 1 → u.engineFault (s.stewardCore pt) 0 va 8 true ≠ none → Answers (.cmdpg m v) s (fun t =>
      t.pages.get? k = some { va := va, perr := 0, clear := true, cmd := none } ∧ ∀ j, j ≠ k → t.pages.get? j = s.pages.get? j)) ∧
    (∀ p, pt < s.parts.length → bits v.toNat 63 63 = 0 → s.pages.get? k = some p → u.engineFault (s.stewardCore pt) 0 p.va 8 true = none →
      Answers (.cmdpg m v) s (fun t => t = { (u.homeWrite die 0 (p.va + 0x10) (natToBytes 8 2)) with pages := t.pages } ∧
        t.pages.get? k = some { p with perr := 2, clear := false, cmd := none }))) ∧
  (∀ (s : State) (va : Nat) (bytes : List Byte),
    (s.regs.owner = 0 → Answers (.hostBar2Write va bytes) s (fun t => t = s)) ∧
    (s.regs.owner ≠ 0 → va + bytes.length ≤ 2 ^ 40 → s.rangeFault 0 0 va bytes.length true = none →
      Answers (.hostBar2Write va bytes) s (fun t => t = s.homeWrite 0 0 va bytes))) ∧
  (∀ (s u : State) (m : Nat) (v : DWord) (rep : AttestReport), acts false m 0x080 v s u →
    let va := bits v.toNat 55 0
    let b := s.boot
    let core : CoreRef := { home := false, die := 0, core := 0 }
    (∀ x, u.engineFault core 0 va 4096 true = some x → Answers (.attest m v rep) s (fun t => t = x)) ∧
    (u.engineFault core 0 va 4096 true = none → b.attest < 2 ^ 20 → Answers (.attest m v rep) s (fun t => t.boot = { b with attest := b.attest + 1 } ∧ t.groups = s.groups ∧
      t.hbm = ((u.homeWrite 0 0 va ((Config.attestReport b.m0 b.m1 b.m2 (u.homeRead 0 0 va 32) Config.serial b.attest rep.signature).take 4088)).homeWrite
        0 0 (va + 4088) (natToBytes 8 (Config.attestWord false).toNat)).hbm)) ∧
    (u.engineFault core 0 va 4096 true = none → 2 ^ 20 ≤ b.attest → Answers (.attest m v rep) s (fun t =>
      t = u.homeWrite 0 0 (va + 4088) (natToBytes 8 (Config.attestWord true).toNat)))) ∧
  (∀ (s u : State) (m : Nat) (v : DWord) (i : Instr) (cfg : BitVec 2),
    (i = .powerOnReset ∧ cfg = 0 ∧ u = s) ∨ (i = .presetPackage m ∧ cfg = s.regs.partcfg ∧ acts true m 0x088 v s u ∧ bits v.toNat 1 0 = 1) →
    Answers i s (fun t => t.held = true ∧ t.regs = { PortRegs.reset with partcfg := cfg } ∧ t.regs.owner = 0 ∧ t.groups = [] ∧ t.launches = [] ∧
      t.blocks = [] ∧ t.ctxs = [] ∧ t.onchip = [] ∧ t.pages = [] ∧ t.hbm = s.hbm ∧ t.poison = s.poison ∧ t.boot = { Boot.reset with attest := s.boot.attest, spares := s.boot.spares } ∧
      t.pkg = s.pkg ∧ t.parts = (match cfg.toNat with
        | 0 => [(0, 4)] | 1 => [(0, 2), (2, 2)] | 2 => [(0, 1), (1, 1), (2, 1), (3, 1)] | _ => [(0, 1), (1, 1), (2, 2)]))) ∧
  (∀ (s : State), Answers .powerLoss s (fun t => t.held = true ∧ t.groups = [] ∧ t.regs = PortRegs.reset ∧
    (t.boot.attest = s.boot.attest ∨ t.boot.attest = s.boot.attest + 1) ∧ t.hbm = s.hbm.filter (fun x => !ownMemory s.pkg x.1))) ∧
  (∀ (s u : State) (m : Nat) (v : DWord), acts true m 0x088 v s u → bits v.toNat 1 0 = 2 → Answers (.presetPartitions m) s (fun t =>
    t.regs = { s.regs with pfail := false } ∧ t.hbm = s.hbm ∧ t.parts = s.parts ∧
    ∀ pt ∈ s.stopped, pt ∉ t.stopped ∧ pt ∉ t.boot.stewards ∧ (∀ l ∈ t.launches, l.part ≠ pt) ∧
      ∀ g ∈ t.groups, (s.partDies pt).contains g.ref.die = false)) ∧
  (∀ (s : State) (fw st id : BootImage) (sig sigS sigI : List Byte) (img : FwSetup) (cells : List Host.Cell), s.regs.failStage = 0 → s.held = true →
    let fails (n : Nat) (b : Bool) (t : State) : Prop := t = { s with regs := { s.regs with fwfail := s.regs.fwfail || b, failStage := n } }
    let takes (kind : Nat) (i : BootImage) (x : List Byte) : Prop :=
      Config.signed Config.rootDigest i.bytes i.version x = true ∧ Config.minVersion kind ≤ i.version
    (s.boot.stage = 0 →
      (takes 0 fw sig → Answers (.bootRomFwVerify fw sig) s (fun t => t = { s with boot := { s.boot with stage := 1, m0 := Config.shake256 fw.bytes } })) ∧
      (¬takes 0 fw sig → Answers (.bootRomFwVerify fw sig) s (fails 1 true))) ∧
    (s.boot.stage = 1 → Answers (.fwBringup true img) s (fun t => t.boot = { s.boot with stage := 2 } ∧ t.modTab = img.modTab ∧
        t.regs = { s.regs with ctxbase := img.ctxBase, fqbase := img.fqBase, route := img.route } ∧
        (∀ a ∈ t.poison, ownMemory s.pkg a = false) ∧ (∀ ctl, (t.ecc.getD ctl ⟨0, [], []⟩).spares = s.boot.spares.getD ctl []) ∧ (s.Inv → Memory.wf t.hbm = true)) ∧
      Answers (.fwBringup false img) s (fails 2 false)) ∧
    (s.boot.stage = 2 →
      (takes 1 st sigS → takes 2 id sigI → Answers (.stewardInstall st id (sigS, sigI) cells) s (fun t =>
        t.boot = { s.boot with stage := 3, m1 := Config.shake256 st.bytes, m2 := Config.shake256 id.bytes } ∧
        t = { s with boot := t.boot, hbm := t.hbm, modAt := t.modAt, codeHist := t.codeHist })) ∧
      (¬(takes 1 st sigS ∧ takes 2 id sigI) → Answers (.stewardInstall st id (sigS, sigI) cells) s (fails 3 true))) ∧
    (∀ pt, s.boot.stage = 3 → pt < s.parts.length → pt ∉ s.boot.stewards → pt ∉ s.stopped → Answers (.stewardStart pt) s (fun t =>
      t.boot.stewards = s.boot.stewards ++ [pt] ∧
      ((∀ k < s.parts.length, k = pt ∨ k ∈ s.boot.stewards) → t.held = false ∧ t.regs.ready = true) ∧
      ((∃ k < s.parts.length, k ≠ pt ∧ k ∉ s.boot.stewards) → t.held = true ∧ t.regs.ready = s.regs.ready))))
end

