-- ==== Sys2Proof/Laws/State.lean ====
section
/-! SUPPORT. What the shared updates of the state and of a group leave: one lemma for each field of each update. -/

namespace Sys2Proof.Machine

open Sys2Proof

/-! ### A group of the state replaced -/

@[simp] theorem State.modGroup_agenda (s : State) (r : GRef) (f : Group → Group) : (s.modGroup r f).agenda = s.agenda := rfl
@[simp] theorem State.modGroup_tick (s : State) (r : GRef) (f : Group → Group) : (s.modGroup r f).tick = s.tick := rfl
@[simp] theorem State.modGroup_cur (s : State) (r : GRef) (f : Group → Group) : (s.modGroup r f).cur = s.cur := rfl
@[simp] theorem State.modGroup_nextId (s : State) (r : GRef) (f : Group → Group) : (s.modGroup r f).nextId = s.nextId := rfl
@[simp] theorem State.modGroup_hbm (s : State) (r : GRef) (f : Group → Group) : (s.modGroup r f).hbm = s.hbm := rfl
@[simp] theorem State.modGroup_poison (s : State) (r : GRef) (f : Group → Group) : (s.modGroup r f).poison = s.poison := rfl
@[simp] theorem State.modGroup_onchip (s : State) (r : GRef) (f : Group → Group) : (s.modGroup r f).onchip = s.onchip := rfl
@[simp] theorem State.modGroup_l1d (s : State) (r : GRef) (f : Group → Group) : (s.modGroup r f).l1d = s.l1d := rfl
@[simp] theorem State.modGroup_roFilter (s : State) (r : GRef) (f : Group → Group) : (s.modGroup r f).roFilter = s.roFilter := rfl
@[simp] theorem State.modGroup_lastPeer (s : State) (r : GRef) (f : Group → Group) : (s.modGroup r f).lastPeer = s.lastPeer := rfl
@[simp] theorem State.modGroup_slices (s : State) (r : GRef) (f : Group → Group) : (s.modGroup r f).slices = s.slices := rfl
@[simp] theorem State.modGroup_remap (s : State) (r : GRef) (f : Group → Group) : (s.modGroup r f).remap = s.remap := rfl
@[simp] theorem State.modGroup_tlb (s : State) (r : GRef) (f : Group → Group) : (s.modGroup r f).tlb = s.tlb := rfl
@[simp] theorem State.modGroup_quadCopies (s : State) (r : GRef) (f : Group → Group) : (s.modGroup r f).quadCopies = s.quadCopies := rfl
@[simp] theorem State.modGroup_quadWrites (s : State) (r : GRef) (f : Group → Group) : (s.modGroup r f).quadWrites = s.quadWrites := rfl
@[simp] theorem State.modGroup_ops (s : State) (r : GRef) (f : Group → Group) : (s.modGroup r f).ops = s.ops := rfl
@[simp] theorem State.modGroup_mbox (s : State) (r : GRef) (f : Group → Group) : (s.modGroup r f).mbox = s.mbox := rfl
@[simp] theorem State.modGroup_engWords (s : State) (r : GRef) (f : Group → Group) : (s.modGroup r f).engWords = s.engWords := rfl
@[simp] theorem State.modGroup_icL0 (s : State) (r : GRef) (f : Group → Group) : (s.modGroup r f).icL0 = s.icL0 := rfl
@[simp] theorem State.modGroup_icL1 (s : State) (r : GRef) (f : Group → Group) : (s.modGroup r f).icL1 = s.icL1 := rfl
@[simp] theorem State.modGroup_icL2 (s : State) (r : GRef) (f : Group → Group) : (s.modGroup r f).icL2 = s.icL2 := rfl
@[simp] theorem State.modGroup_ifills (s : State) (r : GRef) (f : Group → Group) : (s.modGroup r f).ifills = s.ifills := rfl
@[simp] theorem State.modGroup_blocks (s : State) (r : GRef) (f : Group → Group) : (s.modGroup r f).blocks = s.blocks := rfl
@[simp] theorem State.modGroup_bars (s : State) (r : GRef) (f : Group → Group) : (s.modGroup r f).bars = s.bars := rfl
@[simp] theorem State.modGroup_barMsgs (s : State) (r : GRef) (f : Group → Group) : (s.modGroup r f).barMsgs = s.barMsgs := rfl
@[simp] theorem State.modGroup_tickets (s : State) (r : GRef) (f : Group → Group) : (s.modGroup r f).tickets = s.tickets := rfl
@[simp] theorem State.modGroup_sched (s : State) (r : GRef) (f : Group → Group) : (s.modGroup r f).sched = s.sched := rfl
@[simp] theorem State.modGroup_launches (s : State) (r : GRef) (f : Group → Group) : (s.modGroup r f).launches = s.launches := rfl
@[simp] theorem State.modGroup_nextLid (s : State) (r : GRef) (f : Group → Group) : (s.modGroup r f).nextLid = s.nextLid := rfl
@[simp] theorem State.modGroup_podNews (s : State) (r : GRef) (f : Group → Group) : (s.modGroup r f).podNews = s.podNews := rfl
@[simp] theorem State.modGroup_dists (s : State) (r : GRef) (f : Group → Group) : (s.modGroup r f).dists = s.dists := rfl
@[simp] theorem State.modGroup_pages (s : State) (r : GRef) (f : Group → Group) : (s.modGroup r f).pages = s.pages := rfl
@[simp] theorem State.modGroup_ctxs (s : State) (r : GRef) (f : Group → Group) : (s.modGroup r f).ctxs = s.ctxs := rfl
@[simp] theorem State.modGroup_engines (s : State) (r : GRef) (f : Group → Group) : (s.modGroup r f).engines = s.engines := rfl
@[simp] theorem State.modGroup_regions (s : State) (r : GRef) (f : Group → Group) : (s.modGroup r f).regions = s.regions := rfl
@[simp] theorem State.modGroup_mats (s : State) (r : GRef) (f : Group → Group) : (s.modGroup r f).mats = s.mats := rfl
@[simp] theorem State.modGroup_gangs (s : State) (r : GRef) (f : Group → Group) : (s.modGroup r f).gangs = s.gangs := rfl
@[simp] theorem State.modGroup_ring (s : State) (r : GRef) (f : Group → Group) : (s.modGroup r f).ring = s.ring := rfl
@[simp] theorem State.modGroup_objs (s : State) (r : GRef) (f : Group → Group) : (s.modGroup r f).objs = s.objs := rfl
@[simp] theorem State.modGroup_queues (s : State) (r : GRef) (f : Group → Group) : (s.modGroup r f).queues = s.queues := rfl
@[simp] theorem State.modGroup_cmbs (s : State) (r : GRef) (f : Group → Group) : (s.modGroup r f).cmbs = s.cmbs := rfl
@[simp] theorem State.modGroup_packs (s : State) (r : GRef) (f : Group → Group) : (s.modGroup r f).packs = s.packs := rfl
@[simp] theorem State.modGroup_replies (s : State) (r : GRef) (f : Group → Group) : (s.modGroup r f).replies = s.replies := rfl
@[simp] theorem State.modGroup_steps (s : State) (r : GRef) (f : Group → Group) : (s.modGroup r f).steps = s.steps := rfl
@[simp] theorem State.modGroup_dir (s : State) (r : GRef) (f : Group → Group) : (s.modGroup r f).dir = s.dir := rfl
@[simp] theorem State.modGroup_censuses (s : State) (r : GRef) (f : Group → Group) : (s.modGroup r f).censuses = s.censuses := rfl
@[simp] theorem State.modGroup_moves (s : State) (r : GRef) (f : Group → Group) : (s.modGroup r f).moves = s.moves := rfl
@[simp] theorem State.modGroup_regs (s : State) (r : GRef) (f : Group → Group) : (s.modGroup r f).regs = s.regs := rfl
@[simp] theorem State.modGroup_faults (s : State) (r : GRef) (f : Group → Group) : (s.modGroup r f).faults = s.faults := rfl
@[simp] theorem State.modGroup_nextFid (s : State) (r : GRef) (f : Group → Group) : (s.modGroup r f).nextFid = s.nextFid := rfl
@[simp] theorem State.modGroup_shoots (s : State) (r : GRef) (f : Group → Group) : (s.modGroup r f).shoots = s.shoots := rfl
@[simp] theorem State.modGroup_portWrites (s : State) (r : GRef) (f : Group → Group) : (s.modGroup r f).portWrites = s.portWrites := rfl
@[simp] theorem State.modGroup_migrs (s : State) (r : GRef) (f : Group → Group) : (s.modGroup r f).migrs = s.migrs := rfl
@[simp] theorem State.modGroup_cols (s : State) (r : GRef) (f : Group → Group) : (s.modGroup r f).cols = s.cols := rfl
@[simp] theorem State.modGroup_ecc (s : State) (r : GRef) (f : Group → Group) : (s.modGroup r f).ecc = s.ecc := rfl
@[simp] theorem State.modGroup_dls (s : State) (r : GRef) (f : Group → Group) : (s.modGroup r f).dls = s.dls := rfl
@[simp] theorem State.modGroup_kports (s : State) (r : GRef) (f : Group → Group) : (s.modGroup r f).kports = s.kports := rfl
@[simp] theorem State.modGroup_lostBytes (s : State) (r : GRef) (f : Group → Group) : (s.modGroup r f).lostBytes = s.lostBytes := rfl
@[simp] theorem State.modGroup_parts (s : State) (r : GRef) (f : Group → Group) : (s.modGroup r f).parts = s.parts := rfl
@[simp] theorem State.modGroup_stopped (s : State) (r : GRef) (f : Group → Group) : (s.modGroup r f).stopped = s.stopped := rfl
@[simp] theorem State.modGroup_held (s : State) (r : GRef) (f : Group → Group) : (s.modGroup r f).held = s.held := rfl
@[simp] theorem State.modGroup_boot (s : State) (r : GRef) (f : Group → Group) : (s.modGroup r f).boot = s.boot := rfl
@[simp] theorem State.modGroup_pkg (s : State) (r : GRef) (f : Group → Group) : (s.modGroup r f).pkg = s.pkg := rfl
@[simp] theorem State.modGroup_pod (s : State) (r : GRef) (f : Group → Group) : (s.modGroup r f).pod = s.pod := rfl
@[simp] theorem State.modGroup_podSize (s : State) (r : GRef) (f : Group → Group) : (s.modGroup r f).podSize = s.podSize := rfl
@[simp] theorem State.modGroup_spillBase (s : State) (r : GRef) (f : Group → Group) : (s.modGroup r f).spillBase = s.spillBase := rfl
@[simp] theorem State.modGroup_spillPrev (s : State) (r : GRef) (f : Group → Group) : (s.modGroup r f).spillPrev = s.spillPrev := rfl
@[simp] theorem State.modGroup_preBudget (s : State) (r : GRef) (f : Group → Group) : (s.modGroup r f).preBudget = s.preBudget := rfl
@[simp] theorem State.modGroup_modTab (s : State) (r : GRef) (f : Group → Group) : (s.modGroup r f).modTab = s.modTab := rfl
@[simp] theorem State.modGroup_modAt (s : State) (r : GRef) (f : Group → Group) : (s.modGroup r f).modAt = s.modAt := rfl
@[simp] theorem State.modGroup_codeHist (s : State) (r : GRef) (f : Group → Group) : (s.modGroup r f).codeHist = s.codeHist := rfl
@[simp] theorem State.modGroup_counters (s : State) (r : GRef) (f : Group → Group) : (s.modGroup r f).counters = s.counters := rfl

@[simp] theorem State.putGroup_agenda (s : State) (g : Group) : (s.putGroup g).agenda = s.agenda := rfl
@[simp] theorem State.putGroup_tick (s : State) (g : Group) : (s.putGroup g).tick = s.tick := rfl
@[simp] theorem State.putGroup_cur (s : State) (g : Group) : (s.putGroup g).cur = s.cur := rfl
@[simp] theorem State.putGroup_nextId (s : State) (g : Group) : (s.putGroup g).nextId = s.nextId := rfl
@[simp] theorem State.putGroup_hbm (s : State) (g : Group) : (s.putGroup g).hbm = s.hbm := rfl
@[simp] theorem State.putGroup_poison (s : State) (g : Group) : (s.putGroup g).poison = s.poison := rfl
@[simp] theorem State.putGroup_onchip (s : State) (g : Group) : (s.putGroup g).onchip = s.onchip := rfl
@[simp] theorem State.putGroup_l1d (s : State) (g : Group) : (s.putGroup g).l1d = s.l1d := rfl
@[simp] theorem State.putGroup_roFilter (s : State) (g : Group) : (s.putGroup g).roFilter = s.roFilter := rfl
@[simp] theorem State.putGroup_lastPeer (s : State) (g : Group) : (s.putGroup g).lastPeer = s.lastPeer := rfl
@[simp] theorem State.putGroup_slices (s : State) (g : Group) : (s.putGroup g).slices = s.slices := rfl
@[simp] theorem State.putGroup_remap (s : State) (g : Group) : (s.putGroup g).remap = s.remap := rfl
@[simp] theorem State.putGroup_tlb (s : State) (g : Group) : (s.putGroup g).tlb = s.tlb := rfl
@[simp] theorem State.putGroup_quadCopies (s : State) (g : Group) : (s.putGroup g).quadCopies = s.quadCopies := rfl
@[simp] theorem State.putGroup_quadWrites (s : State) (g : Group) : (s.putGroup g).quadWrites = s.quadWrites := rfl
@[simp] theorem State.putGroup_ops (s : State) (g : Group) : (s.putGroup g).ops = s.ops := rfl
@[simp] theorem State.putGroup_mbox (s : State) (g : Group) : (s.putGroup g).mbox = s.mbox := rfl
@[simp] theorem State.putGroup_engWords (s : State) (g : Group) : (s.putGroup g).engWords = s.engWords := rfl
@[simp] theorem State.putGroup_icL0 (s : State) (g : Group) : (s.putGroup g).icL0 = s.icL0 := rfl
@[simp] theorem State.putGroup_icL1 (s : State) (g : Group) : (s.putGroup g).icL1 = s.icL1 := rfl
@[simp] theorem State.putGroup_icL2 (s : State) (g : Group) : (s.putGroup g).icL2 = s.icL2 := rfl
@[simp] theorem State.putGroup_ifills (s : State) (g : Group) : (s.putGroup g).ifills = s.ifills := rfl
@[simp] theorem State.putGroup_blocks (s : State) (g : Group) : (s.putGroup g).blocks = s.blocks := rfl
@[simp] theorem State.putGroup_bars (s : State) (g : Group) : (s.putGroup g).bars = s.bars := rfl
@[simp] theorem State.putGroup_barMsgs (s : State) (g : Group) : (s.putGroup g).barMsgs = s.barMsgs := rfl
@[simp] theorem State.putGroup_tickets (s : State) (g : Group) : (s.putGroup g).tickets = s.tickets := rfl
@[simp] theorem State.putGroup_sched (s : State) (g : Group) : (s.putGroup g).sched = s.sched := rfl
@[simp] theorem State.putGroup_launches (s : State) (g : Group) : (s.putGroup g).launches = s.launches := rfl
@[simp] theorem State.putGroup_nextLid (s : State) (g : Group) : (s.putGroup g).nextLid = s.nextLid := rfl
@[simp] theorem State.putGroup_podNews (s : State) (g : Group) : (s.putGroup g).podNews = s.podNews := rfl
@[simp] theorem State.putGroup_dists (s : State) (g : Group) : (s.putGroup g).dists = s.dists := rfl
@[simp] theorem State.putGroup_pages (s : State) (g : Group) : (s.putGroup g).pages = s.pages := rfl
@[simp] theorem State.putGroup_ctxs (s : State) (g : Group) : (s.putGroup g).ctxs = s.ctxs := rfl
@[simp] theorem State.putGroup_engines (s : State) (g : Group) : (s.putGroup g).engines = s.engines := rfl
@[simp] theorem State.putGroup_regions (s : State) (g : Group) : (s.putGroup g).regions = s.regions := rfl
@[simp] theorem State.putGroup_mats (s : State) (g : Group) : (s.putGroup g).mats = s.mats := rfl
@[simp] theorem State.putGroup_gangs (s : State) (g : Group) : (s.putGroup g).gangs = s.gangs := rfl
@[simp] theorem State.putGroup_ring (s : State) (g : Group) : (s.putGroup g).ring = s.ring := rfl
@[simp] theorem State.putGroup_objs (s : State) (g : Group) : (s.putGroup g).objs = s.objs := rfl
@[simp] theorem State.putGroup_queues (s : State) (g : Group) : (s.putGroup g).queues = s.queues := rfl
@[simp] theorem State.putGroup_cmbs (s : State) (g : Group) : (s.putGroup g).cmbs = s.cmbs := rfl
@[simp] theorem State.putGroup_packs (s : State) (g : Group) : (s.putGroup g).packs = s.packs := rfl
@[simp] theorem State.putGroup_replies (s : State) (g : Group) : (s.putGroup g).replies = s.replies := rfl
@[simp] theorem State.putGroup_steps (s : State) (g : Group) : (s.putGroup g).steps = s.steps := rfl
@[simp] theorem State.putGroup_dir (s : State) (g : Group) : (s.putGroup g).dir = s.dir := rfl
@[simp] theorem State.putGroup_censuses (s : State) (g : Group) : (s.putGroup g).censuses = s.censuses := rfl
@[simp] theorem State.putGroup_moves (s : State) (g : Group) : (s.putGroup g).moves = s.moves := rfl
@[simp] theorem State.putGroup_regs (s : State) (g : Group) : (s.putGroup g).regs = s.regs := rfl
@[simp] theorem State.putGroup_faults (s : State) (g : Group) : (s.putGroup g).faults = s.faults := rfl
@[simp] theorem State.putGroup_nextFid (s : State) (g : Group) : (s.putGroup g).nextFid = s.nextFid := rfl
@[simp] theorem State.putGroup_shoots (s : State) (g : Group) : (s.putGroup g).shoots = s.shoots := rfl
@[simp] theorem State.putGroup_portWrites (s : State) (g : Group) : (s.putGroup g).portWrites = s.portWrites := rfl
@[simp] theorem State.putGroup_migrs (s : State) (g : Group) : (s.putGroup g).migrs = s.migrs := rfl
@[simp] theorem State.putGroup_cols (s : State) (g : Group) : (s.putGroup g).cols = s.cols := rfl
@[simp] theorem State.putGroup_ecc (s : State) (g : Group) : (s.putGroup g).ecc = s.ecc := rfl
@[simp] theorem State.putGroup_dls (s : State) (g : Group) : (s.putGroup g).dls = s.dls := rfl
@[simp] theorem State.putGroup_kports (s : State) (g : Group) : (s.putGroup g).kports = s.kports := rfl
@[simp] theorem State.putGroup_lostBytes (s : State) (g : Group) : (s.putGroup g).lostBytes = s.lostBytes := rfl
@[simp] theorem State.putGroup_parts (s : State) (g : Group) : (s.putGroup g).parts = s.parts := rfl
@[simp] theorem State.putGroup_stopped (s : State) (g : Group) : (s.putGroup g).stopped = s.stopped := rfl
@[simp] theorem State.putGroup_held (s : State) (g : Group) : (s.putGroup g).held = s.held := rfl
@[simp] theorem State.putGroup_boot (s : State) (g : Group) : (s.putGroup g).boot = s.boot := rfl
@[simp] theorem State.putGroup_pkg (s : State) (g : Group) : (s.putGroup g).pkg = s.pkg := rfl
@[simp] theorem State.putGroup_pod (s : State) (g : Group) : (s.putGroup g).pod = s.pod := rfl
@[simp] theorem State.putGroup_podSize (s : State) (g : Group) : (s.putGroup g).podSize = s.podSize := rfl
@[simp] theorem State.putGroup_spillBase (s : State) (g : Group) : (s.putGroup g).spillBase = s.spillBase := rfl
@[simp] theorem State.putGroup_spillPrev (s : State) (g : Group) : (s.putGroup g).spillPrev = s.spillPrev := rfl
@[simp] theorem State.putGroup_preBudget (s : State) (g : Group) : (s.putGroup g).preBudget = s.preBudget := rfl
@[simp] theorem State.putGroup_modTab (s : State) (g : Group) : (s.putGroup g).modTab = s.modTab := rfl
@[simp] theorem State.putGroup_modAt (s : State) (g : Group) : (s.putGroup g).modAt = s.modAt := rfl
@[simp] theorem State.putGroup_codeHist (s : State) (g : Group) : (s.putGroup g).codeHist = s.codeHist := rfl
@[simp] theorem State.putGroup_counters (s : State) (g : Group) : (s.putGroup g).counters = s.counters := rfl

@[simp] theorem State.modSplit_agenda (s : State) (r : GRef) (e : Nat) (f : Split → Split) : (s.modSplit r e f).agenda = s.agenda := rfl
@[simp] theorem State.modSplit_tick (s : State) (r : GRef) (e : Nat) (f : Split → Split) : (s.modSplit r e f).tick = s.tick := rfl
@[simp] theorem State.modSplit_cur (s : State) (r : GRef) (e : Nat) (f : Split → Split) : (s.modSplit r e f).cur = s.cur := rfl
@[simp] theorem State.modSplit_nextId (s : State) (r : GRef) (e : Nat) (f : Split → Split) : (s.modSplit r e f).nextId = s.nextId := rfl
@[simp] theorem State.modSplit_hbm (s : State) (r : GRef) (e : Nat) (f : Split → Split) : (s.modSplit r e f).hbm = s.hbm := rfl
@[simp] theorem State.modSplit_poison (s : State) (r : GRef) (e : Nat) (f : Split → Split) : (s.modSplit r e f).poison = s.poison := rfl
@[simp] theorem State.modSplit_onchip (s : State) (r : GRef) (e : Nat) (f : Split → Split) : (s.modSplit r e f).onchip = s.onchip := rfl
@[simp] theorem State.modSplit_l1d (s : State) (r : GRef) (e : Nat) (f : Split → Split) : (s.modSplit r e f).l1d = s.l1d := rfl
@[simp] theorem State.modSplit_roFilter (s : State) (r : GRef) (e : Nat) (f : Split → Split) : (s.modSplit r e f).roFilter = s.roFilter := rfl
@[simp] theorem State.modSplit_lastPeer (s : State) (r : GRef) (e : Nat) (f : Split → Split) : (s.modSplit r e f).lastPeer = s.lastPeer := rfl
@[simp] theorem State.modSplit_slices (s : State) (r : GRef) (e : Nat) (f : Split → Split) : (s.modSplit r e f).slices = s.slices := rfl
@[simp] theorem State.modSplit_remap (s : State) (r : GRef) (e : Nat) (f : Split → Split) : (s.modSplit r e f).remap = s.remap := rfl
@[simp] theorem State.modSplit_tlb (s : State) (r : GRef) (e : Nat) (f : Split → Split) : (s.modSplit r e f).tlb = s.tlb := rfl
@[simp] theorem State.modSplit_quadCopies (s : State) (r : GRef) (e : Nat) (f : Split → Split) : (s.modSplit r e f).quadCopies = s.quadCopies := rfl
@[simp] theorem State.modSplit_quadWrites (s : State) (r : GRef) (e : Nat) (f : Split → Split) : (s.modSplit r e f).quadWrites = s.quadWrites := rfl
@[simp] theorem State.modSplit_ops (s : State) (r : GRef) (e : Nat) (f : Split → Split) : (s.modSplit r e f).ops = s.ops := rfl
@[simp] theorem State.modSplit_mbox (s : State) (r : GRef) (e : Nat) (f : Split → Split) : (s.modSplit r e f).mbox = s.mbox := rfl
@[simp] theorem State.modSplit_engWords (s : State) (r : GRef) (e : Nat) (f : Split → Split) : (s.modSplit r e f).engWords = s.engWords := rfl
@[simp] theorem State.modSplit_icL0 (s : State) (r : GRef) (e : Nat) (f : Split → Split) : (s.modSplit r e f).icL0 = s.icL0 := rfl
@[simp] theorem State.modSplit_icL1 (s : State) (r : GRef) (e : Nat) (f : Split → Split) : (s.modSplit r e f).icL1 = s.icL1 := rfl
@[simp] theorem State.modSplit_icL2 (s : State) (r : GRef) (e : Nat) (f : Split → Split) : (s.modSplit r e f).icL2 = s.icL2 := rfl
@[simp] theorem State.modSplit_ifills (s : State) (r : GRef) (e : Nat) (f : Split → Split) : (s.modSplit r e f).ifills = s.ifills := rfl
@[simp] theorem State.modSplit_blocks (s : State) (r : GRef) (e : Nat) (f : Split → Split) : (s.modSplit r e f).blocks = s.blocks := rfl
@[simp] theorem State.modSplit_bars (s : State) (r : GRef) (e : Nat) (f : Split → Split) : (s.modSplit r e f).bars = s.bars := rfl
@[simp] theorem State.modSplit_barMsgs (s : State) (r : GRef) (e : Nat) (f : Split → Split) : (s.modSplit r e f).barMsgs = s.barMsgs := rfl
@[simp] theorem State.modSplit_tickets (s : State) (r : GRef) (e : Nat) (f : Split → Split) : (s.modSplit r e f).tickets = s.tickets := rfl
@[simp] theorem State.modSplit_sched (s : State) (r : GRef) (e : Nat) (f : Split → Split) : (s.modSplit r e f).sched = s.sched := rfl
@[simp] theorem State.modSplit_launches (s : State) (r : GRef) (e : Nat) (f : Split → Split) : (s.modSplit r e f).launches = s.launches := rfl
@[simp] theorem State.modSplit_nextLid (s : State) (r : GRef) (e : Nat) (f : Split → Split) : (s.modSplit r e f).nextLid = s.nextLid := rfl
@[simp] theorem State.modSplit_podNews (s : State) (r : GRef) (e : Nat) (f : Split → Split) : (s.modSplit r e f).podNews = s.podNews := rfl
@[simp] theorem State.modSplit_dists (s : State) (r : GRef) (e : Nat) (f : Split → Split) : (s.modSplit r e f).dists = s.dists := rfl
@[simp] theorem State.modSplit_pages (s : State) (r : GRef) (e : Nat) (f : Split → Split) : (s.modSplit r e f).pages = s.pages := rfl
@[simp] theorem State.modSplit_ctxs (s : State) (r : GRef) (e : Nat) (f : Split → Split) : (s.modSplit r e f).ctxs = s.ctxs := rfl
@[simp] theorem State.modSplit_engines (s : State) (r : GRef) (e : Nat) (f : Split → Split) : (s.modSplit r e f).engines = s.engines := rfl
@[simp] theorem State.modSplit_regions (s : State) (r : GRef) (e : Nat) (f : Split → Split) : (s.modSplit r e f).regions = s.regions := rfl
@[simp] theorem State.modSplit_mats (s : State) (r : GRef) (e : Nat) (f : Split → Split) : (s.modSplit r e f).mats = s.mats := rfl
@[simp] theorem State.modSplit_gangs (s : State) (r : GRef) (e : Nat) (f : Split → Split) : (s.modSplit r e f).gangs = s.gangs := rfl
@[simp] theorem State.modSplit_ring (s : State) (r : GRef) (e : Nat) (f : Split → Split) : (s.modSplit r e f).ring = s.ring := rfl
@[simp] theorem State.modSplit_objs (s : State) (r : GRef) (e : Nat) (f : Split → Split) : (s.modSplit r e f).objs = s.objs := rfl
@[simp] theorem State.modSplit_queues (s : State) (r : GRef) (e : Nat) (f : Split → Split) : (s.modSplit r e f).queues = s.queues := rfl
@[simp] theorem State.modSplit_cmbs (s : State) (r : GRef) (e : Nat) (f : Split → Split) : (s.modSplit r e f).cmbs = s.cmbs := rfl
@[simp] theorem State.modSplit_packs (s : State) (r : GRef) (e : Nat) (f : Split → Split) : (s.modSplit r e f).packs = s.packs := rfl
@[simp] theorem State.modSplit_replies (s : State) (r : GRef) (e : Nat) (f : Split → Split) : (s.modSplit r e f).replies = s.replies := rfl
@[simp] theorem State.modSplit_steps (s : State) (r : GRef) (e : Nat) (f : Split → Split) : (s.modSplit r e f).steps = s.steps := rfl
@[simp] theorem State.modSplit_dir (s : State) (r : GRef) (e : Nat) (f : Split → Split) : (s.modSplit r e f).dir = s.dir := rfl
@[simp] theorem State.modSplit_censuses (s : State) (r : GRef) (e : Nat) (f : Split → Split) : (s.modSplit r e f).censuses = s.censuses := rfl
@[simp] theorem State.modSplit_moves (s : State) (r : GRef) (e : Nat) (f : Split → Split) : (s.modSplit r e f).moves = s.moves := rfl
@[simp] theorem State.modSplit_regs (s : State) (r : GRef) (e : Nat) (f : Split → Split) : (s.modSplit r e f).regs = s.regs := rfl
@[simp] theorem State.modSplit_faults (s : State) (r : GRef) (e : Nat) (f : Split → Split) : (s.modSplit r e f).faults = s.faults := rfl
@[simp] theorem State.modSplit_nextFid (s : State) (r : GRef) (e : Nat) (f : Split → Split) : (s.modSplit r e f).nextFid = s.nextFid := rfl
@[simp] theorem State.modSplit_shoots (s : State) (r : GRef) (e : Nat) (f : Split → Split) : (s.modSplit r e f).shoots = s.shoots := rfl
@[simp] theorem State.modSplit_portWrites (s : State) (r : GRef) (e : Nat) (f : Split → Split) : (s.modSplit r e f).portWrites = s.portWrites := rfl
@[simp] theorem State.modSplit_migrs (s : State) (r : GRef) (e : Nat) (f : Split → Split) : (s.modSplit r e f).migrs = s.migrs := rfl
@[simp] theorem State.modSplit_cols (s : State) (r : GRef) (e : Nat) (f : Split → Split) : (s.modSplit r e f).cols = s.cols := rfl
@[simp] theorem State.modSplit_ecc (s : State) (r : GRef) (e : Nat) (f : Split → Split) : (s.modSplit r e f).ecc = s.ecc := rfl
@[simp] theorem State.modSplit_dls (s : State) (r : GRef) (e : Nat) (f : Split → Split) : (s.modSplit r e f).dls = s.dls := rfl
@[simp] theorem State.modSplit_kports (s : State) (r : GRef) (e : Nat) (f : Split → Split) : (s.modSplit r e f).kports = s.kports := rfl
@[simp] theorem State.modSplit_lostBytes (s : State) (r : GRef) (e : Nat) (f : Split → Split) : (s.modSplit r e f).lostBytes = s.lostBytes := rfl
@[simp] theorem State.modSplit_parts (s : State) (r : GRef) (e : Nat) (f : Split → Split) : (s.modSplit r e f).parts = s.parts := rfl
@[simp] theorem State.modSplit_stopped (s : State) (r : GRef) (e : Nat) (f : Split → Split) : (s.modSplit r e f).stopped = s.stopped := rfl
@[simp] theorem State.modSplit_held (s : State) (r : GRef) (e : Nat) (f : Split → Split) : (s.modSplit r e f).held = s.held := rfl
@[simp] theorem State.modSplit_boot (s : State) (r : GRef) (e : Nat) (f : Split → Split) : (s.modSplit r e f).boot = s.boot := rfl
@[simp] theorem State.modSplit_pkg (s : State) (r : GRef) (e : Nat) (f : Split → Split) : (s.modSplit r e f).pkg = s.pkg := rfl
@[simp] theorem State.modSplit_pod (s : State) (r : GRef) (e : Nat) (f : Split → Split) : (s.modSplit r e f).pod = s.pod := rfl
@[simp] theorem State.modSplit_podSize (s : State) (r : GRef) (e : Nat) (f : Split → Split) : (s.modSplit r e f).podSize = s.podSize := rfl
@[simp] theorem State.modSplit_spillBase (s : State) (r : GRef) (e : Nat) (f : Split → Split) : (s.modSplit r e f).spillBase = s.spillBase := rfl
@[simp] theorem State.modSplit_spillPrev (s : State) (r : GRef) (e : Nat) (f : Split → Split) : (s.modSplit r e f).spillPrev = s.spillPrev := rfl
@[simp] theorem State.modSplit_preBudget (s : State) (r : GRef) (e : Nat) (f : Split → Split) : (s.modSplit r e f).preBudget = s.preBudget := rfl
@[simp] theorem State.modSplit_modTab (s : State) (r : GRef) (e : Nat) (f : Split → Split) : (s.modSplit r e f).modTab = s.modTab := rfl
@[simp] theorem State.modSplit_modAt (s : State) (r : GRef) (e : Nat) (f : Split → Split) : (s.modSplit r e f).modAt = s.modAt := rfl
@[simp] theorem State.modSplit_codeHist (s : State) (r : GRef) (e : Nat) (f : Split → Split) : (s.modSplit r e f).codeHist = s.codeHist := rfl
@[simp] theorem State.modSplit_counters (s : State) (r : GRef) (e : Nat) (f : Split → Split) : (s.modSplit r e f).counters = s.counters := rfl

/-! ### A launch replaced -/

@[simp] theorem State.modLaunch_agenda (s : State) (lid : Nat) (f : Launch → Launch) : (s.modLaunch lid f).agenda = s.agenda := rfl
@[simp] theorem State.modLaunch_tick (s : State) (lid : Nat) (f : Launch → Launch) : (s.modLaunch lid f).tick = s.tick := rfl
@[simp] theorem State.modLaunch_cur (s : State) (lid : Nat) (f : Launch → Launch) : (s.modLaunch lid f).cur = s.cur := rfl
@[simp] theorem State.modLaunch_nextId (s : State) (lid : Nat) (f : Launch → Launch) : (s.modLaunch lid f).nextId = s.nextId := rfl
@[simp] theorem State.modLaunch_hbm (s : State) (lid : Nat) (f : Launch → Launch) : (s.modLaunch lid f).hbm = s.hbm := rfl
@[simp] theorem State.modLaunch_poison (s : State) (lid : Nat) (f : Launch → Launch) : (s.modLaunch lid f).poison = s.poison := rfl
@[simp] theorem State.modLaunch_onchip (s : State) (lid : Nat) (f : Launch → Launch) : (s.modLaunch lid f).onchip = s.onchip := rfl
@[simp] theorem State.modLaunch_l1d (s : State) (lid : Nat) (f : Launch → Launch) : (s.modLaunch lid f).l1d = s.l1d := rfl
@[simp] theorem State.modLaunch_roFilter (s : State) (lid : Nat) (f : Launch → Launch) : (s.modLaunch lid f).roFilter = s.roFilter := rfl
@[simp] theorem State.modLaunch_lastPeer (s : State) (lid : Nat) (f : Launch → Launch) : (s.modLaunch lid f).lastPeer = s.lastPeer := rfl
@[simp] theorem State.modLaunch_slices (s : State) (lid : Nat) (f : Launch → Launch) : (s.modLaunch lid f).slices = s.slices := rfl
@[simp] theorem State.modLaunch_remap (s : State) (lid : Nat) (f : Launch → Launch) : (s.modLaunch lid f).remap = s.remap := rfl
@[simp] theorem State.modLaunch_tlb (s : State) (lid : Nat) (f : Launch → Launch) : (s.modLaunch lid f).tlb = s.tlb := rfl
@[simp] theorem State.modLaunch_quadCopies (s : State) (lid : Nat) (f : Launch → Launch) : (s.modLaunch lid f).quadCopies = s.quadCopies := rfl
@[simp] theorem State.modLaunch_quadWrites (s : State) (lid : Nat) (f : Launch → Launch) : (s.modLaunch lid f).quadWrites = s.quadWrites := rfl
@[simp] theorem State.modLaunch_ops (s : State) (lid : Nat) (f : Launch → Launch) : (s.modLaunch lid f).ops = s.ops := rfl
@[simp] theorem State.modLaunch_mbox (s : State) (lid : Nat) (f : Launch → Launch) : (s.modLaunch lid f).mbox = s.mbox := rfl
@[simp] theorem State.modLaunch_engWords (s : State) (lid : Nat) (f : Launch → Launch) : (s.modLaunch lid f).engWords = s.engWords := rfl
@[simp] theorem State.modLaunch_icL0 (s : State) (lid : Nat) (f : Launch → Launch) : (s.modLaunch lid f).icL0 = s.icL0 := rfl
@[simp] theorem State.modLaunch_icL1 (s : State) (lid : Nat) (f : Launch → Launch) : (s.modLaunch lid f).icL1 = s.icL1 := rfl
@[simp] theorem State.modLaunch_icL2 (s : State) (lid : Nat) (f : Launch → Launch) : (s.modLaunch lid f).icL2 = s.icL2 := rfl
@[simp] theorem State.modLaunch_ifills (s : State) (lid : Nat) (f : Launch → Launch) : (s.modLaunch lid f).ifills = s.ifills := rfl
@[simp] theorem State.modLaunch_groups (s : State) (lid : Nat) (f : Launch → Launch) : (s.modLaunch lid f).groups = s.groups := rfl
@[simp] theorem State.modLaunch_blocks (s : State) (lid : Nat) (f : Launch → Launch) : (s.modLaunch lid f).blocks = s.blocks := rfl
@[simp] theorem State.modLaunch_bars (s : State) (lid : Nat) (f : Launch → Launch) : (s.modLaunch lid f).bars = s.bars := rfl
@[simp] theorem State.modLaunch_barMsgs (s : State) (lid : Nat) (f : Launch → Launch) : (s.modLaunch lid f).barMsgs = s.barMsgs := rfl
@[simp] theorem State.modLaunch_tickets (s : State) (lid : Nat) (f : Launch → Launch) : (s.modLaunch lid f).tickets = s.tickets := rfl
@[simp] theorem State.modLaunch_sched (s : State) (lid : Nat) (f : Launch → Launch) : (s.modLaunch lid f).sched = s.sched := rfl
@[simp] theorem State.modLaunch_nextLid (s : State) (lid : Nat) (f : Launch → Launch) : (s.modLaunch lid f).nextLid = s.nextLid := rfl
@[simp] theorem State.modLaunch_podNews (s : State) (lid : Nat) (f : Launch → Launch) : (s.modLaunch lid f).podNews = s.podNews := rfl
@[simp] theorem State.modLaunch_dists (s : State) (lid : Nat) (f : Launch → Launch) : (s.modLaunch lid f).dists = s.dists := rfl
@[simp] theorem State.modLaunch_pages (s : State) (lid : Nat) (f : Launch → Launch) : (s.modLaunch lid f).pages = s.pages := rfl
@[simp] theorem State.modLaunch_ctxs (s : State) (lid : Nat) (f : Launch → Launch) : (s.modLaunch lid f).ctxs = s.ctxs := rfl
@[simp] theorem State.modLaunch_engines (s : State) (lid : Nat) (f : Launch → Launch) : (s.modLaunch lid f).engines = s.engines := rfl
@[simp] theorem State.modLaunch_regions (s : State) (lid : Nat) (f : Launch → Launch) : (s.modLaunch lid f).regions = s.regions := rfl
@[simp] theorem State.modLaunch_mats (s : State) (lid : Nat) (f : Launch → Launch) : (s.modLaunch lid f).mats = s.mats := rfl
@[simp] theorem State.modLaunch_gangs (s : State) (lid : Nat) (f : Launch → Launch) : (s.modLaunch lid f).gangs = s.gangs := rfl
@[simp] theorem State.modLaunch_ring (s : State) (lid : Nat) (f : Launch → Launch) : (s.modLaunch lid f).ring = s.ring := rfl
@[simp] theorem State.modLaunch_objs (s : State) (lid : Nat) (f : Launch → Launch) : (s.modLaunch lid f).objs = s.objs := rfl
@[simp] theorem State.modLaunch_queues (s : State) (lid : Nat) (f : Launch → Launch) : (s.modLaunch lid f).queues = s.queues := rfl
@[simp] theorem State.modLaunch_cmbs (s : State) (lid : Nat) (f : Launch → Launch) : (s.modLaunch lid f).cmbs = s.cmbs := rfl
@[simp] theorem State.modLaunch_packs (s : State) (lid : Nat) (f : Launch → Launch) : (s.modLaunch lid f).packs = s.packs := rfl
@[simp] theorem State.modLaunch_replies (s : State) (lid : Nat) (f : Launch → Launch) : (s.modLaunch lid f).replies = s.replies := rfl
@[simp] theorem State.modLaunch_steps (s : State) (lid : Nat) (f : Launch → Launch) : (s.modLaunch lid f).steps = s.steps := rfl
@[simp] theorem State.modLaunch_dir (s : State) (lid : Nat) (f : Launch → Launch) : (s.modLaunch lid f).dir = s.dir := rfl
@[simp] theorem State.modLaunch_censuses (s : State) (lid : Nat) (f : Launch → Launch) : (s.modLaunch lid f).censuses = s.censuses := rfl
@[simp] theorem State.modLaunch_moves (s : State) (lid : Nat) (f : Launch → Launch) : (s.modLaunch lid f).moves = s.moves := rfl
@[simp] theorem State.modLaunch_regs (s : State) (lid : Nat) (f : Launch → Launch) : (s.modLaunch lid f).regs = s.regs := rfl
@[simp] theorem State.modLaunch_faults (s : State) (lid : Nat) (f : Launch → Launch) : (s.modLaunch lid f).faults = s.faults := rfl
@[simp] theorem State.modLaunch_nextFid (s : State) (lid : Nat) (f : Launch → Launch) : (s.modLaunch lid f).nextFid = s.nextFid := rfl
@[simp] theorem State.modLaunch_shoots (s : State) (lid : Nat) (f : Launch → Launch) : (s.modLaunch lid f).shoots = s.shoots := rfl
@[simp] theorem State.modLaunch_portWrites (s : State) (lid : Nat) (f : Launch → Launch) : (s.modLaunch lid f).portWrites = s.portWrites := rfl
@[simp] theorem State.modLaunch_migrs (s : State) (lid : Nat) (f : Launch → Launch) : (s.modLaunch lid f).migrs = s.migrs := rfl
@[simp] theorem State.modLaunch_cols (s : State) (lid : Nat) (f : Launch → Launch) : (s.modLaunch lid f).cols = s.cols := rfl
@[simp] theorem State.modLaunch_ecc (s : State) (lid : Nat) (f : Launch → Launch) : (s.modLaunch lid f).ecc = s.ecc := rfl
@[simp] theorem State.modLaunch_dls (s : State) (lid : Nat) (f : Launch → Launch) : (s.modLaunch lid f).dls = s.dls := rfl
@[simp] theorem State.modLaunch_kports (s : State) (lid : Nat) (f : Launch → Launch) : (s.modLaunch lid f).kports = s.kports := rfl
@[simp] theorem State.modLaunch_lostBytes (s : State) (lid : Nat) (f : Launch → Launch) : (s.modLaunch lid f).lostBytes = s.lostBytes := rfl
@[simp] theorem State.modLaunch_parts (s : State) (lid : Nat) (f : Launch → Launch) : (s.modLaunch lid f).parts = s.parts := rfl
@[simp] theorem State.modLaunch_stopped (s : State) (lid : Nat) (f : Launch → Launch) : (s.modLaunch lid f).stopped = s.stopped := rfl
@[simp] theorem State.modLaunch_held (s : State) (lid : Nat) (f : Launch → Launch) : (s.modLaunch lid f).held = s.held := rfl
@[simp] theorem State.modLaunch_boot (s : State) (lid : Nat) (f : Launch → Launch) : (s.modLaunch lid f).boot = s.boot := rfl
@[simp] theorem State.modLaunch_pkg (s : State) (lid : Nat) (f : Launch → Launch) : (s.modLaunch lid f).pkg = s.pkg := rfl
@[simp] theorem State.modLaunch_pod (s : State) (lid : Nat) (f : Launch → Launch) : (s.modLaunch lid f).pod = s.pod := rfl
@[simp] theorem State.modLaunch_podSize (s : State) (lid : Nat) (f : Launch → Launch) : (s.modLaunch lid f).podSize = s.podSize := rfl
@[simp] theorem State.modLaunch_spillBase (s : State) (lid : Nat) (f : Launch → Launch) : (s.modLaunch lid f).spillBase = s.spillBase := rfl
@[simp] theorem State.modLaunch_spillPrev (s : State) (lid : Nat) (f : Launch → Launch) : (s.modLaunch lid f).spillPrev = s.spillPrev := rfl
@[simp] theorem State.modLaunch_preBudget (s : State) (lid : Nat) (f : Launch → Launch) : (s.modLaunch lid f).preBudget = s.preBudget := rfl
@[simp] theorem State.modLaunch_modTab (s : State) (lid : Nat) (f : Launch → Launch) : (s.modLaunch lid f).modTab = s.modTab := rfl
@[simp] theorem State.modLaunch_modAt (s : State) (lid : Nat) (f : Launch → Launch) : (s.modLaunch lid f).modAt = s.modAt := rfl
@[simp] theorem State.modLaunch_codeHist (s : State) (lid : Nat) (f : Launch → Launch) : (s.modLaunch lid f).codeHist = s.codeHist := rfl
@[simp] theorem State.modLaunch_counters (s : State) (lid : Nat) (f : Launch → Launch) : (s.modLaunch lid f).counters = s.counters := rfl

/-! ### A block replaced -/

@[simp] theorem State.modBlock_agenda (s : State) (lid idx : Nat) (f : Block → Block) : (s.modBlock lid idx f).agenda = s.agenda := rfl
@[simp] theorem State.modBlock_tick (s : State) (lid idx : Nat) (f : Block → Block) : (s.modBlock lid idx f).tick = s.tick := rfl
@[simp] theorem State.modBlock_cur (s : State) (lid idx : Nat) (f : Block → Block) : (s.modBlock lid idx f).cur = s.cur := rfl
@[simp] theorem State.modBlock_nextId (s : State) (lid idx : Nat) (f : Block → Block) : (s.modBlock lid idx f).nextId = s.nextId := rfl
@[simp] theorem State.modBlock_hbm (s : State) (lid idx : Nat) (f : Block → Block) : (s.modBlock lid idx f).hbm = s.hbm := rfl
@[simp] theorem State.modBlock_poison (s : State) (lid idx : Nat) (f : Block → Block) : (s.modBlock lid idx f).poison = s.poison := rfl
@[simp] theorem State.modBlock_onchip (s : State) (lid idx : Nat) (f : Block → Block) : (s.modBlock lid idx f).onchip = s.onchip := rfl
@[simp] theorem State.modBlock_l1d (s : State) (lid idx : Nat) (f : Block → Block) : (s.modBlock lid idx f).l1d = s.l1d := rfl
@[simp] theorem State.modBlock_roFilter (s : State) (lid idx : Nat) (f : Block → Block) : (s.modBlock lid idx f).roFilter = s.roFilter := rfl
@[simp] theorem State.modBlock_lastPeer (s : State) (lid idx : Nat) (f : Block → Block) : (s.modBlock lid idx f).lastPeer = s.lastPeer := rfl
@[simp] theorem State.modBlock_slices (s : State) (lid idx : Nat) (f : Block → Block) : (s.modBlock lid idx f).slices = s.slices := rfl
@[simp] theorem State.modBlock_remap (s : State) (lid idx : Nat) (f : Block → Block) : (s.modBlock lid idx f).remap = s.remap := rfl
@[simp] theorem State.modBlock_tlb (s : State) (lid idx : Nat) (f : Block → Block) : (s.modBlock lid idx f).tlb = s.tlb := rfl
@[simp] theorem State.modBlock_quadCopies (s : State) (lid idx : Nat) (f : Block → Block) : (s.modBlock lid idx f).quadCopies = s.quadCopies := rfl
@[simp] theorem State.modBlock_quadWrites (s : State) (lid idx : Nat) (f : Block → Block) : (s.modBlock lid idx f).quadWrites = s.quadWrites := rfl
@[simp] theorem State.modBlock_ops (s : State) (lid idx : Nat) (f : Block → Block) : (s.modBlock lid idx f).ops = s.ops := rfl
@[simp] theorem State.modBlock_mbox (s : State) (lid idx : Nat) (f : Block → Block) : (s.modBlock lid idx f).mbox = s.mbox := rfl
@[simp] theorem State.modBlock_engWords (s : State) (lid idx : Nat) (f : Block → Block) : (s.modBlock lid idx f).engWords = s.engWords := rfl
@[simp] theorem State.modBlock_icL0 (s : State) (lid idx : Nat) (f : Block → Block) : (s.modBlock lid idx f).icL0 = s.icL0 := rfl
@[simp] theorem State.modBlock_icL1 (s : State) (lid idx : Nat) (f : Block → Block) : (s.modBlock lid idx f).icL1 = s.icL1 := rfl
@[simp] theorem State.modBlock_icL2 (s : State) (lid idx : Nat) (f : Block → Block) : (s.modBlock lid idx f).icL2 = s.icL2 := rfl
@[simp] theorem State.modBlock_ifills (s : State) (lid idx : Nat) (f : Block → Block) : (s.modBlock lid idx f).ifills = s.ifills := rfl
@[simp] theorem State.modBlock_groups (s : State) (lid idx : Nat) (f : Block → Block) : (s.modBlock lid idx f).groups = s.groups := rfl
@[simp] theorem State.modBlock_bars (s : State) (lid idx : Nat) (f : Block → Block) : (s.modBlock lid idx f).bars = s.bars := rfl
@[simp] theorem State.modBlock_barMsgs (s : State) (lid idx : Nat) (f : Block → Block) : (s.modBlock lid idx f).barMsgs = s.barMsgs := rfl
@[simp] theorem State.modBlock_tickets (s : State) (lid idx : Nat) (f : Block → Block) : (s.modBlock lid idx f).tickets = s.tickets := rfl
@[simp] theorem State.modBlock_sched (s : State) (lid idx : Nat) (f : Block → Block) : (s.modBlock lid idx f).sched = s.sched := rfl
@[simp] theorem State.modBlock_launches (s : State) (lid idx : Nat) (f : Block → Block) : (s.modBlock lid idx f).launches = s.launches := rfl
@[simp] theorem State.modBlock_nextLid (s : State) (lid idx : Nat) (f : Block → Block) : (s.modBlock lid idx f).nextLid = s.nextLid := rfl
@[simp] theorem State.modBlock_podNews (s : State) (lid idx : Nat) (f : Block → Block) : (s.modBlock lid idx f).podNews = s.podNews := rfl
@[simp] theorem State.modBlock_dists (s : State) (lid idx : Nat) (f : Block → Block) : (s.modBlock lid idx f).dists = s.dists := rfl
@[simp] theorem State.modBlock_pages (s : State) (lid idx : Nat) (f : Block → Block) : (s.modBlock lid idx f).pages = s.pages := rfl
@[simp] theorem State.modBlock_ctxs (s : State) (lid idx : Nat) (f : Block → Block) : (s.modBlock lid idx f).ctxs = s.ctxs := rfl
@[simp] theorem State.modBlock_engines (s : State) (lid idx : Nat) (f : Block → Block) : (s.modBlock lid idx f).engines = s.engines := rfl
@[simp] theorem State.modBlock_regions (s : State) (lid idx : Nat) (f : Block → Block) : (s.modBlock lid idx f).regions = s.regions := rfl
@[simp] theorem State.modBlock_mats (s : State) (lid idx : Nat) (f : Block → Block) : (s.modBlock lid idx f).mats = s.mats := rfl
@[simp] theorem State.modBlock_gangs (s : State) (lid idx : Nat) (f : Block → Block) : (s.modBlock lid idx f).gangs = s.gangs := rfl
@[simp] theorem State.modBlock_ring (s : State) (lid idx : Nat) (f : Block → Block) : (s.modBlock lid idx f).ring = s.ring := rfl
@[simp] theorem State.modBlock_objs (s : State) (lid idx : Nat) (f : Block → Block) : (s.modBlock lid idx f).objs = s.objs := rfl
@[simp] theorem State.modBlock_queues (s : State) (lid idx : Nat) (f : Block → Block) : (s.modBlock lid idx f).queues = s.queues := rfl
@[simp] theorem State.modBlock_cmbs (s : State) (lid idx : Nat) (f : Block → Block) : (s.modBlock lid idx f).cmbs = s.cmbs := rfl
@[simp] theorem State.modBlock_packs (s : State) (lid idx : Nat) (f : Block → Block) : (s.modBlock lid idx f).packs = s.packs := rfl
@[simp] theorem State.modBlock_replies (s : State) (lid idx : Nat) (f : Block → Block) : (s.modBlock lid idx f).replies = s.replies := rfl
@[simp] theorem State.modBlock_steps (s : State) (lid idx : Nat) (f : Block → Block) : (s.modBlock lid idx f).steps = s.steps := rfl
@[simp] theorem State.modBlock_dir (s : State) (lid idx : Nat) (f : Block → Block) : (s.modBlock lid idx f).dir = s.dir := rfl
@[simp] theorem State.modBlock_censuses (s : State) (lid idx : Nat) (f : Block → Block) : (s.modBlock lid idx f).censuses = s.censuses := rfl
@[simp] theorem State.modBlock_moves (s : State) (lid idx : Nat) (f : Block → Block) : (s.modBlock lid idx f).moves = s.moves := rfl
@[simp] theorem State.modBlock_regs (s : State) (lid idx : Nat) (f : Block → Block) : (s.modBlock lid idx f).regs = s.regs := rfl
@[simp] theorem State.modBlock_faults (s : State) (lid idx : Nat) (f : Block → Block) : (s.modBlock lid idx f).faults = s.faults := rfl
@[simp] theorem State.modBlock_nextFid (s : State) (lid idx : Nat) (f : Block → Block) : (s.modBlock lid idx f).nextFid = s.nextFid := rfl
@[simp] theorem State.modBlock_shoots (s : State) (lid idx : Nat) (f : Block → Block) : (s.modBlock lid idx f).shoots = s.shoots := rfl
@[simp] theorem State.modBlock_portWrites (s : State) (lid idx : Nat) (f : Block → Block) : (s.modBlock lid idx f).portWrites = s.portWrites := rfl
@[simp] theorem State.modBlock_migrs (s : State) (lid idx : Nat) (f : Block → Block) : (s.modBlock lid idx f).migrs = s.migrs := rfl
@[simp] theorem State.modBlock_cols (s : State) (lid idx : Nat) (f : Block → Block) : (s.modBlock lid idx f).cols = s.cols := rfl
@[simp] theorem State.modBlock_ecc (s : State) (lid idx : Nat) (f : Block → Block) : (s.modBlock lid idx f).ecc = s.ecc := rfl
@[simp] theorem State.modBlock_dls (s : State) (lid idx : Nat) (f : Block → Block) : (s.modBlock lid idx f).dls = s.dls := rfl
@[simp] theorem State.modBlock_kports (s : State) (lid idx : Nat) (f : Block → Block) : (s.modBlock lid idx f).kports = s.kports := rfl
@[simp] theorem State.modBlock_lostBytes (s : State) (lid idx : Nat) (f : Block → Block) : (s.modBlock lid idx f).lostBytes = s.lostBytes := rfl
@[simp] theorem State.modBlock_parts (s : State) (lid idx : Nat) (f : Block → Block) : (s.modBlock lid idx f).parts = s.parts := rfl
@[simp] theorem State.modBlock_stopped (s : State) (lid idx : Nat) (f : Block → Block) : (s.modBlock lid idx f).stopped = s.stopped := rfl
@[simp] theorem State.modBlock_held (s : State) (lid idx : Nat) (f : Block → Block) : (s.modBlock lid idx f).held = s.held := rfl
@[simp] theorem State.modBlock_boot (s : State) (lid idx : Nat) (f : Block → Block) : (s.modBlock lid idx f).boot = s.boot := rfl
@[simp] theorem State.modBlock_pkg (s : State) (lid idx : Nat) (f : Block → Block) : (s.modBlock lid idx f).pkg = s.pkg := rfl
@[simp] theorem State.modBlock_pod (s : State) (lid idx : Nat) (f : Block → Block) : (s.modBlock lid idx f).pod = s.pod := rfl
@[simp] theorem State.modBlock_podSize (s : State) (lid idx : Nat) (f : Block → Block) : (s.modBlock lid idx f).podSize = s.podSize := rfl
@[simp] theorem State.modBlock_spillBase (s : State) (lid idx : Nat) (f : Block → Block) : (s.modBlock lid idx f).spillBase = s.spillBase := rfl
@[simp] theorem State.modBlock_spillPrev (s : State) (lid idx : Nat) (f : Block → Block) : (s.modBlock lid idx f).spillPrev = s.spillPrev := rfl
@[simp] theorem State.modBlock_preBudget (s : State) (lid idx : Nat) (f : Block → Block) : (s.modBlock lid idx f).preBudget = s.preBudget := rfl
@[simp] theorem State.modBlock_modTab (s : State) (lid idx : Nat) (f : Block → Block) : (s.modBlock lid idx f).modTab = s.modTab := rfl
@[simp] theorem State.modBlock_modAt (s : State) (lid idx : Nat) (f : Block → Block) : (s.modBlock lid idx f).modAt = s.modAt := rfl
@[simp] theorem State.modBlock_codeHist (s : State) (lid idx : Nat) (f : Block → Block) : (s.modBlock lid idx f).codeHist = s.codeHist := rfl
@[simp] theorem State.modBlock_counters (s : State) (lid idx : Nat) (f : Block → Block) : (s.modBlock lid idx f).counters = s.counters := rfl

/-! ### A memory operation replaced -/

@[simp] theorem State.setOp_agenda (s : State) (o : MemOp) : (s.setOp o).agenda = s.agenda := rfl
@[simp] theorem State.setOp_tick (s : State) (o : MemOp) : (s.setOp o).tick = s.tick := rfl
@[simp] theorem State.setOp_cur (s : State) (o : MemOp) : (s.setOp o).cur = s.cur := rfl
@[simp] theorem State.setOp_nextId (s : State) (o : MemOp) : (s.setOp o).nextId = s.nextId := rfl
@[simp] theorem State.setOp_hbm (s : State) (o : MemOp) : (s.setOp o).hbm = s.hbm := rfl
@[simp] theorem State.setOp_poison (s : State) (o : MemOp) : (s.setOp o).poison = s.poison := rfl
@[simp] theorem State.setOp_onchip (s : State) (o : MemOp) : (s.setOp o).onchip = s.onchip := rfl
@[simp] theorem State.setOp_l1d (s : State) (o : MemOp) : (s.setOp o).l1d = s.l1d := rfl
@[simp] theorem State.setOp_roFilter (s : State) (o : MemOp) : (s.setOp o).roFilter = s.roFilter := rfl
@[simp] theorem State.setOp_lastPeer (s : State) (o : MemOp) : (s.setOp o).lastPeer = s.lastPeer := rfl
@[simp] theorem State.setOp_slices (s : State) (o : MemOp) : (s.setOp o).slices = s.slices := rfl
@[simp] theorem State.setOp_remap (s : State) (o : MemOp) : (s.setOp o).remap = s.remap := rfl
@[simp] theorem State.setOp_tlb (s : State) (o : MemOp) : (s.setOp o).tlb = s.tlb := rfl
@[simp] theorem State.setOp_quadCopies (s : State) (o : MemOp) : (s.setOp o).quadCopies = s.quadCopies := rfl
@[simp] theorem State.setOp_quadWrites (s : State) (o : MemOp) : (s.setOp o).quadWrites = s.quadWrites := rfl
@[simp] theorem State.setOp_mbox (s : State) (o : MemOp) : (s.setOp o).mbox = s.mbox := rfl
@[simp] theorem State.setOp_engWords (s : State) (o : MemOp) : (s.setOp o).engWords = s.engWords := rfl
@[simp] theorem State.setOp_icL0 (s : State) (o : MemOp) : (s.setOp o).icL0 = s.icL0 := rfl
@[simp] theorem State.setOp_icL1 (s : State) (o : MemOp) : (s.setOp o).icL1 = s.icL1 := rfl
@[simp] theorem State.setOp_icL2 (s : State) (o : MemOp) : (s.setOp o).icL2 = s.icL2 := rfl
@[simp] theorem State.setOp_ifills (s : State) (o : MemOp) : (s.setOp o).ifills = s.ifills := rfl
@[simp] theorem State.setOp_groups (s : State) (o : MemOp) : (s.setOp o).groups = s.groups := rfl
@[simp] theorem State.setOp_blocks (s : State) (o : MemOp) : (s.setOp o).blocks = s.blocks := rfl
@[simp] theorem State.setOp_bars (s : State) (o : MemOp) : (s.setOp o).bars = s.bars := rfl
@[simp] theorem State.setOp_barMsgs (s : State) (o : MemOp) : (s.setOp o).barMsgs = s.barMsgs := rfl
@[simp] theorem State.setOp_tickets (s : State) (o : MemOp) : (s.setOp o).tickets = s.tickets := rfl
@[simp] theorem State.setOp_sched (s : State) (o : MemOp) : (s.setOp o).sched = s.sched := rfl
@[simp] theorem State.setOp_launches (s : State) (o : MemOp) : (s.setOp o).launches = s.launches := rfl
@[simp] theorem State.setOp_nextLid (s : State) (o : MemOp) : (s.setOp o).nextLid = s.nextLid := rfl
@[simp] theorem State.setOp_podNews (s : State) (o : MemOp) : (s.setOp o).podNews = s.podNews := rfl
@[simp] theorem State.setOp_dists (s : State) (o : MemOp) : (s.setOp o).dists = s.dists := rfl
@[simp] theorem State.setOp_pages (s : State) (o : MemOp) : (s.setOp o).pages = s.pages := rfl
@[simp] theorem State.setOp_ctxs (s : State) (o : MemOp) : (s.setOp o).ctxs = s.ctxs := rfl
@[simp] theorem State.setOp_engines (s : State) (o : MemOp) : (s.setOp o).engines = s.engines := rfl
@[simp] theorem State.setOp_regions (s : State) (o : MemOp) : (s.setOp o).regions = s.regions := rfl
@[simp] theorem State.setOp_mats (s : State) (o : MemOp) : (s.setOp o).mats = s.mats := rfl
@[simp] theorem State.setOp_gangs (s : State) (o : MemOp) : (s.setOp o).gangs = s.gangs := rfl
@[simp] theorem State.setOp_ring (s : State) (o : MemOp) : (s.setOp o).ring = s.ring := rfl
@[simp] theorem State.setOp_objs (s : State) (o : MemOp) : (s.setOp o).objs = s.objs := rfl
@[simp] theorem State.setOp_queues (s : State) (o : MemOp) : (s.setOp o).queues = s.queues := rfl
@[simp] theorem State.setOp_cmbs (s : State) (o : MemOp) : (s.setOp o).cmbs = s.cmbs := rfl
@[simp] theorem State.setOp_packs (s : State) (o : MemOp) : (s.setOp o).packs = s.packs := rfl
@[simp] theorem State.setOp_replies (s : State) (o : MemOp) : (s.setOp o).replies = s.replies := rfl
@[simp] theorem State.setOp_steps (s : State) (o : MemOp) : (s.setOp o).steps = s.steps := rfl
@[simp] theorem State.setOp_dir (s : State) (o : MemOp) : (s.setOp o).dir = s.dir := rfl
@[simp] theorem State.setOp_censuses (s : State) (o : MemOp) : (s.setOp o).censuses = s.censuses := rfl
@[simp] theorem State.setOp_moves (s : State) (o : MemOp) : (s.setOp o).moves = s.moves := rfl
@[simp] theorem State.setOp_regs (s : State) (o : MemOp) : (s.setOp o).regs = s.regs := rfl
@[simp] theorem State.setOp_faults (s : State) (o : MemOp) : (s.setOp o).faults = s.faults := rfl
@[simp] theorem State.setOp_nextFid (s : State) (o : MemOp) : (s.setOp o).nextFid = s.nextFid := rfl
@[simp] theorem State.setOp_shoots (s : State) (o : MemOp) : (s.setOp o).shoots = s.shoots := rfl
@[simp] theorem State.setOp_portWrites (s : State) (o : MemOp) : (s.setOp o).portWrites = s.portWrites := rfl
@[simp] theorem State.setOp_migrs (s : State) (o : MemOp) : (s.setOp o).migrs = s.migrs := rfl
@[simp] theorem State.setOp_cols (s : State) (o : MemOp) : (s.setOp o).cols = s.cols := rfl
@[simp] theorem State.setOp_ecc (s : State) (o : MemOp) : (s.setOp o).ecc = s.ecc := rfl
@[simp] theorem State.setOp_dls (s : State) (o : MemOp) : (s.setOp o).dls = s.dls := rfl
@[simp] theorem State.setOp_kports (s : State) (o : MemOp) : (s.setOp o).kports = s.kports := rfl
@[simp] theorem State.setOp_lostBytes (s : State) (o : MemOp) : (s.setOp o).lostBytes = s.lostBytes := rfl
@[simp] theorem State.setOp_parts (s : State) (o : MemOp) : (s.setOp o).parts = s.parts := rfl
@[simp] theorem State.setOp_stopped (s : State) (o : MemOp) : (s.setOp o).stopped = s.stopped := rfl
@[simp] theorem State.setOp_held (s : State) (o : MemOp) : (s.setOp o).held = s.held := rfl
@[simp] theorem State.setOp_boot (s : State) (o : MemOp) : (s.setOp o).boot = s.boot := rfl
@[simp] theorem State.setOp_pkg (s : State) (o : MemOp) : (s.setOp o).pkg = s.pkg := rfl
@[simp] theorem State.setOp_pod (s : State) (o : MemOp) : (s.setOp o).pod = s.pod := rfl
@[simp] theorem State.setOp_podSize (s : State) (o : MemOp) : (s.setOp o).podSize = s.podSize := rfl
@[simp] theorem State.setOp_spillBase (s : State) (o : MemOp) : (s.setOp o).spillBase = s.spillBase := rfl
@[simp] theorem State.setOp_spillPrev (s : State) (o : MemOp) : (s.setOp o).spillPrev = s.spillPrev := rfl
@[simp] theorem State.setOp_preBudget (s : State) (o : MemOp) : (s.setOp o).preBudget = s.preBudget := rfl
@[simp] theorem State.setOp_modTab (s : State) (o : MemOp) : (s.setOp o).modTab = s.modTab := rfl
@[simp] theorem State.setOp_modAt (s : State) (o : MemOp) : (s.setOp o).modAt = s.modAt := rfl
@[simp] theorem State.setOp_codeHist (s : State) (o : MemOp) : (s.setOp o).codeHist = s.codeHist := rfl
@[simp] theorem State.setOp_counters (s : State) (o : MemOp) : (s.setOp o).counters = s.counters := rfl

/-! ### A census replaced -/

@[simp] theorem State.modCensus_agenda (s : State) (n : Nat) (f : Census → Census) : (s.modCensus n f).agenda = s.agenda := rfl
@[simp] theorem State.modCensus_tick (s : State) (n : Nat) (f : Census → Census) : (s.modCensus n f).tick = s.tick := rfl
@[simp] theorem State.modCensus_cur (s : State) (n : Nat) (f : Census → Census) : (s.modCensus n f).cur = s.cur := rfl
@[simp] theorem State.modCensus_nextId (s : State) (n : Nat) (f : Census → Census) : (s.modCensus n f).nextId = s.nextId := rfl
@[simp] theorem State.modCensus_hbm (s : State) (n : Nat) (f : Census → Census) : (s.modCensus n f).hbm = s.hbm := rfl
@[simp] theorem State.modCensus_poison (s : State) (n : Nat) (f : Census → Census) : (s.modCensus n f).poison = s.poison := rfl
@[simp] theorem State.modCensus_onchip (s : State) (n : Nat) (f : Census → Census) : (s.modCensus n f).onchip = s.onchip := rfl
@[simp] theorem State.modCensus_l1d (s : State) (n : Nat) (f : Census → Census) : (s.modCensus n f).l1d = s.l1d := rfl
@[simp] theorem State.modCensus_roFilter (s : State) (n : Nat) (f : Census → Census) : (s.modCensus n f).roFilter = s.roFilter := rfl
@[simp] theorem State.modCensus_lastPeer (s : State) (n : Nat) (f : Census → Census) : (s.modCensus n f).lastPeer = s.lastPeer := rfl
@[simp] theorem State.modCensus_slices (s : State) (n : Nat) (f : Census → Census) : (s.modCensus n f).slices = s.slices := rfl
@[simp] theorem State.modCensus_remap (s : State) (n : Nat) (f : Census → Census) : (s.modCensus n f).remap = s.remap := rfl
@[simp] theorem State.modCensus_tlb (s : State) (n : Nat) (f : Census → Census) : (s.modCensus n f).tlb = s.tlb := rfl
@[simp] theorem State.modCensus_quadCopies (s : State) (n : Nat) (f : Census → Census) : (s.modCensus n f).quadCopies = s.quadCopies := rfl
@[simp] theorem State.modCensus_quadWrites (s : State) (n : Nat) (f : Census → Census) : (s.modCensus n f).quadWrites = s.quadWrites := rfl
@[simp] theorem State.modCensus_ops (s : State) (n : Nat) (f : Census → Census) : (s.modCensus n f).ops = s.ops := rfl
@[simp] theorem State.modCensus_mbox (s : State) (n : Nat) (f : Census → Census) : (s.modCensus n f).mbox = s.mbox := rfl
@[simp] theorem State.modCensus_engWords (s : State) (n : Nat) (f : Census → Census) : (s.modCensus n f).engWords = s.engWords := rfl
@[simp] theorem State.modCensus_icL0 (s : State) (n : Nat) (f : Census → Census) : (s.modCensus n f).icL0 = s.icL0 := rfl
@[simp] theorem State.modCensus_icL1 (s : State) (n : Nat) (f : Census → Census) : (s.modCensus n f).icL1 = s.icL1 := rfl
@[simp] theorem State.modCensus_icL2 (s : State) (n : Nat) (f : Census → Census) : (s.modCensus n f).icL2 = s.icL2 := rfl
@[simp] theorem State.modCensus_ifills (s : State) (n : Nat) (f : Census → Census) : (s.modCensus n f).ifills = s.ifills := rfl
@[simp] theorem State.modCensus_groups (s : State) (n : Nat) (f : Census → Census) : (s.modCensus n f).groups = s.groups := rfl
@[simp] theorem State.modCensus_blocks (s : State) (n : Nat) (f : Census → Census) : (s.modCensus n f).blocks = s.blocks := rfl
@[simp] theorem State.modCensus_bars (s : State) (n : Nat) (f : Census → Census) : (s.modCensus n f).bars = s.bars := rfl
@[simp] theorem State.modCensus_barMsgs (s : State) (n : Nat) (f : Census → Census) : (s.modCensus n f).barMsgs = s.barMsgs := rfl
@[simp] theorem State.modCensus_tickets (s : State) (n : Nat) (f : Census → Census) : (s.modCensus n f).tickets = s.tickets := rfl
@[simp] theorem State.modCensus_sched (s : State) (n : Nat) (f : Census → Census) : (s.modCensus n f).sched = s.sched := rfl
@[simp] theorem State.modCensus_launches (s : State) (n : Nat) (f : Census → Census) : (s.modCensus n f).launches = s.launches := rfl
@[simp] theorem State.modCensus_nextLid (s : State) (n : Nat) (f : Census → Census) : (s.modCensus n f).nextLid = s.nextLid := rfl
@[simp] theorem State.modCensus_podNews (s : State) (n : Nat) (f : Census → Census) : (s.modCensus n f).podNews = s.podNews := rfl
@[simp] theorem State.modCensus_dists (s : State) (n : Nat) (f : Census → Census) : (s.modCensus n f).dists = s.dists := rfl
@[simp] theorem State.modCensus_pages (s : State) (n : Nat) (f : Census → Census) : (s.modCensus n f).pages = s.pages := rfl
@[simp] theorem State.modCensus_ctxs (s : State) (n : Nat) (f : Census → Census) : (s.modCensus n f).ctxs = s.ctxs := rfl
@[simp] theorem State.modCensus_engines (s : State) (n : Nat) (f : Census → Census) : (s.modCensus n f).engines = s.engines := rfl
@[simp] theorem State.modCensus_regions (s : State) (n : Nat) (f : Census → Census) : (s.modCensus n f).regions = s.regions := rfl
@[simp] theorem State.modCensus_mats (s : State) (n : Nat) (f : Census → Census) : (s.modCensus n f).mats = s.mats := rfl
@[simp] theorem State.modCensus_gangs (s : State) (n : Nat) (f : Census → Census) : (s.modCensus n f).gangs = s.gangs := rfl
@[simp] theorem State.modCensus_ring (s : State) (n : Nat) (f : Census → Census) : (s.modCensus n f).ring = s.ring := rfl
@[simp] theorem State.modCensus_objs (s : State) (n : Nat) (f : Census → Census) : (s.modCensus n f).objs = s.objs := rfl
@[simp] theorem State.modCensus_queues (s : State) (n : Nat) (f : Census → Census) : (s.modCensus n f).queues = s.queues := rfl
@[simp] theorem State.modCensus_cmbs (s : State) (n : Nat) (f : Census → Census) : (s.modCensus n f).cmbs = s.cmbs := rfl
@[simp] theorem State.modCensus_packs (s : State) (n : Nat) (f : Census → Census) : (s.modCensus n f).packs = s.packs := rfl
@[simp] theorem State.modCensus_replies (s : State) (n : Nat) (f : Census → Census) : (s.modCensus n f).replies = s.replies := rfl
@[simp] theorem State.modCensus_steps (s : State) (n : Nat) (f : Census → Census) : (s.modCensus n f).steps = s.steps := rfl
@[simp] theorem State.modCensus_dir (s : State) (n : Nat) (f : Census → Census) : (s.modCensus n f).dir = s.dir := rfl
@[simp] theorem State.modCensus_moves (s : State) (n : Nat) (f : Census → Census) : (s.modCensus n f).moves = s.moves := rfl
@[simp] theorem State.modCensus_regs (s : State) (n : Nat) (f : Census → Census) : (s.modCensus n f).regs = s.regs := rfl
@[simp] theorem State.modCensus_faults (s : State) (n : Nat) (f : Census → Census) : (s.modCensus n f).faults = s.faults := rfl
@[simp] theorem State.modCensus_nextFid (s : State) (n : Nat) (f : Census → Census) : (s.modCensus n f).nextFid = s.nextFid := rfl
@[simp] theorem State.modCensus_shoots (s : State) (n : Nat) (f : Census → Census) : (s.modCensus n f).shoots = s.shoots := rfl
@[simp] theorem State.modCensus_portWrites (s : State) (n : Nat) (f : Census → Census) : (s.modCensus n f).portWrites = s.portWrites := rfl
@[simp] theorem State.modCensus_migrs (s : State) (n : Nat) (f : Census → Census) : (s.modCensus n f).migrs = s.migrs := rfl
@[simp] theorem State.modCensus_cols (s : State) (n : Nat) (f : Census → Census) : (s.modCensus n f).cols = s.cols := rfl
@[simp] theorem State.modCensus_ecc (s : State) (n : Nat) (f : Census → Census) : (s.modCensus n f).ecc = s.ecc := rfl
@[simp] theorem State.modCensus_dls (s : State) (n : Nat) (f : Census → Census) : (s.modCensus n f).dls = s.dls := rfl
@[simp] theorem State.modCensus_kports (s : State) (n : Nat) (f : Census → Census) : (s.modCensus n f).kports = s.kports := rfl
@[simp] theorem State.modCensus_lostBytes (s : State) (n : Nat) (f : Census → Census) : (s.modCensus n f).lostBytes = s.lostBytes := rfl
@[simp] theorem State.modCensus_parts (s : State) (n : Nat) (f : Census → Census) : (s.modCensus n f).parts = s.parts := rfl
@[simp] theorem State.modCensus_stopped (s : State) (n : Nat) (f : Census → Census) : (s.modCensus n f).stopped = s.stopped := rfl
@[simp] theorem State.modCensus_held (s : State) (n : Nat) (f : Census → Census) : (s.modCensus n f).held = s.held := rfl
@[simp] theorem State.modCensus_boot (s : State) (n : Nat) (f : Census → Census) : (s.modCensus n f).boot = s.boot := rfl
@[simp] theorem State.modCensus_pkg (s : State) (n : Nat) (f : Census → Census) : (s.modCensus n f).pkg = s.pkg := rfl
@[simp] theorem State.modCensus_pod (s : State) (n : Nat) (f : Census → Census) : (s.modCensus n f).pod = s.pod := rfl
@[simp] theorem State.modCensus_podSize (s : State) (n : Nat) (f : Census → Census) : (s.modCensus n f).podSize = s.podSize := rfl
@[simp] theorem State.modCensus_spillBase (s : State) (n : Nat) (f : Census → Census) : (s.modCensus n f).spillBase = s.spillBase := rfl
@[simp] theorem State.modCensus_spillPrev (s : State) (n : Nat) (f : Census → Census) : (s.modCensus n f).spillPrev = s.spillPrev := rfl
@[simp] theorem State.modCensus_preBudget (s : State) (n : Nat) (f : Census → Census) : (s.modCensus n f).preBudget = s.preBudget := rfl
@[simp] theorem State.modCensus_modTab (s : State) (n : Nat) (f : Census → Census) : (s.modCensus n f).modTab = s.modTab := rfl
@[simp] theorem State.modCensus_modAt (s : State) (n : Nat) (f : Census → Census) : (s.modCensus n f).modAt = s.modAt := rfl
@[simp] theorem State.modCensus_codeHist (s : State) (n : Nat) (f : Census → Census) : (s.modCensus n f).codeHist = s.codeHist := rfl
@[simp] theorem State.modCensus_counters (s : State) (n : Nat) (f : Census → Census) : (s.modCensus n f).counters = s.counters := rfl

/-! ### A fresh identifier taken -/

@[simp] theorem State.fresh_agenda (s : State)  : (s.fresh.2).agenda = s.agenda := rfl
@[simp] theorem State.fresh_tick (s : State)  : (s.fresh.2).tick = s.tick := rfl
@[simp] theorem State.fresh_cur (s : State)  : (s.fresh.2).cur = s.cur := rfl
@[simp] theorem State.fresh_hbm (s : State)  : (s.fresh.2).hbm = s.hbm := rfl
@[simp] theorem State.fresh_poison (s : State)  : (s.fresh.2).poison = s.poison := rfl
@[simp] theorem State.fresh_onchip (s : State)  : (s.fresh.2).onchip = s.onchip := rfl
@[simp] theorem State.fresh_l1d (s : State)  : (s.fresh.2).l1d = s.l1d := rfl
@[simp] theorem State.fresh_roFilter (s : State)  : (s.fresh.2).roFilter = s.roFilter := rfl
@[simp] theorem State.fresh_lastPeer (s : State)  : (s.fresh.2).lastPeer = s.lastPeer := rfl
@[simp] theorem State.fresh_slices (s : State)  : (s.fresh.2).slices = s.slices := rfl
@[simp] theorem State.fresh_remap (s : State)  : (s.fresh.2).remap = s.remap := rfl
@[simp] theorem State.fresh_tlb (s : State)  : (s.fresh.2).tlb = s.tlb := rfl
@[simp] theorem State.fresh_quadCopies (s : State)  : (s.fresh.2).quadCopies = s.quadCopies := rfl
@[simp] theorem State.fresh_quadWrites (s : State)  : (s.fresh.2).quadWrites = s.quadWrites := rfl
@[simp] theorem State.fresh_ops (s : State)  : (s.fresh.2).ops = s.ops := rfl
@[simp] theorem State.fresh_mbox (s : State)  : (s.fresh.2).mbox = s.mbox := rfl
@[simp] theorem State.fresh_engWords (s : State)  : (s.fresh.2).engWords = s.engWords := rfl
@[simp] theorem State.fresh_icL0 (s : State)  : (s.fresh.2).icL0 = s.icL0 := rfl
@[simp] theorem State.fresh_icL1 (s : State)  : (s.fresh.2).icL1 = s.icL1 := rfl
@[simp] theorem State.fresh_icL2 (s : State)  : (s.fresh.2).icL2 = s.icL2 := rfl
@[simp] theorem State.fresh_ifills (s : State)  : (s.fresh.2).ifills = s.ifills := rfl
@[simp] theorem State.fresh_groups (s : State)  : (s.fresh.2).groups = s.groups := rfl
@[simp] theorem State.fresh_blocks (s : State)  : (s.fresh.2).blocks = s.blocks := rfl
@[simp] theorem State.fresh_bars (s : State)  : (s.fresh.2).bars = s.bars := rfl
@[simp] theorem State.fresh_barMsgs (s : State)  : (s.fresh.2).barMsgs = s.barMsgs := rfl
@[simp] theorem State.fresh_tickets (s : State)  : (s.fresh.2).tickets = s.tickets := rfl
@[simp] theorem State.fresh_sched (s : State)  : (s.fresh.2).sched = s.sched := rfl
@[simp] theorem State.fresh_launches (s : State)  : (s.fresh.2).launches = s.launches := rfl
@[simp] theorem State.fresh_nextLid (s : State)  : (s.fresh.2).nextLid = s.nextLid := rfl
@[simp] theorem State.fresh_podNews (s : State)  : (s.fresh.2).podNews = s.podNews := rfl
@[simp] theorem State.fresh_dists (s : State)  : (s.fresh.2).dists = s.dists := rfl
@[simp] theorem State.fresh_pages (s : State)  : (s.fresh.2).pages = s.pages := rfl
@[simp] theorem State.fresh_ctxs (s : State)  : (s.fresh.2).ctxs = s.ctxs := rfl
@[simp] theorem State.fresh_engines (s : State)  : (s.fresh.2).engines = s.engines := rfl
@[simp] theorem State.fresh_regions (s : State)  : (s.fresh.2).regions = s.regions := rfl
@[simp] theorem State.fresh_mats (s : State)  : (s.fresh.2).mats = s.mats := rfl
@[simp] theorem State.fresh_gangs (s : State)  : (s.fresh.2).gangs = s.gangs := rfl
@[simp] theorem State.fresh_ring (s : State)  : (s.fresh.2).ring = s.ring := rfl
@[simp] theorem State.fresh_objs (s : State)  : (s.fresh.2).objs = s.objs := rfl
@[simp] theorem State.fresh_queues (s : State)  : (s.fresh.2).queues = s.queues := rfl
@[simp] theorem State.fresh_cmbs (s : State)  : (s.fresh.2).cmbs = s.cmbs := rfl
@[simp] theorem State.fresh_packs (s : State)  : (s.fresh.2).packs = s.packs := rfl
@[simp] theorem State.fresh_replies (s : State)  : (s.fresh.2).replies = s.replies := rfl
@[simp] theorem State.fresh_steps (s : State)  : (s.fresh.2).steps = s.steps := rfl
@[simp] theorem State.fresh_dir (s : State)  : (s.fresh.2).dir = s.dir := rfl
@[simp] theorem State.fresh_censuses (s : State)  : (s.fresh.2).censuses = s.censuses := rfl
@[simp] theorem State.fresh_moves (s : State)  : (s.fresh.2).moves = s.moves := rfl
@[simp] theorem State.fresh_regs (s : State)  : (s.fresh.2).regs = s.regs := rfl
@[simp] theorem State.fresh_faults (s : State)  : (s.fresh.2).faults = s.faults := rfl
@[simp] theorem State.fresh_nextFid (s : State)  : (s.fresh.2).nextFid = s.nextFid := rfl
@[simp] theorem State.fresh_shoots (s : State)  : (s.fresh.2).shoots = s.shoots := rfl
@[simp] theorem State.fresh_portWrites (s : State)  : (s.fresh.2).portWrites = s.portWrites := rfl
@[simp] theorem State.fresh_migrs (s : State)  : (s.fresh.2).migrs = s.migrs := rfl
@[simp] theorem State.fresh_cols (s : State)  : (s.fresh.2).cols = s.cols := rfl
@[simp] theorem State.fresh_ecc (s : State)  : (s.fresh.2).ecc = s.ecc := rfl
@[simp] theorem State.fresh_dls (s : State)  : (s.fresh.2).dls = s.dls := rfl
@[simp] theorem State.fresh_kports (s : State)  : (s.fresh.2).kports = s.kports := rfl
@[simp] theorem State.fresh_lostBytes (s : State)  : (s.fresh.2).lostBytes = s.lostBytes := rfl
@[simp] theorem State.fresh_parts (s : State)  : (s.fresh.2).parts = s.parts := rfl
@[simp] theorem State.fresh_stopped (s : State)  : (s.fresh.2).stopped = s.stopped := rfl
@[simp] theorem State.fresh_held (s : State)  : (s.fresh.2).held = s.held := rfl
@[simp] theorem State.fresh_boot (s : State)  : (s.fresh.2).boot = s.boot := rfl
@[simp] theorem State.fresh_pkg (s : State)  : (s.fresh.2).pkg = s.pkg := rfl
@[simp] theorem State.fresh_pod (s : State)  : (s.fresh.2).pod = s.pod := rfl
@[simp] theorem State.fresh_podSize (s : State)  : (s.fresh.2).podSize = s.podSize := rfl
@[simp] theorem State.fresh_spillBase (s : State)  : (s.fresh.2).spillBase = s.spillBase := rfl
@[simp] theorem State.fresh_spillPrev (s : State)  : (s.fresh.2).spillPrev = s.spillPrev := rfl
@[simp] theorem State.fresh_preBudget (s : State)  : (s.fresh.2).preBudget = s.preBudget := rfl
@[simp] theorem State.fresh_modTab (s : State)  : (s.fresh.2).modTab = s.modTab := rfl
@[simp] theorem State.fresh_modAt (s : State)  : (s.fresh.2).modAt = s.modAt := rfl
@[simp] theorem State.fresh_codeHist (s : State)  : (s.fresh.2).codeHist = s.codeHist := rfl
@[simp] theorem State.fresh_counters (s : State)  : (s.fresh.2).counters = s.counters := rfl

/-! ### The waiting WAITAs tested, and on-chip bytes written -/

@[simp] theorem State.watch_agenda (s : State)  : (s.watch).agenda = s.agenda := by
  unfold State.watch; split <;> rfl
@[simp] theorem State.watch_tick (s : State)  : (s.watch).tick = s.tick := by
  unfold State.watch; split <;> rfl
@[simp] theorem State.watch_cur (s : State)  : (s.watch).cur = s.cur := by
  unfold State.watch; split <;> rfl
@[simp] theorem State.watch_nextId (s : State)  : (s.watch).nextId = s.nextId := by
  unfold State.watch; split <;> rfl
@[simp] theorem State.watch_hbm (s : State)  : (s.watch).hbm = s.hbm := by
  unfold State.watch; split <;> rfl
@[simp] theorem State.watch_poison (s : State)  : (s.watch).poison = s.poison := by
  unfold State.watch; split <;> rfl
@[simp] theorem State.watch_onchip (s : State)  : (s.watch).onchip = s.onchip := by
  unfold State.watch; split <;> rfl
@[simp] theorem State.watch_l1d (s : State)  : (s.watch).l1d = s.l1d := by
  unfold State.watch; split <;> rfl
@[simp] theorem State.watch_roFilter (s : State)  : (s.watch).roFilter = s.roFilter := by
  unfold State.watch; split <;> rfl
@[simp] theorem State.watch_lastPeer (s : State)  : (s.watch).lastPeer = s.lastPeer := by
  unfold State.watch; split <;> rfl
@[simp] theorem State.watch_slices (s : State)  : (s.watch).slices = s.slices := by
  unfold State.watch; split <;> rfl
@[simp] theorem State.watch_remap (s : State)  : (s.watch).remap = s.remap := by
  unfold State.watch; split <;> rfl
@[simp] theorem State.watch_tlb (s : State)  : (s.watch).tlb = s.tlb := by
  unfold State.watch; split <;> rfl
@[simp] theorem State.watch_quadCopies (s : State)  : (s.watch).quadCopies = s.quadCopies := by
  unfold State.watch; split <;> rfl
@[simp] theorem State.watch_quadWrites (s : State)  : (s.watch).quadWrites = s.quadWrites := by
  unfold State.watch; split <;> rfl
@[simp] theorem State.watch_mbox (s : State)  : (s.watch).mbox = s.mbox := by
  unfold State.watch; split <;> rfl
@[simp] theorem State.watch_icL0 (s : State)  : (s.watch).icL0 = s.icL0 := by
  unfold State.watch; split <;> rfl
@[simp] theorem State.watch_icL1 (s : State)  : (s.watch).icL1 = s.icL1 := by
  unfold State.watch; split <;> rfl
@[simp] theorem State.watch_icL2 (s : State)  : (s.watch).icL2 = s.icL2 := by
  unfold State.watch; split <;> rfl
@[simp] theorem State.watch_ifills (s : State)  : (s.watch).ifills = s.ifills := by
  unfold State.watch; split <;> rfl
@[simp] theorem State.watch_groups (s : State)  : (s.watch).groups = s.groups := by
  unfold State.watch; split <;> rfl
@[simp] theorem State.watch_blocks (s : State)  : (s.watch).blocks = s.blocks := by
  unfold State.watch; split <;> rfl
@[simp] theorem State.watch_bars (s : State)  : (s.watch).bars = s.bars := by
  unfold State.watch; split <;> rfl
@[simp] theorem State.watch_barMsgs (s : State)  : (s.watch).barMsgs = s.barMsgs := by
  unfold State.watch; split <;> rfl
@[simp] theorem State.watch_tickets (s : State)  : (s.watch).tickets = s.tickets := by
  unfold State.watch; split <;> rfl
@[simp] theorem State.watch_sched (s : State)  : (s.watch).sched = s.sched := by
  unfold State.watch; split <;> rfl
@[simp] theorem State.watch_launches (s : State)  : (s.watch).launches = s.launches := by
  unfold State.watch; split <;> rfl
@[simp] theorem State.watch_nextLid (s : State)  : (s.watch).nextLid = s.nextLid := by
  unfold State.watch; split <;> rfl
@[simp] theorem State.watch_podNews (s : State)  : (s.watch).podNews = s.podNews := by
  unfold State.watch; split <;> rfl
@[simp] theorem State.watch_dists (s : State)  : (s.watch).dists = s.dists := by
  unfold State.watch; split <;> rfl
@[simp] theorem State.watch_pages (s : State)  : (s.watch).pages = s.pages := by
  unfold State.watch; split <;> rfl
@[simp] theorem State.watch_ctxs (s : State)  : (s.watch).ctxs = s.ctxs := by
  unfold State.watch; split <;> rfl
@[simp] theorem State.watch_engines (s : State)  : (s.watch).engines = s.engines := by
  unfold State.watch; split <;> rfl
@[simp] theorem State.watch_regions (s : State)  : (s.watch).regions = s.regions := by
  unfold State.watch; split <;> rfl
@[simp] theorem State.watch_mats (s : State)  : (s.watch).mats = s.mats := by
  unfold State.watch; split <;> rfl
@[simp] theorem State.watch_gangs (s : State)  : (s.watch).gangs = s.gangs := by
  unfold State.watch; split <;> rfl
@[simp] theorem State.watch_ring (s : State)  : (s.watch).ring = s.ring := by
  unfold State.watch; split <;> rfl
@[simp] theorem State.watch_objs (s : State)  : (s.watch).objs = s.objs := by
  unfold State.watch; split <;> rfl
@[simp] theorem State.watch_queues (s : State)  : (s.watch).queues = s.queues := by
  unfold State.watch; split <;> rfl
@[simp] theorem State.watch_cmbs (s : State)  : (s.watch).cmbs = s.cmbs := by
  unfold State.watch; split <;> rfl
@[simp] theorem State.watch_packs (s : State)  : (s.watch).packs = s.packs := by
  unfold State.watch; split <;> rfl
@[simp] theorem State.watch_replies (s : State)  : (s.watch).replies = s.replies := by
  unfold State.watch; split <;> rfl
@[simp] theorem State.watch_steps (s : State)  : (s.watch).steps = s.steps := by
  unfold State.watch; split <;> rfl
@[simp] theorem State.watch_dir (s : State)  : (s.watch).dir = s.dir := by
  unfold State.watch; split <;> rfl
@[simp] theorem State.watch_censuses (s : State)  : (s.watch).censuses = s.censuses := by
  unfold State.watch; split <;> rfl
@[simp] theorem State.watch_moves (s : State)  : (s.watch).moves = s.moves := by
  unfold State.watch; split <;> rfl
@[simp] theorem State.watch_regs (s : State)  : (s.watch).regs = s.regs := by
  unfold State.watch; split <;> rfl
@[simp] theorem State.watch_faults (s : State)  : (s.watch).faults = s.faults := by
  unfold State.watch; split <;> rfl
@[simp] theorem State.watch_nextFid (s : State)  : (s.watch).nextFid = s.nextFid := by
  unfold State.watch; split <;> rfl
@[simp] theorem State.watch_shoots (s : State)  : (s.watch).shoots = s.shoots := by
  unfold State.watch; split <;> rfl
@[simp] theorem State.watch_portWrites (s : State)  : (s.watch).portWrites = s.portWrites := by
  unfold State.watch; split <;> rfl
@[simp] theorem State.watch_migrs (s : State)  : (s.watch).migrs = s.migrs := by
  unfold State.watch; split <;> rfl
@[simp] theorem State.watch_cols (s : State)  : (s.watch).cols = s.cols := by
  unfold State.watch; split <;> rfl
@[simp] theorem State.watch_ecc (s : State)  : (s.watch).ecc = s.ecc := by
  unfold State.watch; split <;> rfl
@[simp] theorem State.watch_dls (s : State)  : (s.watch).dls = s.dls := by
  unfold State.watch; split <;> rfl
@[simp] theorem State.watch_kports (s : State)  : (s.watch).kports = s.kports := by
  unfold State.watch; split <;> rfl
@[simp] theorem State.watch_parts (s : State)  : (s.watch).parts = s.parts := by
  unfold State.watch; split <;> rfl
@[simp] theorem State.watch_stopped (s : State)  : (s.watch).stopped = s.stopped := by
  unfold State.watch; split <;> rfl
@[simp] theorem State.watch_held (s : State)  : (s.watch).held = s.held := by
  unfold State.watch; split <;> rfl
@[simp] theorem State.watch_boot (s : State)  : (s.watch).boot = s.boot := by
  unfold State.watch; split <;> rfl
@[simp] theorem State.watch_pkg (s : State)  : (s.watch).pkg = s.pkg := by
  unfold State.watch; split <;> rfl
@[simp] theorem State.watch_pod (s : State)  : (s.watch).pod = s.pod := by
  unfold State.watch; split <;> rfl
@[simp] theorem State.watch_podSize (s : State)  : (s.watch).podSize = s.podSize := by
  unfold State.watch; split <;> rfl
@[simp] theorem State.watch_spillBase (s : State)  : (s.watch).spillBase = s.spillBase := by
  unfold State.watch; split <;> rfl
@[simp] theorem State.watch_preBudget (s : State)  : (s.watch).preBudget = s.preBudget := by
  unfold State.watch; split <;> rfl
@[simp] theorem State.watch_modTab (s : State)  : (s.watch).modTab = s.modTab := by
  unfold State.watch; split <;> rfl
@[simp] theorem State.watch_modAt (s : State)  : (s.watch).modAt = s.modAt := by
  unfold State.watch; split <;> rfl
@[simp] theorem State.watch_codeHist (s : State)  : (s.watch).codeHist = s.codeHist := by
  unfold State.watch; split <;> rfl
@[simp] theorem State.watch_counters (s : State)  : (s.watch).counters = s.counters := by
  unfold State.watch; split <;> rfl

@[simp] theorem State.ocWrite_agenda (s : State) (a : Nat) (bs : List Byte) : (s.ocWrite a bs).agenda = s.agenda := State.watch_agenda _
@[simp] theorem State.ocWrite_tick (s : State) (a : Nat) (bs : List Byte) : (s.ocWrite a bs).tick = s.tick := State.watch_tick _
@[simp] theorem State.ocWrite_cur (s : State) (a : Nat) (bs : List Byte) : (s.ocWrite a bs).cur = s.cur := State.watch_cur _
@[simp] theorem State.ocWrite_nextId (s : State) (a : Nat) (bs : List Byte) : (s.ocWrite a bs).nextId = s.nextId := State.watch_nextId _
@[simp] theorem State.ocWrite_hbm (s : State) (a : Nat) (bs : List Byte) : (s.ocWrite a bs).hbm = s.hbm := State.watch_hbm _
@[simp] theorem State.ocWrite_poison (s : State) (a : Nat) (bs : List Byte) : (s.ocWrite a bs).poison = s.poison := State.watch_poison _
@[simp] theorem State.ocWrite_l1d (s : State) (a : Nat) (bs : List Byte) : (s.ocWrite a bs).l1d = s.l1d := State.watch_l1d _
@[simp] theorem State.ocWrite_roFilter (s : State) (a : Nat) (bs : List Byte) : (s.ocWrite a bs).roFilter = s.roFilter := State.watch_roFilter _
@[simp] theorem State.ocWrite_lastPeer (s : State) (a : Nat) (bs : List Byte) : (s.ocWrite a bs).lastPeer = s.lastPeer := State.watch_lastPeer _
@[simp] theorem State.ocWrite_slices (s : State) (a : Nat) (bs : List Byte) : (s.ocWrite a bs).slices = s.slices := State.watch_slices _
@[simp] theorem State.ocWrite_remap (s : State) (a : Nat) (bs : List Byte) : (s.ocWrite a bs).remap = s.remap := State.watch_remap _
@[simp] theorem State.ocWrite_tlb (s : State) (a : Nat) (bs : List Byte) : (s.ocWrite a bs).tlb = s.tlb := State.watch_tlb _
@[simp] theorem State.ocWrite_quadCopies (s : State) (a : Nat) (bs : List Byte) : (s.ocWrite a bs).quadCopies = s.quadCopies := State.watch_quadCopies _
@[simp] theorem State.ocWrite_quadWrites (s : State) (a : Nat) (bs : List Byte) : (s.ocWrite a bs).quadWrites = s.quadWrites := State.watch_quadWrites _
@[simp] theorem State.ocWrite_mbox (s : State) (a : Nat) (bs : List Byte) : (s.ocWrite a bs).mbox = s.mbox := State.watch_mbox _
@[simp] theorem State.ocWrite_icL0 (s : State) (a : Nat) (bs : List Byte) : (s.ocWrite a bs).icL0 = s.icL0 := State.watch_icL0 _
@[simp] theorem State.ocWrite_icL1 (s : State) (a : Nat) (bs : List Byte) : (s.ocWrite a bs).icL1 = s.icL1 := State.watch_icL1 _
@[simp] theorem State.ocWrite_icL2 (s : State) (a : Nat) (bs : List Byte) : (s.ocWrite a bs).icL2 = s.icL2 := State.watch_icL2 _
@[simp] theorem State.ocWrite_ifills (s : State) (a : Nat) (bs : List Byte) : (s.ocWrite a bs).ifills = s.ifills := State.watch_ifills _
@[simp] theorem State.ocWrite_groups (s : State) (a : Nat) (bs : List Byte) : (s.ocWrite a bs).groups = s.groups := State.watch_groups _
@[simp] theorem State.ocWrite_blocks (s : State) (a : Nat) (bs : List Byte) : (s.ocWrite a bs).blocks = s.blocks := State.watch_blocks _
@[simp] theorem State.ocWrite_bars (s : State) (a : Nat) (bs : List Byte) : (s.ocWrite a bs).bars = s.bars := State.watch_bars _
@[simp] theorem State.ocWrite_barMsgs (s : State) (a : Nat) (bs : List Byte) : (s.ocWrite a bs).barMsgs = s.barMsgs := State.watch_barMsgs _
@[simp] theorem State.ocWrite_tickets (s : State) (a : Nat) (bs : List Byte) : (s.ocWrite a bs).tickets = s.tickets := State.watch_tickets _
@[simp] theorem State.ocWrite_sched (s : State) (a : Nat) (bs : List Byte) : (s.ocWrite a bs).sched = s.sched := State.watch_sched _
@[simp] theorem State.ocWrite_launches (s : State) (a : Nat) (bs : List Byte) : (s.ocWrite a bs).launches = s.launches := State.watch_launches _
@[simp] theorem State.ocWrite_nextLid (s : State) (a : Nat) (bs : List Byte) : (s.ocWrite a bs).nextLid = s.nextLid := State.watch_nextLid _
@[simp] theorem State.ocWrite_podNews (s : State) (a : Nat) (bs : List Byte) : (s.ocWrite a bs).podNews = s.podNews := State.watch_podNews _
@[simp] theorem State.ocWrite_dists (s : State) (a : Nat) (bs : List Byte) : (s.ocWrite a bs).dists = s.dists := State.watch_dists _
@[simp] theorem State.ocWrite_pages (s : State) (a : Nat) (bs : List Byte) : (s.ocWrite a bs).pages = s.pages := State.watch_pages _
@[simp] theorem State.ocWrite_ctxs (s : State) (a : Nat) (bs : List Byte) : (s.ocWrite a bs).ctxs = s.ctxs := State.watch_ctxs _
@[simp] theorem State.ocWrite_engines (s : State) (a : Nat) (bs : List Byte) : (s.ocWrite a bs).engines = s.engines := State.watch_engines _
@[simp] theorem State.ocWrite_regions (s : State) (a : Nat) (bs : List Byte) : (s.ocWrite a bs).regions = s.regions := State.watch_regions _
@[simp] theorem State.ocWrite_mats (s : State) (a : Nat) (bs : List Byte) : (s.ocWrite a bs).mats = s.mats := State.watch_mats _
@[simp] theorem State.ocWrite_gangs (s : State) (a : Nat) (bs : List Byte) : (s.ocWrite a bs).gangs = s.gangs := State.watch_gangs _
@[simp] theorem State.ocWrite_ring (s : State) (a : Nat) (bs : List Byte) : (s.ocWrite a bs).ring = s.ring := State.watch_ring _
@[simp] theorem State.ocWrite_objs (s : State) (a : Nat) (bs : List Byte) : (s.ocWrite a bs).objs = s.objs := State.watch_objs _
@[simp] theorem State.ocWrite_queues (s : State) (a : Nat) (bs : List Byte) : (s.ocWrite a bs).queues = s.queues := State.watch_queues _
@[simp] theorem State.ocWrite_cmbs (s : State) (a : Nat) (bs : List Byte) : (s.ocWrite a bs).cmbs = s.cmbs := State.watch_cmbs _
@[simp] theorem State.ocWrite_packs (s : State) (a : Nat) (bs : List Byte) : (s.ocWrite a bs).packs = s.packs := State.watch_packs _
@[simp] theorem State.ocWrite_replies (s : State) (a : Nat) (bs : List Byte) : (s.ocWrite a bs).replies = s.replies := State.watch_replies _
@[simp] theorem State.ocWrite_steps (s : State) (a : Nat) (bs : List Byte) : (s.ocWrite a bs).steps = s.steps := State.watch_steps _
@[simp] theorem State.ocWrite_dir (s : State) (a : Nat) (bs : List Byte) : (s.ocWrite a bs).dir = s.dir := State.watch_dir _
@[simp] theorem State.ocWrite_censuses (s : State) (a : Nat) (bs : List Byte) : (s.ocWrite a bs).censuses = s.censuses := State.watch_censuses _
@[simp] theorem State.ocWrite_moves (s : State) (a : Nat) (bs : List Byte) : (s.ocWrite a bs).moves = s.moves := State.watch_moves _
@[simp] theorem State.ocWrite_regs (s : State) (a : Nat) (bs : List Byte) : (s.ocWrite a bs).regs = s.regs := State.watch_regs _
@[simp] theorem State.ocWrite_faults (s : State) (a : Nat) (bs : List Byte) : (s.ocWrite a bs).faults = s.faults := State.watch_faults _
@[simp] theorem State.ocWrite_nextFid (s : State) (a : Nat) (bs : List Byte) : (s.ocWrite a bs).nextFid = s.nextFid := State.watch_nextFid _
@[simp] theorem State.ocWrite_shoots (s : State) (a : Nat) (bs : List Byte) : (s.ocWrite a bs).shoots = s.shoots := State.watch_shoots _
@[simp] theorem State.ocWrite_portWrites (s : State) (a : Nat) (bs : List Byte) : (s.ocWrite a bs).portWrites = s.portWrites := State.watch_portWrites _
@[simp] theorem State.ocWrite_migrs (s : State) (a : Nat) (bs : List Byte) : (s.ocWrite a bs).migrs = s.migrs := State.watch_migrs _
@[simp] theorem State.ocWrite_cols (s : State) (a : Nat) (bs : List Byte) : (s.ocWrite a bs).cols = s.cols := State.watch_cols _
@[simp] theorem State.ocWrite_ecc (s : State) (a : Nat) (bs : List Byte) : (s.ocWrite a bs).ecc = s.ecc := State.watch_ecc _
@[simp] theorem State.ocWrite_dls (s : State) (a : Nat) (bs : List Byte) : (s.ocWrite a bs).dls = s.dls := State.watch_dls _
@[simp] theorem State.ocWrite_kports (s : State) (a : Nat) (bs : List Byte) : (s.ocWrite a bs).kports = s.kports := State.watch_kports _
@[simp] theorem State.ocWrite_parts (s : State) (a : Nat) (bs : List Byte) : (s.ocWrite a bs).parts = s.parts := State.watch_parts _
@[simp] theorem State.ocWrite_stopped (s : State) (a : Nat) (bs : List Byte) : (s.ocWrite a bs).stopped = s.stopped := State.watch_stopped _
@[simp] theorem State.ocWrite_held (s : State) (a : Nat) (bs : List Byte) : (s.ocWrite a bs).held = s.held := State.watch_held _
@[simp] theorem State.ocWrite_boot (s : State) (a : Nat) (bs : List Byte) : (s.ocWrite a bs).boot = s.boot := State.watch_boot _
@[simp] theorem State.ocWrite_pkg (s : State) (a : Nat) (bs : List Byte) : (s.ocWrite a bs).pkg = s.pkg := State.watch_pkg _
@[simp] theorem State.ocWrite_pod (s : State) (a : Nat) (bs : List Byte) : (s.ocWrite a bs).pod = s.pod := State.watch_pod _
@[simp] theorem State.ocWrite_podSize (s : State) (a : Nat) (bs : List Byte) : (s.ocWrite a bs).podSize = s.podSize := State.watch_podSize _
@[simp] theorem State.ocWrite_spillBase (s : State) (a : Nat) (bs : List Byte) : (s.ocWrite a bs).spillBase = s.spillBase := State.watch_spillBase _
@[simp] theorem State.ocWrite_preBudget (s : State) (a : Nat) (bs : List Byte) : (s.ocWrite a bs).preBudget = s.preBudget := State.watch_preBudget _
@[simp] theorem State.ocWrite_modTab (s : State) (a : Nat) (bs : List Byte) : (s.ocWrite a bs).modTab = s.modTab := State.watch_modTab _
@[simp] theorem State.ocWrite_modAt (s : State) (a : Nat) (bs : List Byte) : (s.ocWrite a bs).modAt = s.modAt := State.watch_modAt _
@[simp] theorem State.ocWrite_codeHist (s : State) (a : Nat) (bs : List Byte) : (s.ocWrite a bs).codeHist = s.codeHist := State.watch_codeHist _
@[simp] theorem State.ocWrite_counters (s : State) (a : Nat) (bs : List Byte) : (s.ocWrite a bs).counters = s.counters := State.watch_counters _

/-! ### A group changed so that its splits may become READY -/

@[simp] theorem State.modReady_agenda (s : State) (r : GRef) (f : Group → Group) : (s.modReady r f).agenda = s.agenda := rfl
@[simp] theorem State.modReady_tick (s : State) (r : GRef) (f : Group → Group) : (s.modReady r f).tick = s.tick := rfl
@[simp] theorem State.modReady_cur (s : State) (r : GRef) (f : Group → Group) : (s.modReady r f).cur = s.cur := rfl
@[simp] theorem State.modReady_hbm (s : State) (r : GRef) (f : Group → Group) : (s.modReady r f).hbm = s.hbm := rfl
@[simp] theorem State.modReady_poison (s : State) (r : GRef) (f : Group → Group) : (s.modReady r f).poison = s.poison := rfl
@[simp] theorem State.modReady_onchip (s : State) (r : GRef) (f : Group → Group) : (s.modReady r f).onchip = s.onchip := rfl
@[simp] theorem State.modReady_l1d (s : State) (r : GRef) (f : Group → Group) : (s.modReady r f).l1d = s.l1d := rfl
@[simp] theorem State.modReady_roFilter (s : State) (r : GRef) (f : Group → Group) : (s.modReady r f).roFilter = s.roFilter := rfl
@[simp] theorem State.modReady_lastPeer (s : State) (r : GRef) (f : Group → Group) : (s.modReady r f).lastPeer = s.lastPeer := rfl
@[simp] theorem State.modReady_slices (s : State) (r : GRef) (f : Group → Group) : (s.modReady r f).slices = s.slices := rfl
@[simp] theorem State.modReady_remap (s : State) (r : GRef) (f : Group → Group) : (s.modReady r f).remap = s.remap := rfl
@[simp] theorem State.modReady_tlb (s : State) (r : GRef) (f : Group → Group) : (s.modReady r f).tlb = s.tlb := rfl
@[simp] theorem State.modReady_quadCopies (s : State) (r : GRef) (f : Group → Group) : (s.modReady r f).quadCopies = s.quadCopies := rfl
@[simp] theorem State.modReady_quadWrites (s : State) (r : GRef) (f : Group → Group) : (s.modReady r f).quadWrites = s.quadWrites := rfl
@[simp] theorem State.modReady_ops (s : State) (r : GRef) (f : Group → Group) : (s.modReady r f).ops = s.ops := rfl
@[simp] theorem State.modReady_mbox (s : State) (r : GRef) (f : Group → Group) : (s.modReady r f).mbox = s.mbox := rfl
@[simp] theorem State.modReady_engWords (s : State) (r : GRef) (f : Group → Group) : (s.modReady r f).engWords = s.engWords := rfl
@[simp] theorem State.modReady_icL0 (s : State) (r : GRef) (f : Group → Group) : (s.modReady r f).icL0 = s.icL0 := rfl
@[simp] theorem State.modReady_icL1 (s : State) (r : GRef) (f : Group → Group) : (s.modReady r f).icL1 = s.icL1 := rfl
@[simp] theorem State.modReady_icL2 (s : State) (r : GRef) (f : Group → Group) : (s.modReady r f).icL2 = s.icL2 := rfl
@[simp] theorem State.modReady_ifills (s : State) (r : GRef) (f : Group → Group) : (s.modReady r f).ifills = s.ifills := rfl
@[simp] theorem State.modReady_blocks (s : State) (r : GRef) (f : Group → Group) : (s.modReady r f).blocks = s.blocks := rfl
@[simp] theorem State.modReady_bars (s : State) (r : GRef) (f : Group → Group) : (s.modReady r f).bars = s.bars := rfl
@[simp] theorem State.modReady_barMsgs (s : State) (r : GRef) (f : Group → Group) : (s.modReady r f).barMsgs = s.barMsgs := rfl
@[simp] theorem State.modReady_tickets (s : State) (r : GRef) (f : Group → Group) : (s.modReady r f).tickets = s.tickets := rfl
@[simp] theorem State.modReady_sched (s : State) (r : GRef) (f : Group → Group) : (s.modReady r f).sched = s.sched := rfl
@[simp] theorem State.modReady_launches (s : State) (r : GRef) (f : Group → Group) : (s.modReady r f).launches = s.launches := rfl
@[simp] theorem State.modReady_nextLid (s : State) (r : GRef) (f : Group → Group) : (s.modReady r f).nextLid = s.nextLid := rfl
@[simp] theorem State.modReady_podNews (s : State) (r : GRef) (f : Group → Group) : (s.modReady r f).podNews = s.podNews := rfl
@[simp] theorem State.modReady_dists (s : State) (r : GRef) (f : Group → Group) : (s.modReady r f).dists = s.dists := rfl
@[simp] theorem State.modReady_pages (s : State) (r : GRef) (f : Group → Group) : (s.modReady r f).pages = s.pages := rfl
@[simp] theorem State.modReady_ctxs (s : State) (r : GRef) (f : Group → Group) : (s.modReady r f).ctxs = s.ctxs := rfl
@[simp] theorem State.modReady_engines (s : State) (r : GRef) (f : Group → Group) : (s.modReady r f).engines = s.engines := rfl
@[simp] theorem State.modReady_regions (s : State) (r : GRef) (f : Group → Group) : (s.modReady r f).regions = s.regions := rfl
@[simp] theorem State.modReady_mats (s : State) (r : GRef) (f : Group → Group) : (s.modReady r f).mats = s.mats := rfl
@[simp] theorem State.modReady_gangs (s : State) (r : GRef) (f : Group → Group) : (s.modReady r f).gangs = s.gangs := rfl
@[simp] theorem State.modReady_ring (s : State) (r : GRef) (f : Group → Group) : (s.modReady r f).ring = s.ring := rfl
@[simp] theorem State.modReady_objs (s : State) (r : GRef) (f : Group → Group) : (s.modReady r f).objs = s.objs := rfl
@[simp] theorem State.modReady_queues (s : State) (r : GRef) (f : Group → Group) : (s.modReady r f).queues = s.queues := rfl
@[simp] theorem State.modReady_cmbs (s : State) (r : GRef) (f : Group → Group) : (s.modReady r f).cmbs = s.cmbs := rfl
@[simp] theorem State.modReady_packs (s : State) (r : GRef) (f : Group → Group) : (s.modReady r f).packs = s.packs := rfl
@[simp] theorem State.modReady_replies (s : State) (r : GRef) (f : Group → Group) : (s.modReady r f).replies = s.replies := rfl
@[simp] theorem State.modReady_steps (s : State) (r : GRef) (f : Group → Group) : (s.modReady r f).steps = s.steps := rfl
@[simp] theorem State.modReady_dir (s : State) (r : GRef) (f : Group → Group) : (s.modReady r f).dir = s.dir := rfl
@[simp] theorem State.modReady_censuses (s : State) (r : GRef) (f : Group → Group) : (s.modReady r f).censuses = s.censuses := rfl
@[simp] theorem State.modReady_moves (s : State) (r : GRef) (f : Group → Group) : (s.modReady r f).moves = s.moves := rfl
@[simp] theorem State.modReady_regs (s : State) (r : GRef) (f : Group → Group) : (s.modReady r f).regs = s.regs := rfl
@[simp] theorem State.modReady_faults (s : State) (r : GRef) (f : Group → Group) : (s.modReady r f).faults = s.faults := rfl
@[simp] theorem State.modReady_nextFid (s : State) (r : GRef) (f : Group → Group) : (s.modReady r f).nextFid = s.nextFid := rfl
@[simp] theorem State.modReady_shoots (s : State) (r : GRef) (f : Group → Group) : (s.modReady r f).shoots = s.shoots := rfl
@[simp] theorem State.modReady_portWrites (s : State) (r : GRef) (f : Group → Group) : (s.modReady r f).portWrites = s.portWrites := rfl
@[simp] theorem State.modReady_migrs (s : State) (r : GRef) (f : Group → Group) : (s.modReady r f).migrs = s.migrs := rfl
@[simp] theorem State.modReady_cols (s : State) (r : GRef) (f : Group → Group) : (s.modReady r f).cols = s.cols := rfl
@[simp] theorem State.modReady_ecc (s : State) (r : GRef) (f : Group → Group) : (s.modReady r f).ecc = s.ecc := rfl
@[simp] theorem State.modReady_dls (s : State) (r : GRef) (f : Group → Group) : (s.modReady r f).dls = s.dls := rfl
@[simp] theorem State.modReady_kports (s : State) (r : GRef) (f : Group → Group) : (s.modReady r f).kports = s.kports := rfl
@[simp] theorem State.modReady_lostBytes (s : State) (r : GRef) (f : Group → Group) : (s.modReady r f).lostBytes = s.lostBytes := rfl
@[simp] theorem State.modReady_parts (s : State) (r : GRef) (f : Group → Group) : (s.modReady r f).parts = s.parts := rfl
@[simp] theorem State.modReady_stopped (s : State) (r : GRef) (f : Group → Group) : (s.modReady r f).stopped = s.stopped := rfl
@[simp] theorem State.modReady_held (s : State) (r : GRef) (f : Group → Group) : (s.modReady r f).held = s.held := rfl
@[simp] theorem State.modReady_boot (s : State) (r : GRef) (f : Group → Group) : (s.modReady r f).boot = s.boot := rfl
@[simp] theorem State.modReady_pkg (s : State) (r : GRef) (f : Group → Group) : (s.modReady r f).pkg = s.pkg := rfl
@[simp] theorem State.modReady_pod (s : State) (r : GRef) (f : Group → Group) : (s.modReady r f).pod = s.pod := rfl
@[simp] theorem State.modReady_podSize (s : State) (r : GRef) (f : Group → Group) : (s.modReady r f).podSize = s.podSize := rfl
@[simp] theorem State.modReady_spillBase (s : State) (r : GRef) (f : Group → Group) : (s.modReady r f).spillBase = s.spillBase := rfl
@[simp] theorem State.modReady_spillPrev (s : State) (r : GRef) (f : Group → Group) : (s.modReady r f).spillPrev = s.spillPrev := rfl
@[simp] theorem State.modReady_preBudget (s : State) (r : GRef) (f : Group → Group) : (s.modReady r f).preBudget = s.preBudget := rfl
@[simp] theorem State.modReady_modTab (s : State) (r : GRef) (f : Group → Group) : (s.modReady r f).modTab = s.modTab := rfl
@[simp] theorem State.modReady_modAt (s : State) (r : GRef) (f : Group → Group) : (s.modReady r f).modAt = s.modAt := rfl
@[simp] theorem State.modReady_codeHist (s : State) (r : GRef) (f : Group → Group) : (s.modReady r f).codeHist = s.codeHist := rfl
@[simp] theorem State.modReady_counters (s : State) (r : GRef) (f : Group → Group) : (s.modReady r f).counters = s.counters := rfl

/-! ### A counter raised -/

@[simp] theorem State.count_agenda (s : State) (c : CoreRef) (a b n : Nat) : (s.count c a b n).agenda = s.agenda := by
  unfold State.count; split <;> rfl
@[simp] theorem State.count_tick (s : State) (c : CoreRef) (a b n : Nat) : (s.count c a b n).tick = s.tick := by
  unfold State.count; split <;> rfl
@[simp] theorem State.count_cur (s : State) (c : CoreRef) (a b n : Nat) : (s.count c a b n).cur = s.cur := by
  unfold State.count; split <;> rfl
@[simp] theorem State.count_nextId (s : State) (c : CoreRef) (a b n : Nat) : (s.count c a b n).nextId = s.nextId := by
  unfold State.count; split <;> rfl
@[simp] theorem State.count_hbm (s : State) (c : CoreRef) (a b n : Nat) : (s.count c a b n).hbm = s.hbm := by
  unfold State.count; split <;> rfl
@[simp] theorem State.count_poison (s : State) (c : CoreRef) (a b n : Nat) : (s.count c a b n).poison = s.poison := by
  unfold State.count; split <;> rfl
@[simp] theorem State.count_onchip (s : State) (c : CoreRef) (a b n : Nat) : (s.count c a b n).onchip = s.onchip := by
  unfold State.count; split <;> rfl
@[simp] theorem State.count_l1d (s : State) (c : CoreRef) (a b n : Nat) : (s.count c a b n).l1d = s.l1d := by
  unfold State.count; split <;> rfl
@[simp] theorem State.count_roFilter (s : State) (c : CoreRef) (a b n : Nat) : (s.count c a b n).roFilter = s.roFilter := by
  unfold State.count; split <;> rfl
@[simp] theorem State.count_lastPeer (s : State) (c : CoreRef) (a b n : Nat) : (s.count c a b n).lastPeer = s.lastPeer := by
  unfold State.count; split <;> rfl
@[simp] theorem State.count_slices (s : State) (c : CoreRef) (a b n : Nat) : (s.count c a b n).slices = s.slices := by
  unfold State.count; split <;> rfl
@[simp] theorem State.count_remap (s : State) (c : CoreRef) (a b n : Nat) : (s.count c a b n).remap = s.remap := by
  unfold State.count; split <;> rfl
@[simp] theorem State.count_tlb (s : State) (c : CoreRef) (a b n : Nat) : (s.count c a b n).tlb = s.tlb := by
  unfold State.count; split <;> rfl
@[simp] theorem State.count_quadCopies (s : State) (c : CoreRef) (a b n : Nat) : (s.count c a b n).quadCopies = s.quadCopies := by
  unfold State.count; split <;> rfl
@[simp] theorem State.count_quadWrites (s : State) (c : CoreRef) (a b n : Nat) : (s.count c a b n).quadWrites = s.quadWrites := by
  unfold State.count; split <;> rfl
@[simp] theorem State.count_ops (s : State) (c : CoreRef) (a b n : Nat) : (s.count c a b n).ops = s.ops := by
  unfold State.count; split <;> rfl
@[simp] theorem State.count_mbox (s : State) (c : CoreRef) (a b n : Nat) : (s.count c a b n).mbox = s.mbox := by
  unfold State.count; split <;> rfl
@[simp] theorem State.count_icL0 (s : State) (c : CoreRef) (a b n : Nat) : (s.count c a b n).icL0 = s.icL0 := by
  unfold State.count; split <;> rfl
@[simp] theorem State.count_icL1 (s : State) (c : CoreRef) (a b n : Nat) : (s.count c a b n).icL1 = s.icL1 := by
  unfold State.count; split <;> rfl
@[simp] theorem State.count_icL2 (s : State) (c : CoreRef) (a b n : Nat) : (s.count c a b n).icL2 = s.icL2 := by
  unfold State.count; split <;> rfl
@[simp] theorem State.count_ifills (s : State) (c : CoreRef) (a b n : Nat) : (s.count c a b n).ifills = s.ifills := by
  unfold State.count; split <;> rfl
@[simp] theorem State.count_blocks (s : State) (c : CoreRef) (a b n : Nat) : (s.count c a b n).blocks = s.blocks := by
  unfold State.count; split <;> rfl
@[simp] theorem State.count_bars (s : State) (c : CoreRef) (a b n : Nat) : (s.count c a b n).bars = s.bars := by
  unfold State.count; split <;> rfl
@[simp] theorem State.count_barMsgs (s : State) (c : CoreRef) (a b n : Nat) : (s.count c a b n).barMsgs = s.barMsgs := by
  unfold State.count; split <;> rfl
@[simp] theorem State.count_tickets (s : State) (c : CoreRef) (a b n : Nat) : (s.count c a b n).tickets = s.tickets := by
  unfold State.count; split <;> rfl
@[simp] theorem State.count_sched (s : State) (c : CoreRef) (a b n : Nat) : (s.count c a b n).sched = s.sched := by
  unfold State.count; split <;> rfl
@[simp] theorem State.count_launches (s : State) (c : CoreRef) (a b n : Nat) : (s.count c a b n).launches = s.launches := by
  unfold State.count; split <;> rfl
@[simp] theorem State.count_nextLid (s : State) (c : CoreRef) (a b n : Nat) : (s.count c a b n).nextLid = s.nextLid := by
  unfold State.count; split <;> rfl
@[simp] theorem State.count_podNews (s : State) (c : CoreRef) (a b n : Nat) : (s.count c a b n).podNews = s.podNews := by
  unfold State.count; split <;> rfl
@[simp] theorem State.count_dists (s : State) (c : CoreRef) (a b n : Nat) : (s.count c a b n).dists = s.dists := by
  unfold State.count; split <;> rfl
@[simp] theorem State.count_pages (s : State) (c : CoreRef) (a b n : Nat) : (s.count c a b n).pages = s.pages := by
  unfold State.count; split <;> rfl
@[simp] theorem State.count_ctxs (s : State) (c : CoreRef) (a b n : Nat) : (s.count c a b n).ctxs = s.ctxs := by
  unfold State.count; split <;> rfl
@[simp] theorem State.count_engines (s : State) (c : CoreRef) (a b n : Nat) : (s.count c a b n).engines = s.engines := by
  unfold State.count; split <;> rfl
@[simp] theorem State.count_regions (s : State) (c : CoreRef) (a b n : Nat) : (s.count c a b n).regions = s.regions := by
  unfold State.count; split <;> rfl
@[simp] theorem State.count_mats (s : State) (c : CoreRef) (a b n : Nat) : (s.count c a b n).mats = s.mats := by
  unfold State.count; split <;> rfl
@[simp] theorem State.count_gangs (s : State) (c : CoreRef) (a b n : Nat) : (s.count c a b n).gangs = s.gangs := by
  unfold State.count; split <;> rfl
@[simp] theorem State.count_ring (s : State) (c : CoreRef) (a b n : Nat) : (s.count c a b n).ring = s.ring := by
  unfold State.count; split <;> rfl
@[simp] theorem State.count_objs (s : State) (c : CoreRef) (a b n : Nat) : (s.count c a b n).objs = s.objs := by
  unfold State.count; split <;> rfl
@[simp] theorem State.count_queues (s : State) (c : CoreRef) (a b n : Nat) : (s.count c a b n).queues = s.queues := by
  unfold State.count; split <;> rfl
@[simp] theorem State.count_cmbs (s : State) (c : CoreRef) (a b n : Nat) : (s.count c a b n).cmbs = s.cmbs := by
  unfold State.count; split <;> rfl
@[simp] theorem State.count_packs (s : State) (c : CoreRef) (a b n : Nat) : (s.count c a b n).packs = s.packs := by
  unfold State.count; split <;> rfl
@[simp] theorem State.count_replies (s : State) (c : CoreRef) (a b n : Nat) : (s.count c a b n).replies = s.replies := by
  unfold State.count; split <;> rfl
@[simp] theorem State.count_steps (s : State) (c : CoreRef) (a b n : Nat) : (s.count c a b n).steps = s.steps := by
  unfold State.count; split <;> rfl
@[simp] theorem State.count_dir (s : State) (c : CoreRef) (a b n : Nat) : (s.count c a b n).dir = s.dir := by
  unfold State.count; split <;> rfl
@[simp] theorem State.count_censuses (s : State) (c : CoreRef) (a b n : Nat) : (s.count c a b n).censuses = s.censuses := by
  unfold State.count; split <;> rfl
@[simp] theorem State.count_moves (s : State) (c : CoreRef) (a b n : Nat) : (s.count c a b n).moves = s.moves := by
  unfold State.count; split <;> rfl
@[simp] theorem State.count_regs (s : State) (c : CoreRef) (a b n : Nat) : (s.count c a b n).regs = s.regs := by
  unfold State.count; split <;> rfl
@[simp] theorem State.count_faults (s : State) (c : CoreRef) (a b n : Nat) : (s.count c a b n).faults = s.faults := by
  unfold State.count; split <;> rfl
@[simp] theorem State.count_nextFid (s : State) (c : CoreRef) (a b n : Nat) : (s.count c a b n).nextFid = s.nextFid := by
  unfold State.count; split <;> rfl
@[simp] theorem State.count_shoots (s : State) (c : CoreRef) (a b n : Nat) : (s.count c a b n).shoots = s.shoots := by
  unfold State.count; split <;> rfl
@[simp] theorem State.count_portWrites (s : State) (c : CoreRef) (a b n : Nat) : (s.count c a b n).portWrites = s.portWrites := by
  unfold State.count; split <;> rfl
@[simp] theorem State.count_migrs (s : State) (c : CoreRef) (a b n : Nat) : (s.count c a b n).migrs = s.migrs := by
  unfold State.count; split <;> rfl
@[simp] theorem State.count_cols (s : State) (c : CoreRef) (a b n : Nat) : (s.count c a b n).cols = s.cols := by
  unfold State.count; split <;> rfl
@[simp] theorem State.count_ecc (s : State) (c : CoreRef) (a b n : Nat) : (s.count c a b n).ecc = s.ecc := by
  unfold State.count; split <;> rfl
@[simp] theorem State.count_dls (s : State) (c : CoreRef) (a b n : Nat) : (s.count c a b n).dls = s.dls := by
  unfold State.count; split <;> rfl
@[simp] theorem State.count_kports (s : State) (c : CoreRef) (a b n : Nat) : (s.count c a b n).kports = s.kports := by
  unfold State.count; split <;> rfl
@[simp] theorem State.count_parts (s : State) (c : CoreRef) (a b n : Nat) : (s.count c a b n).parts = s.parts := by
  unfold State.count; split <;> rfl
@[simp] theorem State.count_stopped (s : State) (c : CoreRef) (a b n : Nat) : (s.count c a b n).stopped = s.stopped := by
  unfold State.count; split <;> rfl
@[simp] theorem State.count_held (s : State) (c : CoreRef) (a b n : Nat) : (s.count c a b n).held = s.held := by
  unfold State.count; split <;> rfl
@[simp] theorem State.count_boot (s : State) (c : CoreRef) (a b n : Nat) : (s.count c a b n).boot = s.boot := by
  unfold State.count; split <;> rfl
@[simp] theorem State.count_pkg (s : State) (c : CoreRef) (a b n : Nat) : (s.count c a b n).pkg = s.pkg := by
  unfold State.count; split <;> rfl
@[simp] theorem State.count_pod (s : State) (c : CoreRef) (a b n : Nat) : (s.count c a b n).pod = s.pod := by
  unfold State.count; split <;> rfl
@[simp] theorem State.count_podSize (s : State) (c : CoreRef) (a b n : Nat) : (s.count c a b n).podSize = s.podSize := by
  unfold State.count; split <;> rfl
@[simp] theorem State.count_spillBase (s : State) (c : CoreRef) (a b n : Nat) : (s.count c a b n).spillBase = s.spillBase := by
  unfold State.count; split <;> rfl
@[simp] theorem State.count_preBudget (s : State) (c : CoreRef) (a b n : Nat) : (s.count c a b n).preBudget = s.preBudget := by
  unfold State.count; split <;> rfl
@[simp] theorem State.count_modTab (s : State) (c : CoreRef) (a b n : Nat) : (s.count c a b n).modTab = s.modTab := by
  unfold State.count; split <;> rfl
@[simp] theorem State.count_modAt (s : State) (c : CoreRef) (a b n : Nat) : (s.count c a b n).modAt = s.modAt := by
  unfold State.count; split <;> rfl
@[simp] theorem State.count_codeHist (s : State) (c : CoreRef) (a b n : Nat) : (s.count c a b n).codeHist = s.codeHist := by
  unfold State.count; split <;> rfl

/-! ### Parts of a group replaced -/

@[simp] theorem Group.modSplit_kind (g : Group) (e : Nat) (f : Split → Split) : (g.modSplit e f).kind = g.kind := rfl
@[simp] theorem Group.modSplit_phase (g : Group) (e : Nat) (f : Split → Split) : (g.modSplit e f).phase = g.phase := rfl
@[simp] theorem Group.modSplit_lid (g : Group) (e : Nat) (f : Split → Split) : (g.modSplit e f).lid = g.lid := rfl
@[simp] theorem Group.modSplit_blk (g : Group) (e : Nat) (f : Split → Split) : (g.modSplit e f).blk = g.blk := rfl
@[simp] theorem Group.modSplit_gidx (g : Group) (e : Nat) (f : Split → Split) : (g.modSplit e f).gidx = g.gidx := rfl
@[simp] theorem Group.modSplit_vregs (g : Group) (e : Nat) (f : Split → Split) : (g.modSplit e f).vregs = g.vregs := rfl
@[simp] theorem Group.modSplit_kregs (g : Group) (e : Nat) (f : Split → Split) : (g.modSplit e f).kregs = g.kregs := rfl
@[simp] theorem Group.modSplit_preds (g : Group) (e : Nat) (f : Split → Split) : (g.modSplit e f).preds = g.preds := rfl
@[simp] theorem Group.modSplit_qs (g : Group) (e : Nat) (f : Split → Split) : (g.modSplit e f).qs = g.qs := rfl
@[simp] theorem Group.modSplit_sp (g : Group) (e : Nat) (f : Split → Split) : (g.modSplit e f).sp = g.sp := rfl
@[simp] theorem Group.modSplit_ctl (g : Group) (e : Nat) (f : Split → Split) : (g.modSplit e f).ctl = g.ctl := rfl
@[simp] theorem Group.modSplit_mtl (g : Group) (e : Nat) (f : Split → Split) : (g.modSplit e f).mtl = g.mtl := rfl
@[simp] theorem Group.modSplit_joins (g : Group) (e : Nat) (f : Split → Split) : (g.modSplit e f).joins = g.joins := rfl
@[simp] theorem Group.modSplit_parked (g : Group) (e : Nat) (f : Split → Split) : (g.modSplit e f).parked = g.parked := rfl
@[simp] theorem Group.modSplit_exited (g : Group) (e : Nat) (f : Split → Split) : (g.modSplit e f).exited = g.exited := rfl
@[simp] theorem Group.modSplit_depth (g : Group) (e : Nat) (f : Split → Split) : (g.modSplit e f).depth = g.depth := rfl
@[simp] theorem Group.modSplit_suspended (g : Group) (e : Nat) (f : Split → Split) : (g.modSplit e f).suspended = g.suspended := rfl
@[simp] theorem Group.modSplit_tpcSet (g : Group) (e : Nat) (f : Split → Split) : (g.modSplit e f).tpcSet = g.tpcSet := rfl
@[simp] theorem Group.modSplit_tpcSet2 (g : Group) (e : Nat) (f : Split → Split) : (g.modSplit e f).tpcSet2 = g.tpcSet2 := rfl
@[simp] theorem Group.modSplit_shadowCause (g : Group) (e : Nat) (f : Split → Split) : (g.modSplit e f).shadowCause = g.shadowCause := rfl
@[simp] theorem Group.modSplit_shadowTpc (g : Group) (e : Nat) (f : Split → Split) : (g.modSplit e f).shadowTpc = g.shadowTpc := rfl
@[simp] theorem Group.modSplit_nestEntry (g : Group) (e : Nat) (f : Split → Split) : (g.modSplit e f).nestEntry = g.nestEntry := rfl
@[simp] theorem Group.modSplit_cause1 (g : Group) (e : Nat) (f : Split → Split) : (g.modSplit e f).cause1 = g.cause1 := rfl
@[simp] theorem Group.modSplit_cause2 (g : Group) (e : Nat) (f : Split → Split) : (g.modSplit e f).cause2 = g.cause2 := rfl
@[simp] theorem Group.modSplit_prepend (g : Group) (e : Nat) (f : Split → Split) : (g.modSplit e f).prepend = g.prepend := rfl
@[simp] theorem Group.modSplit_preemptReq (g : Group) (e : Nat) (f : Split → Split) : (g.modSplit e f).preemptReq = g.preemptReq := rfl
@[simp] theorem Group.modSplit_uncorr (g : Group) (e : Nat) (f : Split → Split) : (g.modSplit e f).uncorr = g.uncorr := rfl
@[simp] theorem Group.modSplit_ctr (g : Group) (e : Nat) (f : Split → Split) : (g.modSplit e f).ctr = g.ctr := rfl
@[simp] theorem Group.modSplit_census (g : Group) (e : Nat) (f : Split → Split) : (g.modSplit e f).census = g.census := rfl
@[simp] theorem Group.modSplit_cookie (g : Group) (e : Nat) (f : Split → Split) : (g.modSplit e f).cookie = g.cookie := rfl
@[simp] theorem Group.modSplit_age (g : Group) (e : Nat) (f : Split → Split) : (g.modSplit e f).age = g.age := rfl
@[simp] theorem Group.modSplit_lastStart (g : Group) (e : Nat) (f : Split → Split) : (g.modSplit e f).lastStart = g.lastStart := rfl
@[simp] theorem Group.modSplit_klass (g : Group) (e : Nat) (f : Split → Split) : (g.modSplit e f).klass = g.klass := rfl
@[simp] theorem Group.modSplit_clauses (g : Group) (e : Nat) (f : Split → Split) : (g.modSplit e f).clauses = g.clauses := rfl
@[simp] theorem Group.modSplit_imgAt (g : Group) (e : Nat) (f : Split → Split) : (g.modSplit e f).imgAt = g.imgAt := rfl
@[simp] theorem Group.modSplit_fenceRel (g : Group) (e : Nat) (f : Split → Split) : (g.modSplit e f).fenceRel = g.fenceRel := rfl
@[simp] theorem Group.modSplit_deep (g : Group) (e : Nat) (f : Split → Split) : (g.modSplit e f).deep = g.deep := rfl
@[simp] theorem Group.modSplit_engSeen (g : Group) (e : Nat) (f : Split → Split) : (g.modSplit e f).engSeen = g.engSeen := rfl

@[simp] theorem Group.setV_kind (g : Group) (n : Nat) (r : VReg) : (g.setV n r).kind = g.kind := rfl
@[simp] theorem Group.setV_phase (g : Group) (n : Nat) (r : VReg) : (g.setV n r).phase = g.phase := rfl
@[simp] theorem Group.setV_lid (g : Group) (n : Nat) (r : VReg) : (g.setV n r).lid = g.lid := rfl
@[simp] theorem Group.setV_blk (g : Group) (n : Nat) (r : VReg) : (g.setV n r).blk = g.blk := rfl
@[simp] theorem Group.setV_gidx (g : Group) (n : Nat) (r : VReg) : (g.setV n r).gidx = g.gidx := rfl
@[simp] theorem Group.setV_kregs (g : Group) (n : Nat) (r : VReg) : (g.setV n r).kregs = g.kregs := rfl
@[simp] theorem Group.setV_preds (g : Group) (n : Nat) (r : VReg) : (g.setV n r).preds = g.preds := rfl
@[simp] theorem Group.setV_qs (g : Group) (n : Nat) (r : VReg) : (g.setV n r).qs = g.qs := rfl
@[simp] theorem Group.setV_sp (g : Group) (n : Nat) (r : VReg) : (g.setV n r).sp = g.sp := rfl
@[simp] theorem Group.setV_ctl (g : Group) (n : Nat) (r : VReg) : (g.setV n r).ctl = g.ctl := rfl
@[simp] theorem Group.setV_mtl (g : Group) (n : Nat) (r : VReg) : (g.setV n r).mtl = g.mtl := rfl
@[simp] theorem Group.setV_splits (g : Group) (n : Nat) (r : VReg) : (g.setV n r).splits = g.splits := rfl
@[simp] theorem Group.setV_joins (g : Group) (n : Nat) (r : VReg) : (g.setV n r).joins = g.joins := rfl
@[simp] theorem Group.setV_parked (g : Group) (n : Nat) (r : VReg) : (g.setV n r).parked = g.parked := rfl
@[simp] theorem Group.setV_exited (g : Group) (n : Nat) (r : VReg) : (g.setV n r).exited = g.exited := rfl
@[simp] theorem Group.setV_depth (g : Group) (n : Nat) (r : VReg) : (g.setV n r).depth = g.depth := rfl
@[simp] theorem Group.setV_suspended (g : Group) (n : Nat) (r : VReg) : (g.setV n r).suspended = g.suspended := rfl
@[simp] theorem Group.setV_tpcSet (g : Group) (n : Nat) (r : VReg) : (g.setV n r).tpcSet = g.tpcSet := rfl
@[simp] theorem Group.setV_tpcSet2 (g : Group) (n : Nat) (r : VReg) : (g.setV n r).tpcSet2 = g.tpcSet2 := rfl
@[simp] theorem Group.setV_shadowCause (g : Group) (n : Nat) (r : VReg) : (g.setV n r).shadowCause = g.shadowCause := rfl
@[simp] theorem Group.setV_shadowTpc (g : Group) (n : Nat) (r : VReg) : (g.setV n r).shadowTpc = g.shadowTpc := rfl
@[simp] theorem Group.setV_nestEntry (g : Group) (n : Nat) (r : VReg) : (g.setV n r).nestEntry = g.nestEntry := rfl
@[simp] theorem Group.setV_cause1 (g : Group) (n : Nat) (r : VReg) : (g.setV n r).cause1 = g.cause1 := rfl
@[simp] theorem Group.setV_cause2 (g : Group) (n : Nat) (r : VReg) : (g.setV n r).cause2 = g.cause2 := rfl
@[simp] theorem Group.setV_prepend (g : Group) (n : Nat) (r : VReg) : (g.setV n r).prepend = g.prepend := rfl
@[simp] theorem Group.setV_preemptReq (g : Group) (n : Nat) (r : VReg) : (g.setV n r).preemptReq = g.preemptReq := rfl
@[simp] theorem Group.setV_uncorr (g : Group) (n : Nat) (r : VReg) : (g.setV n r).uncorr = g.uncorr := rfl
@[simp] theorem Group.setV_ctr (g : Group) (n : Nat) (r : VReg) : (g.setV n r).ctr = g.ctr := rfl
@[simp] theorem Group.setV_census (g : Group) (n : Nat) (r : VReg) : (g.setV n r).census = g.census := rfl
@[simp] theorem Group.setV_cookie (g : Group) (n : Nat) (r : VReg) : (g.setV n r).cookie = g.cookie := rfl
@[simp] theorem Group.setV_age (g : Group) (n : Nat) (r : VReg) : (g.setV n r).age = g.age := rfl
@[simp] theorem Group.setV_lastStart (g : Group) (n : Nat) (r : VReg) : (g.setV n r).lastStart = g.lastStart := rfl
@[simp] theorem Group.setV_klass (g : Group) (n : Nat) (r : VReg) : (g.setV n r).klass = g.klass := rfl
@[simp] theorem Group.setV_clauses (g : Group) (n : Nat) (r : VReg) : (g.setV n r).clauses = g.clauses := rfl
@[simp] theorem Group.setV_imgAt (g : Group) (n : Nat) (r : VReg) : (g.setV n r).imgAt = g.imgAt := rfl
@[simp] theorem Group.setV_fenceRel (g : Group) (n : Nat) (r : VReg) : (g.setV n r).fenceRel = g.fenceRel := rfl
@[simp] theorem Group.setV_deep (g : Group) (n : Nat) (r : VReg) : (g.setV n r).deep = g.deep := rfl
@[simp] theorem Group.setV_engSeen (g : Group) (n : Nat) (r : VReg) : (g.setV n r).engSeen = g.engSeen := rfl

@[simp] theorem Group.setK_kind (g : Group) (n : Nat) (r : KReg) : (g.setK n r).kind = g.kind := rfl
@[simp] theorem Group.setK_phase (g : Group) (n : Nat) (r : KReg) : (g.setK n r).phase = g.phase := rfl
@[simp] theorem Group.setK_lid (g : Group) (n : Nat) (r : KReg) : (g.setK n r).lid = g.lid := rfl
@[simp] theorem Group.setK_blk (g : Group) (n : Nat) (r : KReg) : (g.setK n r).blk = g.blk := rfl
@[simp] theorem Group.setK_gidx (g : Group) (n : Nat) (r : KReg) : (g.setK n r).gidx = g.gidx := rfl
@[simp] theorem Group.setK_vregs (g : Group) (n : Nat) (r : KReg) : (g.setK n r).vregs = g.vregs := rfl
@[simp] theorem Group.setK_preds (g : Group) (n : Nat) (r : KReg) : (g.setK n r).preds = g.preds := rfl
@[simp] theorem Group.setK_qs (g : Group) (n : Nat) (r : KReg) : (g.setK n r).qs = g.qs := rfl
@[simp] theorem Group.setK_sp (g : Group) (n : Nat) (r : KReg) : (g.setK n r).sp = g.sp := rfl
@[simp] theorem Group.setK_ctl (g : Group) (n : Nat) (r : KReg) : (g.setK n r).ctl = g.ctl := rfl
@[simp] theorem Group.setK_mtl (g : Group) (n : Nat) (r : KReg) : (g.setK n r).mtl = g.mtl := rfl
@[simp] theorem Group.setK_splits (g : Group) (n : Nat) (r : KReg) : (g.setK n r).splits = g.splits := rfl
@[simp] theorem Group.setK_joins (g : Group) (n : Nat) (r : KReg) : (g.setK n r).joins = g.joins := rfl
@[simp] theorem Group.setK_parked (g : Group) (n : Nat) (r : KReg) : (g.setK n r).parked = g.parked := rfl
@[simp] theorem Group.setK_exited (g : Group) (n : Nat) (r : KReg) : (g.setK n r).exited = g.exited := rfl
@[simp] theorem Group.setK_depth (g : Group) (n : Nat) (r : KReg) : (g.setK n r).depth = g.depth := rfl
@[simp] theorem Group.setK_suspended (g : Group) (n : Nat) (r : KReg) : (g.setK n r).suspended = g.suspended := rfl
@[simp] theorem Group.setK_tpcSet (g : Group) (n : Nat) (r : KReg) : (g.setK n r).tpcSet = g.tpcSet := rfl
@[simp] theorem Group.setK_tpcSet2 (g : Group) (n : Nat) (r : KReg) : (g.setK n r).tpcSet2 = g.tpcSet2 := rfl
@[simp] theorem Group.setK_shadowCause (g : Group) (n : Nat) (r : KReg) : (g.setK n r).shadowCause = g.shadowCause := rfl
@[simp] theorem Group.setK_shadowTpc (g : Group) (n : Nat) (r : KReg) : (g.setK n r).shadowTpc = g.shadowTpc := rfl
@[simp] theorem Group.setK_nestEntry (g : Group) (n : Nat) (r : KReg) : (g.setK n r).nestEntry = g.nestEntry := rfl
@[simp] theorem Group.setK_cause1 (g : Group) (n : Nat) (r : KReg) : (g.setK n r).cause1 = g.cause1 := rfl
@[simp] theorem Group.setK_cause2 (g : Group) (n : Nat) (r : KReg) : (g.setK n r).cause2 = g.cause2 := rfl
@[simp] theorem Group.setK_prepend (g : Group) (n : Nat) (r : KReg) : (g.setK n r).prepend = g.prepend := rfl
@[simp] theorem Group.setK_preemptReq (g : Group) (n : Nat) (r : KReg) : (g.setK n r).preemptReq = g.preemptReq := rfl
@[simp] theorem Group.setK_uncorr (g : Group) (n : Nat) (r : KReg) : (g.setK n r).uncorr = g.uncorr := rfl
@[simp] theorem Group.setK_ctr (g : Group) (n : Nat) (r : KReg) : (g.setK n r).ctr = g.ctr := rfl
@[simp] theorem Group.setK_census (g : Group) (n : Nat) (r : KReg) : (g.setK n r).census = g.census := rfl
@[simp] theorem Group.setK_cookie (g : Group) (n : Nat) (r : KReg) : (g.setK n r).cookie = g.cookie := rfl
@[simp] theorem Group.setK_age (g : Group) (n : Nat) (r : KReg) : (g.setK n r).age = g.age := rfl
@[simp] theorem Group.setK_lastStart (g : Group) (n : Nat) (r : KReg) : (g.setK n r).lastStart = g.lastStart := rfl
@[simp] theorem Group.setK_klass (g : Group) (n : Nat) (r : KReg) : (g.setK n r).klass = g.klass := rfl
@[simp] theorem Group.setK_clauses (g : Group) (n : Nat) (r : KReg) : (g.setK n r).clauses = g.clauses := rfl
@[simp] theorem Group.setK_imgAt (g : Group) (n : Nat) (r : KReg) : (g.setK n r).imgAt = g.imgAt := rfl
@[simp] theorem Group.setK_fenceRel (g : Group) (n : Nat) (r : KReg) : (g.setK n r).fenceRel = g.fenceRel := rfl
@[simp] theorem Group.setK_deep (g : Group) (n : Nat) (r : KReg) : (g.setK n r).deep = g.deep := rfl
@[simp] theorem Group.setK_engSeen (g : Group) (n : Nat) (r : KReg) : (g.setK n r).engSeen = g.engSeen := rfl

@[simp] theorem Group.writeK_kind (g : Group) (n : Nat) (x : DWord) : (g.writeK n x).kind = g.kind := rfl
@[simp] theorem Group.writeK_phase (g : Group) (n : Nat) (x : DWord) : (g.writeK n x).phase = g.phase := rfl
@[simp] theorem Group.writeK_lid (g : Group) (n : Nat) (x : DWord) : (g.writeK n x).lid = g.lid := rfl
@[simp] theorem Group.writeK_blk (g : Group) (n : Nat) (x : DWord) : (g.writeK n x).blk = g.blk := rfl
@[simp] theorem Group.writeK_gidx (g : Group) (n : Nat) (x : DWord) : (g.writeK n x).gidx = g.gidx := rfl
@[simp] theorem Group.writeK_vregs (g : Group) (n : Nat) (x : DWord) : (g.writeK n x).vregs = g.vregs := rfl
@[simp] theorem Group.writeK_preds (g : Group) (n : Nat) (x : DWord) : (g.writeK n x).preds = g.preds := rfl
@[simp] theorem Group.writeK_qs (g : Group) (n : Nat) (x : DWord) : (g.writeK n x).qs = g.qs := rfl
@[simp] theorem Group.writeK_sp (g : Group) (n : Nat) (x : DWord) : (g.writeK n x).sp = g.sp := rfl
@[simp] theorem Group.writeK_ctl (g : Group) (n : Nat) (x : DWord) : (g.writeK n x).ctl = g.ctl := rfl
@[simp] theorem Group.writeK_mtl (g : Group) (n : Nat) (x : DWord) : (g.writeK n x).mtl = g.mtl := rfl
@[simp] theorem Group.writeK_splits (g : Group) (n : Nat) (x : DWord) : (g.writeK n x).splits = g.splits := rfl
@[simp] theorem Group.writeK_joins (g : Group) (n : Nat) (x : DWord) : (g.writeK n x).joins = g.joins := rfl
@[simp] theorem Group.writeK_parked (g : Group) (n : Nat) (x : DWord) : (g.writeK n x).parked = g.parked := rfl
@[simp] theorem Group.writeK_exited (g : Group) (n : Nat) (x : DWord) : (g.writeK n x).exited = g.exited := rfl
@[simp] theorem Group.writeK_depth (g : Group) (n : Nat) (x : DWord) : (g.writeK n x).depth = g.depth := rfl
@[simp] theorem Group.writeK_suspended (g : Group) (n : Nat) (x : DWord) : (g.writeK n x).suspended = g.suspended := rfl
@[simp] theorem Group.writeK_tpcSet (g : Group) (n : Nat) (x : DWord) : (g.writeK n x).tpcSet = g.tpcSet := rfl
@[simp] theorem Group.writeK_tpcSet2 (g : Group) (n : Nat) (x : DWord) : (g.writeK n x).tpcSet2 = g.tpcSet2 := rfl
@[simp] theorem Group.writeK_shadowCause (g : Group) (n : Nat) (x : DWord) : (g.writeK n x).shadowCause = g.shadowCause := rfl
@[simp] theorem Group.writeK_shadowTpc (g : Group) (n : Nat) (x : DWord) : (g.writeK n x).shadowTpc = g.shadowTpc := rfl
@[simp] theorem Group.writeK_nestEntry (g : Group) (n : Nat) (x : DWord) : (g.writeK n x).nestEntry = g.nestEntry := rfl
@[simp] theorem Group.writeK_cause1 (g : Group) (n : Nat) (x : DWord) : (g.writeK n x).cause1 = g.cause1 := rfl
@[simp] theorem Group.writeK_cause2 (g : Group) (n : Nat) (x : DWord) : (g.writeK n x).cause2 = g.cause2 := rfl
@[simp] theorem Group.writeK_prepend (g : Group) (n : Nat) (x : DWord) : (g.writeK n x).prepend = g.prepend := rfl
@[simp] theorem Group.writeK_preemptReq (g : Group) (n : Nat) (x : DWord) : (g.writeK n x).preemptReq = g.preemptReq := rfl
@[simp] theorem Group.writeK_uncorr (g : Group) (n : Nat) (x : DWord) : (g.writeK n x).uncorr = g.uncorr := rfl
@[simp] theorem Group.writeK_ctr (g : Group) (n : Nat) (x : DWord) : (g.writeK n x).ctr = g.ctr := rfl
@[simp] theorem Group.writeK_census (g : Group) (n : Nat) (x : DWord) : (g.writeK n x).census = g.census := rfl
@[simp] theorem Group.writeK_cookie (g : Group) (n : Nat) (x : DWord) : (g.writeK n x).cookie = g.cookie := rfl
@[simp] theorem Group.writeK_age (g : Group) (n : Nat) (x : DWord) : (g.writeK n x).age = g.age := rfl
@[simp] theorem Group.writeK_lastStart (g : Group) (n : Nat) (x : DWord) : (g.writeK n x).lastStart = g.lastStart := rfl
@[simp] theorem Group.writeK_klass (g : Group) (n : Nat) (x : DWord) : (g.writeK n x).klass = g.klass := rfl
@[simp] theorem Group.writeK_clauses (g : Group) (n : Nat) (x : DWord) : (g.writeK n x).clauses = g.clauses := rfl
@[simp] theorem Group.writeK_imgAt (g : Group) (n : Nat) (x : DWord) : (g.writeK n x).imgAt = g.imgAt := rfl
@[simp] theorem Group.writeK_fenceRel (g : Group) (n : Nat) (x : DWord) : (g.writeK n x).fenceRel = g.fenceRel := rfl
@[simp] theorem Group.writeK_deep (g : Group) (n : Nat) (x : DWord) : (g.writeK n x).deep = g.deep := rfl
@[simp] theorem Group.writeK_engSeen (g : Group) (n : Nat) (x : DWord) : (g.writeK n x).engSeen = g.engSeen := rfl

@[simp] theorem Group.writeP_kind (g : Group) (i : Nat) (m v : Mask) : (g.writeP i m v).kind = g.kind := rfl
@[simp] theorem Group.writeP_phase (g : Group) (i : Nat) (m v : Mask) : (g.writeP i m v).phase = g.phase := rfl
@[simp] theorem Group.writeP_lid (g : Group) (i : Nat) (m v : Mask) : (g.writeP i m v).lid = g.lid := rfl
@[simp] theorem Group.writeP_blk (g : Group) (i : Nat) (m v : Mask) : (g.writeP i m v).blk = g.blk := rfl
@[simp] theorem Group.writeP_gidx (g : Group) (i : Nat) (m v : Mask) : (g.writeP i m v).gidx = g.gidx := rfl
@[simp] theorem Group.writeP_vregs (g : Group) (i : Nat) (m v : Mask) : (g.writeP i m v).vregs = g.vregs := rfl
@[simp] theorem Group.writeP_kregs (g : Group) (i : Nat) (m v : Mask) : (g.writeP i m v).kregs = g.kregs := rfl
@[simp] theorem Group.writeP_qs (g : Group) (i : Nat) (m v : Mask) : (g.writeP i m v).qs = g.qs := rfl
@[simp] theorem Group.writeP_sp (g : Group) (i : Nat) (m v : Mask) : (g.writeP i m v).sp = g.sp := rfl
@[simp] theorem Group.writeP_ctl (g : Group) (i : Nat) (m v : Mask) : (g.writeP i m v).ctl = g.ctl := rfl
@[simp] theorem Group.writeP_mtl (g : Group) (i : Nat) (m v : Mask) : (g.writeP i m v).mtl = g.mtl := rfl
@[simp] theorem Group.writeP_splits (g : Group) (i : Nat) (m v : Mask) : (g.writeP i m v).splits = g.splits := rfl
@[simp] theorem Group.writeP_joins (g : Group) (i : Nat) (m v : Mask) : (g.writeP i m v).joins = g.joins := rfl
@[simp] theorem Group.writeP_parked (g : Group) (i : Nat) (m v : Mask) : (g.writeP i m v).parked = g.parked := rfl
@[simp] theorem Group.writeP_exited (g : Group) (i : Nat) (m v : Mask) : (g.writeP i m v).exited = g.exited := rfl
@[simp] theorem Group.writeP_depth (g : Group) (i : Nat) (m v : Mask) : (g.writeP i m v).depth = g.depth := rfl
@[simp] theorem Group.writeP_suspended (g : Group) (i : Nat) (m v : Mask) : (g.writeP i m v).suspended = g.suspended := rfl
@[simp] theorem Group.writeP_tpcSet (g : Group) (i : Nat) (m v : Mask) : (g.writeP i m v).tpcSet = g.tpcSet := rfl
@[simp] theorem Group.writeP_tpcSet2 (g : Group) (i : Nat) (m v : Mask) : (g.writeP i m v).tpcSet2 = g.tpcSet2 := rfl
@[simp] theorem Group.writeP_shadowCause (g : Group) (i : Nat) (m v : Mask) : (g.writeP i m v).shadowCause = g.shadowCause := rfl
@[simp] theorem Group.writeP_shadowTpc (g : Group) (i : Nat) (m v : Mask) : (g.writeP i m v).shadowTpc = g.shadowTpc := rfl
@[simp] theorem Group.writeP_nestEntry (g : Group) (i : Nat) (m v : Mask) : (g.writeP i m v).nestEntry = g.nestEntry := rfl
@[simp] theorem Group.writeP_cause1 (g : Group) (i : Nat) (m v : Mask) : (g.writeP i m v).cause1 = g.cause1 := rfl
@[simp] theorem Group.writeP_cause2 (g : Group) (i : Nat) (m v : Mask) : (g.writeP i m v).cause2 = g.cause2 := rfl
@[simp] theorem Group.writeP_prepend (g : Group) (i : Nat) (m v : Mask) : (g.writeP i m v).prepend = g.prepend := rfl
@[simp] theorem Group.writeP_preemptReq (g : Group) (i : Nat) (m v : Mask) : (g.writeP i m v).preemptReq = g.preemptReq := rfl
@[simp] theorem Group.writeP_uncorr (g : Group) (i : Nat) (m v : Mask) : (g.writeP i m v).uncorr = g.uncorr := rfl
@[simp] theorem Group.writeP_ctr (g : Group) (i : Nat) (m v : Mask) : (g.writeP i m v).ctr = g.ctr := rfl
@[simp] theorem Group.writeP_census (g : Group) (i : Nat) (m v : Mask) : (g.writeP i m v).census = g.census := rfl
@[simp] theorem Group.writeP_cookie (g : Group) (i : Nat) (m v : Mask) : (g.writeP i m v).cookie = g.cookie := rfl
@[simp] theorem Group.writeP_age (g : Group) (i : Nat) (m v : Mask) : (g.writeP i m v).age = g.age := rfl
@[simp] theorem Group.writeP_lastStart (g : Group) (i : Nat) (m v : Mask) : (g.writeP i m v).lastStart = g.lastStart := rfl
@[simp] theorem Group.writeP_klass (g : Group) (i : Nat) (m v : Mask) : (g.writeP i m v).klass = g.klass := rfl
@[simp] theorem Group.writeP_clauses (g : Group) (i : Nat) (m v : Mask) : (g.writeP i m v).clauses = g.clauses := rfl
@[simp] theorem Group.writeP_imgAt (g : Group) (i : Nat) (m v : Mask) : (g.writeP i m v).imgAt = g.imgAt := rfl
@[simp] theorem Group.writeP_fenceRel (g : Group) (i : Nat) (m v : Mask) : (g.writeP i m v).fenceRel = g.fenceRel := rfl
@[simp] theorem Group.writeP_deep (g : Group) (i : Nat) (m v : Mask) : (g.writeP i m v).deep = g.deep := rfl
@[simp] theorem Group.writeP_engSeen (g : Group) (i : Nat) (m v : Mask) : (g.writeP i m v).engSeen = g.engSeen := rfl

@[simp] theorem Group.writeQ_kind (g : Group) (i : Nat) (b : Bool) : (g.writeQ i b).kind = g.kind := rfl
@[simp] theorem Group.writeQ_phase (g : Group) (i : Nat) (b : Bool) : (g.writeQ i b).phase = g.phase := rfl
@[simp] theorem Group.writeQ_lid (g : Group) (i : Nat) (b : Bool) : (g.writeQ i b).lid = g.lid := rfl
@[simp] theorem Group.writeQ_blk (g : Group) (i : Nat) (b : Bool) : (g.writeQ i b).blk = g.blk := rfl
@[simp] theorem Group.writeQ_gidx (g : Group) (i : Nat) (b : Bool) : (g.writeQ i b).gidx = g.gidx := rfl
@[simp] theorem Group.writeQ_vregs (g : Group) (i : Nat) (b : Bool) : (g.writeQ i b).vregs = g.vregs := rfl
@[simp] theorem Group.writeQ_kregs (g : Group) (i : Nat) (b : Bool) : (g.writeQ i b).kregs = g.kregs := rfl
@[simp] theorem Group.writeQ_preds (g : Group) (i : Nat) (b : Bool) : (g.writeQ i b).preds = g.preds := rfl
@[simp] theorem Group.writeQ_sp (g : Group) (i : Nat) (b : Bool) : (g.writeQ i b).sp = g.sp := rfl
@[simp] theorem Group.writeQ_ctl (g : Group) (i : Nat) (b : Bool) : (g.writeQ i b).ctl = g.ctl := rfl
@[simp] theorem Group.writeQ_mtl (g : Group) (i : Nat) (b : Bool) : (g.writeQ i b).mtl = g.mtl := rfl
@[simp] theorem Group.writeQ_splits (g : Group) (i : Nat) (b : Bool) : (g.writeQ i b).splits = g.splits := rfl
@[simp] theorem Group.writeQ_joins (g : Group) (i : Nat) (b : Bool) : (g.writeQ i b).joins = g.joins := rfl
@[simp] theorem Group.writeQ_parked (g : Group) (i : Nat) (b : Bool) : (g.writeQ i b).parked = g.parked := rfl
@[simp] theorem Group.writeQ_exited (g : Group) (i : Nat) (b : Bool) : (g.writeQ i b).exited = g.exited := rfl
@[simp] theorem Group.writeQ_depth (g : Group) (i : Nat) (b : Bool) : (g.writeQ i b).depth = g.depth := rfl
@[simp] theorem Group.writeQ_suspended (g : Group) (i : Nat) (b : Bool) : (g.writeQ i b).suspended = g.suspended := rfl
@[simp] theorem Group.writeQ_tpcSet (g : Group) (i : Nat) (b : Bool) : (g.writeQ i b).tpcSet = g.tpcSet := rfl
@[simp] theorem Group.writeQ_tpcSet2 (g : Group) (i : Nat) (b : Bool) : (g.writeQ i b).tpcSet2 = g.tpcSet2 := rfl
@[simp] theorem Group.writeQ_shadowCause (g : Group) (i : Nat) (b : Bool) : (g.writeQ i b).shadowCause = g.shadowCause := rfl
@[simp] theorem Group.writeQ_shadowTpc (g : Group) (i : Nat) (b : Bool) : (g.writeQ i b).shadowTpc = g.shadowTpc := rfl
@[simp] theorem Group.writeQ_nestEntry (g : Group) (i : Nat) (b : Bool) : (g.writeQ i b).nestEntry = g.nestEntry := rfl
@[simp] theorem Group.writeQ_cause1 (g : Group) (i : Nat) (b : Bool) : (g.writeQ i b).cause1 = g.cause1 := rfl
@[simp] theorem Group.writeQ_cause2 (g : Group) (i : Nat) (b : Bool) : (g.writeQ i b).cause2 = g.cause2 := rfl
@[simp] theorem Group.writeQ_prepend (g : Group) (i : Nat) (b : Bool) : (g.writeQ i b).prepend = g.prepend := rfl
@[simp] theorem Group.writeQ_preemptReq (g : Group) (i : Nat) (b : Bool) : (g.writeQ i b).preemptReq = g.preemptReq := rfl
@[simp] theorem Group.writeQ_uncorr (g : Group) (i : Nat) (b : Bool) : (g.writeQ i b).uncorr = g.uncorr := rfl
@[simp] theorem Group.writeQ_ctr (g : Group) (i : Nat) (b : Bool) : (g.writeQ i b).ctr = g.ctr := rfl
@[simp] theorem Group.writeQ_census (g : Group) (i : Nat) (b : Bool) : (g.writeQ i b).census = g.census := rfl
@[simp] theorem Group.writeQ_cookie (g : Group) (i : Nat) (b : Bool) : (g.writeQ i b).cookie = g.cookie := rfl
@[simp] theorem Group.writeQ_age (g : Group) (i : Nat) (b : Bool) : (g.writeQ i b).age = g.age := rfl
@[simp] theorem Group.writeQ_lastStart (g : Group) (i : Nat) (b : Bool) : (g.writeQ i b).lastStart = g.lastStart := rfl
@[simp] theorem Group.writeQ_klass (g : Group) (i : Nat) (b : Bool) : (g.writeQ i b).klass = g.klass := rfl
@[simp] theorem Group.writeQ_clauses (g : Group) (i : Nat) (b : Bool) : (g.writeQ i b).clauses = g.clauses := rfl
@[simp] theorem Group.writeQ_imgAt (g : Group) (i : Nat) (b : Bool) : (g.writeQ i b).imgAt = g.imgAt := rfl
@[simp] theorem Group.writeQ_fenceRel (g : Group) (i : Nat) (b : Bool) : (g.writeQ i b).fenceRel = g.fenceRel := rfl
@[simp] theorem Group.writeQ_deep (g : Group) (i : Nat) (b : Bool) : (g.writeQ i b).deep = g.deep := rfl
@[simp] theorem Group.writeQ_engSeen (g : Group) (i : Nat) (b : Bool) : (g.writeQ i b).engSeen = g.engSeen := rfl

@[simp] theorem Group.incCtr_ref (g : Group) (n : Nat) : (g.incCtr n).ref = g.ref := rfl
@[simp] theorem Group.incCtr_kind (g : Group) (n : Nat) : (g.incCtr n).kind = g.kind := rfl
@[simp] theorem Group.incCtr_phase (g : Group) (n : Nat) : (g.incCtr n).phase = g.phase := rfl
@[simp] theorem Group.incCtr_lid (g : Group) (n : Nat) : (g.incCtr n).lid = g.lid := rfl
@[simp] theorem Group.incCtr_blk (g : Group) (n : Nat) : (g.incCtr n).blk = g.blk := rfl
@[simp] theorem Group.incCtr_gidx (g : Group) (n : Nat) : (g.incCtr n).gidx = g.gidx := rfl
@[simp] theorem Group.incCtr_vregs (g : Group) (n : Nat) : (g.incCtr n).vregs = g.vregs := rfl
@[simp] theorem Group.incCtr_kregs (g : Group) (n : Nat) : (g.incCtr n).kregs = g.kregs := rfl
@[simp] theorem Group.incCtr_preds (g : Group) (n : Nat) : (g.incCtr n).preds = g.preds := rfl
@[simp] theorem Group.incCtr_qs (g : Group) (n : Nat) : (g.incCtr n).qs = g.qs := rfl
@[simp] theorem Group.incCtr_sp (g : Group) (n : Nat) : (g.incCtr n).sp = g.sp := rfl
@[simp] theorem Group.incCtr_ctl (g : Group) (n : Nat) : (g.incCtr n).ctl = g.ctl := rfl
@[simp] theorem Group.incCtr_mtl (g : Group) (n : Nat) : (g.incCtr n).mtl = g.mtl := rfl
@[simp] theorem Group.incCtr_splits (g : Group) (n : Nat) : (g.incCtr n).splits = g.splits := rfl
@[simp] theorem Group.incCtr_joins (g : Group) (n : Nat) : (g.incCtr n).joins = g.joins := rfl
@[simp] theorem Group.incCtr_parked (g : Group) (n : Nat) : (g.incCtr n).parked = g.parked := rfl
@[simp] theorem Group.incCtr_exited (g : Group) (n : Nat) : (g.incCtr n).exited = g.exited := rfl
@[simp] theorem Group.incCtr_depth (g : Group) (n : Nat) : (g.incCtr n).depth = g.depth := rfl
@[simp] theorem Group.incCtr_suspended (g : Group) (n : Nat) : (g.incCtr n).suspended = g.suspended := rfl
@[simp] theorem Group.incCtr_tpcSet (g : Group) (n : Nat) : (g.incCtr n).tpcSet = g.tpcSet := rfl
@[simp] theorem Group.incCtr_tpcSet2 (g : Group) (n : Nat) : (g.incCtr n).tpcSet2 = g.tpcSet2 := rfl
@[simp] theorem Group.incCtr_shadowCause (g : Group) (n : Nat) : (g.incCtr n).shadowCause = g.shadowCause := rfl
@[simp] theorem Group.incCtr_shadowTpc (g : Group) (n : Nat) : (g.incCtr n).shadowTpc = g.shadowTpc := rfl
@[simp] theorem Group.incCtr_nestEntry (g : Group) (n : Nat) : (g.incCtr n).nestEntry = g.nestEntry := rfl
@[simp] theorem Group.incCtr_cause1 (g : Group) (n : Nat) : (g.incCtr n).cause1 = g.cause1 := rfl
@[simp] theorem Group.incCtr_cause2 (g : Group) (n : Nat) : (g.incCtr n).cause2 = g.cause2 := rfl
@[simp] theorem Group.incCtr_prepend (g : Group) (n : Nat) : (g.incCtr n).prepend = g.prepend := rfl
@[simp] theorem Group.incCtr_preemptReq (g : Group) (n : Nat) : (g.incCtr n).preemptReq = g.preemptReq := rfl
@[simp] theorem Group.incCtr_uncorr (g : Group) (n : Nat) : (g.incCtr n).uncorr = g.uncorr := rfl
@[simp] theorem Group.incCtr_census (g : Group) (n : Nat) : (g.incCtr n).census = g.census := rfl
@[simp] theorem Group.incCtr_cookie (g : Group) (n : Nat) : (g.incCtr n).cookie = g.cookie := rfl
@[simp] theorem Group.incCtr_age (g : Group) (n : Nat) : (g.incCtr n).age = g.age := rfl
@[simp] theorem Group.incCtr_lastStart (g : Group) (n : Nat) : (g.incCtr n).lastStart = g.lastStart := rfl
@[simp] theorem Group.incCtr_klass (g : Group) (n : Nat) : (g.incCtr n).klass = g.klass := rfl
@[simp] theorem Group.incCtr_clauses (g : Group) (n : Nat) : (g.incCtr n).clauses = g.clauses := rfl
@[simp] theorem Group.incCtr_imgAt (g : Group) (n : Nat) : (g.incCtr n).imgAt = g.imgAt := rfl
@[simp] theorem Group.incCtr_fenceRel (g : Group) (n : Nat) : (g.incCtr n).fenceRel = g.fenceRel := rfl
@[simp] theorem Group.incCtr_deep (g : Group) (n : Nat) : (g.incCtr n).deep = g.deep := rfl
@[simp] theorem Group.incCtr_engSeen (g : Group) (n : Nat) : (g.incCtr n).engSeen = g.engSeen := rfl

@[simp] theorem Group.decCtr_ref (g : Group) (n : Nat) : (g.decCtr n).ref = g.ref := rfl
@[simp] theorem Group.decCtr_kind (g : Group) (n : Nat) : (g.decCtr n).kind = g.kind := rfl
@[simp] theorem Group.decCtr_phase (g : Group) (n : Nat) : (g.decCtr n).phase = g.phase := rfl
@[simp] theorem Group.decCtr_lid (g : Group) (n : Nat) : (g.decCtr n).lid = g.lid := rfl
@[simp] theorem Group.decCtr_blk (g : Group) (n : Nat) : (g.decCtr n).blk = g.blk := rfl
@[simp] theorem Group.decCtr_gidx (g : Group) (n : Nat) : (g.decCtr n).gidx = g.gidx := rfl
@[simp] theorem Group.decCtr_vregs (g : Group) (n : Nat) : (g.decCtr n).vregs = g.vregs := rfl
@[simp] theorem Group.decCtr_kregs (g : Group) (n : Nat) : (g.decCtr n).kregs = g.kregs := rfl
@[simp] theorem Group.decCtr_preds (g : Group) (n : Nat) : (g.decCtr n).preds = g.preds := rfl
@[simp] theorem Group.decCtr_qs (g : Group) (n : Nat) : (g.decCtr n).qs = g.qs := rfl
@[simp] theorem Group.decCtr_sp (g : Group) (n : Nat) : (g.decCtr n).sp = g.sp := rfl
@[simp] theorem Group.decCtr_ctl (g : Group) (n : Nat) : (g.decCtr n).ctl = g.ctl := rfl
@[simp] theorem Group.decCtr_mtl (g : Group) (n : Nat) : (g.decCtr n).mtl = g.mtl := rfl
@[simp] theorem Group.decCtr_splits (g : Group) (n : Nat) : (g.decCtr n).splits = g.splits := rfl
@[simp] theorem Group.decCtr_joins (g : Group) (n : Nat) : (g.decCtr n).joins = g.joins := rfl
@[simp] theorem Group.decCtr_parked (g : Group) (n : Nat) : (g.decCtr n).parked = g.parked := rfl
@[simp] theorem Group.decCtr_exited (g : Group) (n : Nat) : (g.decCtr n).exited = g.exited := rfl
@[simp] theorem Group.decCtr_depth (g : Group) (n : Nat) : (g.decCtr n).depth = g.depth := rfl
@[simp] theorem Group.decCtr_suspended (g : Group) (n : Nat) : (g.decCtr n).suspended = g.suspended := rfl
@[simp] theorem Group.decCtr_tpcSet (g : Group) (n : Nat) : (g.decCtr n).tpcSet = g.tpcSet := rfl
@[simp] theorem Group.decCtr_tpcSet2 (g : Group) (n : Nat) : (g.decCtr n).tpcSet2 = g.tpcSet2 := rfl
@[simp] theorem Group.decCtr_shadowCause (g : Group) (n : Nat) : (g.decCtr n).shadowCause = g.shadowCause := rfl
@[simp] theorem Group.decCtr_shadowTpc (g : Group) (n : Nat) : (g.decCtr n).shadowTpc = g.shadowTpc := rfl
@[simp] theorem Group.decCtr_nestEntry (g : Group) (n : Nat) : (g.decCtr n).nestEntry = g.nestEntry := rfl
@[simp] theorem Group.decCtr_cause1 (g : Group) (n : Nat) : (g.decCtr n).cause1 = g.cause1 := rfl
@[simp] theorem Group.decCtr_cause2 (g : Group) (n : Nat) : (g.decCtr n).cause2 = g.cause2 := rfl
@[simp] theorem Group.decCtr_prepend (g : Group) (n : Nat) : (g.decCtr n).prepend = g.prepend := rfl
@[simp] theorem Group.decCtr_preemptReq (g : Group) (n : Nat) : (g.decCtr n).preemptReq = g.preemptReq := rfl
@[simp] theorem Group.decCtr_uncorr (g : Group) (n : Nat) : (g.decCtr n).uncorr = g.uncorr := rfl
@[simp] theorem Group.decCtr_census (g : Group) (n : Nat) : (g.decCtr n).census = g.census := rfl
@[simp] theorem Group.decCtr_cookie (g : Group) (n : Nat) : (g.decCtr n).cookie = g.cookie := rfl
@[simp] theorem Group.decCtr_age (g : Group) (n : Nat) : (g.decCtr n).age = g.age := rfl
@[simp] theorem Group.decCtr_lastStart (g : Group) (n : Nat) : (g.decCtr n).lastStart = g.lastStart := rfl
@[simp] theorem Group.decCtr_klass (g : Group) (n : Nat) : (g.decCtr n).klass = g.klass := rfl
@[simp] theorem Group.decCtr_clauses (g : Group) (n : Nat) : (g.decCtr n).clauses = g.clauses := rfl
@[simp] theorem Group.decCtr_imgAt (g : Group) (n : Nat) : (g.decCtr n).imgAt = g.imgAt := rfl
@[simp] theorem Group.decCtr_fenceRel (g : Group) (n : Nat) : (g.decCtr n).fenceRel = g.fenceRel := rfl
@[simp] theorem Group.decCtr_deep (g : Group) (n : Nat) : (g.decCtr n).deep = g.deep := rfl
@[simp] theorem Group.decCtr_engSeen (g : Group) (n : Nat) : (g.decCtr n).engSeen = g.engSeen := rfl

end Sys2Proof.Machine
end

