-- ==== Sys2Proof/Laws/Groups.lean ====
section
/-! SUPPORT. Finding a group after a group, a split or a counter changed. -/

namespace Sys2Proof.Machine

open Sys2Proof

theorem find_map_same {l : List Group} {r : GRef} {f : Group → Group} {g : Group}
    (h : l.find? (fun g => g.ref = r) = some g) (hf : (f g).ref = r) :
    (l.map (fun g => if g.ref = r then f g else g)).find? (fun g => g.ref = r) = some (f g) := by
  induction l with
  | nil => simp at h
  | cons x xs ih =>
    by_cases hx : x.ref = r
    · simp [hx] at h
      subst h
      simp [hx, hf]
    · simp [hx] at h ⊢
      simpa using ih (by simpa using h)

theorem find_map_other {l : List Group} {r r' : GRef} {f : Group → Group} (hr : r' ≠ r)
    (hf : ∀ g, g.ref = r → (f g).ref = r) :
    (l.map (fun g => if g.ref = r then f g else g)).find? (fun g => g.ref = r') =
      l.find? (fun g => g.ref = r') := by
  induction l with
  | nil => rfl
  | cons x xs ih =>
    rw [List.map_cons, List.find?_cons, List.find?_cons, ih]
    by_cases hx : x.ref = r
    · have h1 : (f x).ref ≠ r' := by rw [hf x hx]; exact fun h => hr h.symm
      simp [hx, h1, Ne.symm hr]
    · simp only [hx, if_false]

/-- A found group has the name it was found by. -/
theorem State.group?_ref {s : State} {r : GRef} {g : Group} (h : s.group? r = some g) : g.ref = r := by
  simpa using List.find?_some h

/-- The group that was changed is found changed. -/
theorem State.group?_modGroup {s : State} {r : GRef} {g : Group} {f : Group → Group} (h : s.group? r = some g)
    (hf : (f g).ref = g.ref) : (s.modGroup r f).group? r = some (f g) :=
  find_map_same h (hf.trans (State.group?_ref h))

/-- Other groups are found as they were. -/
theorem State.group?_modGroup_other {s : State} {r r' : GRef} {f : Group → Group} (hr : r' ≠ r)
    (hf : ∀ g, (f g).ref = g.ref) : (s.modGroup r f).group? r' = s.group? r' :=
  find_map_other hr (fun g h => (hf g).trans h)

/-- A group that becomes something else, its new READY splits made young (04 R101), is found so. -/
theorem State.group?_modReady {s : State} {r : GRef} {g : Group} {f : Group → Group} (h : s.group? r = some g)
    (hf : (f g).ref = g.ref) : (s.modReady r f).group? r = some ((f g).readied s.nextId g) :=
  State.group?_modGroup h hf

/-- Other groups are found as they were. -/
theorem State.group?_modReady_other {s : State} {r r' : GRef} {f : Group → Group} (hr : r' ≠ r)
    (hf : ∀ g, (f g).ref = g.ref) : (s.modReady r f).group? r' = s.group? r' :=
  State.group?_modGroup_other hr hf

@[simp] theorem State.count_zero (s : State) (c : CoreRef) (a b : Nat) : s.count c a b 0 = s := rfl

/-- Counting changes the counters only. -/
theorem State.count_eq (s : State) (c : CoreRef) (a b n : Nat) :
    ∃ m, s.count c a b n = { s with counters := m } := by
  unfold State.count
  split
  · exact ⟨s.counters, rfl⟩
  · exact ⟨_, rfl⟩

/-- A write that WAITAs see changes nothing else (08 R249). -/
theorem State.watch_eq (s : State) : ∃ l, s.watch = { s with ops := l } ∧ MetOnly s.ops l := by
  unfold State.watch
  split
  · refine ⟨_, rfl, fun o => o.met || (o.kind = .waita && !o.met && o.lanes.all (fun l => l.status = .accepted) && s.waitaMet o), ?_⟩
    refine List.map_congr_left (fun o _ => ?_)
    split
    · rename_i h; simp_all
    · rename_i h
      have key : ∀ b, b = o.met → o = { o with met := b } := by rintro _ rfl; rfl
      apply key
      cases hm : o.met
      · simpa [hm] using h
      · simp [hm]
  · exact ⟨s.ops, rfl, fun o => o.met, by simp⟩

theorem MetOnly.refl (l : List MemOp) : MetOnly l l := ⟨fun o => o.met, by simp⟩

theorem MetOnly.trans {a b c : List MemOp} : MetOnly a b → MetOnly b c → MetOnly a c := by
  rintro ⟨f, rfl⟩ ⟨g, rfl⟩
  exact ⟨fun o => g { o with met := f o }, by simp⟩

@[simp] theorem State.count_groups (s : State) (c : CoreRef) (a b n : Nat) : (s.count c a b n).groups = s.groups := by
  obtain ⟨m, h⟩ := s.count_eq c a b n; rw [h]

@[simp] theorem State.group?_count (s : State) (c : CoreRef) (a b n : Nat) (r : GRef) :
    (s.count c a b n).group? r = s.group? r := by simp [State.group?]

end Sys2Proof.Machine
end

