-- ==== Sys2Proof/Laws/Memory.lean ====
section
/-! SUPPORT. Bytes by address: read after write, and every memory operation keeps the canonical form. -/

namespace Sys2Proof.Machine

open Sys2Proof

/-! ### Reading after writing -/

/-- An address below every listed one reads as an unlisted address. -/
theorem memGet_below {m : Memory} {lo a : Nat} (h : m.wfFrom lo = true) (ha : a < lo) : memGet m a = 0 := by
  induction m generalizing lo with
  | nil => rfl
  | cons x rest ih =>
    obtain ⟨k, b⟩ := x
    simp only [Memory.wfFrom, Bool.and_eq_true, decide_eq_true_eq] at h
    obtain ⟨⟨hk, -⟩, hr⟩ := h
    have : k ≠ a := by omega
    simp only [memGet, this, if_false]
    exact ih hr (by omega)

/-- The byte written is read. -/
theorem memGet_memPut_same {m : Memory} {lo : Nat} (h : m.wfFrom lo = true) (a : Nat) (b : Byte) :
    memGet (memPut m a b) a = b := by
  induction m generalizing lo with
  | nil =>
    unfold memPut
    split
    · next hb => exact hb.symm
    · simp [memGet]
  | cons x rest ih =>
    obtain ⟨k, c⟩ := x
    simp only [Memory.wfFrom, Bool.and_eq_true, decide_eq_true_eq] at h
    obtain ⟨-, hr⟩ := h
    unfold memPut
    split
    · next hlt =>
      have : k ≠ a := by omega
      simp only [memGet, this, if_false]
      exact ih hr
    · next hge =>
      split
      · next he =>
        subst he
        split
        · next hb => subst hb; exact memGet_below hr (Nat.lt_succ_self k)
        · simp [memGet]
      · next hne =>
        split
        · next hb =>
          subst hb
          simp only [memGet, hne, if_false]
          exact memGet_below hr (by omega)
        · simp [memGet]

/-- Every other byte reads as before. -/
theorem memGet_memPut_other (m : Memory) {a a' : Nat} (b : Byte) (hn : a' ≠ a) :
    memGet (memPut m a b) a' = memGet m a' := by
  induction m with
  | nil =>
    unfold memPut
    split
    · rfl
    · simp [memGet, Ne.symm hn]
  | cons x rest ih =>
    obtain ⟨k, c⟩ := x
    unfold memPut
    split
    · simp only [memGet, ih]
    · split
      · next he =>
        subst he
        split <;> simp [memGet, Ne.symm hn]
      · split
        · rfl
        · simp [memGet, Ne.symm hn]

/-- Bytes outside a written range read as before. -/
theorem memGet_memWrite_other (m : Memory) (a : Nat) (bs : List Byte) {x : Nat} (hx : x < a ∨ a + bs.length ≤ x) :
    memGet (memWrite m a bs) x = memGet m x := by
  induction bs generalizing m a with
  | nil => rfl
  | cons b rest ih =>
    simp only [List.length_cons] at hx
    rw [memWrite, ih _ _ (by omega), memGet_memPut_other _ _ (by omega)]

/-! ### The canonical form -/

/-- A lower bound of a canonical memory may be lowered. -/
theorem Memory.wfFrom_le {m : Memory} {lo lo' : Nat} (h : m.wfFrom lo = true) (hl : lo' ≤ lo) : m.wfFrom lo' = true := by
  cases m with
  | nil => rfl
  | cons x rest =>
    obtain ⟨k, b⟩ := x
    simp only [Memory.wfFrom, Bool.and_eq_true, decide_eq_true_eq] at h ⊢
    exact ⟨⟨by omega, h.1.2⟩, h.2⟩

theorem Memory.wfFrom_memPut {m : Memory} {lo : Nat} (h : m.wfFrom lo = true) {a : Nat} (ha : lo ≤ a) (b : Byte) :
    (memPut m a b).wfFrom lo = true := by
  induction m generalizing lo with
  | nil =>
    unfold memPut
    split
    · rfl
    · next hb =>
      simp only [Memory.wfFrom, Bool.and_eq_true, decide_eq_true_eq]
      exact ⟨⟨ha, hb⟩, trivial⟩
  | cons x rest ih =>
    obtain ⟨k, c⟩ := x
    have h0 := h
    simp only [Memory.wfFrom, Bool.and_eq_true, decide_eq_true_eq] at h
    obtain ⟨⟨hk, hc⟩, hr⟩ := h
    unfold memPut
    split
    · next hlt =>
      simp only [Memory.wfFrom, Bool.and_eq_true, decide_eq_true_eq]
      exact ⟨⟨hk, hc⟩, ih hr (by omega)⟩
    · split
      · next he =>
        split
        · exact Memory.wfFrom_le hr (by omega)
        · next hb =>
          simp only [Memory.wfFrom, Bool.and_eq_true, decide_eq_true_eq]
          exact ⟨⟨ha, hb⟩, Memory.wfFrom_le hr (by omega)⟩
      · split
        · exact h0
        · next hb =>
          simp only [Memory.wfFrom, Bool.and_eq_true, decide_eq_true_eq]
          exact ⟨⟨ha, hb⟩, ⟨by omega, hc⟩, hr⟩

/-- Writing a byte keeps the canonical form. -/
theorem Memory.wf_memPut {m : Memory} (h : m.wf = true) (a : Nat) (b : Byte) : (memPut m a b).wf = true :=
  Memory.wfFrom_memPut h (Nat.zero_le a) b

/-- Writing bytes keeps the canonical form. -/
theorem Memory.wf_memWrite {m : Memory} (h : m.wf = true) (a : Nat) (bs : List Byte) : (memWrite m a bs).wf = true := by
  induction bs generalizing m a with
  | nil => exact h
  | cons b rest ih => exact ih (Memory.wf_memPut h a b) (a + 1)

theorem Memory.wfFrom_filter {m : Memory} {lo : Nat} (h : m.wfFrom lo = true) (p : Host.Cell → Bool) :
    Memory.wfFrom (m.filter p) lo = true := by
  induction m generalizing lo with
  | nil => rfl
  | cons x rest ih =>
    obtain ⟨k, b⟩ := x
    simp only [Memory.wfFrom, Bool.and_eq_true, decide_eq_true_eq] at h
    obtain ⟨⟨hk, hb⟩, hr⟩ := h
    rw [List.filter_cons]
    split
    · simp only [Memory.wfFrom, Bool.and_eq_true, decide_eq_true_eq]
      exact ⟨⟨hk, hb⟩, ih hr⟩
    · exact Memory.wfFrom_le (ih hr) (by omega)

/-- Forgetting cells keeps the canonical form (a reset, a scrub). -/
theorem Memory.wf_filter {m : Memory} (h : m.wf = true) (p : Host.Cell → Bool) : Memory.wf (m.filter p) = true :=
  Memory.wfFrom_filter h p

/-- Writing a list of cells, some left out, keeps the canonical form (the images of firmware). -/
theorem Memory.wf_foldl_memPut {m : Memory} (h : m.wf = true) (p : Host.Cell → Bool) (cs : List Host.Cell) :
    Memory.wf (cs.foldl (fun (m : Memory) x => if p x then memPut m x.1 x.2 else m) m) = true := by
  induction cs generalizing m with
  | nil => exact h
  | cons x rest ih =>
    rw [List.foldl_cons]
    split
    · exact ih (Memory.wf_memPut h x.1 x.2)
    · exact ih h

/-- Moving cells keeps the canonical form (a page migration). -/
theorem Memory.wf_foldl_move {m : Memory} (h : m.wf = true) (f : Nat → Nat) (cs : List Host.Cell) :
    Memory.wf (cs.foldl (fun (h : Memory) x => memPut h (f x.1) x.2) m) = true := by
  induction cs generalizing m with
  | nil => exact h
  | cons x rest ih => exact ih (Memory.wf_memPut h (f x.1) x.2)

/-- Clearing storage keeps the canonical form. -/
theorem Memory.wf_memClear {m : Memory} (h : m.wf = true) (a n : Nat) : (memClear m a n).wf = true :=
  Memory.wf_filter h _

/-- Two canonical memories that read alike are equal: the form has one list for each contents. -/
theorem Memory.ext_of_wfFrom {m n : Memory} {lo : Nat} (hm : m.wfFrom lo = true) (hn : n.wfFrom lo = true)
    (h : ∀ a, memGet m a = memGet n a) : m = n := by
  induction m generalizing n lo with
  | nil =>
    cases n with
    | nil => rfl
    | cons y rest =>
      obtain ⟨k, b⟩ := y
      simp only [Memory.wfFrom, Bool.and_eq_true, decide_eq_true_eq] at hn
      exact absurd (by simpa [memGet] using (h k).symm) hn.1.2
  | cons x ms ih =>
    obtain ⟨k, b⟩ := x
    simp only [Memory.wfFrom, Bool.and_eq_true, decide_eq_true_eq] at hm
    obtain ⟨⟨hk, hb⟩, hms⟩ := hm
    cases n with
    | nil => exact absurd (by simpa [memGet] using h k) hb
    | cons y ns =>
      obtain ⟨j, c⟩ := y
      simp only [Memory.wfFrom, Bool.and_eq_true, decide_eq_true_eq] at hn
      obtain ⟨⟨hj, hc⟩, hns⟩ := hn
      have hkj : k = j := by
        rcases Nat.lt_trichotomy k j with hlt | he | hgt
        · have h1 := h k
          rw [memGet, if_pos rfl, memGet, if_neg (by omega), memGet_below hns (by omega)] at h1
          exact absurd h1 hb
        · exact he
        · have h1 := h j
          rw [memGet, if_neg (by omega), memGet_below hms (by omega), memGet, if_pos rfl] at h1
          exact absurd h1.symm hc
      subst hkj
      have hbc : b = c := by simpa [memGet] using h k
      subst hbc
      have : ms = ns := ih hms hns (fun a => by
        by_cases ha : a ≤ k
        · rw [memGet_below hms (by omega), memGet_below hns (by omega)]
        · have h1 := h a
          rwa [memGet, memGet, if_neg (by omega), if_neg (by omega)] at h1)
      rw [this]

/-! ### The state's memories stay canonical -/

/-- A change that leaves both memories keeps the invariant. -/
theorem State.Inv.of_same {s t : State} (h : s.Inv) (hh : t.hbm = s.hbm) (ho : t.onchip = s.onchip) : t.Inv := by
  unfold State.Inv
  rw [hh, ho]
  exact h

theorem State.Inv.hbmWrite {s : State} (h : s.Inv) (key : Nat) (bs : List Byte) : (s.hbmWrite key bs).Inv :=
  ⟨Memory.wf_memWrite h.1 key bs, h.2⟩

theorem State.Inv.watch {s : State} (h : s.Inv) : s.watch.Inv := by
  unfold State.watch
  split <;> exact h

theorem State.Inv.ocWrite {s : State} (h : s.Inv) (a : Nat) (bs : List Byte) : (s.ocWrite a bs).Inv :=
  State.Inv.watch ⟨h.1, Memory.wf_memWrite h.2 a bs⟩

theorem State.Inv.ctlWrite {s : State} (h : s.Inv) (x : Xl) (bs : List Byte) : (s.ctlWrite x bs).Inv := by
  unfold State.ctlWrite
  split
  · exact h
  · split
    · exact h
    · exact h.hbmWrite _ _

theorem State.Inv.modGroup {s : State} (h : s.Inv) (r : GRef) (f : Group → Group) : (s.modGroup r f).Inv := h

theorem State.Inv.modLaunch {s : State} (h : s.Inv) (l : Nat) (f : Launch → Launch) : (s.modLaunch l f).Inv := h

theorem State.Inv.modBlock {s : State} (h : s.Inv) (l i : Nat) (f : Block → Block) : (s.modBlock l i f).Inv := h

theorem State.Inv.count {s : State} (h : s.Inv) (c : CoreRef) (a b n : Nat) : (s.count c a b n).Inv := by
  unfold State.count
  split <;> exact h

/-- A change of the state that keeps the invariant keeps it over a list. -/
theorem State.Inv.foldl {α : Type} {s : State} (h : s.Inv) (f : State → α → State) (l : List α)
    (hf : ∀ t x, t.Inv → (f t x).Inv) : (l.foldl f s).Inv := by
  induction l generalizing s with
  | nil => exact h
  | cons x rest ih => exact ih (hf s x h)

/-- An element of a tile view stored keeps the canonical form. -/
theorem TView.wf_put (v : TView) {m : Memory} (h : m.wf = true) (base i j x : Nat) : (v.put m base i j x).wf = true := by
  unfold TView.put
  dsimp only
  split
  · exact Memory.wf_memPut h _ _
  · exact Memory.wf_memWrite h _ _

end Sys2Proof.Machine
end

