-- ==== Sys2Proof/Laws/Slot.lean ====
section
/-! SUPPORT. The shared path of an issued slot: a ready slot acts, and what the ends of a slot leave. -/

namespace Sys2Proof.Machine

open Sys2Proof

/-! ### Changes that keep a group's name -/

@[simp] theorem Group.modSplit_ref (g : Group) (e : Nat) (f : Split → Split) : (g.modSplit e f).ref = g.ref := rfl
@[simp] theorem Group.setV_ref (g : Group) (n : Nat) (r : VReg) : (g.setV n r).ref = g.ref := rfl
@[simp] theorem Group.setK_ref (g : Group) (n : Nat) (r : KReg) : (g.setK n r).ref = g.ref := rfl
@[simp] theorem Group.writeK_ref (g : Group) (n : Nat) (x : DWord) : (g.writeK n x).ref = g.ref := rfl
@[simp] theorem Group.writeP_ref (g : Group) (i : Nat) (m v : Mask) : (g.writeP i m v).ref = g.ref := rfl
@[simp] theorem Group.writeQ_ref (g : Group) (i : Nat) (b : Bool) : (g.writeQ i b).ref = g.ref := rfl
@[simp] theorem Group.writeV_ref (g : Group) (n : Nat) (m : Mask) (f : Nat → Word) : (g.writeV n m f).ref = g.ref := by
  unfold Group.writeV; split <;> rfl
@[simp] theorem Group.holdAtEnd_ref (g : Group) (e : Nat) : (g.holdAtEnd e).ref = g.ref := by
  unfold Group.holdAtEnd; dsimp only; split <;> rfl
@[simp] theorem Group.finish_ref (g : Group) (e n : Nat) : (g.finish e n).ref = g.ref := by simp [Group.finish]
@[simp] theorem Group.jump_ref (g : Group) (e tgt : Nat) : (g.jump e tgt).ref = g.ref := by simp [Group.jump]

@[simp] theorem applyLast_ref (s : State) (m : Mask) (g : Group) (rds : List Rd) :
    (applyLast s m g rds).ref = g.ref := by
  unfold applyLast
  induction rds generalizing g with
  | nil => rfl
  | cons rd rds ih =>
    rw [List.foldl_cons, ih]
    dsimp only
    split
    · rfl
    · split
      · rfl
      · split <;> rfl

/-! ### A ready slot acts -/

/-- The checks of a ready slot find nothing (05 R131). -/
theorem ReadyOn.issueCheck {s : State} {lo : Group → Split → Mask} {rds : List Rd} {dsts : List Nat} {c : Ctx}
    (h : ReadyOn s lo rds dsts c) : issueCheck s c.g c.r c.e c.m c.sp.pc rds dsts = none := by
  have hr : (c.g.split c.e).replay = c.sp.replay := by rw [h.split]
  have hE : ∀ rd ∈ rds, (c.m != 0 && regEmpty s c.g rd.isK rd.n c.m c.sp.replay) = false := by
    intro rd hrd
    by_cases hm : c.m = 0
    · simp [hm]
    · simp [h.full hm rd hrd]
  have h1 : rds.find? (fun rd => rd.etrap && (c.m != 0 && regEmpty s c.g rd.isK rd.n c.m c.sp.replay)) = none := by
    rw [List.find?_eq_none]; intro rd hrd; rw [hE rd hrd, Bool.and_false]; exact Bool.false_ne_true
  have h2 : rds.find? (fun rd => c.m != 0 && regEmpty s c.g rd.isK rd.n c.m c.sp.replay) = none := by
    rw [List.find?_eq_none]; intro rd hrd; rw [hE rd hrd]; exact Bool.false_ne_true
  have h3 : rds.find? (fun rd => !rd.isK && s.debugOf c.g && deadLanes s c.g rd.n &&& c.m != 0) = none := by
    rw [List.find?_eq_none]
    intro rd hrd
    cases hk : rd.isK <;> cases hd : s.debugOf c.g <;> simp_all
    simpa using h.alive hd rd hrd hk
  have h4 : failMet c.g c.m rds = none := by
    unfold failMet
    rw [List.findSome?_eq_none_iff]
    intro rd hrd
    split
    · rfl
    · rename_i hk
      exact List.findSome?_eq_none_iff.2 (h.sound rd hrd (by simpa using hk))
  have h5 : ((rds.filter (fun rd => !rd.isK)).map (·.n) ++ (if c.m = Mask.all then [] else dsts)).find?
      (fun n => (c.g.vreg n).spilled) = none := by
    rw [List.find?_eq_none]
    intro n hn
    rcases List.mem_append.1 hn with hn | hn
    · obtain ⟨rd, hrd, rfl⟩ := List.mem_map.1 hn
      obtain ⟨hrd, hk⟩ := List.mem_filter.1 hrd
      simp [h.loaded rd hrd (by simpa using hk)]
    · split at hn
      · simp at hn
      · rename_i hm; simp [h.loadedD hm n hn]
  unfold Machine.issueCheck
  simp only [hr, h1, h2, h3, h4, h5]
  by_cases hm : c.m = 0
  · simp [hm]
  · have h6 : dsts.any (fun n => s.isMbox c.g n && s.mboxPending c.r c.r n s.nextId) = false := by
      rw [List.any_eq_false]; intro n hn
      cases hb : s.isMbox c.g n with
      | false => simp
      | true => simp [h.settled hm n hn hb]
    have h7 := h.room hm
    simp [h6, Nat.not_lt.2 h7]

/-- What a ready slot answers: its meaning's result, from the context it was given. -/
theorem ReadyOn.slotOn {s : State} {lo : Group → Split → Mask} {rds : List Rd} {dsts : List Nat} {c : Ctx}
    (h : ReadyOn s lo rds dsts c) (body : Ctx → SlotRes) :
    slotOn s lo rds dsts body = .next (slotEnd c (body c)) := by
  have hc := h.issueCheck
  unfold Machine.slotOn
  simp only [h.issuer, h.group, ← h.split, ← h.mask, hc, ← h.now]
  cases c with
  | mk s0 s1 g sp r e m =>
    obtain rfl := h.start
    rfl

/-- The same for a slot with a guard. -/
theorem ReadyOn.slot {s : State} {gd : Guard} {rds : List Rd} {dsts : List Nat} {c : Ctx}
    (h : Ready s gd rds dsts c) (body : Ctx → SlotRes) : slot s gd rds dsts body = .next (slotEnd c (body c)) :=
  ReadyOn.slotOn h body

/-! ### The context of a ready slot -/

section
variable {s : State} {lo : Group → Split → Mask} {rds : List Rd} {dsts : List Nat} {c : Ctx}

theorem ReadyOn.group0 (h : ReadyOn s lo rds dsts c) : c.s0.group? c.r = some c.g := by rw [h.start, h.group]

theorem ReadyOn.groupNow (h : ReadyOn s lo rds dsts c) : c.s.group? c.r = some (c.read rds) := by
  rw [h.now, State.group?_count, Ctx.read, h.start]
  exact State.group?_modGroup h.group (applyLast_ref ..)

theorem ReadyOn.othersNow (h : ReadyOn s lo rds dsts c) (r : GRef) (hr : r ≠ c.r) :
    c.s.group? r = c.s0.group? r := by
  rw [h.now, State.group?_count, h.start]
  exact State.group?_modGroup_other hr (fun g => applyLast_ref ..)

theorem ReadyOn.restNow (h : ReadyOn s lo rds dsts c) : c.s = { c.s0 with groups := c.s.groups, counters := c.s.counters } := by
  rw [h.now, h.start]
  obtain ⟨m, hm⟩ := State.count_eq (s.modGroup c.r (fun g => applyLast s c.m g rds)) c.r.coreRef 1 0x12
    ((rds.filter (fun rd => !rd.isK)).foldl (fun n rd => n + (deadLanes s c.g rd.n &&& c.m).card) 0)
  rw [hm]; rfl

end

/-! ### Steps inside a slot that touch only the issuing group -/

/-- t is the state of the slot with the issuing group changed as w says, and the counters. -/
structure Mid (c : Ctx) (rds : List Rd) (w : Group → Group) (t : State) : Prop extends OthersKept c t where
  group : t.group? c.r = some (w (c.read rds))
  name : (w (c.read rds)).ref = c.r

theorem ReadyOn.nextNow {s : State} {lo : Group → Split → Mask} {rds : List Rd} {dsts : List Nat} {c : Ctx}
    (h : ReadyOn s lo rds dsts c) : c.s.nextId = c.s0.nextId := by rw [h.restNow]

theorem ReadyOn.opsNow {s : State} {lo : Group → Split → Mask} {rds : List Rd} {dsts : List Nat} {c : Ctx}
    (h : ReadyOn s lo rds dsts c) : c.s.ops = c.s0.ops := by rw [h.restNow]

theorem ReadyOn.mid {s : State} {lo : Group → Split → Mask} {rds : List Rd} {dsts : List Nat} {c : Ctx}
    (h : ReadyOn s lo rds dsts c) : Mid c rds id c.s where
  group := h.groupNow
  others := h.othersNow
  rest := by conv => lhs; rw [h.restNow]
             rw [h.opsNow, h.nextNow]
  seen := by rw [h.opsNow]; exact .refl _
  name := by
    have := State.group?_ref h.groupNow
    simpa using this

theorem Mid.modGroup {c : Ctx} {rds : List Rd} {w : Group → Group} {t : State} (h : Mid c rds w t) (f : Group → Group)
    (hf : ∀ g, (f g).ref = g.ref) : Mid c rds (fun g => f (w g)) (t.modGroup c.r f) where
  group := State.group?_modGroup h.group (hf _)
  others := fun r hr => by rw [State.group?_modGroup_other hr hf, h.others r hr]
  rest := by rw [State.modGroup, h.rest]
  seen := h.seen
  name := by rw [hf]; exact h.name

theorem Mid.count {c : Ctx} {rds : List Rd} {w : Group → Group} {t : State} (h : Mid c rds w t) (k : CoreRef)
    (a b n : Nat) : Mid c rds w (t.count k a b n) where
  group := by rw [State.group?_count]; exact h.group
  others := fun r hr => by rw [State.group?_count]; exact h.others r hr
  rest := by obtain ⟨m, hm⟩ := t.count_eq k a b n; rw [hm]; conv => lhs; rw [h.rest]
  seen := by rw [State.count_ops]; exact h.seen
  name := h.name

/-- The group becomes something else: what has become READY is young. -/
theorem Mid.became {c : Ctx} {rds : List Rd} {w : Group → Group} {t : State} (h : Mid c rds w t) (f : Group → Group)
    (hf : ∀ g, (f g).ref = g.ref) :
    OthersKept c (t.modReady c.r f) ∧ c.Became (w (c.read rds)) (f (w (c.read rds))) (t.modReady c.r f) where
  left := {
    others := fun r hr => by rw [State.group?_modReady_other hr hf, h.others r hr]
    rest := by rw [State.modReady, State.modGroup, h.rest]
    seen := h.seen }
  right := ⟨_, State.group?_modReady h.group (hf _)⟩

/-- Counters say nothing of groups. -/
theorem Ctx.Became.count {c : Ctx} {old new : Group} {t : State} (h : c.Became old new t) (k : CoreRef) (a b n : Nat) :
    c.Became old new (t.count k a b n) := by
  obtain ⟨m, hm⟩ := h
  exact ⟨m, by rw [State.group?_count]; exact hm⟩

theorem OthersKept.count {c : Ctx} {t : State} (h : OthersKept c t) (k : CoreRef) (a b n : Nat) :
    OthersKept c (t.count k a b n) where
  others := fun r hr => by rw [State.group?_count]; exact h.others r hr
  rest := by obtain ⟨m, hm⟩ := t.count_eq k a b n; rw [hm]; conv => lhs; rw [h.rest]
  seen := by rw [State.count_ops]; exact h.seen

theorem Mid.watch {c : Ctx} {rds : List Rd} {w : Group → Group} {t : State} (h : Mid c rds w t) : Mid c rds w t.watch := by
  obtain ⟨l, hl, hm⟩ := t.watch_eq
  rw [hl]
  exact {
    group := h.group
    others := h.others
    rest := by conv => lhs; rw [h.rest]
    seen := h.seen.trans hm
    name := h.name }

theorem Mid.putK {c : Ctx} {rds : List Rd} {w : Group → Group} {t : State} (h : Mid c rds w t) (n : Nat) (x : DWord) :
    Mid c rds (fun g => (w g).writeK n x) (c.putK t n x) :=
  h.modGroup (fun g => g.writeK n x) (fun _ => rfl)

theorem Mid.putV {c : Ctx} {rds : List Rd} {w : Group → Group} {t : State} (h : Mid c rds w t) (n : Nat) (m : Mask)
    (f : Nat → Word) : Mid c rds (fun g => (w g).writeV n m f) (c.putV t n m f) := by
  have h' := (h.modGroup (fun g => g.writeV n m f) (fun _ => Group.writeV_ref ..)).count
  unfold Ctx.putV
  dsimp only
  split
  · exact (h' ..).watch
  · exact h' ..

theorem Mid.modSp {c : Ctx} {rds : List Rd} {w : Group → Group} {t : State} (h : Mid c rds w t)
    (f : Specials → Specials) : Mid c rds (fun g => { w g with sp := f (w g).sp }) (c.modSp t f) :=
  h.modGroup (fun g => { g with sp := f g.sp }) (fun _ => rfl)

/-- The slot ends and completes. -/
theorem Mid.ok {c : Ctx} {rds : List Rd} {w : Group → Group} {t : State} (h : Mid c rds w t) :
    Completes c rds 1 w (slotEnd c (.ok t)) :=
  have h' := h.became (fun g => g.finish c.e 1) (fun _ => Group.finish_ref ..)
  ⟨h'.1.count c.r.coreRef 1 1 1, h'.2.count c.r.coreRef 1 1 1⟩

/-- The slot ends with its literal word. -/
theorem Mid.ok2 {c : Ctx} {rds : List Rd} {w : Group → Group} {t : State} (h : Mid c rds w t) :
    Completes c rds 2 w (slotEnd c (.ok2 t)) :=
  have h' := h.became (fun g => g.finish c.e 2) (fun _ => Group.finish_ref ..)
  ⟨h'.1.count c.r.coreRef 1 1 2, h'.2.count c.r.coreRef 1 1 2⟩

/-- The slot ends its clause at another header. -/
theorem Mid.jump {c : Ctx} {rds : List Rd} {w : Group → Group} {t : State} (h : Mid c rds w t) (tgt : Nat) :
    Jumps c rds tgt w (slotEnd c (.jump t tgt)) :=
  have h' := h.became (fun g => g.jump c.e tgt) (fun _ => Group.jump_ref ..)
  ⟨h'.1.count c.r.coreRef 1 1 1, h'.2.count c.r.coreRef 1 1 1⟩

/-- A synchronising slot is performed for every split that stands at it. -/
theorem Mid.done {c : Ctx} {rds : List Rd} {w : Group → Group} {t : State} (h : Mid c rds w t) :
    OthersKept c (slotEnd c (.done t)) ∧ (slotEnd c (.done t)).group? c.r = some (w (c.read rds)) :=
  have h' := h.count c.r.coreRef 1 1 1
  ⟨h'.toOthersKept, h'.group⟩

/-! ### What a ready slot whose meaning ends in one of these ways answers -/

section
variable {s t : State} {lo : Group → Split → Mask} {rds : List Rd} {dsts : List Nat} {c : Ctx} {w : Group → Group}
  {body : Ctx → SlotRes}

theorem ReadyOn.ok (h : ReadyOn s lo rds dsts c) (hb : body c = .ok t) (hm : Mid c rds w t) :
    ∃ u, Machine.slotOn s lo rds dsts body = .next u ∧ Completes c rds 1 w u := ⟨_, h.slotOn body, hb ▸ hm.ok⟩

theorem ReadyOn.ok2 (h : ReadyOn s lo rds dsts c) (hb : body c = .ok2 t) (hm : Mid c rds w t) :
    ∃ u, Machine.slotOn s lo rds dsts body = .next u ∧ Completes c rds 2 w u := ⟨_, h.slotOn body, hb ▸ hm.ok2⟩

theorem ReadyOn.jump {tgt : Nat} (h : ReadyOn s lo rds dsts c) (hb : body c = .jump t tgt) (hm : Mid c rds w t) :
    ∃ u, Machine.slotOn s lo rds dsts body = .next u ∧ Jumps c rds tgt w u := ⟨_, h.slotOn body, hb ▸ hm.jump tgt⟩

theorem ReadyOn.trap {ca : Cause} {d : Nat} (h : ReadyOn s lo rds dsts c) (hb : body c = .trap ca d) :
    ∃ u, Machine.slotOn s lo rds dsts body = .next u ∧ Traps c ca d u := ⟨_, h.slotOn body, hb ▸ rfl⟩

end

end Sys2Proof.Machine
end

