-- ==== Sys2Proof/Tests/Slice0.lean ====
section
/-! SUPPORT. Tests of the decoder on words written out from the spec's encodings, ill-formed terms for each check of
WellFormed, one-step tests from the spec's own worked values, and for every obligation a theorem showing a concrete
state and operands that meet its hypotheses. -/

namespace Sys2Proof.Tests
open Sys2Proof Sys2Proof.Machine

set_option Elab.async false

/-! ### Decoding -/

/-- The guard that is always true. -/
abbrev aw : Guard := ⟨false, 7⟩
/-- An unused source field. -/
abbrev z : Src := ⟨0, false, false⟩
/-- A source with neither the L nor the E bit. -/
abbrev o (n : BitVec 9) : Src := ⟨n, false, false⟩

/-- Each word (with its literal, for a two-slot form) decodes to its instruction, which encodes to it again. -/
def wordsDecode (l : List (Nat × List Nat × Instr)) : Bool :=
  l.all (fun (w, lit, i) =>
    (match decode (BitVec.ofNat 64 w) (lit.head?.map (BitVec.ofNat 64)) with
     | .ok j => decide (j = i)
     | .error _ => false) && encode i == (w :: lit).map (BitVec.ofNat 64))

/-- Words of the control group, written from their fields (02 R44, R45, R56). -/
theorem test_decode_control_1 : wordsDecode [
    (0x0070000000000000, [], .nop ⟨aw, 0, z, 0x0, 0, 0⟩),
    (0x01BA73B2DEEFF9C0, [], .bra ⟨⟨true, 3⟩, 10959661, 15663004, false, false, 0⟩),
    (0x026000000E1DAFE0, [0xD8A487711B8B04E1], .brx ⟨⟨⟨false, 6⟩, 0, 14801662, false, false, 0⟩, 0xD8A487711B8B04E1⟩),
    (0x03352FFC9EEFF990, [], .call ⟨⟨false, 3⟩, 5439433, 15663001, false, false, 0⟩),
    (0x044000000F5BB750, [0x35AEC67356E1677C], .callx ⟨⟨⟨false, 4⟩, 0, 16104309, false, false, 0⟩, 0x35AEC67356E1677C⟩),
    (0x0570000000000000, [], .ret ⟨aw, 0, z, 0x0, 0, 0⟩),
    (0x0670057900000000, [], .jmpk ⟨aw, 0, ⟨350, false, true⟩, 0x0, 0, 0⟩),
    (0x0770000000000000, [], .exit ⟨aw, 0, z, 0x0, 0, 0⟩),
    (0x0870000000000000, [], .yield ⟨aw, 0, z, 0x0, 0, 0⟩),
    (0x097AF00000000000, [], .maskr ⟨aw, 350, z, 0x0, 0, 0⟩),
    (0x0B71200000000008, [], .vote ⟨aw, 36, z, z, z, 8⟩),
    (0x0C7C182000000004, [], .plop ⟨aw, 387, (o 8), z, z, 4⟩),
    (0x0E70051C00000000, [], .waitf ⟨aw, 0, (o 327), 0x0, 0, 0⟩),
    (0x0A70057900000000, [], .maskw ⟨aw, 0, ⟨350, false, true⟩, 0x0, 0, 0⟩)] = true := by decide +kernel

/-- Words of the control group, written from their fields (02 R44, R45, R56). -/
theorem test_decode_control_2 : wordsDecode [
    (0x0D7C351C00000000, [], .chkf ⟨aw, 390, (o 327), 0x0, 0, 0⟩),
    (0x0F70000000000000, [], .gsync ⟨aw, 0, z, 0x0, 0, 0⟩)] = true := by decide +kernel

/-- Words of the warp registers group, written from their fields (02 R44, R45, R56). -/
theorem test_decode_warp_registers_1 : wordsDecode [
    (0x107A2D3000000000, [], .kmov ⟨aw, 325, (o 332), z, z, 0⟩),
    (0x117A3800DEFDDCDC, [], .kmovi ⟨aw, 327, 0, 0xDEFDDCDC⟩),
    (0x127AF00000000000, [0x88CB0E1AC77C0FD4], .klit ⟨⟨aw, 350, 0, 0x0⟩, 0x88CB0E1AC77C0FD4⟩),
    (0x137A6510021DD801, [], .kadd (.i ⟨aw, 332, (o 324), 34678, 1⟩)),
    (0x147A3E9C86AAA401, [], .ksub (.i ⟨aw, 327, (o 423), 2206377, 1⟩)),
    (0x157AF511001FBC01, [], .kmul (.i ⟨aw, 350, ⟨324, false, true⟩, 2031, 1⟩)),
    (0x177A2604037DD001, [], .kshl (.i ⟨aw, 324, (o 385), 57204, 1⟩)),
    (0x187A2D1CF0EF1C01, [], .kshr (.i ⟨aw, 325, (o 327), 3947463, 1⟩)),
    (0x197A2620C1184190, [], .klop ⟨aw, 324, (o 392), (o 386), (o 388), 400⟩),
    (0x1A7AF69C0116F409, [], .kcmp (.i ⟨aw, 350, (o 423), 17853, 9⟩)),
    (0x1B7A3D20AF000008, [], .ksel ⟨aw, 327, (o 328), (o 350), z, 8⟩),
    (0x1C7A3800000E0000, [], .krds ⟨aw, 327, z, 0xE, 0, 0⟩),
    (0x1D70051C00090000, [], .kwrs ⟨aw, 0, (o 327), 0x9, 0, 0⟩),
    (0x1E7A380100000002, [], .krdf ⟨aw, 327, ⟨0, false, true⟩, z, z, 2⟩)] = true := by decide +kernel

/-- Words of the warp registers group, written from their fields (02 R44, R45, R56). -/
theorem test_decode_warp_registers_2 : wordsDecode [
    (0x1F7AF5100278F405, [], .kmnx (.i ⟨aw, 350, (o 324), 40509, 5⟩)),
    (0x167A4578D3145000, [], .kmad ⟨aw, 328, (o 350), (o 422), (o 325), 0⟩)] = true := by decide +kernel

/-- Words of the integer group, written from their fields (02 R44, R45, R56). -/
theorem test_decode_integer_1 : wordsDecode [
    (0x2071651DD693E801, [], .iadd (.i ⟨aw, 44, ⟨327, false, true⟩, 3515642, 1⟩)),
    (0x2170A6CCD1AF6C01, [], .isub (.i ⟨aw, 20, (o 435), 3435483, 1⟩)),
    (0x22700604B3ED3D01, [], .imul (.i ⟨aw, 0, (o 385), 2947919, 257⟩)),
    (0x2310A51CC1000080, [], .imulh ⟨⟨false, 1⟩, 20, (o 327), (o 386), z, 128⟩),
    (0x24716091D2944080, [], .imad ⟨aw, 44, ⟨36, false, true⟩, (o 421), (o 324), 128⟩),
    (0x257126103E92F501, [], .imnx (.i ⟨aw, 36, (o 388), 1025213, 257⟩)),
    (0x2651251C00000080, [], .iabs ⟨⟨false, 5⟩, 36, (o 327), z, z, 128⟩),
    (0x277126B0F6950C01, [], .shl (.i ⟨aw, 36, (o 428), 4040003, 1⟩)),
    (0x28610510DF774801, [], .shr (.i ⟨⟨false, 6⟩, 32, (o 324), 3661266, 1⟩)),
    (0x2970001659DD2481, [], .sar (.i ⟨aw, 0, ⟨5, true, false⟩, 1472329, 129⟩)),
    (0x2AC0C608A39A7190, [], .lop3 ⟨⟨true, 4⟩, 24, (o 386), (o 327), (o 423), 400⟩),
    (0x2B60051D00000000, [], .popc ⟨⟨false, 6⟩, 0, ⟨327, false, true⟩, z, z, 0⟩),
    (0x2C71609000000000, [], .clz ⟨aw, 44, (o 36), z, z, 0⟩),
    (0x2D70C6CC00000080, [], .bfx ⟨aw, 24, (o 435), z, z, 128⟩)] = true := by decide +kernel

/-- Words of the integer group, written from their fields (02 R44, R45, R56). -/
theorem test_decode_integer_2 : wordsDecode [
    (0x2E7006DC0C1A8000, [], .bfi ⟨aw, 0, (o 439), (o 24), (o 424), 0⟩),
    (0x2F7C357803A8DC01, [], .icmp (.i ⟨aw, 390, (o 350), 59959, 1⟩))] = true := by decide +kernel

/-- Words of the float group, written from their fields (02 R44, R45, R56). -/
theorem test_decode_float_1 : wordsDecode [
    (0x30716030BBE2F591, [], .fadd (.i ⟨aw, 44, (o 12), 3078333, 401⟩)),
    (0x3170C6C0E46B7981, [], .fsub (.i ⟨aw, 24, (o 432), 3742430, 385⟩)),
    (0x3271202CD5BEC991, [], .fmul (.i ⟨aw, 36, (o 11), 3502002, 401⟩)),
    (0x3370C6D800145680, [], .ffma ⟨aw, 24, (o 438), z, ⟨325, false, true⟩, 640⟩),
    (0x3471651C67C05991, [], .fmnx (.i ⟨aw, 44, (o 327), 1699862, 401⟩)),
    (0x35A08061FFB87D91, [], .fcmp (.i ⟨⟨true, 2⟩, 16, ⟨24, false, true⟩, 4189727, 401⟩)),
    (0x367126C800000190, [], .frcp ⟨aw, 36, (o 434), z, z, 400⟩),
    (0x3770657900000180, [], .frsq ⟨aw, 12, ⟨350, false, true⟩, z, z, 384⟩),
    (0x3871602E00000180, [], .fsqrt ⟨aw, 44, ⟨11, true, false⟩, z, z, 384⟩),
    (0x397006CCA3A00190, [], .fdiv ⟨aw, 0, (o 435), ⟨327, false, true⟩, z, 400⟩),
    (0x3A70651C00000190, [], .fex2 ⟨aw, 12, (o 327), z, z, 400⟩),
    (0x3B70A6B400000190, [], .flg2 ⟨aw, 20, (o 429), z, z, 400⟩),
    (0x3C70C57900000180, [], .fsin ⟨aw, 24, ⟨350, false, true⟩, z, z, 384⟩),
    (0x3D50057900000190, [], .fcos ⟨⟨false, 5⟩, 0, ⟨350, false, true⟩, z, z, 400⟩)] = true := by decide +kernel

/-- Words of the float group, written from their fields (02 R44, R45, R56). -/
theorem test_decode_float_2 : wordsDecode [
    (0x3E7C0E08AF000180, [], .fcls ⟨aw, 385, (o 386), (o 350), z, 384⟩),
    (0x3F70A030D800023C, [], .fscl ⟨aw, 20, (o 12), (o 432), z, 572⟩)] = true := by decide +kernel

/-- Words of the moves and cross lane group, written from their fields (02 R44, R45, R56). -/
theorem test_decode_moves_and_cross_lane_1 : wordsDecode [
    (0x4070057800000002, [], .mov ⟨aw, 0, (o 350), z, z, 2⟩),
    (0x41706000FD8CDFFE, [], .movi ⟨aw, 12, 0, 0xFD8CDFFE⟩),
    (0x4270A6B8C1000002, [], .sel ⟨aw, 20, (o 430), (o 386), z, 2⟩),
    (0x437126C40A000000, [], .cvt ⟨aw, 36, (o 433), (o 20), z, 0⟩),
    (0x447166DCD7800010, [], .pack ⟨aw, 44, (o 439), (o 431), z, 16⟩),
    (0x457006DC00000180, [], .unpk ⟨aw, 0, (o 439), z, z, 384⟩),
    (0x4670C604DB982000, [], .prmb ⟨aw, 24, (o 385), (o 439), (o 386), 0⟩),
    (0x47706032C0145002, [], .xshf ⟨aw, 12, ⟨12, true, false⟩, (o 384), (o 325), 2⟩),
    (0x4871602000188304, [], .xred ⟨aw, 44, (o 8), z, (o 392), 772⟩),
    (0x4970A05000147190, [], .xscn ⟨aw, 20, (o 20), z, (o 327), 400⟩),
    (0x4A704092C1147180, [], .mxix ⟨aw, 8, ⟨36, true, false⟩, (o 386), (o 327), 384⟩),
    (0x4B70C00000000180, [], .rand ⟨aw, 24, z, z, z, 384⟩),
    (0x4C706000000E0400, [], .rdsr ⟨aw, 12, z, 0xE, 1, 0⟩),
    (0x4D70A608A280C280, [], .clmp ⟨aw, 20, (o 386), (o 325), (o 12), 640⟩)] = true := by decide +kernel

/-- Words of the moves and cross lane group, written from their fields (02 R44, R45, R56). -/
theorem test_decode_moves_and_cross_lane_2 : wordsDecode [
    (0x4E71651CDB188180, [], .qnt ⟨aw, 44, (o 327), (o 438), (o 392), 384⟩),
    (0x4F70C6B0A2000227, [], .dqnt ⟨aw, 24, (o 428), (o 324), z, 551⟩)] = true := by decide +kernel

/-- Words of the expansion a group, written from their fields (02 R44, R45, R56). -/
theorem test_decode_expansion_a_1 : wordsDecode [
    (0x50710032D8000100, [], .tsum ⟨aw, 32, ⟨12, true, false⟩, (o 432), z, 256⟩),
    (0x51706000A2800100, [], .tdif ⟨aw, 12, z, (o 325), z, 256⟩),
    (0x52706520DA800100, [], .tprd ⟨aw, 12, (o 328), (o 437), z, 256⟩),
    (0x537166DCC0945000, [], .tfma ⟨aw, 44, (o 439), (o 385), (o 325), 0⟩),
    (0x5470A02C16200100, [], .ftsm ⟨aw, 20, (o 11), ⟨44, false, true⟩, z, 256⟩),
    (0x557060B3A3800100, [], .xadd ⟨aw, 12, ⟨44, true, true⟩, (o 327), z, 256⟩),
    (0x56716530A3800008, [], .xsub ⟨aw, 44, (o 332), (o 327), z, 8⟩),
    (0x577166DC00000100, [], .xmul ⟨aw, 44, (o 439), z, z, 256⟩),
    (0x5870A6DC04748000, [], .xacc ⟨aw, 20, (o 439), ⟨8, true, true⟩, (o 328), 0⟩),
    (0x5970451C00000100, [], .xrnm ⟨aw, 8, (o 327), z, z, 256⟩),
    (0x5A70A03200000000, [], .xcpr ⟨aw, 20, ⟨12, true, false⟩, z, z, 0⟩),
    (0x5B70C024DB000100, [], .xcmp ⟨aw, 24, (o 9), (o 438), z, 256⟩),
    (0x5C70653000000008, [], .xcvt ⟨aw, 12, (o 332), z, z, 8⟩),
    (0x5D71009100000100, [], .xspl ⟨aw, 32, ⟨36, false, true⟩, z, z, 256⟩)] = true := by decide +kernel

/-- Words of the expansion a group, written from their fields (02 R44, R45, R56). -/
theorem test_decode_expansion_a_2 : wordsDecode [
    (0x5E60609300148408, [], .xtre ⟨⟨false, 6⟩, 12, ⟨36, true, true⟩, z, ⟨328, false, true⟩, 8⟩),
    (0x5F70C000D70001CC, [], .xscl ⟨aw, 24, z, (o 430), z, 460⟩)] = true := by decide +kernel

/-- Words of the memory group, written from their fields (02 R44, R45, R56). -/
theorem test_decode_memory_1 : wordsDecode [
    (0x60712530A200EF64, [], .ldg ⟨aw, 36, (o 332), (o 324), 0, 0, 7, 3, 868⟩),
    (0x6180C520C0904A2F, [], .stg ⟨⟨true, 0⟩, 24, (o 328), (o 385), 2, 0, 2, 2, 559⟩),
    (0x62708579000000C8, [], .lds ⟨aw, 16, ⟨350, false, true⟩, z, 0, 0, 0, 0, 200⟩),
    (0x6371600000000970, [], .sts ⟨aw, 44, z, z, 0, 0, 0, 2, 368⟩),
    (0x64700514C20506A7, [], .ldw ⟨aw, 0, (o 325), (o 388), 0, 5, 0, 1, 679⟩),
    (0x65706051A4050DBF, [], .stw ⟨aw, 12, ⟨20, false, true⟩, (o 328), 0, 5, 0, 3, 447⟩),
    (0x677A3D10D2108807, [], .stk ⟨aw, 327, (o 324), (o 420), 2, 0, 4, 2, 7⟩),
    (0x69606578C0801C00, [], .sctr ⟨⟨false, 6⟩, 12, (o 350), (o 385), 0, 0, 0, 7, 0⟩),
    (0x6A7000000040732B, [], .pref ⟨aw, 0, z, ⟨0, true, false⟩, 0, 0, 3, 4, 811⟩),
    (0x6B700029C10001BF, [], .wbk ⟨aw, 0, ⟨10, false, true⟩, (o 386), 0, 0, 0, 0, 447⟩),
    (0x6C7000B0C40013CD, [], .inv ⟨aw, 0, (o 44), (o 392), 0, 0, 0, 4, 973⟩),
    (0x6D700000000B0000, [], .fnc ⟨aw, 0, z, z, 1, 3, 0, 0, 0⟩),
    (0x667AF514AF28087E, [], .ldk ⟨aw, 350, (o 325), ⟨350, false, true⟩, 1, 0, 0, 2, 126⟩),
    (0x6870C510AF23FC00, [], .gthr ⟨aw, 24, (o 324), ⟨350, false, true⟩, 0, 3, 7, 7, 0⟩)] = true := by decide +kernel

/-- Words of the memory group, written from their fields (02 R44, R45, R56). -/
theorem test_decode_memory_2 : wordsDecode [
    (0x6E7A2D7800000000, [], .sbnd ⟨aw, 325, (o 350), 0x0, 0, 0⟩),
    (0x6F7A451D00000000, [], .sunb ⟨aw, 328, ⟨327, false, true⟩, 0x0, 0, 0⟩)] = true := by decide +kernel

/-- Words of the atomics group, written from their fields (02 R44, R45, R56). -/
theorem test_decode_atomics : wordsDecode [
    (0x7071657800100B67, [], .aadd ⟨aw, 44, (o 350), z, 2, 0, 0, 2, 871⟩),
    (0x7170651C10480A8F, [], .afad ⟨aw, 12, (o 327), ⟨32, true, false⟩, 1, 0, 0, 2, 655⟩),
    (0x72700000001C0875, [], .acad ⟨aw, 0, z, z, 3, 4, 0, 2, 117⟩),
    (0x7370051CAF034ACF, [], .amnx ⟨aw, 0, (o 327), (o 350), 0, 3, 2, 2, 719⟩),
    (0x7471206308080ADF, [], .afmx ⟨aw, 36, ⟨24, true, true⟩, (o 16), 1, 0, 0, 2, 735⟩),
    (0x75716051040D0E9E, [], .amxi ⟨aw, 44, ⟨20, false, true⟩, (o 8), 1, 5, 0, 3, 670⟩),
    (0x767000910C1A0F7C, [], .alop ⟨aw, 0, ⟨36, false, true⟩, (o 24), 3, 2, 0, 3, 892⟩),
    (0x7770851004500E52, [], .axch ⟨aw, 16, (o 324), ⟨8, true, false⟩, 2, 0, 0, 3, 594⟩),
    (0x7870453000100AF1, [], .acas ⟨aw, 8, (o 332), z, 2, 0, 0, 2, 753⟩),
    (0x7970800002BD0B77, [], .ainc ⟨aw, 16, z, ⟨5, false, true⟩, 3, 5, 0, 2, 887⟩),
    (0x7A7000520A046B37, [], .ared ⟨aw, 0, ⟨20, true, false⟩, (o 20), 0, 4, 3, 2, 823⟩),
    (0x7B70000000056FE4, [], .waita ⟨aw, 0, z, z, 0, 5, 3, 3, 996⟩)] = true := by decide +kernel

/-- Words of the matrix moves group, written from their fields (02 R44, R45, R56). -/
theorem test_decode_matrix_moves : wordsDecode [
    (0x8070000065280000, [], .tld ⟨aw, 0, 0, 0, false, 0, 0, 0x194A00, 0⟩),
    (0x81700000F9200000, [], .tst ⟨aw, 0, 0, 0, false, 0, 0, 0x3E4800, 0⟩),
    (0x837070003CA2F800, [], .tmvv ⟨aw, 0, 7, 0, false, 0, 0, 0xF28BE, 0⟩),
    (0x8370000067629401, [], .tmvvAcc ⟨aw, 0, 0, 0, false, 0, 0, 0x19D8A5, 1⟩),
    (0x8472000003BBD800, [], .tmvt ⟨aw, 2, 0, 0, false, 0, 0, 0xEEF6, 0⟩),
    (0x84700000037B1401, [], .tmvtAcc ⟨aw, 0, 0, 0, false, 0, 0, 0xDEC5, 1⟩),
    (0x8571E00000000000, [], .ttrn ⟨aw, 1, 14, 0, false, 0, 0, 0x0, 0⟩),
    (0x867F800000000000, [], .tscl ⟨aw, 15, 8, 0, false, 0, 0, 0x0, 0⟩),
    (0x8770D00F00000000, [], .wld ⟨aw, 0, 13, 0, false, 0, 15, 0x0, 0⟩),
    (0x8870B070FB800000, [], .ald ⟨aw, 0, 11, 0, false, 7, 0, 0x3EE000, 0⟩),
    (0x89709030D5D00000, [], .ast ⟨aw, 0, 9, 0, false, 3, 0, 0x357400, 0⟩),
    (0x827F000000000000, [], .tzro ⟨aw, 15, 0, 0, false, 0, 0, 0x0, 0⟩),
    (0x8270007000001C00, [], .tzroAcc ⟨aw, 0, 0, 0, false, 7, 0, 0x7, 0⟩)] = true := by decide +kernel

/-- Words of the matrix steps group, written from their fields (02 R44, R45, R56). -/
theorem test_decode_matrix_steps : wordsDecode [
    (0x9070708E00000400, [], .mma ⟨aw, 0, 7, 0, true, 0, 14, 0x1, 0⟩),
    (0x9170E06700000400, [], .mmag ⟨aw, 0, 14, 0, false, 6, 7, 0x1, 0⟩),
    (0x9270000000000000, [], .mfen ⟨aw, 0, z, 0x0, 0, 0⟩),
    (0x927A380000000400, [], .mfenNum ⟨aw, 327, z, 0x0, 1, 0⟩),
    (0x937C000000002000, [], .mfct ⟨aw, 12, 0, 0, false, 0, 0, 0x8, 0⟩),
    (0x9470095006E1C400, [], .mtrs ⟨aw, 0, 0, 9, false, 5, 0, 0x1B871, 0⟩),
    (0x957A280000000000, [], .mestRd ⟨aw, 325, z, 0x0, 0, 0⟩),
    (0x9570000000000400, [], .mestClr ⟨aw, 0, z, 0x0, 1, 0⟩),
    (0x967A600000000400, [], .gangDis ⟨aw, 332, z, 0x0, 1, 0⟩),
    (0x967AF53000000000, [], .gang ⟨aw, 350, (o 332), 0x0, 0, 0⟩)] = true := by decide +kernel

/-- Words of the copies and handles group, written from their fields (02 R44, R45, R56). -/
theorem test_decode_copies_and_handles : wordsDecode [
    (0xA27A2800000E0000, [], .runb ⟨aw, 325, z, 0xE, 0, 0⟩),
    (0xA37A380000020000, [], .rtchFill ⟨aw, 327, z, 0x2, 0, 0⟩),
    (0xA37A3800000E0400, [], .rtchOut ⟨aw, 327, z, 0xE, 1, 0⟩),
    (0xA5700514000E0000, [], .rwt ⟨aw, 0, (o 325), 0xE, 0, 0⟩),
    (0xA670000000000000, [], .cfen ⟨aw, 0, z, 0x0, 0, 0⟩),
    (0xA87A380000010000, [], .rstaE ⟨aw, 327, z, 0x1, 0, 0⟩),
    (0xA07A3D7800000000, [], .lrec ⟨aw, 327, (o 350), 0x0, 0, 0⟩),
    (0xA17AF52000050000, [], .rbnd ⟨aw, 350, (o 328), 0x5, 0, 0⟩),
    (0xA47A3D78000E0400, [], .rtst ⟨aw, 327, (o 350), 0xE, 1, 0⟩),
    (0xA67AF00000000400, [], .cfenNum ⟨aw, 350, z, 0x0, 1, 0⟩),
    (0xA77AF00000000000, [], .hnewNew ⟨aw, 350, z, 0x0, 0, 0⟩),
    (0xA770057800000400, [], .hnewFree ⟨aw, 0, (o 350), 0x0, 1, 0⟩),
    (0xA87A657800000400, [], .rstaH ⟨aw, 332, (o 350), 0x0, 1, 0⟩)] = true := by decide +kernel

/-- Words of the barriers group, written from their fields (02 R44, R45, R56). -/
theorem test_decode_barriers_1 : wordsDecode [
    (0xB0700000000E0000, [], .bar ⟨aw, 0, z, 0xE, 0, 0⟩),
    (0xB17AF00060010000, [], .bara ⟨aw, 350, z, 0x6001, 0, 0⟩),
    (0xB270053100000000, [], .barw ⟨aw, 0, ⟨332, false, true⟩, 0x0, 0, 0⟩),
    (0xB3700000000E0000, [], .pha ⟨aw, 0, z, 0xE, 0, 0⟩),
    (0xB470051C000E0000, [], .phxExpect ⟨aw, 0, (o 327), 0xE, 0, 0⟩),
    (0xB470051000050400, [], .phxInit ⟨aw, 0, (o 324), 0x5, 1, 0⟩),
    (0xB47AF00000120800, [], .phxRead ⟨aw, 350, z, 0x12, 2, 0⟩),
    (0xB5700000000E0400, [], .phw ⟨aw, 0, z, 0xE, 1, 0⟩),
    (0xB67A6000000E0000, [], .tkg ⟨aw, 332, z, 0xE, 0, 0⟩),
    (0xB770052000090000, [], .tkw ⟨aw, 0, (o 328), 0x9, 0, 0⟩),
    (0xB8700000000E0400, [], .tksInc ⟨aw, 0, z, 0xE, 1, 0⟩),
    (0xB970057900010000, [], .tlw ⟨aw, 0, ⟨350, false, true⟩, 0x1, 0, 0⟩),
    (0xBA7AF00000050000, [], .tlr ⟨aw, 350, z, 0x5, 0, 0⟩),
    (0xBB70053000010000, [], .tls ⟨aw, 0, (o 332), 0x1, 0, 0⟩)] = true := by decide +kernel

/-- Words of the barriers group, written from their fields (02 R44, R45, R56). -/
theorem test_decode_barriers_2 : wordsDecode [
    (0xB370057900050400, [], .phaExpect ⟨aw, 0, ⟨350, false, true⟩, 0x5, 1, 0⟩),
    (0xB87006BC00030000, [], .tksSet ⟨aw, 0, (o 431), 0x3, 0, 0⟩)] = true := by decide +kernel

/-- Words of the home group, written from their fields (02 R44, R45, R56). -/
theorem test_decode_home : wordsDecode [
    (0xC071600300050100, [], .cmb ⟨aw, 44, ⟨0, true, true⟩, 0x5, 0, 256⟩),
    (0xC031208200120400, [], .cmbNt ⟨⟨false, 3⟩, 36, ⟨32, true, false⟩, 0x12, 1, 0⟩),
    (0xC170000100000000, [], .cmbr ⟨aw, 0, ⟨0, false, true⟩, 0x0, 0, 0⟩),
    (0xC5712510A6032FA0, [], .gadd ⟨aw, 36, (o 324), (o 332), 0, 3, 1, 3, 928⟩),
    (0xC650A5310C202F48, [], .gmrg ⟨⟨false, 5⟩, 20, ⟨332, false, true⟩, ⟨24, false, true⟩, 0, 0, 1, 3, 840⟩),
    (0xC770000000000DEE, [], .gset ⟨aw, 0, z, z, 0, 0, 0, 3, 494⟩),
    (0xC27AF57900000000, [], .objr ⟨aw, 350, ⟨350, false, true⟩, 0x0, 0, 0⟩),
    (0xC37AF51D00000000, [], .objcClr ⟨aw, 350, ⟨327, false, true⟩, 0x0, 0, 0⟩),
    (0xC4712578C08B0DCB, [], .gld ⟨aw, 36, (o 350), (o 385), 1, 3, 0, 3, 459⟩),
    (0xC87A3D7800000000, [], .gswpAdd ⟨aw, 327, (o 350), 0x0, 0, 0⟩),
    (0xC87A657900000400, [], .gswpRem ⟨aw, 332, ⟨350, false, true⟩, 0x0, 1, 0⟩),
    (0xC97A3D1C00000000, [], .gstpAdd ⟨aw, 327, (o 327), 0x0, 0, 0⟩),
    (0xC97AF00000000400, [], .gstpRd ⟨aw, 350, z, 0x0, 1, 0⟩),
    (0xC37A2D7800000400, [], .objcDel ⟨aw, 325, (o 350), 0x0, 1, 0⟩)] = true := by decide +kernel

/-- Words of the place group, written from their fields (02 R44, R45, R56). -/
theorem test_decode_place : wordsDecode [
    (0xD070053000000000, [], .sol ⟨aw, 0, (o 332), 0x0, 0, 0⟩),
    (0xD170000000010000, [], .solw ⟨aw, 0, z, 0x1, 0, 0⟩),
    (0xD470057800000000, [], .rsp ⟨aw, 0, (o 350), 0x0, 0, 0⟩),
    (0xD57AF00000000000, [], .solr ⟨aw, 350, z, 0x0, 0, 0⟩),
    (0xD27A651100000000, [], .kins ⟨aw, 332, ⟨324, false, true⟩, 0x0, 0, 0⟩),
    (0xD37A657900000000, [], .kdel ⟨aw, 332, ⟨350, false, true⟩, 0x0, 0, 0⟩),
    (0xD37A653000000400, [], .kdelMv ⟨aw, 332, (o 332), 0x0, 1, 0⟩)] = true := by decide +kernel

/-- Words of the launch group, written from their fields (02 R44, R45, R56). -/
theorem test_decode_launch_1 : wordsDecode [
    (0xE0700000F9AD0000, [], .trap ⟨aw, 0, z, 0xF9AD, 0, 0⟩),
    (0xE170000000000000, [], .tret ⟨aw, 0, z, 0x0, 0, 0⟩),
    (0xE270051400000000, [], .tdone ⟨aw, 0, (o 325), 0x0, 0, 0⟩),
    (0xE370053003FF0000, [], .iprf ⟨aw, 0, (o 332), 0x3FF, 0, 0⟩),
    (0xE47AF514F23A0000, [], .modl ⟨aw, 350, (o 325), 0xF23A, 0, 0⟩),
    (0xE57A3800000E0000, [], .modu ⟨aw, 327, z, 0xE, 0, 0⟩),
    (0xE67AF000000E0000, [], .cntr ⟨aw, 350, z, 0xE, 0, 0⟩),
    (0xE770000003FF0000, [], .cntc ⟨aw, 0, z, 0x3FF, 0, 0⟩),
    (0xE770000000000400, [], .cntcAll ⟨aw, 0, z, 0x0, 1, 0⟩),
    (0xE870000003FF0000, [], .brk ⟨aw, 0, z, 0x3FF, 0, 0⟩),
    (0xEC7A280000000000, [], .sregRd ⟨aw, 325, z, 0x0, 0, 0⟩),
    (0xE97A651500000000, [], .lnch ⟨aw, 332, ⟨325, false, true⟩, 0x0, 0, 0⟩),
    (0xEA70000000000C00, [], .dgstCheck ⟨aw, 0, z, 0x0, 3, 0⟩),
    (0xEB7A2D1000000000, [], .pcol ⟨aw, 325, (o 324), 0x0, 0, 0⟩)] = true := by decide +kernel

/-- Words of the launch group, written from their fields (02 R44, R45, R56). -/
theorem test_decode_launch_2 : wordsDecode [
    (0xEC70057800010400, [], .sregWr ⟨aw, 0, (o 350), 0x1, 1, 0⟩),
    (0xEA70057900000000, [], .dgstOpen ⟨aw, 0, ⟨350, false, true⟩, 0x0, 0, 0⟩),
    (0xEA7AF00000000400, [], .dgstRead ⟨aw, 350, z, 0x0, 1, 0⟩),
    (0xEA70000000000800, [], .dgstRecord ⟨aw, 0, z, 0x0, 2, 0⟩),
    (0xEB7A652000000400, [], .pcolNowait ⟨aw, 332, (o 328), 0x0, 1, 0⟩),
    (0xED7A457900000000, [], .migr ⟨aw, 328, ⟨350, false, true⟩, 0x0, 0, 0⟩),
    (0xEC70057800020400, [], .preemptreq ⟨aw, 0, (o 350), 0x2, 1, 0⟩),
    (0xEC70057800030400, [], .resumereq ⟨aw, 0, (o 350), 0x3, 1, 0⟩)] = true := by decide +kernel

/-! ### A small machine -/

/-- Slot 0 of core 0 of die 0. -/
def tR : GRef := ⟨false, 0, 0, 0⟩
/-- A launch record: ASID 0, span 1 die, a handler, mailbox 0. -/
def tRec : LaunchRec :=
  { LaunchRec.zero with
    version := 1, groups := 1, gregs := 64, scratch := 0x10000, hen := true, handler := 0x800, ntl := 4, wf := true }
/-- Launch 1, running at a code base. -/
def tL : Launch := { (default : Launch) with lid := 1, lrec := tRec, base := 0x10000, state := .running, tls := [0, 0, 0, 5] }
/-- Block 0 of it. -/
def tB : Block :=
  { (default : Block) with
    lid := 1, slots := [0], scratchLen := 0x10000, phase := List.replicate 32 (PhaseBar.start 1) }
/-- Its group, every lane in split 0. -/
def tG : Group := Group.fresh tR .ordinary .running tL 0 0 0x10000 [] 0
/-- The machine with this one group, which is about to issue. -/
def tS : State :=
  { State.reset with held := false, cur := some ⟨tR, 0⟩, groups := [tG], launches := [tL], blocks := [tB] }
/-- The same with its group, its split, its launch record changed. -/
def tW (f : Group → Group) (s : State := tS) : State := { s with groups := s.groups.map (fun g => if g.ref = tR then f g else g) }
def tSp (f : Split → Split) (s : State := tS) : State := tW (fun g => { g with splits := g.splits.modify 0 f }) s
def tLr (f : LaunchRec → LaunchRec) (s : State := tS) : State :=
  { s with launches := s.launches.map (fun l => { l with lrec := f l.lrec }) }
/-- The group with a k register that holds a value, and a v register whose lanes hold words. -/
def tK (n : Nat) (v : DWord) (s : State := tS) : State := tW (fun g => { g with kregs := g.kregs.set n ⟨v, true, 0⟩ }) s
def tV (n : Nat) (f : Nat → Word) (s : State := tS) : State :=
  tW (fun g => { g with vregs := g.vregs.set n { VReg.unmapped with vals := perLane f, mapped := true } }) s
/-- A launch outside ASID 0. -/
def tUser (s : State := tS) : State := tLr (fun r => { r with asid := 7 }) s

/-- What the meaning of a slot works on, its sources being full. -/
def tCtx (s : State) (lanesOf : Group → Split → Mask) (rds : List Rd) : Ctx :=
  let r := (s.cur.getD ⟨tR, 0⟩).g
  let e := (s.cur.getD ⟨tR, 0⟩).e
  let g := (s.group? r).getD tG
  let sp := g.split e
  let m := lanesOf g sp
  { s0 := s
    s := (s.modGroup r (fun g => applyLast s m g rds)).count r.coreRef 1 0x12
      ((rds.filter (fun rd => !rd.isK)).foldl (fun n rd => n + (deadLanes s g rd.n &&& m).card) 0)
    g := g, sp := sp, r := r, e := e, m := m }

/-- Every condition of `ReadyOn`, as a check. -/
def readyB (s : State) (lanesOf : Group → Split → Mask) (rds : List Rd) (dsts : List Nat) : Bool :=
  let c := tCtx s lanesOf rds
  decide (s.cur = some ⟨c.r, c.e⟩) && decide (s.group? c.r = some c.g) &&
  rds.all (fun rd => !regEmpty s c.g rd.isK rd.n c.m c.sp.replay) &&
  rds.all (fun rd => !(s.debugOf c.g) || rd.isK || decide (deadLanes s c.g rd.n &&& c.m = 0)) &&
  rds.all (fun rd => rd.isK || ((c.g.vreg rd.n).fails == [] && !(c.g.vreg rd.n).spilled)) &&
  dsts.all (fun n => !(c.g.vreg n).spilled) &&
  dsts.all (fun n => !(s.isMbox c.g n) || !(s.mboxPending c.r c.r n s.nextId)) &&
  decide (s.physUsed c.r.coreRef (partOf c.r) + (dsts.filter (fun n => !s.isMbox c.g n)).dedup.length ≤ physTotal c.r.coreRef)

theorem ready_of {s : State} {lo : Group → Split → Mask} {rds : List Rd} {dsts : List Nat} (h : readyB s lo rds dsts = true) :
    ReadyOn s lo rds dsts (tCtx s lo rds) := by
  simp only [readyB, Bool.and_eq_true, decide_eq_true_eq, List.all_eq_true, Bool.not_eq_true', Bool.or_eq_true] at h
  obtain ⟨⟨⟨⟨⟨⟨⟨h1, h2⟩, h3⟩, h4⟩, h5⟩, h6⟩, h7⟩, h8⟩ := h
  refine ⟨h1, h2, rfl, rfl, rfl, rfl, fun _ => h3, ?_, ?_, ?_, fun _ => h6, fun _ n hn hm => ?_, fun _ => h8⟩
  · intro hd rd hr hk
    rcases h4 rd hr with (h | h) | h
    · exact absurd (hd.symm.trans h) (by decide)
    · exact absurd (hk.symm.trans h) (by decide)
    · exact h
  · intro rd hr hk
    rcases h5 rd hr with h | h
    · exact absurd (hk.symm.trans h) (by decide)
    · intro l _; rw [beq_iff_eq.mp h.1]; rfl
  · intro rd hr hk
    rcases h5 rd hr with h | h
    · exact absurd (hk.symm.trans h) (by decide)
    · exact h.2
  · rcases h7 n hn with h | h
    · exact absurd (hm.symm.trans h) (by decide)
    · exact h

/-- Some split stands ready at a slot, and what the meaning works on has the property. -/
def WitOn (s : State) (lo : Group → Split → Mask) (rds : List Rd) (dsts : List Nat) (P : Ctx → Prop) : Prop :=
  ∃ c, ReadyOn s lo rds dsts c ∧ P c
/-- The same for a slot with a guard. -/
abbrev Wit (s : State) (gd : Guard) (rds : List Rd) (dsts : List Nat) (P : Ctx → Prop) : Prop :=
  WitOn s (fun g sp => g.guardMask gd sp.mask) rds dsts P
/-- The same for a slot whose guard is always true. -/
abbrev WitA (s : State) (rds : List Rd) (dsts : List Nat) (P : Ctx → Prop) : Prop := Wit s aw rds dsts P

theorem wit_of {s : State} {lo : Group → Split → Mask} {rds : List Rd} {dsts : List Nat} {P : Ctx → Prop}
    (h : readyB s lo rds dsts = true) (hp : P (tCtx s lo rds)) : WitOn s lo rds dsts P := ⟨_, ready_of h, hp⟩

/-- A map that gives one value at every key of a list. -/
theorem get_const {κ α : Type} [DecidableEq κ] (ks : List κ) (a : α) (k : κ) (h : k ∈ ks) :
    AMap.get? (ks.map (fun k => (k, a))) k = some a := by
  induction ks with
  | nil => simp at h
  | cons x xs ih =>
    simp only [List.map_cons, AMap.get?]
    by_cases hx : x = k
    · simp [hx]
    · simp only [hx, if_false]
      exact ih (by simpa [Ne.symm hx] using h)

theorem getD_const {κ α : Type} [DecidableEq κ] (ks : List κ) (a d : α) (k : κ) (h : k ∈ ks) :
    AMap.getD (ks.map (fun k => (k, a))) k d = a := by
  simp [AMap.getD, get_const ks a k h]

/-! ### Witnesses: the hypotheses of every statement are met -/

theorem wit_StepRunsDecodedInstruction : ∃ (s : State) (ps : PartSched) (g : Group) (cl : Clause) (i : Instr),
    s.agenda = [.issue tR.coreRef 0] ∧ s.held = false ∧ s.partIdx 0 ∉ s.stopped ∧ s.sched.get? (tR.coreRef, 0) = some ps ∧
    ps.sel = some (0, 0) ∧ s.group? tR = some g ∧ g.phase = .running ∧ (g.split 0).state = .ready ∧ (g.split 0).started = true ∧
    (g.split 0).trap = none ∧ (g.split 0).clause = some cl ∧ cl.slots[(g.split 0).slot]? = some 0x0070000000000000 ∧
    decode 0x0070000000000000 cl.slots[(g.split 0).slot + 1]? = .ok i := by
  refine ⟨{ tSp (fun sp => { sp with started := true, clause := some ⟨0, [0x0070000000000000]⟩ }) with
    agenda := [.issue tR.coreRef 0], sched := [((tR.coreRef, 0), ⟨some (0, 0), none⟩)] }, _, _, ⟨0, [0x0070000000000000]⟩,
    .nop ⟨aw, 0, z, 0, 0, 0⟩, rfl, ?_, ?_, rfl, rfl, rfl, ?_, ?_, ?_, ?_, ?_, ?_, ?_⟩ <;> decide +kernel

theorem wit_StepRunsEvents :
    ({ tS with agenda := [.event (.groupStart tR)] } : State).agenda = .event (.groupStart tR) :: [] ∧ encode (.groupStart tR) = [] ∧
    encode (.nop ⟨aw, 0, z, 0, 0, 0⟩) ≠ [] := by decide +kernel

theorem wit_StepKeepsCanonicalMemory : ∃ s t : State, s.Inv ∧ s.hbm ≠ [] ∧ step s = .next t := by
  refine ⟨{ tS with hbm := [(8, 1)], agenda := [.event (.linkDownOwnerClear 3)] }, _, ⟨by decide +kernel, by decide +kernel⟩, by decide +kernel, rfl⟩

theorem wit_DecodeEncodeRoundTrip : ∀ i ∈ [Instr.iadd (.i ⟨⟨false, 2⟩, 10, o 10, 100, 0x081⟩), .nop ⟨aw, 0, z, 0, 0, 0⟩,
    .klit ⟨⟨aw, 323, 0, 0⟩, 0x123456789ABCDEF0⟩], wellFormed i = true ∧ illScope i = false ∧ encode i ≠ [] := by decide +kernel

theorem wit_UnassignedOpcodesRefused : ∀ n ∈ [0x7C, 0x7F, 0x8A, 0x8F, 0x97, 0x9F, 0xA9, 0xAF, 0xBC, 0xBF, 0xCA, 0xCF, 0xD6, 0xDF, 0xEE, 0xFF],
    opcOf (BitVec.ofNat 64 (n * 2 ^ 56)) = n := by decide +kernel

theorem wit_PlainControl :
    WitA tS [] [] (fun c => c.g.inHandler c.e = false ∧ c.g.isResponder = false ∧ c.g.allReached c.e = true ∧ c.s0.groupDrained c.r = true) ∧
    WitOn (tK 63 0x10008) (fun g sp => g.guardMask Guard.yes sp.mask) [⟨true, 63, false, false⟩] [] (fun c => (c.g.kreg 63).val.toNat % 8 = 0) ∧
    WitOn (tK 9 0x10009) (fun g sp => g.guardMask Guard.yes sp.mask) [⟨true, 9, false, true⟩] [] (fun c => (c.g.kreg 9).val.toNat % 8 ≠ 0) ∧
    WitA (tW (fun g => { g with depth := 1, splits := g.splits.modify 8 (fun sp => { sp with state := .ready, mask := 1 }) })
      { tS with cur := some ⟨tR, 8⟩ }) [] [] (fun c => c.g.inHandler c.e = true) ∧
    WitA (tW (fun g => { g with kind := .responder 1 0 false })) [] [] (fun c => c.m ≠ 0 ∧ mayExit c.s0 c.g = false) ∧
    Wit tS ⟨true, 7⟩ [] [] (fun c => c.g.inHandler c.e = false ∧ c.m = 0) ∧
    Wit (tW (fun g => { g with preds := [1, 0, 0, 0, 0, 0, 0] })) ⟨false, 0⟩ [] [] (fun c => c.g.inHandler c.e = false ∧ mayExit c.s0 c.g = true ∧
      c.m ≠ 0 ∧ c.g.exited ||| c.m ≠ Mask.all) ∧
    WitA tS [] [] (fun c => c.g.inHandler c.e = false ∧ mayExit c.s0 c.g = true ∧ c.m ≠ 0 ∧ c.g.exited ||| c.m = Mask.all) := by
  repeat' apply And.intro
  all_goals exact wit_of (by decide +kernel) (by decide +kernel)

theorem wit_Branches :
    Wit tS Guard.yes [] [] (fun c => c.taken ⟨⟨true, 7⟩, 30, 46, false, false, 0⟩ = 0) ∧
    Wit tS Guard.yes [] [] (fun c => c.taken ⟨aw, 30, 46, false, false, 0⟩ ≠ 0 ∧ c.taken ⟨aw, 30, 46, false, false, 0⟩ = c.sp.mask ∧
      ((c.sp.pc : Int) + 8 * (30 : BitVec 24).toInt) % 8 = 0) ∧
    Wit tS Guard.yes [] [] (fun c => c.taken ⟨aw, 0, 0, false, false, 0⟩ ≠ 0 ∧ ((c.sp.pc : Int) + (4 : DWord).toInt) % 8 ≠ 0) ∧
    Wit (tW (fun g => { g with preds := [1, 0, 0, 0, 0, 0, 0] })) Guard.yes [] [] (fun c => c.g.splits.length = 11 ∧ c.g.joins.length = 16 ∧
      c.g.inHandler c.e = false ∧ c.e < 8 ∧ c.g.depth = 0 ∧ (c.g.split c.e).state ≠ .free ∧
      c.taken ⟨⟨false, 0⟩, 30, 46, false, false, 0⟩ ≠ 0 ∧ c.taken ⟨⟨false, 0⟩, 30, 46, false, false, 0⟩ ≠ c.sp.mask ∧
      ((c.sp.pc : Int) + 8 * (30 : BitVec 24).toInt) % 8 = 0 ∧ (c.g.joins.getD 0 Join.free).valid = false ∧
      c.g.freeEntry (List.range 8) = some 1) ∧
    Wit (tW (fun g => { g with preds := [1, 0, 0, 0, 0, 0, 0], joins := List.replicate 13 { Join.free with valid := true } ++ List.replicate 3 Join.free }))
      Guard.yes [] [] (fun c => c.g.joins.length = 16 ∧ c.taken ⟨⟨false, 0⟩, 30, 46, false, false, 0⟩ ≠ 0 ∧
      c.taken ⟨⟨false, 0⟩, 30, 46, false, false, 0⟩ ≠ c.sp.mask ∧ (∀ x < 13, (c.g.joins.getD x Join.free).valid = true) ∧
      (c.g.joins.getD 13 Join.free).valid = false ∧ c.g.freeEntry (List.range 8) = some 1) := by
  repeat' apply And.intro
  all_goals exact wit_of (by decide +kernel) (by decide +kernel)

/-- A v register whose lane 0 waits for an operation. -/
def tPend (n : Nat) (s : State := tS) : State :=
  tW (fun g => { g with vregs := g.vregs.set n { VReg.unmapped with mapped := true, prod := perLane (fun l => if l = 0 then 5 else 0) } }) s

theorem wit_MasksAndPredicates :
    WitA tS [] [] (fun _ => True) ∧
    WitA (tK 4 1) (srcRds (o 324)) [] (fun c => c.sp.mask &&& (c.g.kreg 4).val.lo ≠ 0) ∧
    WitA (tK 4 0) (srcRds (o 324)) [] (fun c => c.sp.mask &&& (c.g.kreg 4).val.lo = 0) ∧
    WitA tS [] [4] (fun _ => mfield (0 : BitVec 10) 2 1 = 0 ∧ isVDst 4 = true) ∧
    WitA tS [] [] (fun _ => mfield (0 : BitVec 10) 2 1 = 0 ∧ isVDst 324 = false) ∧
    WitA tS [] [] (fun _ => mfield (6 : BitVec 10) 2 1 ≠ 0 ∧ isVDst 384 = false) ∧
    WitA (tV 8 (fun _ => 1)) [] [] (fun c => c.sp.mask &&& ~~~(landedLanes c.s0 c.g (o 8)) = 0) ∧
    WitA (tPend 8) [] [] (fun c => c.sp.mask &&& ~~~(landedLanes c.s0 c.g (o 8)) ≠ 0 ∧ c.e < c.g.splits.length) := by
  repeat' apply And.intro
  all_goals exact wit_of (by decide +kernel) (by decide +kernel)

theorem wit_UniformInstructions :
    WitA (tK 3 0xFFFFFFFFFFFFFFFF) (uniRds (.i ⟨aw, 323, o 323, 64, 1⟩)) [] (fun c => c.u (o 323) = 0xFFFFFFFFFFFFFFFF) ∧
    WitA tS (srcRds (o 324) ++ srcRds (o 325) ++ srcRds (o 326)) [] (fun _ => True) ∧
    WitA tS (srcRds (o 324)) [] (fun _ => True) ∧ WitA tS [] [] (fun _ => True) ∧
    WitA tS (uniRds (.r ⟨aw, 392, o 324, o 325, z, 0⟩)) [] (fun _ => isQDst 392 = true) ∧
    WitA tS (uniRds (.r ⟨aw, 324, o 324, o 325, z, 0⟩)) [] (fun _ => isQDst 324 = false) ∧
    WitA tS (srcRds (o 324) ++ srcRds (o 325)) [] (fun _ => True) ∧
    WitOn (tV 8 (fun l => BitVec.ofNat 32 l)) (fun _ sp => (1 : Mask) <<< sp.mask.lowest) (srcRds (o 8)) [] (fun _ => True) ∧
    WitOn (tV 9 (fun _ => 7) (tV 8 (fun l => BitVec.ofNat 32 l))) (fun _ sp => (1 : Mask) <<< sp.mask.lowest) (srcRds (o 8) 2) []
      (fun _ => mbit (2 : BitVec 10) 1 = true) := by
  repeat' apply And.intro
  all_goals exact wit_of (by decide +kernel) (by decide +kernel)

/-- A handler runs at depth 1 in entry 8, for a trap of split 0. -/
def tH : State := tW (fun g => { g with
    depth := 1, suspended := some 0, cause1 := .swtrap
    splits := (g.splits.modify 0 (fun sp => { sp with state := .suspended })).modify 8 (fun sp =>
      { sp with state := .ready, mask := Mask.all, hdr := 0x10800 }) }) { tS with cur := some ⟨tR, 8⟩ }

theorem wit_TakingATrap :
    (∃ g, tS.group? tR = some g ∧ g.kind = .ordinary ∧ g.depth = 0 ∧ tS.hasHandler g = true ∧ g.splits.length = 11) ∧
    WitA tS [] [] (fun c => c.g.kind = .ordinary ∧ c.g.depth = 0 ∧ c.e < 8 ∧ c.g.splits.length = 11 ∧ c.s0.hasHandler c.g = true) ∧
    WitA (tLr (fun r => { r with hen := false })) [] [] (fun c => c.g.kind = .ordinary ∧ c.g.depth = 0 ∧ c.e < 8 ∧
      c.g.splits.length = 11 ∧ c.s0.hasHandler c.g = false) := by
  refine ⟨⟨tG, by decide +kernel⟩, ?_⟩
  repeat' apply And.intro
  all_goals exact wit_of (by decide +kernel) (by decide +kernel)

theorem wit_TrapReturn :
    WitA tS [] [] (fun c => c.g.mayReturn c.e = false) ∧
    WitA (tW (fun g => { g with depth := 2, cause1 := .preempt, nestEntry := 8, sp := { g.sp with tpc := 0x10004 } }) tH) [] [] (fun c =>
      c.g.mayReturn c.e = true ∧ c.g.causeNow ≠ .uncorrected ∧ c.g.sp.tpc.toNat % 8 ≠ 0) ∧
    WitA (tW (fun g => { g with sp := { g.sp with tpc := 0x10004 } }) tH) [] [] (fun c =>
      c.g.mayReturn c.e = true ∧ c.g.depth = 1 ∧ c.g.causeNow ≠ .uncorrected ∧ c.g.sp.tpc.toNat % 8 ≠ 0) ∧
    WitA (tW (fun g => { g with cause1 := .uncorrected }) tH) [] [] (fun c => c.g.mayReturn c.e = true ∧ c.g.causeNow = .uncorrected) ∧
    WitA tH [] [] (fun c => c.g.mayReturn c.e = true ∧ c.g.depth = 1 ∧ c.g.cause1 ≠ .uncorrected ∧ c.g.resumed = false ∧
      c.g.sp.tpc.toNat % 8 = 0 ∧ c.g.splits.length = 11 ∧ c.g.suspended = some 0 ∧ c.g.sp.tpc = c.g.tpcSet) ∧
    WitA (tW (fun g => { g with sp := { g.sp with tpc := 0x10010 } }) tH) [] [] (fun c => c.g.mayReturn c.e = true ∧ c.g.depth = 1 ∧
      c.g.cause1 ≠ .uncorrected ∧ c.g.resumed = false ∧ c.g.sp.tpc.toNat % 8 = 0 ∧ c.g.splits.length = 11 ∧
      c.g.suspended = some 0 ∧ c.g.sp.tpc ≠ c.g.tpcSet) ∧
    WitA (tW (fun g => { g with depth := 2, nestEntry := 8 }) tH) [] [] (fun c => c.g.mayReturn c.e = true ∧ c.g.depth = 2 ∧
      c.g.sp.tpc.toNat % 8 = 0 ∧ c.g.splits.length = 11 ∧ c.g.nestEntry < 10) := by
  repeat' apply And.intro
  all_goals exact wit_of (by decide +kernel) (by decide +kernel)

/-- A second group of the launch, saved by TDONE. -/
def tG2 : Group := { Group.fresh ⟨false, 0, 0, 1⟩ .ordinary .preempted tL 0 1 0x10000 [] 0 with cookie := 0 }

theorem wit_SaveAndResume :
    WitA (tW (fun g => { g with cause1 := .preempt }) tH) (srcRds (o 324)) [] (fun c => c.g.inHandler c.e = true ∧ c.g.cause1 = .preempt ∧
      c.g.ctr.zero = true) ∧
    WitA (tW (fun g => { g with preemptReq := true }) tH) (srcRds (o 324)) [] (fun c => c.g.inHandler c.e = true ∧ c.g.preemptReq = true ∧
      c.g.causeNow ≠ .uncorrected ∧ c.g.ctr.zero = true) ∧
    WitA tS (srcRds (o 324)) [] (fun c => c.g.inHandler c.e = false) ∧
    WitA (tK 4 1 { tS with groups := [tG, tG2] }) (srcRds (o 324)) [] (fun c => c.s0.privileged c.g = true ∧
      (c.s0.launch? ((c.k 4).toNat % 2 ^ 32)).isSome = true ∧ ∃ g ∈ c.s0.groups, g.ref ≠ c.r ∧ g.lid = (c.k 4).toNat % 2 ^ 32 ∧
        g.phase = .preempted) ∧
    WitA tUser (srcRds (o 324)) [] (fun c => c.s0.privileged c.g = false) := by
  repeat' apply And.intro
  all_goals exact wit_of (by decide +kernel) (by decide +kernel)

theorem wit_SystemRegisters :
    WitA tS [] [] (fun c => c.s0.privileged c.g = true) ∧ WitA tUser [] [] (fun c => c.s0.privileged c.g = false) ∧
    WitA (tK 4 0x400000) (srcRds (o 324)) [] (fun c => c.s0.privileged c.g = true ∧ (c.k 4).toNat % 2 ^ 22 = 0 ∧ (c.k 4).toNat % 2 ^ 20 = 0) ∧
    WitA (tK 4 0x200000) (srcRds (o 324)) [] (fun c => c.s0.privileged c.g = true ∧ (c.k 4).toNat % 2 ^ 22 ≠ 0) ∧
    WitA (tK 4 0x80000) (srcRds (o 324)) [] (fun c => c.s0.privileged c.g = true ∧ (c.k 4).toNat % 2 ^ 20 ≠ 0) ∧
    WitA tUser (srcRds (o 324)) [] (fun c => c.s0.privileged c.g = false) := by
  repeat' apply And.intro
  all_goals exact wit_of (by decide +kernel) (by decide +kernel)

theorem wit_TrapEvents :
    (∃ (s : State) (g : Group) (t : PendTrap), s.group? tR = some g ∧ (g.split 0).trap = some t ∧ g.kind = .ordinary ∧ g.depth = 0) ∧
    (∃ (s : State) (g : Group) (t : PendTrap), s.group? tR = some g ∧ (g.split 1).trap = some t ∧ g.kind = .ordinary ∧ 0 < g.depth ∧
      g.handles 1 = false) ∧
    (∃ (s : State) (g y : Group), s.group? tR = some g ∧ g.depth = 0 ∧ g.phase = .running ∧ g.preemptReq = true ∧ g.uncorr = false ∧
      s.hasHandler g = true ∧ g.splits.length = 11 ∧ (s.abandonWaits tR).group? tR = some y ∧ y.atBoundary = true ∧ y.landed = true) ∧
    (∃ (s : State) (g : Group), s.group? tR = some g ∧ g.uncorr = true ∧ g.phase = .running ∧ g.kind = .ordinary ∧
      (∀ e < 10, s.finishing g e = false) ∧ g.depth = 0 ∧ s.hasHandler g = true ∧
      g.splits.length = 11) ∧
    (∃ (s : State) (g y : Group), s.group? tR = some g ∧ g.phase = .running ∧ g.kind = .ordinary ∧ 0 < g.depth ∧ g.cause1 = .preempt ∧
      (s.abandonWaits tR).group? tR = some y ∧ y.landed = true ∧ y.ctr.zero = true) := by
  refine ⟨⟨tSp (fun sp => { sp with trap := some ⟨.access, 0xA0, 0x10008⟩ }), _, _, rfl, rfl, rfl, rfl⟩,
    ⟨tW (fun g => { g with splits := g.splits.modify 1 (fun sp => { sp with trap := some ⟨.access, 0xA0, 0x10008⟩ }) }) tH, _, _, rfl, rfl, rfl, ?_, ?_⟩,
    ⟨tW (fun g => { g with preemptReq := true }), _, _, rfl, ?_, ?_, ?_, ?_, ?_, ?_, rfl, ?_⟩, ⟨tW (fun g => { g with uncorr := true }), _, rfl, ?_⟩,
    ⟨tW (fun g => { g with cause1 := .preempt }) tH, _, _, rfl, ?_, ?_, ?_, ?_, rfl, ?_⟩⟩ <;> decide +kernel

/-- Two v registers with words, for the lane engine. -/
def tV2 (s : State := tS) : State := tV 8 (fun l => BitVec.ofNat 32 (0x3F800000 + l)) (tV 9 (fun _ => 0x7FFFFFFF) s)

theorem wit_IntegerArithmetic :
    WitA tV2 (riRds (.r ⟨aw, 4, o 8, o 9, z, 0x088⟩)) [4] (fun c => c.m ≠ 0) ∧
    WitA tV2 (riRds (.i ⟨aw, 4, o 8, 100, 0x081⟩)) [4] (fun c => c.m ≠ 0) ∧
    WitA tV2 (rRds ⟨aw, 4, o 8, o 9, o 8, 0x080⟩ 3) [4] (fun c => c.m ≠ 0) ∧
    WitA tV2 (rRds ⟨aw, 4, o 8, z, z, 0x300⟩ 1) [4] (fun c => c.m ≠ 0) ∧
    WitA tV2 (rRds ⟨aw, 4, o 8, o 9, z, 0x080⟩ 2) [4] (fun _ => (tyOf (0x080 : BitVec 10)).packed = false) := by
  repeat' apply And.intro
  all_goals exact wit_of (by decide +kernel) (by decide +kernel)

theorem wit_ShiftsAndBits :
    WitA tV2 (riRds (.i ⟨aw, 4, o 8, 32, 0x081⟩)) [4] (fun c => c.m ≠ 0) ∧
    WitA tV2 (rRds ⟨aw, 4, o 8, o 9, o 8, 0x1D2⟩ 3) [4] (fun c => c.m ≠ 0) ∧
    WitA tV2 (rRds ⟨aw, 4, o 8, o 9, z, 0x080⟩ 2) [4] (fun c => c.m ≠ 0) ∧
    WitA tV2 (rRds ⟨aw, 8, ⟨8, true, false⟩, z, z, 0x080⟩ 1) [8] (fun c => c.m ≠ 0) := by
  repeat' apply And.intro
  all_goals exact wit_of (by decide +kernel) (by decide +kernel)

theorem wit_FloatInstructions :
    WitA tV2 (riRds (.r ⟨aw, 4, o 8, o 9, z, 0x190⟩)) [4] (fun c => c.RoundsIn (rndOf (0x190 : BitVec 10)) .rne) ∧
    WitA tV2 (riRds (.r ⟨aw, 4, o 8, o 9, z, 0x1E0⟩)) [4] (fun c => c.RoundsIn (rndOf (0x1E0 : BitVec 10)) .sr) ∧
    WitA tV2 (rRds ⟨aw, 4, o 8, o 9, o 8, 0x180⟩ 3) [4] (fun c => c.RoundsIn (rndOf (0x180 : BitVec 10)) .rne) ∧
    WitA (tLr (fun r => { r with piste := true }) tV2) (rRds ⟨aw, 4, o 8, o 9, o 8, 0x1E0⟩ 1) [4]
      (fun c => c.s0.pisteOf c.g = true ∧ c.RoundsIn (rndOf (0x1E0 : BitVec 10)) .sr) ∧
    WitA tV2 (rRds ⟨aw, 4, o 8, o 9, z, 0x1D0⟩ 2) [4] (fun c => c.RoundsIn (rndOf (0x1D0 : BitVec 10)) .rna) ∧
    WitA (tW (fun g => { g with sp := { g.sp with rmode := 7 } }) tV2) (riRds (.r ⟨aw, 4, o 8, o 9, z, 0x180⟩)) [4]
      (fun c => c.mode (rndOf (0x180 : BitVec 10)) = none) ∧
    WitA tV2 (riRds (.i ⟨aw, 4, o 8, 0x3F800, 0x181⟩)) [4] (fun c => c.m ≠ 0) ∧
    WitA tV2 (rRds ⟨aw, 4, o 8, o 9, o 8, 0x180⟩ 3) [4] (fun c => c.m ≠ 0) := by
  repeat' apply And.intro
  all_goals exact wit_of (by decide +kernel) (by decide +kernel)

theorem wit_Comparisons :
    WitA tV2 (riRds (.r ⟨aw, 384, o 8, o 9, z, 0x090⟩)) (cmpDsts 384) (fun _ => isPDst 384 = true) ∧
    WitA tV2 (riRds (.r ⟨aw, 4, o 8, o 9, z, 0x090⟩)) (cmpDsts 4) (fun _ => isPDst 4 = false) ∧
    WitA tV2 (srcRds (o 8) ++ srcRds (o 9)) (cmpDsts 390) (fun _ => isPDst 390 = true) ∧
    WitA tV2 (srcRds (o 8) ++ srcRds (o 9)) (cmpDsts 4) (fun _ => isPDst 4 = false) := by
  repeat' apply And.intro
  all_goals exact wit_of (by decide +kernel) (by decide +kernel)

/-- Lanes 0 to 15 stand in split 0, lanes 16 to 30 in split 1, HELD there with the mask m; lane 31 has exited. -/
def tHeld (m : Mask) (s : State := tV2) : State :=
  tW (fun g => { g with
    exited := 0x80000000
    splits := (g.splits.modify 0 (fun sp => { sp with mask := 0xFFFF })).modify 1 (fun sp =>
      { sp with mask := 0x7FFF0000, state := .held, wait := .crossLane m, hdr := (g.split 0).hdr, slot := (g.split 0).slot, prog := some m.toNat }) }) s

theorem wit_LaneMoves :
    (mbit (0 : BitVec 10) 1 = false ∧ WitA tV2 (rRds ⟨aw, 4, o 8, z, z, 0⟩ 1) [4] (fun c => c.m ≠ 0)) ∧
    (mbit (2 : BitVec 10) 1 = true ∧ WitA tV2 (srcRds (o 8) 2) [4, 5] (fun c => c.m ≠ 0)) ∧
    (WitA tS [] [319] (fun c => c.m ≠ 0)) ∧
    (mbit (0 : BitVec 10) 2 = false ∧ WitA tV2 (srcRds (o 8) ++ srcRds (o 9)) [4] (fun c => c.m ≠ 0)) ∧
    (mbit (4 : BitVec 10) 2 = true ∧ WitA (tV 11 (fun _ => 1) (tV 10 (fun _ => 1) tV2)) (srcRds (o 8) 2 ++ srcRds (o 10) 2) [4, 5] (fun c => c.m ≠ 0)) ∧
    (WitA tS [] [4, 5] (fun c => c.m ≠ 0)) ∧
    (tS.pisteOf tG = false ∧ mbit (0 : BitVec 10) 1 = false ∧ tyOf (0x080 : BitVec 10) ≠ .f32 ∧ tyOf (0x180 : BitVec 10) = .f32 ∧
      WitA tS [] [4] (fun c => c.s0.pisteOf c.g = false)) ∧
    WitA (tLr (fun r => { r with piste := true })) [] [4, 5] (fun c => c.s0.pisteOf c.g = true ∧ c.g.isResponder = false ∧ c.g.liveSplits ≤ 1) ∧
    WitA (tLr (fun r => { r with piste := true }) (tHeld 0)) [] [4] (fun c => c.s0.pisteOf c.g = true ∧ 1 < c.g.liveSplits) := by
  repeat' apply And.intro
  all_goals first | exact wit_of (by decide +kernel) (by decide +kernel) | decide +kernel

theorem wit_Conversions :
    (let q : OpR := ⟨aw, 4, o 8, o 0x018, z, 0x012⟩
     WitA tV2 (srcRds q.a (if cvtWide (cvtSrc q) then 2 else 1)) (if cvtWide (cvtDst q) then [dstNum q.d, dstNum q.d + 1] else [dstNum q.d])
      (fun c => cvtInt (cvtDst q) = false ∧ cvtWide (cvtDst q) = false ∧ c.RoundsIn (rndOf q.m) .rne)) ∧
    (let q : OpR := ⟨aw, 4, o 8, ⟨0x0B4, false, false⟩, z, 0⟩
     WitA tV2 (srcRds q.a (if cvtWide (cvtSrc q) then 2 else 1)) (if cvtWide (cvtDst q) then [dstNum q.d, dstNum q.d + 1] else [dstNum q.d])
      (fun _ => cvtInt (cvtDst q) = true ∧ cvtInt (cvtSrc q) = true ∧ cvtWide (cvtDst q) = true)) ∧
    WitA tV2 (srcRds (o 8) ++ srcRds (o 9) ++ srcRds z) [4] (fun c => mfield (0x210 : BitVec 10) 9 7 < 5 ∧
      c.RoundsIn (rndOf (0x210 : BitVec 10)) .rne) ∧
    WitA tV2 (srcRds (o 8) ++ srcRds (o 9) ++ srcRds z) [4] (fun _ => 5 ≤ mfield (0x280 : BitVec 10) 9 7) ∧
    WitA tV2 (srcRds (o 8)) [4, 5] (fun c => c.m ≠ 0) ∧
    WitA tV2 (srcRds (o 8) 2 ++ srcRds (o 9) ++ srcRds (o 8)) [4] (fun c => c.RoundsIn 0 .rne) ∧
    WitA tV2 (srcRds (o 8) ++ srcRds (o 9)) [4, 5] (fun c => c.RoundsIn 6 .sr) := by
  refine ⟨?_, ?_, ?_, ?_, ?_, ?_, ?_⟩ <;> exact wit_of (by decide +kernel) (by decide +kernel)

/-- The lanes a cross-lane slot acts in: R are those that stand at it. -/
abbrev tLo (gd : Guard) (m R : Mask) (whole : Bool) (g : Group) (sp : Split) : Mask :=
  g.guardMask gd (if whole then m &&& ~~~g.exited &&& R else sp.mask)
/-- The slot as `CrossAt` sees it. -/
abbrev tXc (s : State) (gd : Guard) (L rds : List Rd) (m R : Mask) (whole : Bool) : Ctx :=
  tCtx s (tLo gd m R whole) (L ++ if whole then rds else [])
/-- A cross-lane slot of member mask m, at which the splits hs are held. -/
abbrev WitX (s : State) (gd : Guard) (q : Src) (rds : List Rd) (dsts : List Nat) (m : Mask) (hs : List Nat) (whole : Bool) (P : Ctx → Prop) : Prop :=
  ∃ c, CrossAt s c gd q rds dsts m hs whole ∧ P c

theorem cross_of {s : State} {gd : Guard} {q : Src} {rds : List Rd} {dsts : List Nat} {m R : Mask} {hs : List Nat} {whole : Bool} {L : List Rd}
    {P : Ctx → Prop} (h : readyB s (tLo gd m R whole) (L ++ if whole then rds else []) (if whole then dsts else []) = true)
    (h2 : let c := tXc s gd L rds m R whole
      m = (match c.sp.prog with | some x => BitVec.ofNat 32 x | none => memberMask c.g c.sp q) ∧
      hs = (if c.g.inHandler c.e then [] else (List.range 8).filter (fun i => i != c.e &&
        (c.g.split i).atSlot c.sp.hdr c.sp.slot && (c.g.split i).state == .held && (c.g.split i).crossMask.isSome)) ∧
      (L.all (fun rd => !regEmpty s c.g rd.isK rd.n c.sp.mask c.sp.replay)) = true ∧
      whole = (c.g.inHandler c.e || (m &&& ~~~c.g.exited &&& ~~~(c.reached hs)) == 0) ∧ R = c.reached hs ∧ L = c.memRds q)
    (hp : P (tXc s gd L rds m R whole)) : WitX s gd q rds dsts m hs whole P := by
  obtain ⟨h3, h4, h5, h6, h7, h8⟩ := h2
  refine ⟨_, ⟨h3, h4, ?_, h6, ?_⟩, hp⟩
  · rw [← h8]; simpa using h5
  · rw [← h7, ← h8]; exact ready_of h

/-- A slot outside the split's mask, another mask held there, a member missing; performed for one split, for two with an exited member, and
with all of its operands. -/
theorem wit_CrossLaneInstructions :
    WitX (tK 5 1 tV2) aw (o 325) (srcRds (o 8)) [4] 1 [] true (fun c => ¬c.names aw 1) ∧
    WitX (tK 5 0x7FFFFFFF (tHeld 0xFFFFFFFF)) aw (o 325) (srcRds (o 8)) [4] 0x7FFFFFFF [1] true (fun c =>
      c.names aw 0x7FFFFFFF ∧ ∃ j ∈ [1], (c.g.split j).crossMask ≠ some 0x7FFFFFFF) ∧
    WitX (tK 5 0xFFFFFFFF (tSp (fun sp => { sp with mask := 0xFFFF }) tV2)) aw (o 325) (srcRds (o 8)) [4] 0xFFFFFFFF [] false (fun c =>
      c.names aw 0xFFFFFFFF ∧ ∀ j ∈ ([] : List Nat), (c.g.split j).crossMask = some 0xFFFFFFFF) ∧
    WitX tV2 aw z (srcRds (o 8) ++ srcRds (o 9)) [4] Mask.all [] true (fun c => c.names aw Mask.all ∧ mbit (0 : BitVec 10) 4 = false) ∧
    WitX tV2 aw z (srcRds (o 8) 2 ++ srcRds (o 9)) [4, 5] Mask.all [] true (fun c => c.names aw Mask.all ∧ mbit (0x10 : BitVec 10) 4 = true) ∧
    WitX (tK 5 0xFFFFFFFF (tHeld 0xFFFFFFFF)) aw (o 325) (srcRds (o 8)) [4] 0xFFFFFFFF [1] true (fun c =>
      c.names aw 0xFFFFFFFF ∧ (∀ j ∈ [1], (c.g.split j).crossMask = some 0xFFFFFFFF) ∧ c.RoundsIn 0 .rne ∧
      redRnd ⟨aw, 4, o 8, z, o 325, 0x180⟩ = some 0 ∧ redRnd ⟨aw, 4, o 8, z, o 325, 0x080⟩ = none ∧ (0xFFFFFFFF : Mask) &&& c.g.exited ≠ 0) ∧
    WitX (tHeld 0xFFFFFFFF) aw (o 386) (srcRds (o 8) 2 ++ srcRds (o 9)) [4, 5] 0xFFFFFFFF [1] true (fun c => c.names aw 0xFFFFFFFF) := by
  refine ⟨?_, ?_, ?_, ?_, ?_, ?_, ?_⟩
  · exact cross_of (R := Mask.all) (L := srcRds (o 325)) (by decide +kernel) (by decide +kernel) (by decide +kernel)
  · exact cross_of (R := 0x7FFFFFFF) (L := srcRds (o 325)) (by decide +kernel) (by decide +kernel) (by decide +kernel)
  · exact cross_of (R := 0xFFFF) (L := srcRds (o 325)) (by decide +kernel) (by decide +kernel) (by decide +kernel)
  · exact cross_of (R := Mask.all) (L := srcRds z) (by decide +kernel) (by decide +kernel) (by decide +kernel)
  · exact cross_of (R := Mask.all) (L := srcRds z) (by decide +kernel) (by decide +kernel) (by decide +kernel)
  · exact cross_of (R := 0x7FFFFFFF) (L := srcRds (o 325)) (by decide +kernel) (by decide +kernel) (by decide +kernel)
  · exact cross_of (R := 0x7FFFFFFF) (L := srcRds (o 386)) (by decide +kernel) (by decide +kernel) (by decide +kernel)

theorem wit_ExpansionArithmetic :
    WitA tV2 (xRds (xFmt 0) 1 (o 8) ++ xRds (xFmt 0) 1 (o 9)) (xDsts (xFmt 0) 2 20) (fun c => c.m ≠ 0) ∧
    WitA tV2 (xRds (xFmt 0) 1 (o 8) ++ xRds (xFmt 0) 1 (o 9) ++ xRds (xFmt 0) 1 (o 8)) (xDsts (xFmt 0) 3 20) (fun c => c.m ≠ 0) ∧
    finiteF .f32 (xround .f32 (xadd (decodeF .f32 0x3F800000) (decodeF .f32 0x3F800001))) = true ∧
    WitA tV2 (xRdsAB ⟨aw, 20, o 8, o 8, z, 0x05C⟩) (xDsts (xFmt 0x05C) (xLd 0x05C) 20) (fun c => c.m ≠ 0) ∧
    WitA tV2 (xRds (xFmt 0x04C) (xLa 0x04C) (o 8) ++ xRds (xFmt 0x04C) 1 (o 9) ++ xRds (xFmt 0x04C) 1 (o 9))
      (xDsts (xFmt 0x04C) (xLd 0x04C) 20) (fun c => c.m ≠ 0) ∧
    WitA tV2 (xRds (xFmt 0x04C) (xLa 0x04C) (o 8)) (xDsts (xFmt 0x04C) (xLd 0x04C) 20) (fun c => c.m ≠ 0) := by
  refine ⟨?_, ?_, ?_, ?_, ?_, ?_⟩
  all_goals first | exact wit_of (by decide +kernel) (by decide +kernel) | decide +kernel

theorem wit_ExpansionConversions :
    WitA tV2 (xRdsAB ⟨aw, 384, o 8, o 8, z, 0x050⟩) (cmpDsts 384) (fun _ => isPDst 384 = true) ∧
    WitA tV2 (xRdsAB ⟨aw, 20, o 8, o 8, z, 0x050⟩) (cmpDsts 20) (fun _ => isPDst 20 = false) ∧
    WitA tV2 (xRds 0 (xLa 0x04C) (o 8)) (xDsts (xFmt 0x04C) (xLd 0x04C) 20) (fun c => c.m ≠ 0) ∧
    WitA tV2 (xRds (xFmt 0x044) (xLa 0x044) (o 8) ++ srcRds (o 9)) (xDsts (xFmt 0x044) (xLd 0x044) 20) (fun c => c.m ≠ 0) ∧
    (let q : OpR := ⟨aw, 20, o 8, o 0x004, z, 0x044⟩
     WitA tV2 (srcRds q.a) (xDsts (cvtDst q) (xLd q.m) 20) (fun _ => cvtInt (cvtDst q) = false ∧ cvtInt (cvtSrc q) = true ∧ cvtWide (cvtSrc q) = false)) ∧
    (let q : OpR := ⟨aw, 20, o 8, o 0x080, z, 0x040⟩
     WitA tV2 (xRds (cvtSrc q) (xLa q.m) q.a) [20] (fun _ => cvtInt (cvtDst q) = true ∧ cvtInt (cvtSrc q) = false ∧ cvtWide (cvtDst q) = false)) ∧
    (let q : OpR := ⟨aw, 20, o 8, o 0x0B0, z, 0x040⟩
     WitA tV2 (xRds (cvtSrc q) (xLa q.m) q.a) [20, 21] (fun _ => cvtInt (cvtDst q) = true ∧ cvtInt (cvtSrc q) = false ∧ cvtWide (cvtDst q) = true)) ∧
    WitX tV2 aw z (xRds (xFmt 0x044) (xLa 0x044) (o 8)) (xDsts (xFmt 0x044) (xLd 0x044) 20) Mask.all [] true (fun c => c.names aw Mask.all) := by
  refine ⟨?_, ?_, ?_, ?_, ?_, ?_, ?_, cross_of (R := Mask.all) (L := srcRds z) (by decide +kernel) (by decide +kernel) (by decide +kernel)⟩ <;>
    exact wit_of (by decide +kernel) (by decide +kernel)

/-! ### Witnesses: accesses -/

/-- The access form of an instruction that has one. -/
def tF (i : Instr) : AccForm := (accForm i).getD default
/-- What `AccOk` asks beside the instruction's own conditions, as a check. -/
def accOkB (c : Ctx) (f : AccForm) : Bool :=
  (decide (f.space = .global) || !c.r.home) && (c.s0.accTrap c.g f ((c.accLanes f).map (c.accAddr f))).isNone &&
  !c.s0.lateAccess c.g ((c.accLanes f).map (c.accAddr f)) f.n && (decide (f.ctr = 0) || decide (c.g.ctr.sel f.ctr < 65535)) &&
  (!c.s0.pisteOf c.g || c.s0.mergeRoom c.g ((c.accLanes f).map (c.accAddr f)))

theorem accOk_of {c : Ctx} {i : Instr} {f : AccForm} (h : accOkB c f = true) (ho : accOwn i c) : AccOk c i f := by
  simp only [accOkB, Bool.and_eq_true, Bool.or_eq_true, decide_eq_true_eq, Bool.not_eq_true', Option.isNone_iff_eq_none] at h
  obtain ⟨⟨⟨⟨h1, h2⟩, h3⟩, h4⟩, h5⟩ := h
  refine ⟨h1, h2, fun _ => h3, ho, h4, fun hp => ?_⟩
  rcases h5 with h | h
  · exact absurd (hp.1.symm.trans h) (by decide)
  · exact h

/-- The machine with 1 GiB of HBM mapped at address 0 for ASIDs 0 and 7, the leaf kept by every controller for ASID 0. -/
def tM (leaf : Byte := 0x13) (s : State := tS) : State :=
  { s with
    regs := { s.regs with ctxbase := 0x100000 }
    tlb := if leaf = 0x13 then [0, 1, 2, 3, 4, 5, 6, 7].map (fun k => (k, [⟨0, 0, 2, 0x13⟩])) else []
    hbm := [(0x100000, 1), (0x100002, 0x20), (0x100038, 1), (0x10003A, 0x20), (0x200000, 1), (0x200002, 0x21), (0x210000, leaf)] }

/-- An access goes out. -/
abbrev tAcc (s : State) (i : Instr) (P : Ctx → Prop) : Prop :=
  Wit s (tF i).o.g (tF i).rds (tF i).dests (fun c => accForm i = some (tF i) ∧ (tF i).kind ≠ .maint ∧
    ((tF i).kind = .ared → 2 ≤ (tF i).o.evict.toNat → c.s0.pisteOf c.g = false) ∧ AccOk c i (tF i) ∧ P c)

theorem acc_of {s : State} {i : Instr} {P : Ctx → Prop} (h : readyB s (fun g sp => g.guardMask (tF i).o.g sp.mask) (tF i).rds (tF i).dests = true)
    (h1 : accForm i = some (tF i) ∧ (tF i).kind ≠ .maint ∧
      ((tF i).kind = .ared → 2 ≤ (tF i).o.evict.toNat → (tCtx s (fun g sp => g.guardMask (tF i).o.g sp.mask) (tF i).rds).s0.pisteOf
        (tCtx s (fun g sp => g.guardMask (tF i).o.g sp.mask) (tF i).rds).g = false) ∧
      accOkB (tCtx s (fun g sp => g.guardMask (tF i).o.g sp.mask) (tF i).rds) (tF i) = true)
    (ho : accOwn i (tCtx s (fun g sp => g.guardMask (tF i).o.g sp.mask) (tF i).rds))
    (hp : P (tCtx s (fun g sp => g.guardMask (tF i).o.g sp.mask) (tF i).rds)) : tAcc s i P :=
  wit_of h ⟨h1.1, h1.2.1, h1.2.2.1, accOk_of h1.2.2.2 ho, hp⟩

/-- Some lane's address is a global one. -/
abbrev tGlob (f : AccForm) (c : Ctx) : Prop := f.space = .global ∧ (∃ l ∈ c.accLanes f, apertureVa (c.accAddr f l) = false) ∧ c.e < c.g.splits.length

theorem wit_GlobalAccesses :
    (let i := Instr.ldg ⟨aw, 6, o 324, o 8, 0, 0, 0, 2, 16⟩; tAcc (tK 4 0x1000 (tV 8 (fun l => BitVec.ofNat 32 l))) i (tGlob (tF i))) ∧
    (let i := Instr.ldg ⟨⟨true, 7⟩, 6, o 324, o 8, 0, 0, 0, 2, 16⟩
     tAcc (tV 8 (fun _ => 0)) i (fun c => (tF i).space = .global ∧ c.accLanes (tF i) = [])) ∧
    (let i := Instr.stg ⟨aw, 8, o 324, z, 2, 3, 0, 2, 0⟩; tAcc (tV 0 (fun _ => 0) (tK 4 0xFFFEFFFFFFFFFC (tV 8 (fun _ => 9)))) i (tGlob (tF i))) ∧
    (let i := Instr.ldk ⟨aw, 328, o 324, o 385, 0, 0, 0, 3, 0⟩; tAcc (tK 4 0x1000) i (fun c => tGlob (tF i) c ∧ (tF i).destK = true)) ∧
    (let i := Instr.afad ⟨aw, 6, o 324, o 8, 0, 3, 0, 2, 0⟩; tAcc (tK 4 0x1000 (tV 8 (fun _ => 9))) i (tGlob (tF i))) ∧
    (let i := Instr.acad ⟨aw, 10, o 324, o 8, 0, 3, 0, 2, 0⟩
     tAcc (tW (fun g => { g with sp := { g.sp with caoff := 0x100000000 } }) (tK 4 0x1000 (tV 8 (fun _ => 9)))) i (tGlob (tF i))) ∧
    (let i := Instr.ared ⟨aw, 0, o 324, o 8, 0, 3, 2, 2, 0⟩; tAcc (tK 4 0x1000 (tV 8 (fun _ => 9))) i (tGlob (tF i))) ∧
    (let i := Instr.waita ⟨aw, 6, o 324, o 8, 0, 3, 0, 2, 0⟩
     tAcc (tK 4 0xFFFF0000000000 (tV 8 (fun _ => 9))) i (fun c => (tF i).space = .global ∧ (tF i).kind = .waita ∧
      (∃ l ∈ c.accLanes (tF i), apertureVa (c.accAddr (tF i) l) = true) ∧ c.e < c.g.splits.length)) ∧
    (let i := Instr.gld ⟨aw, 6, o 324, z, 0, 0, 0, 3, 0⟩
     tAcc (tLr (fun r => { r with gft := 0x2000 }) (tK 4 0x1000 (tV 0 (fun _ => 0)))) i (tGlob (tF i))) := by
  refine ⟨?_, ?_, ?_, ?_, ?_, ?_, ?_, ?_, ?_⟩ <;>
    exact acc_of (by decide +kernel) (by decide +kernel) (by simp only [accOwn] <;> decide +kernel) (by decide +kernel)

/-- STS and a float ARED in a piste launch: the block's buffer has room for one more sector. -/
theorem wit_StoresPerformedAtIssue :
    (let i := Instr.sts ⟨aw, 8, o 324, o 385, 0, 0, 0, 2, 0⟩
     tAcc (tK 4 0x7C (tV 8 (fun l => BitVec.ofNat 32 l))) i (fun c => c.noTouch (tF i) ∧ (tF i).dests = [] ∧
      (∀ p ∈ c.s0.ops, p.g = c.r → p.lanes.all LaneAcc.isDone = true) ∧ (0 : BitVec 2).toNat % 2 = 0 ∧ c.s0.FreshNumber)) ∧
    (let i := Instr.ared ⟨aw, 0, o 324, o 8, 0, 3, 5, 2, 0⟩
     Wit (tLr (fun r => { r with piste := true }) (tW (fun g => { g with sp := { g.sp with caoff := 0x100000000 } }) (tK 4 0x1000 (tV 8 (fun _ => 9)))))
      aw (tF i).rds [] (fun c => accForm i = some (tF i) ∧ c.s0.pisteOf c.g = true ∧
        c.s0.accTrap c.g (tF i) (c.m.toLanes.map (c.accAddr (tF i))) = none ∧ c.g.sp.caoff ≠ 0 ∧ c.g.sp.caoff.toNat % 2 ^ 32 = 0 ∧
        c.s0.mergeRoom c.g (c.m.toLanes.map (c.accAddr (tF i))) = true ∧ c.s0.blockOf c.g = some tB ∧
        c.s0.lateAccess c.g (c.m.toLanes.map (c.accAddr (tF i))) (tF i).n = false)) := by
  refine ⟨acc_of (by decide +kernel) (by decide +kernel) (by simp only [accOwn]) ⟨?_, by decide +kernel, by decide +kernel, by decide +kernel, ?_⟩,
    wit_of (by decide +kernel) (by decide +kernel)⟩
  · intro _ l hl
    revert l
    decide +kernel
  · constructor <;> decide +kernel

theorem wit_OnChipAccesses :
    (let i := Instr.lds ⟨aw, 6, o 324, o 385, 0, 0, 0, 2, 0⟩
     tAcc (tK 4 0x100) i (fun c => c.noTouch (tF i) ∧ (tF i).kind ≠ .waita ∧ c.accLanes (tF i) ≠ [] ∧ (tF i).destK = false ∧
      c.e < c.g.splits.length ∧ (tF i).o.ord.toNat % 2 = 0)) ∧
    (let i := Instr.aadd ⟨aw, 6, o 324, o 8, 1, 0, 0, 2, 0⟩
     tAcc (tK 4 0xFFFF0000000000 (tV 8 (fun _ => 9))) i (fun c => c.noTouch (tF i) ∧ c.accLanes (tF i) ≠ [] ∧ (tF i).space = .global ∧
      (∀ l ∈ c.accLanes (tF i), apertureVa (c.accAddr (tF i) l) = true) ∧ (tF i).destK = false ∧ c.e < c.g.splits.length ∧
      (tF i).o.ord.toNat % 2 = 1)) := by
  refine ⟨acc_of (by decide +kernel) (by decide +kernel) (by simp only [accOwn]) ⟨?_, by decide +kernel⟩,
    acc_of (by decide +kernel) (by decide +kernel) (by simp only [accOwn]) ⟨?_, by decide +kernel⟩⟩
  · intro _ l hl
    revert l
    decide +kernel
  · intro h
    exact absurd h (by decide +kernel)

/-- Checks at their boundaries: the last aligned address below the aperture, one byte off, and the first of the unused spaces. -/
theorem wit_AccessChecks :
    (let i := Instr.ldg ⟨aw, 6, o 324, z, 0, 0, 0, 2, 0⟩
     Wit (tK 4 0xFFFEFFFFFFFFFD (tV 0 (fun _ => 0))) aw (tF i).rds (tF i).dests (fun c => accForm i = some (tF i) ∧ (tF i).space = .global ∧
      (tF i).kind = .load ∧ c.g.isPack = false ∧ ∃ l ∈ c.accLanes (tF i), globalVa (c.accAddr (tF i) l) = true ∧ c.accAddr (tF i) l % (tF i).n ≠ 0)) ∧
    (let i := Instr.ldg ⟨aw, 6, o 324, z, 0, 0, 0, 2, 0⟩
     Wit (tK 4 0x100000000000000 (tV 0 (fun _ => 0))) aw (tF i).rds (tF i).dests (fun c =>
      (∀ l ∈ c.accLanes (tF i), globalVa (c.accAddr (tF i) l) = true → c.accAddr (tF i) l % (tF i).n = 0) ∧
      ∃ l ∈ c.accLanes (tF i), bits (c.accAddr (tF i) l) 63 56 ≠ 0)) ∧
    (let i := Instr.stg ⟨aw, 8, o 324, z, 0, 0, 0, 2, 0⟩
     Wit (tK 4 0xFFFF0000000000 (tV 0 (fun _ => 0) (tV 8 (fun _ => 0)))) aw (tF i).rds (tF i).dests (fun c => (tF i).kind = .store ∧
      (∀ l ∈ c.accLanes (tF i), globalVa (c.accAddr (tF i) l) = true → c.accAddr (tF i) l % (tF i).n = 0) ∧
      ∃ l ∈ c.accLanes (tF i), bits (c.accAddr (tF i) l) 55 40 = 0xFFFF)) := by
  refine ⟨?_, ?_, ?_⟩ <;> exact wit_of (by decide +kernel) (by decide +kernel)

/-- A line of the core with two dirty bytes. -/
def tDirty (s : State := tM) : State :=
  { s with l1d := [(tR.coreRef, [{ (default : Line) with line := 0x20, dirty := [(0, 7), (127, 9)] }])] }

theorem wit_Maintenance :
    (∀ i ∈ [Instr.wbk ⟨aw, 0, o 324, z, 0, 0, 0, 2, 0⟩, Instr.inv ⟨aw, 0, o 324, z, 0, 0, 0, 2, 0⟩],
     Wit (tK 4 0x1000 (tV 0 (fun _ => 0) tDirty)) aw (tF i).rds [] (fun c => accForm i = some (tF i) ∧ c.g.ctr.st < 65535 ∧
      (∀ l ∈ c.m.toLanes, globalVa (c.accAddr (tF i) l) = true) ∧
      (∀ l ∈ c.m.toLanes, c.s0.storesPending c.r l (c.s0.asidOf c.g) (c.accAddr (tF i) l / 128 * 128) 128 = false) ∧
      (∀ x ∈ c.s0.l1Lines c.r.coreRef, x.poison = []) ∧ ∀ l ∈ c.m.toLanes, (findLine (c.s0.l1Lines c.r.coreRef) 0 (c.accAddr (tF i) l)).isSome = true)) ∧
    (tM.xlate 0 0 0x1000 = .ok ⟨0, 0x1000, 0x13, 2, 0, 0x1000⟩ ∧ leafGd 0x13 = false) ∧
    ((tM 0x33).xlate 0 0 0x1000 = .ok ⟨0, 0x1000, 0x33, 2, 0, 0x1000⟩ ∧ leafGd 0x33 = true ∧ (tM 0x33).migrOf ((tM 0x33).memKey ⟨0, 0x1000, 0x33, 2, 0, 0x1000⟩) = none ∧
      (tM 0x33).unreachable ⟨0, 0x1000, 0x33, 2, 0, 0x1000⟩ = false ∧ Memory.wf (tM 0x33).hbm = true) ∧
    (let i := Instr.pref ⟨aw, 0, o 324, z, 0, 0, 0, 2, 0⟩
     Wit (tK 4 0x1000 (tV 0 (fun _ => 0))) aw (tF i).rds [] (fun _ => accForm i = some (tF i))) ∧
    WitA tS [] [] (fun c => (2 : BitVec 2).getLsbD 0 = false ∨ c.s0.loadsPending c.r c.m = false) := by
  refine ⟨?_, ?_, ?_, ?_, ?_⟩
  · intro i hi
    simp only [List.mem_cons, List.not_mem_nil, or_false] at hi
    rcases hi with rfl | rfl <;> exact wit_of (by decide +kernel) (by decide +kernel)
  all_goals first | exact wit_of (by decide +kernel) (by decide +kernel) | decide +kernel

/-- The launch with a binding of phase barrier 0, and one whose set is full. -/
def tBind (n : Nat) (s : State := tS) : State :=
  { s with launches := s.launches.map (fun l => { l with bindings := List.replicate n ⟨0x200000, 0, 8, 0⟩ }) }

theorem wit_Bindings :
    WitA (tK 5 0x2000000000000008 (tK 4 0x1000)) (kRds (o 324) 2) [] (fun c => ∃ b, bindingOf (c.k 4).toNat (c.k 5).toNat = some b ∧
      c.s0.launch? c.g.lid = some tL ∧ tL.change = none ∧ objNamed tL.lrec b.obj = true ∧ b.len ≠ 0 ∧ tL.bindings.length < 64 ∧
      c.e < c.g.splits.length) ∧
    WitA (tK 5 0x2000000000000008 (tK 4 0x1000 (tBind 64))) (kRds (o 324) 2) [] (fun c => ∃ b l, bindingOf (c.k 4).toNat (c.k 5).toNat = some b ∧
      c.s0.launch? c.g.lid = some l ∧ l.change = none ∧ objNamed l.lrec b.obj = true ∧ b.len ≠ 0 ∧ 64 ≤ l.bindings.length) ∧
    WitA (tK 5 0x4000040000000008 (tK 4 0x1000)) (kRds (o 324) 2) [] (fun c => ∃ b, bindingOf (c.k 4).toNat (c.k 5).toNat = some b ∧
      objNamed tL.lrec b.obj = false) ∧
    WitA (tK 5 0x2000000000000000 (tK 4 0x1000)) (kRds (o 324) 2) [] (fun c => ∃ b, bindingOf (c.k 4).toNat (c.k 5).toNat = some b ∧
      objNamed tL.lrec b.obj = true ∧ b.len = 0) ∧
    WitA (tK 4 0x200000 (tBind 1)) (kRds (o 324) 1) [] (fun c => ∃ l, c.s0.launch? c.g.lid = some l ∧ l.change = none ∧ (c.k 4).toNat < 2 ^ 24 ∧
      objNamed l.lrec (c.k 4).toNat = true ∧ ∃ b ∈ l.bindings, b.obj = (c.k 4).toNat) ∧
    WitA (tK 4 0x200000) (kRds (o 324) 1) [] (fun c => ∃ l, c.s0.launch? c.g.lid = some l ∧ l.change = none ∧ (c.k 4).toNat < 2 ^ 24 ∧
      objNamed l.lrec (c.k 4).toNat = true ∧ ∀ b ∈ l.bindings, b.obj ≠ (c.k 4).toNat) ∧
    (∃ (s : State) (l : Launch) (ch : BindChange), s.launch? 1 = some l ∧ l.change = some ch ∧ ch.left.filter (· ≠ tR.coreRef) ≠ []) ∧
    (∃ (s : State) (l : Launch) (ch : BindChange), s.launch? 1 = some l ∧ l.change = some ch ∧ ch.left.filter (· ≠ tR.coreRef) = [] ∧
      (s.group? ch.g).isSome = true) := by
  let ch (k : List CoreRef) : BindChange := ⟨⟨tR, 0, 4, 9⟩, [], k, 0⟩
  refine ⟨wit_of (by decide +kernel) ⟨⟨0x200000, 0x1000, 8, 0⟩, by decide +kernel⟩,
    wit_of (by decide +kernel) ⟨⟨0x200000, 0x1000, 8, 0⟩, { tL with bindings := List.replicate 64 ⟨0x200000, 0, 8, 0⟩ }, by decide +kernel⟩,
    wit_of (by decide +kernel) ⟨⟨0x400004, 0x1000, 8, 0⟩, by decide +kernel⟩,
    wit_of (by decide +kernel) ⟨⟨0x200000, 0x1000, 0, 0⟩, by decide +kernel⟩,
    wit_of (by decide +kernel) ⟨{ tL with bindings := [⟨0x200000, 0, 8, 0⟩] }, by decide +kernel⟩,
    wit_of (by decide +kernel) ⟨tL, by decide +kernel⟩,
    ⟨{ tS with launches := [{ tL with change := some (ch [tR.coreRef, ⟨false, 0, 1⟩]) }] }, _, _, rfl, rfl, ?_⟩,
    ⟨{ tS with launches := [{ tL with change := some (ch [tR.coreRef]) }] }, _, _, rfl, rfl, ?_, ?_⟩⟩ <;> decide +kernel

/-- An access of the group, of lane 0, that is operation 9. -/
def tOp (i : Instr) (a : Nat) (st : LaneStatus) (data : List Byte := []) : MemOp :=
  { (default : MemOp) with
    id := 9, g := tR, ins := i, kind := (tF i).kind, space := (tF i).space, size := (tF i).n, dest := dstNum (tF i).o.d, destK := (tF i).destK
    evict := (tF i).o.evict.toNat, scope := (tF i).o.scope.toNat, ord := (tF i).o.ord.toNat
    lanes := [⟨0, a, data, natToBytes (tF i).n 0x01020304, st, [], none, false⟩], lid := 1 }
/-- The group of a machine with one group. -/
def tGr (s : State) : Group := (s.group? tR).getD tG
/-- The machine with these accesses out and its split waiting. -/
def tOut (os : List MemOp) (w : Wait) (s : State := tM) : State :=
  { tSp (fun sp => { sp with state := .blocked, wait := w }) s with ops := os }

def tLdg : Instr := .ldg ⟨aw, 6, o 324, z, 0, 0, 0, 2, 0⟩
def tStg : Instr := .stg ⟨aw, 6, o 324, z, 0, 0, 0, 2, 0⟩

/-- What `MemOp.Judged` asks, as a check. -/
def judgedB (s : State) (q : MemOp) : Bool :=
  let g := tGr s
  decide (s.op? 9 = some q) && decide (s.group? q.g = some g) && decide ((g.split q.entry).wait = .verdict 9) && decide ((q.lanes.map (·.lane)).Nodup) &&
  ((!q.writes && decide (q.kind ≠ .waita)) || q.lanes.all (fun l => s.mayAccept q l))

theorem judged_of {s : State} {q : MemOp} (h : judgedB s q = true) : MemOp.Judged s 9 q (tGr s) := by
  simp only [judgedB, Bool.and_eq_true, Bool.or_eq_true, decide_eq_true_eq, Bool.not_eq_true', List.all_eq_true] at h
  obtain ⟨⟨⟨⟨h1, h2⟩, h3⟩, h4⟩, h5⟩ := h
  refine ⟨h1, h2, h3, h4, fun hw => ?_⟩
  rcases h5 with h | h
  · rcases hw with h' | h'
    · exact absurd (h'.symm.trans h.1) (by decide)
    · exact absurd h' h.2
  · exact h

/-- An access of a lane whose page is mapped and of one whose page is not. -/
def tTwoLanes (st : LaneStatus) : MemOp :=
  let q := tOp tLdg 0x1000 st
  { q with lanes := q.lanes ++ [⟨1, 0x40001000, [], [], st, [], none, false⟩] }
def tNoSet (s : State) : State := tW (fun g => { g with parked := List.replicate 8 { Parked.free with valid := true } }) s
/-- A fault queue without room. -/
def tFqFull (s : State) : State := { s with regs := { s.regs with fqbase := 0x300000 }, hbm := s.hbm ++ [(0x300001, 0x10)] }

/-- Accepted accesses: a load, an acquire, a store, one that its L1D keeps. -/
theorem wit_VerdictsAndParking_accepted :
    (∀ i ∈ [tLdg, .ldg ⟨aw, 6, o 324, z, 1, 0, 0, 2, 0⟩, tStg], let q := tOp i 0x1000 .waiting
     let s := tOut [q] (.verdict 9)
     judgedB s q = true ∧ (∀ l ∈ q.lanes, s.laneFault q l = none) ∧ (accForm q.ins).isSome = true ∧ q.entry < (tGr s).splits.length) ∧
    (let q := tOp tStg 0x1000 .waiting (natToBytes 4 7)
     let s := tOut [q] (.verdict 9)
     let l := q.lanes.headD default
     judgedB s q = true ∧ s.laneFault q l = none ∧ (tF q.ins).kind = .store ∧ q.kind = .store ∧ q.lanes = [l] ∧ q.g.home = false ∧
      l.data.length = q.size ∧ 0 < q.size ∧ l.addr % 128 + q.size ≤ 128) := by
  refine ⟨?_, ?_⟩ <;> decide +kernel

theorem wit_VerdictsAndParking_kept :
    let q := tOp tStg 0x1000 .waiting (natToBytes 4 7)
    let s := tOut [q] (.verdict 9)
    let l := q.lanes.headD default
    let o1 : MemOp := { q with lanes := [{ l with status := .accepted }] }
    let u := (((s.transCounts o1).dlArrive o1).setOp o1).unfenceFor o1
    u.placeFor o1 { l with status := .accepted } = .cache ∧ u.mayPerform o1 { l with status := .accepted } = true ∧
      (u.policyAt o1 l.addr).alloc = true ∧ (u.policyAt o1 l.addr).last = false ∧ u.xlate q.g.die q.asid l.addr = .ok ⟨0, 0x1000, 0x13, 2, 0, 0x1000⟩ ∧
      leafGd 0x13 = false := by
  decide +kernel

/-- Lanes that fault: the whole split, one lane of two, with no free set, with no room for a record. -/
theorem wit_VerdictsAndParking_parked :
    (let q := tOp tLdg 0x40001000 .waiting
     let s := tSp (fun sp => { sp with mask := 1 }) (tOut [q] (.verdict 9))
     let g := tGr s
     judgedB s q = true ∧ s.faulted q ≠ [] ∧ (accForm q.ins).isSome = true ∧ (∀ l ∈ q.lanes, l.lane < 32 ∧ (g.split q.entry).mask.has l.lane = true) ∧
      q.entry < g.splits.length ∧ (List.range 8).find? (fun i => !(g.parked.getD i Parked.free).valid) = some 0 ∧ 0 < g.parked.length ∧
      (s.recordLanes q 0 (s.faulted q)).2 = true ∧ s.parking q g = (g.split q.entry).mask) ∧
    (let q := tTwoLanes .waiting
     let s := tSp (fun sp => { sp with mask := 3 }) (tOut [q] (.verdict 9))
     let g := tGr s
     judgedB s q = true ∧ s.faulted q ≠ [] ∧ (accForm q.ins).isSome = true ∧ (∀ l ∈ q.lanes, l.lane < 32 ∧ (g.split q.entry).mask.has l.lane = true) ∧
      q.entry < g.splits.length ∧ (List.range 8).find? (fun i => !(g.parked.getD i Parked.free).valid) = some 0 ∧ 0 < g.parked.length ∧
      (s.recordLanes q 0 (s.faulted q)).2 = true ∧ s.parking q g ≠ (g.split q.entry).mask ∧ q.lanes.filter (fun l => !(s.parking q g).has l.lane) ≠ []) ∧
    (let q := tOp tLdg 0x40001000 .waiting
     let s := tNoSet (tOut [q] (.verdict 9))
     judgedB s q = true ∧ s.faulted q ≠ [] ∧ (∀ i < 8, ((tGr s).parked.getD i Parked.free).valid = true) ∧ q.entry < (tGr s).splits.length) ∧
    (let q := tOp tLdg 0x40001000 .waiting
     let s := tFqFull (tOut [q] (.verdict 9))
     judgedB s q = true ∧ s.faulted q ≠ [] ∧ (List.range 8).find? (fun i => !((tGr s).parked.getD i Parked.free).valid) = some 0 ∧
      (s.recordLanes q 0 (s.faulted q)).2 = false) := by
  refine ⟨?_, ?_, ?_, ?_⟩ <;> decide +kernel

theorem wit_VerdictsAndParking_replay :
    ∀ refused : Bool,
     let p : Parked := { Parked.free with mask := 1, valid := true, served := true, hdr := 0x10000, refused := refused }
     let s := tSp (fun _ => Split.free) (tW (fun g => { g with parked := g.parked.set 7 p }))
     let g := tGr s
     s.group? tR = some g ∧ g.parked[7]? = some p ∧ p.valid = true ∧ p.served = true ∧ g.phase = .running ∧ p.hdepth = g.depth ∧
      g.freeEntry (if 0 < g.depth then [9] else List.range 8) = some 0 ∧ 0 < g.splits.length := by
  decide +kernel

theorem wit_LandingAndAcknowledgment :
    (let q := tOp tLdg 0x1000 .performed
     let s := { tPend 6 (tOut [q] .none) with mbox := [] }
     let g := tGr s
     let f := tF q.ins
     s.op? 9 = some q ∧ accForm q.ins = some f ∧ f.ctr = 6 ∧ f.destK = false ∧ s.group? q.g = some g ∧
      (g.split q.entry).wait ≠ .verdict 9 ∧ q.lanes.all LaneAcc.isDone = true ∧ q.holds = false ∧ q.lanes ≠ [] ∧
      (q.lanes.map (·.lane)).Nodup ∧ (∀ l ∈ q.lanes, l.lane < 32) ∧ (∀ i < f.destW, s.isMbox g (q.dest + i) = false) ∧
      (g.vreg q.dest).prod.getD 0 0 ≠ 9) ∧
    (let i := Instr.lds ⟨aw, 6, o 324, z, 0, 0, 0, 2, 0⟩
     let q := tOp i 0x100 .accepted
     (tOut [q] .none).placeFor q ⟨0, 0x100, [], [], .accepted, [], none, false⟩ = .chip ∧ q.kind = .load ∧ q.space = .scratch ∧ tS.migrs.length = 0) ∧
    (let q := tOp tStg 0x1000 .performed
     let s := tOut [q] .none
     let g := tGr s
     let f := tF q.ins
     s.op? 9 = some q ∧ accForm q.ins = some f ∧ f.ctr = 5 ∧ s.group? q.g = some g ∧ (g.split q.entry).wait ≠ .verdict 9 ∧
      q.lanes.all LaneAcc.isDone = true ∧ q.holds = false ∧ s.heldByMigr q = false ∧ s.portWrites.all (fun w => w.op ≠ 9) = true) ∧
    (let w : MboxWrite := ⟨4, tR, 319, [(124, 7)], ⟨false, 0, 1, 0⟩, 3⟩
     let s := { tLr (fun r => { r with mbox := 1 }) with mbox := [w] }
     let g := tGr s
     s.mbox.find? (fun w => w.id = 4) = some w ∧ s.group? w.g = some g ∧ s.isMbox g w.reg = true ∧ g.phase = .running ∧
      s.mbox.any (fun x => x.id < 4 && x.g = w.g && x.reg = w.reg && x.src = w.src) = false ∧ s.mboxClear w = true) ∧
    (let w (n : Nat) : MboxWrite := ⟨n, tR, 319, [(124, 7)], ⟨false, 0, 1, 0⟩, 3⟩
     let s := { tLr (fun r => { r with mbox := 1 }) with mbox := [w 3, w 4] }
     s.mbox.find? (fun w => w.id = 4) = some (w 4) ∧
      s.mbox.any (fun x => x.id < 4 && x.g = (w 4).g && x.reg = (w 4).reg && x.src = (w 4).src) = true) := by
  refine ⟨?_, ?_, ?_, ?_, ?_⟩ <;> decide +kernel

/-- Operands at the ends of a word. -/
theorem wit_AtomicFunctions : ∀ b ∈ [0, 0x7FFFFFFF, 0x80000000, 0xFFFFFFFF],
    (tOp (.aadd ⟨aw, 6, o 324, o 8, 0, 3, 0, 2, 0⟩) 0x1000 .accepted (natToBytes 4 b)).size = 4 ∧
    (tOp (.aadd ⟨aw, 6, o 324, o 8, 0, 3, 0, 2, 0⟩) 0x1000 .accepted (natToBytes 4 b)).lanes.map (·.data) =
      [natToBytes 4 (BitVec.ofNat 32 b).toNat] := by
  decide +kernel

theorem quadReplace_mem (s : State) (q : Nat × Nat) (asid a n : Nat) : s.quadReplace q asid a n ∈ [s, s.quadYield q asid a n] := by
  unfold State.quadReplace
  split <;> simp

theorem wit_AtomicPlaces_quad :
    let q := tOp (.aadd ⟨aw, 6, o 324, o 8, 0, 1, 0, 2, 0⟩) 0x1000 .accepted (natToBytes 4 1)
    let s := tOut [q] .none
    let l := q.lanes.headD default
    let s' := s.quadReplace (q.g.die, quadOf q.g.core) q.asid l.addr q.size
    (s.op? 9 = some q ∧ q.lanes.find? (fun l => l.lane = 0) = some l ∧ q.kind ≠ .waita ∧ q.isPair = false ∧ (∀ x ∈ q.lanes, x.fence = none) ∧
      q.ord < 2) ∧ s'.placeFor q l = .quad ∧ s'.mayPerform q l = true := by
  intro q s l s'
  have h : ∀ u ∈ [s, s.quadYield (q.g.die, quadOf q.g.core) q.asid l.addr q.size], u.placeFor q l = .quad ∧ u.mayPerform q l = true := by decide +kernel
  exact ⟨by decide +kernel, h _ (quadReplace_mem ..)⟩

theorem wit_AtomicPlaces :
    (let q := tOp (.aadd ⟨aw, 6, o 324, o 8, 0, 3, 0, 2, 0⟩) 0x1000 .accepted (natToBytes 4 1)
     let s := tOut [q] .none
     let l := q.lanes.headD default
     s.op? 9 = some q ∧ q.lanes.find? (fun l => l.lane = 0) = some l ∧ s.placeFor q l = .home ∧ q.kind ≠ .waita ∧ s.mayPerform q l = true ∧
      q.isPair = false ∧ (∀ x ∈ q.lanes, x.fence = none) ∧ q.ord < 2) ∧
    (let q := tOp (.aadd ⟨aw, 6, o 324, o 8, 0, 5, 0, 2, 0⟩) 0x1000 .accepted (natToBytes 4 1)
     let s := tOut [q] .none
     let l := q.lanes.headD default
     s.op? 9 = some q ∧ q.lanes.find? (fun l => l.lane = 0) = some l ∧ s.placeFor q l = .port ∧ s.mayPerform q l = true) ∧
    (let w : QuadWrite := ⟨3, 0, 0, 0, 0x1000, [1, 2, 3, 4], tR, [0]⟩
     let s := { tM with quadWrites := [w] }
     s.quadWrites.find? (fun w => w.id = 3) = some w ∧
      s.quadWrites.any (fun x => x.id < 3 && x.die = w.die && x.quad = w.quad && x.asid = w.asid &&
        meet x.addr x.bytes.length w.addr w.bytes.length) = false) ∧
    (let i := Instr.ared ⟨aw, 0, o 324, o 8, 0, 3, 0, 2, 0⟩
     let q1 := tOp i 0x1800 .accepted (natToBytes 4 0xFFFFFFFF)
     let q2 := { tOp i 0x1800 .accepted (natToBytes 4 2) with id := 10 }
     let s := tOut [q1, q2] .none
     let l1 := q1.lanes.headD default
     let l2 := q2.lanes.headD default
     s.op? 9 = some q1 ∧ s.op? 10 = some q2 ∧ q1.lanes.find? (fun l => l.lane = 0) = some l1 ∧ q2.lanes.find? (fun l => l.lane = 0) = some l2 ∧
      q1.size = 4 ∧ l1.status = .accepted ∧ l2.status = .accepted ∧ s.placeFor q1 l1 = .home ∧ s.placeFor q2 l2 = .home ∧
      (s.gatewayOf q1 l1).isSome = true ∧ s.gatewayOf q2 l2 = s.gatewayOf q1 l1 ∧ q1.releases l1 = false ∧ q2.releases l2 = false ∧ q1.g.die = q2.g.die ∧ q1.asid = q2.asid ∧
      l1.addr = l2.addr ∧ ∀ q ∈ s.ops, ∀ l ∈ q.lanes, (9, 0) ∉ l.joined ∧ (10, 0) ∉ l.joined) ∧
    (let i := Instr.gthr ⟨aw, 6, o 324, o 8, 0, 0, 0, 2, 0⟩
     let q := tOp i 0x1000 .accepted
     let s := tOut [q] .none (tM 0x33)
     let l := q.lanes.headD default
     let x : Xl := ⟨0, 0x1000, 0x33, 2, 0, 0x1000⟩
     s.op? 9 = some q ∧ q.lanes = [l] ∧ q.kind = .gather ∧ l.fence = none ∧ s.placeFor q l = .stack ∧ s.mayPerform q l = true ∧ (∀ g ∈ s.group? q.g, s.pisteOf g = false) ∧
      s.xlate q.g.die q.asid l.addr = .ok x ∧ s.stackOf q.g.die x.pa < 8) ∧
    (let q := tOp tLdg 0x1000 .accepted
     let ln : Line := { (default : Line) with line := 0x20, clean := (List.range 16).map (fun i => (i, 5)), ro := true }
     let s := { tOut [q] .none with l1d := [(⟨false, 0, 1⟩, [ln])], roFilter := [(tR.coreRef, [(0, 0)])] }
     let l := q.lanes.headD default
     s.op? 9 = some q ∧ q.lanes.find? (fun l => l.lane = 0 && l.status = .accepted) = some l ∧ q.g.home = false ∧
      s.lastPeer.get? q.g.coreRef = none ∧ findLine (s.l1Lines { q.g.coreRef with core := q.g.core ^^^ 1 }) q.asid l.addr = some ln ∧
      ln.poison = [] ∧ ln.ro = true ∧ s.mayPerform q l = true ∧ s.l1Holds { q.g.coreRef with core := q.g.core ^^^ 1 } q.asid l.addr q.size = true ∧ (s.roFilter.getD q.g.coreRef []).contains (q.asid, l.addr / 2 ^ 16) = true ∧ q.kind = .load ∧ s.placeFor q l = .cache ∧
      s.l1Holds q.g.coreRef q.asid l.addr q.size = false ∧ (s.policyAt q l.addr).alloc = true ∧ (s.policyAt q l.addr).last = false) := by
  refine ⟨?_, ?_, ?_, ?_, ?_, ?_⟩ <;> decide +kernel

theorem wit_WaitsAndSpills :
    (let q := tOp (.waita ⟨aw, 6, o 324, o 8, 0, 3, 1, 2, 0⟩) 0x1000 .accepted (natToBytes 4 0)
     let s := tOut [q] .reply
     let g := tGr s
     s.op? 9 = some q ∧ s.group? q.g = some g ∧ q.kind = .waita ∧ (g.split q.entry).wait = .reply ∧ q.ord % 2 = 0 ∧
      (∀ l ∈ q.lanes, l.status = .accepted ∧ s.lanePoison q l = none ∧ l.lane < 32) ∧ (q.lanes.map (·.lane)).Nodup ∧ q.size = 4 ∧
      ({ q with met := true } : MemOp).met = true) ∧
    (let used : List (Nat × VReg) := (List.range 320).map (fun n => (n, { VReg.unmapped with mapped := true }))
     let g : Group := { tG with vregs := used, splits := [{ Split.free with mask := Mask.all, state := .blocked, wait := .phys 1 }] }
     let box : List (Nat × VReg) := used.take 64
     let s : State := { tS with groups := g :: (List.range 11).map (fun n =>
       { tG with ref := ⟨false, 0, 0, n + 1⟩, phase := .placed, vregs := box }) }
     s.groups.filter (fun g => g.ref.coreRef = tR.coreRef && partOf g.ref = 0 && g.phase = .running) = [g] ∧ s.group? g.ref = some g ∧
      (g.split 0).state = .blocked ∧ (g.split 0).wait = .phys 1 ∧ 0 < g.splits.length ∧ physTotal tR.coreRef < s.physUsed tR.coreRef 0 + 1 ∧ s.bringsTo g.ref 319 = false ∧
      (g.vreg 319).mapped = true ∧ (g.vreg 319).spilled = false ∧ (g.vreg 319).pending = 0 ∧ s.isMbox g 319 = false) ∧
    (let g : Group := { tG with vregs := [(5, { VReg.unmapped with mapped := true, spilled := true })],
                                splits := [{ Split.free with mask := Mask.all, state := .blocked, wait := .reload 5 }] }
     let s : State := { tM with groups := [g] }
     s.group? tR = some g ∧ (g.split 0).state = .blocked ∧ (g.split 0).wait = .reload 5 ∧ 0 < g.splits.length ∧ (g.vreg 5).spilled = true ∧
      s.physUsed tR.coreRef (partOf tR) < physTotal tR.coreRef) := by
  refine ⟨?_, ?_, ?_⟩ <;> decide +kernel

/-! ### Witnesses: the matrix engine -/

/-- TZRO.acc of accumulator block 0. -/
def tZero : OpT := ⟨aw, 0, 0, 0, false, 0, 0, 1, 0⟩
/-- A launch with accumulator storage. -/
def tAccS (s : State := tS) : State := tLr (fun r => { r with accb := 8, tiles := 16 }) s
/-- A matrix operation of the group, number 9. -/
def tMat (i : Instr) : MatOp := { (default : MatOp) with id := 9, g := tR, ins := i, lid := 1, mask := Mask.all, batch := 1 }
/-- The engine with these operations accepted. -/
def tEng (a : List MatOp) (s : State := tAccS) : State := { s with mats := [(tR.coreRef, { (default : MatEng) with accepted := a })] }

theorem wit_MatrixIssue :
    (let i := Instr.tzroAcc tZero
     Wit tAccS aw (matRds i) (matDsts i) (fun c => tileOf i = some tZero ∧ matOwn i c ∧ c.g.ctr.mat < 65535 ∧ c.s0.wldHeld (c.matIssued i tZero) = false ∧
      c.sp.mask ≠ 0 ∧ c.s0.matCheck (c.matIssued i tZero) (c.s0.recOf c.g) = none ∧
      c.s0.sourcesDone c.r false (c.matIssued i tZero).farRanges c.s0.nextId = true)) ∧
    (let i := Instr.tzroAcc tZero
     Wit tS aw (matRds i) (matDsts i) (fun c => tileOf i = some tZero ∧ matOwn i c ∧ c.g.ctr.mat < 65535 ∧ c.sp.mask ≠ 0 ∧
      (c.s0.matCheck (c.matIssued i tZero) (c.s0.recOf c.g)).isSome = true)) ∧
    (let i := Instr.mmag tZero
     Wit (tW (fun g => { g with sp := { g.sp with gang := 0x4000000000000000 } }) tAccS) aw (matRds i) (matDsts i) (fun c =>
      tileOf i = some tZero ∧ matOwn i c ∧ c.s0.wldHeld (c.matIssued i tZero) = false)) ∧
    (let i := Instr.mfct tZero
     Wit tAccS aw (matRds i) (matDsts i) (fun c => tileOf i = some tZero ∧ matOwn i c)) ∧
    (let i := Instr.tscl tZero
     Wit tAccS aw (matRds i) (matDsts i) (fun c => tileOf i = some tZero ∧ matOwn i c)) := by
  refine ⟨wit_of (by decide +kernel) ⟨by decide +kernel, trivial, by decide +kernel⟩,
    wit_of (by decide +kernel) ⟨by decide +kernel, trivial, by decide +kernel⟩,
    wit_of (by decide +kernel) ⟨by decide +kernel, ?_, by decide +kernel⟩,
    wit_of (by decide +kernel) ⟨by decide +kernel, ?_⟩, wit_of (by decide +kernel) ⟨by decide +kernel, ?_⟩⟩ <;>
    (simp only [matOwn]; decide +kernel)

/-- GANG of the columns 0 and 1. -/
def tTwo : DWord := 0x98
/-- The group at core 1 that joins it. -/
def tG1 : Group := Group.fresh ⟨false, 0, 1, 0⟩ .ordinary .running tL 1 0 0x10000 [] 0

theorem wit_MatrixSync :
    WitA tS [] [] (fun _ => True) ∧
    WitA (tK 4 0) (srcRds (o 324)) [] (fun c => badGang (c.k 4) c.r.core = true) ∧
    WitA (tK 4 tTwo (tW (fun g => { g with sp := { g.sp with gang := 0x4000000000000000 } }))) (srcRds (o 324)) [] (fun c =>
      badGang (c.k 4) c.r.core = false ∧ gangSize c.g.sp.gang ≠ 0) ∧
    WitA (tK 4 tTwo) (srcRds (o 324)) [] (fun c => badGang (c.k 4) c.r.core = false ∧ gangSize c.g.sp.gang = 0 ∧
      c.s0.ringBusy c.r.coreRef = false ∧ (c.g.kreg 5).full = true ∧ c.e < c.g.splits.length) ∧
    WitA tS [] [] (fun c => gangSize c.g.sp.gang = 0) ∧
    WitA (tW (fun g => { g with sp := { g.sp with gang := 0x4000000000000000 } })) [] [] (fun c => gangSize c.g.sp.gang ≠ 0 ∧
      (c.g.kreg 5).full = true ∧ c.e < c.g.splits.length) ∧
    (let w0 : GangWait := ⟨⟨tR, 0, 4, 9⟩, 0x98, false⟩
     let w1 : GangWait := ⟨⟨⟨false, 0, 1, 0⟩, 0, 4, 10⟩, 0x98, false⟩
     let at' (g : Group) (n : Nat) : Group :=
       { g with kregs := g.kregs.set 4 ⟨0, false, n⟩, splits := g.splits.modify 0 (fun sp => { sp with state := .blocked, wait := .reply, prog := some n }) }
     let s : State := { tS with groups := [at' tG 9, at' tG1 10], gangs := [w0, w1] }
     s.gangs.find? (fun w => w.g.coreRef = tR.coreRef) = some w0 ∧ ((at' tG 9).split 0).awaits 9 = true ∧ ((at' tG1 10).split 0).awaits 10 = true ∧ s.group? w0.g = some (at' tG 9) ∧ w0.dis = false ∧
      ((at' tG 9).kreg w0.kd).prod = w0.id ∧ ((at' tG 9).split 0).state = .blocked ∧ ((at' tG 9).split 0).wait = .reply ∧ ([w0, w1].map (·.g)).Nodup ∧
      (gangCores tR.coreRef w0.list).map (fun k => s.gangs.find? (fun x => x.g.coreRef = k && !x.dis && x.list = w0.list &&
        (match s.group? x.g with | some y => y.lid == tG.lid | none => false))) = [w0, w1].map some) := by
  refine ⟨?_, ?_, ?_, ?_, ?_, ?_, ?_⟩
  all_goals first | exact wit_of (by decide +kernel) (by decide +kernel) | decide +kernel

theorem wit_MatrixSteps :
    (let q := { tMat (.tzroAcc tZero) with p := 3 }
     let s := { tAccS with mats := [(tR.coreRef, { (default : MatEng) with waiting := [q] })] }
     (∀ j < 2, (s.mat tR.coreRef).waiting.find? (fun o => o.p = ((s.mat tR.coreRef).lastPart + 1 + j) % 4) = none) ∧
      (s.mat tR.coreRef).waiting.find? (fun o => o.p = ((s.mat tR.coreRef).lastPart + 1 + 2) % 4) = some q) ∧
    (let q := tMat (.tzroAcc tZero)
     let s := tEng [q]
     (s.mat tR.coreRef).accepted = [q] ∧ q.g.coreRef = tR.coreRef ∧ q.cancelled = false ∧ s.matAsks tR.coreRef q = false ∧
      (∀ g ∈ s.group? q.g, g.isRunning = true) ∧ q.todo = none ∧ isMmag q.ins = false ∧
      s.chipReady q = true ∧
      s.matWaits q = false ∧ s.matFault q = none ∧ s.matPoison q = false ∧ s.matLive q = true ∧ (s.group? q.g).isSome = true ∧
      Memory.wf s.hbm = true ∧ Memory.wf s.onchip = true) ∧
    (let w : SecWrite := ⟨true, 0x20, [(0x200, 7)]⟩
     let q := { tMat (.tzroAcc tZero) with todo := some [w] }
     let s := tEng [q]
     (s.mat tR.coreRef).accepted = [q] ∧ q.cancelled = false ∧ s.matAsks tR.coreRef q = false ∧ s.matFault q = none ∧ s.matLive q = true ∧ w.chip = true ∧
      ([w].flatMap (fun w => w.cells.map (·.1))).Nodup ∧ (s.group? q.g).isSome = true) ∧
    (let q := { tMat (.ald ⟨aw, 0, 0, 0, false, 0, 0, 0x100, 0⟩) with base := 0x1000, stride := 64 }
     let s := { tEng [q] (tM 0x13 tAccS) with poison := [0x1000] }
     (s.mat tR.coreRef).accepted = [q] ∧ q.cancelled = false ∧ s.matAsks tR.coreRef q = false ∧ q.todo = none ∧ s.matFault q = none ∧ s.matPoison q = true ∧ (s.group? q.g).isSome = true) ∧
    (let gang : DWord := 0x4000000000000008
     let g0 := { tG with sp := { tG.sp with gang := gang } }
     let g1 := { tG1 with sp := { tG1.sp with gang := 0x4400000000000008 } }
     let q0 := tMat (.mmag tZero)
     let q1 := { tMat (.mmag tZero) with id := 10, g := tG1.ref }
     let s : State := { tEng [q0] with groups := [g0, g1], mats := [(tR.coreRef, { (default : MatEng) with accepted := [q0] }), (tG1.ref.coreRef, { (default : MatEng) with accepted := [q1] })] }
     s.group? q0.g = some g0 ∧ isMmag q0.ins = true ∧ s.gangMembers g0 ≠ [] ∧ (∀ r ∈ s.gangMembers g0, (s.atLift r).isSome = true) ∧
      (∀ x ∈ (s.gangMembers g0).filterMap s.atLift, x.gseq = q0.gseq) ∧ (∀ x ∈ (s.gangMembers g0).filterMap s.atLift, x.liftKey = q0.liftKey) ∧
      (∀ x ∈ (s.gangMembers g0).filterMap s.atLift, s.chipReady x = true) ∧ s.matWaits q0 = false ∧ ((s.gangMembers g0).filterMap s.atLift).find? (fun x =>
        (match s.group? x.g with | some y => bits y.sp.gang.toNat 60 58 | none => 0) = 0) = some q0) ∧
    (let gang : DWord := 0x4000000000000008
     let g0 := { tG with sp := { tG.sp with gang := gang } }
     let g1 := { tG1 with sp := { tG1.sp with gang := 0x4400000000000008 } }
     let q0 := tMat (.mmag tZero)
     let q1 := { tMat (.mmag tZero) with id := 10, g := tG1.ref, va := 0xFFFFFFFFFFFF }
     let s : State := { tEng [q0] with groups := [g0, g1], mats := [(tR.coreRef, { (default : MatEng) with accepted := [q0] }), (tG1.ref.coreRef, { (default : MatEng) with accepted := [q1] })] }
     (∀ r ∈ s.gangMembers g0, (s.atLift r).isSome = true) ∧ (∀ x ∈ (s.gangMembers g0).filterMap s.atLift, x.gseq = q0.gseq) ∧
      ∃ x ∈ (s.gangMembers g0).filterMap s.atLift, x.liftKey ≠ q0.liftKey) := by
  refine ⟨?_, ?_, ?_, ?_, ?_, ?_⟩ <;> decide +kernel

/-! ### Witnesses: the copy engine -/

/-- A layout of 128 words in a row. -/
def tLay : Layout := { (default : Layout) with esz := 2, br := 1, bc := 128, orr := 1, oc := 1, wf := true }
/-- A bound entry of the block: two chunks between the scratchpad and far memory. -/
def tRg : Region := { (default : Region) with state := .absent, lid := 1, far := 0x1000, handle := 1, len := 1024, layout := { tLay with orr := 2 } }
/-- The machine with region entry 3, and context 0 of die 0 owned by the launch. -/
def tReg (f : Region → Region) (s : State := tM) : State :=
  { s with regions := [((tR.coreRef, 3), f tRg)], ctxs := [((0, 0), ⟨some 1, 1, some tLay⟩)] }
/-- The transfer of its chunks. -/
def tXf (todo flight : List Nat) : Transfer := ⟨some tR, 1, 5, todo, flight, []⟩

theorem wit_CopyFenceAndStatus :
    WitA tS [] [] (fun c => (c.s0.region (c.r.coreRef, 63)).state = .free) ∧
    WitA (tReg id) [] [] (fun c => (c.s0.region (c.r.coreRef, 3)).state ≠ .free ∧ (c.s0.region (c.r.coreRef, 3)).lid = c.g.lid ∧
      (c.s0.region (c.r.coreRef, 3)).blk = c.g.blk) ∧
    WitA (tReg (fun r => { r with blk := 1 })) [] [] (fun c => ¬((c.s0.region (c.r.coreRef, 3)).state = .free ∨
      ((c.s0.region (c.r.coreRef, 3)).lid = c.g.lid ∧ (c.s0.region (c.r.coreRef, 3)).blk = c.g.blk))) ∧
    WitA (tK 4 1 (tReg id)) (srcRds (o 324)) [] (fun c => (c.k 4).toNat % 2 ^ 8 = (c.s0.copyCtx (c.r.die, 0)).gen) := by
  repeat' apply And.intro
  all_goals exact wit_of (by decide +kernel) (by decide +kernel)

/-- `State.Unawaited` as a check. -/
def tUna (s : State) (k : CoreRef × Nat) : Bool :=
  s.groups.all (fun g => g.ref.coreRef != k.1 || g.splits.all (fun sp => match sp.wait with | .chunks n _ _ => n != k.2 | _ => true))

theorem unawaited_of {s : State} {k : CoreRef × Nat} (h : tUna s k = true) : s.Unawaited k := by
  intro g hg hk sp hsp i ka hw
  simp only [tUna, List.all_eq_true, Bool.or_eq_true, bne_iff_ne] at h
  rcases h g hg with h | h
  · exact h hk
  · have := h sp hsp
    rw [hw] at this
    simp at this

/-- `State.NoneHeldAt` as a check. -/
def tNoHeld (s : State) (n : Nat) : Bool := s.groups.all (fun g => g.splits.all (fun sp => decide (sp.phaPosts n = none)))

theorem noneHeld_of {s : State} {n : Nat} (h : tNoHeld s n = true) : s.NoneHeldAt n := by
  intro g hg sp hsp
  simp only [tNoHeld, List.all_eq_true, decide_eq_true_eq] at h
  exact h g hg sp hsp

/-- The first n contexts of die 0 are owned. -/
def tOwned (n : Nat) : State := { tS with ctxs := ((List.range n).map (fun i => (0, i))).map (fun k => (k, ⟨some 1, 1, none⟩)) }

theorem owned (n j : Nat) (h : j < n) : ((tOwned n).copyCtx (0, j)).owner ≠ none := by
  have : (tOwned n).copyCtx (0, j) = ⟨some 1, 1, none⟩ :=
    getD_const ((List.range n).map (fun i => ((0 : Nat), i))) (⟨some 1, 1, none⟩ : CopyCtx) ⟨none, 1, none⟩ (0, j) (by simp [h])
  simp [this]

theorem wit_CopyContexts :
    WitA (tOwned 256) [] [] (fun c => ∀ n < 256, (c.s0.copyCtx (c.r.die, n)).owner ≠ none) ∧
    WitA (tOwned 255) [] [] (fun c => (c.s0.copyCtx (c.r.die, 255)).owner = none ∧ ∀ j < 255, (c.s0.copyCtx (c.r.die, j)).owner ≠ none) ∧
    WitA (tK 4 2 (tReg id)) (srcRds (o 324)) [] (fun c => (c.k 4).toNat % 2 ^ 8 ≠ (c.s0.copyCtx (c.r.die, 0)).gen) ∧
    WitA (tUser { tK 4 1 (tReg id) with ctxs := [((0, 0), ⟨some 2, 1, none⟩)] }) (srcRds (o 324)) [] (fun c =>
      (c.k 4).toNat % 2 ^ 8 = (c.s0.copyCtx (c.r.die, 0)).gen ∧ (c.s0.copyCtx (c.r.die, 0)).owner ≠ some c.g.lid ∧ c.s0.privileged c.g = false) ∧
    WitA (tUser (tK 4 1 (tReg id))) (srcRds (o 324)) [] (fun c => (c.k 4).toNat % 2 ^ 8 = (c.s0.copyCtx (c.r.die, 0)).gen ∧
      (c.s0.copyCtx (c.r.die, 0)).owner = some c.g.lid ∧ (c.s0.region (c.r.coreRef, 3)).handle = (c.k 4).toNat ∧
      (c.s0.regions.map (·.1)).Nodup ∧ ∀ y ∈ c.s0.regions, tUna c.s0 y.1 = true) ∧
    WitA (tK 4 2 (tReg id)) (kRds (o 324) 2) [] (fun c => (c.s0.handleTrap c.g (c.k 4).toNat).isSome = true) ∧
    WitA (tK 4 1 (tK 5 0x300010 (tReg id))) (kRds (o 324) 2) [] (fun c => c.s0.handleTrap c.g (c.k 4).toNat = none ∧ (c.k 5).toNat % 32 ≠ 0) ∧
    WitA (tK 4 1 (tK 5 0x300000 (tReg id))) (kRds (o 324) 2) [] (fun c => c.s0.handleTrap c.g (c.k 4).toNat = none ∧ (c.k 5).toNat % 32 = 0 ∧
      globalVa (c.k 5).toNat = true ∧ c.s0.engineFault c.r.coreRef (c.s0.asidOf c.g) (c.k 5).toNat 32 false = none ∧
      (let u := c.s0.releaseAt c.r.coreRef (c.s0.asidOf c.g) 2 (some [((c.k 5).toNat, 32)])
       (layoutOf (u.homeRead64 0 0 0x300000).toNat (u.homeRead64 0 0 0x300008).toNat (u.homeRead64 0 0 0x300010).toNat
        (u.homeRead64 0 0 0x300018).toNat).wf = false)) ∧
    WitA { tK 4 1 (tK 5 0x300000 (tReg id)) with hbm := tM.hbm ++
        [(0x300006, 8), (0x300007, 1), (0x300008, 1), (0x30000A, 1), (0x30000C, 1), (0x30000E, 1)] } (kRds (o 324) 2) [] (fun c =>
      c.s0.handleTrap c.g (c.k 4).toNat = none ∧ c.s0.engineFault c.r.coreRef (c.s0.asidOf c.g) (c.k 5).toNat 32 false = none ∧
      (let u := c.s0.releaseAt c.r.coreRef (c.s0.asidOf c.g) 2 (some [((c.k 5).toNat, 32)])
       (layoutOf (u.homeRead64 0 0 0x300000).toNat (u.homeRead64 0 0 0x300008).toNat (u.homeRead64 0 0 0x300010).toNat
        (u.homeRead64 0 0 0x300018).toNat).wf = true)) ∧
    WitA (tK 5 0x0002000000000000 (tReg id)) (kRds (o 324) 4) [] (fun c => (c.s0.handleTrap c.g (bits (c.k 5).toNat 63 48)).isSome = true) ∧
    WitA (tK 5 0x0001000000000000 (tReg id)) (kRds (o 324) 4) [] (fun c => c.s0.handleTrap c.g (bits (c.k 5).toNat 63 48) = none ∧
      (c.s0.region (c.r.coreRef, 3)).state ≠ .free ∧ (c.s0.region (c.r.coreRef, 0)).state = .free ∧
      badEntry (c.s0.recOf c.g) (c.s0.copyCtx (c.r.die, 0)).layout (c.k 4).toNat (c.k 5).toNat (c.k 6).toNat (c.k 7).toNat = true) ∧
    WitA (tK 4 0x1000 (tK 5 0x0001000000000200 (tK 6 512 (tReg id)))) (kRds (o 324) 4) [] (fun c =>
      c.s0.handleTrap c.g (bits (c.k 5).toNat 63 48) = none ∧ (c.s0.region (c.r.coreRef, 0)).state = .free ∧
      badEntry (c.s0.recOf c.g) (c.s0.copyCtx (c.r.die, 0)).layout (c.k 4).toNat (c.k 5).toNat (c.k 6).toNat (c.k 7).toNat = false ∧
      ∃ x ∈ c.s0.regions, x.1.1 = c.r.coreRef ∧ x.2.state ≠ .free ∧ x.2.lid = c.g.lid ∧ x.2.blk = c.g.blk ∧
        meet x.2.woff x.2.len (bits (c.k 5).toNat 31 0) (bits (c.k 6).toNat 31 0) = true) ∧
    WitA (tK 4 0x1000 (tK 5 0x0001000000000400 (tK 6 512 (tReg id)))) (kRds (o 324) 4) [] (fun c =>
      badEntry (c.s0.recOf c.g) (c.s0.copyCtx (c.r.die, 0)).layout (c.k 4).toNat (c.k 5).toNat (c.k 6).toNat (c.k 7).toNat = false ∧
      c.badMode (((c.s0.copyCtx (c.r.die, 0)).layout.map (·.conv)).getD 0) = false ∧
      ¬∃ x ∈ c.s0.regions, x.1.1 = c.r.coreRef ∧ x.2.state ≠ .free ∧ x.2.lid = c.g.lid ∧ x.2.blk = c.g.blk ∧
        meet x.2.woff x.2.len (bits (c.k 5).toNat 31 0) (bits (c.k 6).toNat 31 0) = true) ∧
    WitA (tK 4 0xC000000000000000 (tK 5 0x0001000000000400 (tK 6 0x10000 (tLr (fun r => { r with scratch := 0x10400 }) (tReg id))))) (kRds (o 324) 4) []
      (fun c => (c.k 4).toNat.testBit 63 = true ∧ badEntry (c.s0.recOf c.g) (c.s0.copyCtx (c.r.die, 0)).layout (c.k 4).toNat (c.k 5).toNat
        (c.k 6).toNat (c.k 7).toNat = false) := by
  refine ⟨wit_of (by decide +kernel) (fun n h => owned 256 n h), wit_of (by decide +kernel) ⟨by decide +kernel, fun n h => owned 255 n h⟩, ?_⟩
  repeat' apply And.intro
  all_goals exact wit_of (by decide +kernel) (by decide +kernel)

/-- The entry is the block's own, with the properties. -/
abbrev tRgn (r : Region) (P : Region → Ctx → Prop) : Prop :=
  WitA (tReg (fun _ => r)) [] [] (fun c => c.s0.region (c.r.coreRef, 3) = r ∧ r.lid = c.g.lid ∧ r.blk = c.g.blk ∧ c.g.ctr.copy < 65535 ∧
    c.s0.groupDrained c.r = true ∧ tUna c.s0 (c.r.coreRef, 3) = true ∧ P r c)

theorem wit_CopyWindows :
    WitA tS [] [] (fun c => (c.s0.region (c.r.coreRef, 3)).state = .free) ∧
    tRgn { tRg with state := .flushing } (fun r _ => r.state = .flushing) ∧
    tRgn { tRg with state := .present, dir := 1, out := some (tXf [] [0]) } (fun r _ => r.state = .present ∧ r.out.isSome = true) ∧
    tRgn { tRg with state := .revoked } (fun r _ => r.state = .revoked ∧ r.fill = none ∧ r.out = none) ∧
    tRgn tRg (fun r c => r.state = .absent ∧ r.fill = none ∧ r.out = none ∧ r.waiting = [] ∧ r.dir ≠ 1 ∧ c.badMode r.layout.conv = false ∧
      c.s0.sourcesDone c.r r.fark [(r.far, r.layout.span)] c.s0.nextId = true) ∧
    tRgn { tRg with state := .present } (fun r _ => r.state = .present ∧ r.dir = 0 ∧ r.out = none) ∧
    tRgn { tRg with state := .present, dir := 2 } (fun r _ => r.state = .present ∧ r.dir ≠ 0 ∧ r.out = none) ∧
    tRgn { tRg with state := .filling, fill := some (tXf [1] [0]) } (fun r _ => ∃ k ∈ (tXf [1] [0]).flight, k ∉ (tXf [1] [0]).todo ∧ r.out = none ∧
      r.unbind = false ∧ r.dir ≠ 2 ∧ r.waiting = []) ∧
    tRgn { tRg with state := .present, dir := 1 } (fun r _ => r.state ≠ .free ∧ r.state ≠ .revoked ∧ r.dir = 1) ∧
    tRgn { tRg with state := .present, fark := true } (fun r _ => r.dir ≠ 1 ∧ r.fark = true) ∧
    WitA (tK 4 3 (tReg (fun r => { r with arrived := 3, state := .present }))) (srcRds (o 324)) [] (fun c =>
      (c.s0.region (c.r.coreRef, 3)).state ≠ .free ∧ (c.s0.region (c.r.coreRef, 3)).arrived.extractLsb' 0 64 &&& c.k 4 = c.k 4) ∧
    WitA (tK 4 3 (tReg (fun r => { r with arrived := 1, state := .filling }))) (srcRds (o 324)) [] (fun c =>
      (c.s0.region (c.r.coreRef, 3)).aborted.extractLsb' 0 64 &&& c.k 4 = 0 ∧ (c.s0.region (c.r.coreRef, 3)).arrived.extractLsb' 0 64 &&& c.k 4 ≠ c.k 4) ∧
    WitA (tK 4 3 (tReg (fun r => { r with aborted := 2, state := .revoked }))) (srcRds (o 324)) [] (fun c =>
      (c.s0.region (c.r.coreRef, 3)).aborted.extractLsb' 0 64 &&& c.k 4 ≠ 0) ∧
    WitA (tK 4 0x8000000000000000 (tReg (fun r => { r with arrived := 0x80000000000000000000000000000000, state := .filling }))) (srcRds (o 324)) []
      (fun c => (c.s0.region (c.r.coreRef, 3)).arrived.extractLsb' 64 64 &&& c.k 4 = c.k 4) := by
  repeat' apply And.intro
  all_goals exact wit_of (by decide +kernel) (by decide +kernel)

theorem wit_CopyChunks :
    (let r := { tRg with state := .filling, fill := some (tXf [0, 1] []) }
     let s := tReg (fun _ => r)
     s.region (tR.coreRef, 3) = r ∧ s.inFlight 0 r.handle < 16) ∧
    (let r := { tRg with state := .present, dir := 1, out := some (tXf [0, 1] []) }
     let s := tReg (fun _ => r)
     s.region (tR.coreRef, 3) = r ∧ s.inFlight 0 r.handle < 16 ∧ r.fill = none) ∧
    (let r := { tRg with state := .filling, len := 65536, fill := some (tXf [16] (List.range 16)) }
     let s := tReg (fun _ => r)
     16 ≤ s.inFlight 0 (s.region (tR.coreRef, 3)).handle) ∧
    (let r := { tRg with state := .filling, fill := some (tXf [16] []) }
     let s := { tReg (fun _ => r) with regions := [((tR.coreRef, 3), { r with handle := 2 }),
       ((tR.coreRef, 4), { tRg with state := .revoked, fill := some (tXf [] (List.range 16)) })] }
     16 ≤ s.inFlight 0 (s.region (tR.coreRef, 3)).handle ∧ (s.region (tR.coreRef, 4)).handle ≠ (s.region (tR.coreRef, 3)).handle) ∧
    (let r := { tRg with state := .present, dir := 2, fark := true, far := 0x8000, phen := true, phb := 31, out := some (tXf [] [1]) }
     let s := tReg (fun _ => r)
     s.farLegal r 1 = true ∧ s.chunkFault tR.coreRef r 1 true = none ∧ tNoHeld s 31 = true ∧ s.chunkTurn ⟨tR.coreRef, 3, 1, true⟩ = true ∧
      s.chunkReady tR.coreRef r (tXf [] [1]) 1 = true ∧ s.chunkHeld tR.coreRef r 1 = false ∧
      (∀ lb ∈ s.ocOwner (r.far + 512 * 1), s.phaseRoom lb.1 lb.2 r.phb = true)) ∧
    (let r := { tRg with state := .filling, phen := true, phb := 31, fill := some (tXf [] [1]) }
     let s := tReg (fun _ => r)
     s.chunkTurn ⟨tR.coreRef, 3, 1, false⟩ = true ∧ s.farLegal r 1 = true ∧ s.chunkPoison tR.coreRef r 1 = false ∧ s.phaseRoom r.lid r.blk r.phb = true ∧ tNoHeld s 31 = true ∧ tUna s (tR.coreRef, 3) = true ∧ s.chunkFault tR.coreRef r 1 false = none ∧
      (∀ w ∈ r.waiting, w.chunk ≠ 1) ∧ r.unbind = false ∧ Memory.wf s.hbm = true ∧ Memory.wf s.onchip = true ∧ r.layout.ebytes ∈ [1, 2, 4] ∧
      (s.block? r.lid r.blk).isSome = true) ∧
    (let r := { tRg with state := .filling, fark := true, far := 0x8000, fill := some (tXf [] [1]) }
     let s := tReg (fun _ => r)
     s.farLegal r 1 = true ∧ s.chunkPoison tR.coreRef r 1 = false ∧ s.chunkFault tR.coreRef r 1 false = none) ∧
    (let r := { tRg with state := .present, dir := 2, out := some (tXf [] [1]) }
     let s := tReg (fun _ => r)
     s.farLegal r 1 = true ∧ s.chunkFault tR.coreRef r 1 true = none ∧ r.fill = none ∧ r.unbind = false ∧
      s.chunkTurn ⟨tR.coreRef, 3, 1, true⟩ = true ∧ s.chunkReady tR.coreRef r (tXf [] [1]) 1 = true ∧ s.chunkHeld tR.coreRef r 1 = false) ∧
    (let r := { tRg with state := .present, dir := 2, fark := true, far := 0x20000E00, len := 512, out := some (tXf [] [0]) }
     let s := tLr (fun r => { r with mbox := 4 }) (tReg (fun _ => r))
     s.farLegal r 0 = true ∧ s.chunkFault tR.coreRef r 0 true = none ∧ bits r.far 29 28 = 2 ∧ s.chunkTurn ⟨tR.coreRef, 3, 0, true⟩ = true ∧
      s.chunkReady tR.coreRef r (tXf [] [0]) 0 = true ∧ s.chunkHeld tR.coreRef r 0 = false) ∧
    (let r := { tRg with state := .filling, fark := true, far := 0x40008000, fill := some (tXf [] [1]) }
     (tReg (fun _ => r)).farLegal r 1 = false ∧ r.waiting = [] ∧ tUna (tReg (fun _ => r)) (tR.coreRef, 3) = true) ∧
    (let r := { tRg with state := .filling, fill := some (tXf [] [1]) }
     let s := { tReg (fun _ => r) with poison := [0x1000] }
     s.farLegal r 1 = true ∧ s.chunkPoison tR.coreRef r 1 = true ∧ r.unbind = false ∧ r.waiting = []) := by
  refine ⟨?_, ?_, ?_, ?_, ?_, ?_, ?_, ?_, ?_, ?_, ?_⟩ <;> decide +kernel

/-! ### Witnesses: the barrier and ticket unit -/

theorem atSync_of {c : Ctx} (h : (!c.g.isPack && !c.g.isResponder && !c.g.inHandler c.e && c.g.allReached c.e && c.s0.groupDrained c.r) = true) :
    AtSync c := by
  simp only [Bool.and_eq_true, Bool.not_eq_true'] at h
  exact ⟨h.1.1.1.1, h.1.1.1.2, h.1.1.2, h.1.2, h.2⟩

/-- BAR.block 0, and BAR of a level that no launch has. -/
def tBar : OpS := ⟨aw, 0, z, 0, 0, 0⟩
def tBad : OpS := ⟨aw, 0, z, 0xA000, 0, 0⟩
/-- BAR.die 15 in a piste launch inside a task: the level of its span ends a merge epoch. -/
def tTask (s : State := tS) : State :=
  tLr (fun r => { r with piste := true, persist := true }) { s with blocks := [{ tB with task := some 0 }] }
/-- Barrier 0 of the block has completed n phases. -/
def tBars (n : Word) (s : State := tS) : State := { s with bars := [⟨1, 0, 0, 0, n, []⟩] }
/-- A split that stands at BAR.block 0 or another word, with what it waits for. -/
def tWaits (w : DWord) (p : Nat) (s : State := tS) : State :=
  tSp (fun sp => { sp with state := .blocked, wait := .retest, prog := some p, clause := some ⟨0, [w]⟩, started := true }) s

theorem wit_HardwareBarriers :
    WitA tS [] [] (fun c => c.g.isPack = false ∧ barLegal (c.s0.recOf c.g) (barLevel tBad) (barId tBad) = false) ∧
    WitA tTask [] [] (fun c => c.g.isPack = false ∧ (let q : OpS := ⟨aw, 0, z, 0x400F, 0, 0⟩
      barLegal (c.s0.recOf c.g) (barLevel q) (barId q) = true ∧ (c.s0.recOf c.g).piste = true ∧ barLevel q = spanLevel (c.s0.recOf c.g) ∧
        (c.s0.blockOf c.g).elim false (fun b => b.task.isSome) = true)) ∧
    WitA tS [] [] (fun c => AtSync c ∧ c.g.isPack = false ∧ barLegal (c.s0.recOf c.g) (barLevel tBar) (barId tBar) = true ∧ (c.s0.recOf c.g).piste = false ∧
      c.sp.prog = none ∧ c.sp.state = .ready ∧ c.e < 8 ∧ 8 ≤ c.g.splits.length ∧
      c.s0.stillArrived c.r c.g.lid (barLevel tBar) (barInst (barLevel tBar) c.g) (barId tBar) = false) ∧
    WitA { tS with barMsgs := [⟨5, 1, 0, 0, 0, tR, 0, none⟩] } [] [] (fun c => AtSync c ∧
      c.s0.stillArrived c.r c.g.lid (barLevel tBar) (barInst (barLevel tBar) c.g) (barId tBar) = true) ∧
    WitA (tSp (fun sp => { sp with prog := some 0xFFFFFFFF }) (tBars 0)) [] [] (fun c => c.sp.prog = some 0xFFFFFFFF ∧ (c.s0.recOf c.g).piste = false ∧
      (c.s0.barCount c.g.lid 0 (barInst 0 c.g) 0 - BitVec.ofNat 32 0xFFFFFFFF).toNat = 1) ∧
    WitA (tSp (fun sp => { sp with prog := some 0 }) (tBars 0)) [] [] (fun c => c.sp.prog = some 0 ∧
      (c.s0.barCount c.g.lid 0 (barInst 0 c.g) 0 - BitVec.ofNat 32 0).toNat = 0) ∧
    WitA (tK 4 1 (tBars 0x80000000)) (srcRds (o 324)) [] (fun c => c.g.isPack = false ∧
      (c.s0.barCount c.g.lid 0 (barInst 0 c.g) 0 - (c.k 4).setWidth 32).toNat = 2 ^ 31 - 1) ∧
    WitA (tK 4 0 (tBars 0x80000000)) (srcRds (o 324)) [] (fun c => (c.s0.barCount c.g.lid 0 (barInst 0 c.g) 0 - (c.k 4).setWidth 32).toNat = 2 ^ 31) ∧
    (∀ two : Bool, let m : BarMsg := ⟨5, 1, 0, 0, 0, tR, 0, none⟩
     let g2 : Group := Group.fresh ⟨false, 0, 0, 1⟩ .ordinary .running tL 0 1 0x10000 [] 0
     let b : HBar := ⟨1, 0, 0, 0, 7, []⟩
     let s : State := { tSp (fun sp => { sp with state := .blocked, wait := .reply, prog := some inTransit }) with
       bars := [b], barMsgs := [m], groups := (tSp (fun sp => { sp with state := .blocked, wait := .reply, prog := some inTransit })).groups ++ (if two then [g2] else []) }
     let b' : HBar := { b with arrived := [tR] }
     s.barMsgs.find? (fun m => m.id = 5) = some m ∧ (s.group? m.g).isSome = true ∧ b ∈ s.bars ∧ (b.lid, b.level, b.inst, b.id) = (m.lid, m.level, m.inst, m.bar) ∧
      s.bars.Nodup ∧ m.g ∉ b.arrived ∧ s.launch? m.lid = some tL ∧ tL.lrec.piste = false ∧ (tGr s).arriving = [0] ∧
      (({ s with bars := [b'] } : State).barComplete b' = !two)) ∧
    (let s := tWaits 0xB070000000000000 0 (tBars 1)
     let g := tGr s
     s.group? tR = some g ∧ (g.split 0).clause = some ⟨0, [0xB070000000000000]⟩ ∧ (g.split 0).prog = some 0 ∧ (g.split 0).state = .blocked ∧
      (g.split 0).wait = .retest ∧ g.isRunning = true ∧ (∀ b ∈ s.bars, b.lid = g.lid → s.barComplete b = false) ∧
      (s.barCount g.lid 0 (barInst 0 g) 0 - BitVec.ofNat 32 0).toNat = 1) ∧
    (let s := tWaits 0xB270000000000000 1 (tBars 1)
     let g := tGr s
     (g.split 0).prog = some 1 ∧ (s.barCount g.lid 0 (barInst 0 g) 0 - BitVec.ofNat 32 1).toNat = 0) := by
  refine ⟨wit_of (by decide +kernel) (by decide +kernel), wit_of (by decide +kernel) (by decide +kernel),
    wit_of (by decide +kernel) ⟨atSync_of (by decide +kernel), by decide +kernel⟩,
    wit_of (by decide +kernel) ⟨atSync_of (by decide +kernel), by decide +kernel⟩, wit_of (by decide +kernel) (by decide +kernel),
    wit_of (by decide +kernel) (by decide +kernel), wit_of (by decide +kernel) (by decide +kernel), wit_of (by decide +kernel) (by decide +kernel),
    ?_, ?_, ?_⟩ <;> decide +kernel

/-- A group of the block that is HELD at a PHA of phase barrier 31 posting k chunks. -/
def tPhG (k : Nat) : Group :=
  let g := Group.fresh ⟨false, 0, 0, 1⟩ .ordinary .running tL 0 1 0x10000 [] 0
  { g with splits := g.splits.modify 0 (fun sp => { sp with state := .held, wait := .phase 31 k }) }

/-- Phase barrier 31 of the block. -/
def tPh (x : PhaseBar) (s : State := tS) : State := { s with blocks := [{ tB with phase := tB.phase.set 31 x }] }

theorem wit_PhaseBarriers :
    WitA (tW (fun g => { g with depth := 1, splits := g.splits.modify 8 (fun sp => { sp with state := .ready, mask := 1 }) })
      { tS with cur := some ⟨tR, 8⟩ }) [] [] (fun c => c.g.isPack = false ∧ c.g.inHandler c.e = true ∧ c.s0.blockOf c.g = some tB) ∧
    WitA (tK 4 1 (tPh ⟨false, 0, 1, 1048575⟩)) (srcRds (o 324)) [] (fun c => AtSync c ∧ (c.s0.blockOf c.g).elim false (fun b =>
      decide ((1048575 : Int) < (b.phase.getD 31 (PhaseBar.start 0)).pend + (c.u (o 324)).toNat)) = true) ∧
    WitA (tPh ⟨false, 1, 1, 2⟩) [] [] (fun c => AtSync c ∧ (c.s0.blockOf c.g).elim false (fun b =>
      decide ((b.phase.getD 31 (PhaseBar.start 0)).pend ≤ (1048575 : Int) ∧ (b.phase.getD 31 (PhaseBar.start 0)).arr = (b.phase.getD 31 (PhaseBar.start 0)).exp)) = true ∧
      c.sp.state = .ready ∧ c.e < 8 ∧ 8 ≤ c.g.splits.length ∧ c.g.syncers c.e = [0]) ∧
    WitA (tK 4 1 (tPh ⟨true, 0, 1, 1048574⟩)) (srcRds (o 324)) [] (fun c => AtSync c ∧ (c.s0.blockOf c.g).elim false (fun b =>
      decide ((b.phase.getD 31 (PhaseBar.start 0)).pend + (c.u (o 324)).toNat ≤ (1048575 : Int) ∧
        (b.phase.getD 31 (PhaseBar.start 0)).arr ≠ (b.phase.getD 31 (PhaseBar.start 0)).exp)) = true ∧ tNoHeld c.s0 31 = true) ∧
    WitA (tK 4 1 (tPh ⟨false, 0, 1, 1048575⟩)) (srcRds (o 324)) [] (fun c => c.g.isPack = false ∧ (c.s0.blockOf c.g).isSome = true ∧ (c.u (o 324)).toNat = 1) ∧
    WitA (tK 4 1 (tPh ⟨false, 0, 1, 1048574⟩)) (srcRds (o 324)) [] (fun c => c.g.isPack = false ∧ (c.u (o 324)).toNat = 1 ∧ tNoHeld c.s0 31 = true) ∧
    WitA (tK 4 2 (tPh ⟨false, 2, 2, -2⟩ { tS with groups := tS.groups ++ [tPhG 5] })) (srcRds (o 324)) [] (fun c => c.g.isPack = false ∧
      (c.s0.blockOf c.g).elim false (fun b => decide (31 < b.phase.length ∧ b.phase.getD 31 (PhaseBar.start 0) = ⟨false, 2, 2, -2⟩)) = true ∧
      tPhG 5 ∈ c.s0.groups ∧ (c.s0.groups.map (·.ref)).Nodup ∧ (tPhG 5).ref ≠ c.r ∧ (tPhG 5).lid = c.g.lid ∧ (tPhG 5).blk = c.g.blk ∧
      (tPhG 5).isRunning = true ∧ (tPhG 5).splits.findSome? (fun sp => sp.phaPosts 31) = some 5 ∧
      (∀ h ∈ c.s0.groups, h ≠ tPhG 5 → ∀ sp ∈ h.splits, sp.phaPosts 31 = none) ∧ (c.u (o 324)).toNat = 2) ∧
    (∀ e, 8 ≤ e → ((tPhG 5).split e).phaPosts 31 = none) ∧
    WitA (tK 4 1024 (tPh ⟨false, 0, 1, 0⟩)) (srcRds (o 324)) [] (fun c => c.g.isPack = false ∧ (c.u (o 324)).toNat = 1024 ∧
      (c.s0.blockOf c.g).elim false (fun b => decide ((b.phase.getD 31 (PhaseBar.start 0)).arr = 0 ∧ (b.phase.getD 31 (PhaseBar.start 0)).pend = 0)) = true ∧ tNoHeld c.s0 31 = true) ∧
    WitA (tK 4 1025 (tPh ⟨false, 0, 1, 0⟩)) (srcRds (o 324)) [] (fun c => 1024 < (c.u (o 324)).toNat) ∧
    WitA (tPh ⟨true, 0, 1, 0⟩) [] [] (fun c => c.g.isPack = false ∧ (c.s0.blockOf c.g).elim false (fun b =>
      decide ((b.phase.getD 31 (PhaseBar.start 0)).p = true)) = true) ∧
    WitA (tSp (fun sp => { sp with prog := some (phwWaits 31 1 + 1) }) (tPh ⟨true, 0, 1, 0⟩)) [] [] (fun c =>
      c.sp.prog = some (phwWaits 31 1 + 1)) := by
  repeat' apply And.intro
  all_goals first | exact wit_of (by decide +kernel) (by decide +kernel) | exact wit_of (by decide +kernel) ⟨atSync_of (by decide +kernel), by decide +kernel⟩ | skip
  intro e he
  rcases Nat.lt_or_ge e 11 with h | h
  · exact (by decide +kernel : ∀ e < 11, 8 ≤ e → ((tPhG 5).split e).phaPosts 31 = none) e h he
  · have : (tPhG 5).split e = Split.free := by
      simp only [Group.split]
      exact List.getD_eq_default _ _ (by rw [show (tPhG 5).splits.length = 11 by decide +kernel]; exact h)
    rw [this]; rfl

theorem wit_TicketsAndTimelines :
    WitA (tLr (fun r => { r with piste := true })) [] [] (fun c => c.g.isPack = false ∧ c.s0.pisteOf c.g = true) ∧
    WitA tS [] [] (fun c => c.g.isPack = false ∧ c.s0.pisteOf c.g = false) ∧
    WitA (tK 4 0x80000001) (srcRds (o 324)) [] (fun c =>
      ((c.s0.ticket c.g.lid (c.s0.ticketBlk c.g) 15).seen.getD c.r.core 0 - (c.k 4).setWidth 32).toNat < 2 ^ 31) ∧
    WitA (tK 4 1) (srcRds (o 324)) [] (fun c =>
      ¬((c.s0.ticket c.g.lid (c.s0.ticketBlk c.g) 15).seen.getD c.r.core 0 - (c.k 4).setWidth 32).toNat < 2 ^ 31) ∧
    WitA (tK 4 1) (srcRds (o 324)) [] AtSync ∧
    (let s : State := { tWaits 0xB770000000030000 (2 ^ 71 + 3 * 2 ^ 32 + 5) with tickets := [{ Ticket.start 1 0 3 with queue := [(0, [5])] }] }
     let g := tGr s
     (s.ticket 1 0 3).queue.getD 0 [] = [5] ∧ g ∈ s.groups ∧ (s.groups.map (·.ref)).Nodup ∧ g.lid = 1 ∧ s.ticketBlk g = 0 ∧ g.ref.core = 0 ∧
      g.ref.home = false ∧ 0 < g.splits.length ∧ (g.split 0).clause = some ⟨0, [0xB770000000030000]⟩ ∧ (g.split 0).prog = some (2 ^ 71 + 3 * 2 ^ 32 + 5) ∧
      (g.split 0).state = .blocked ∧ (g.split 0).wait = .retest ∧ g.isRunning = true) ∧
    WitA (tK 4 5) (srcRds (o 324)) [] (fun c => (c.s0.recOf c.g).ntl ≤ 4 ∧ 3 < (c.s0.recOf c.g).ntl ∧
      (c.u (o 324)).toNat ≤ (c.s0.named c.g.lid 3).toNat) ∧
    WitA (tK 4 6) (srcRds (o 324)) [] (fun c => (c.s0.named c.g.lid 3).toNat < (c.u (o 324)).toNat ∧ c.g.ctl.closed < (c.u (o 324)).toNat ∧
      c.g.mtl.closed < (c.u (o 324)).toNat) ∧
    WitA (tK 4 2 (tW (fun g => { g with ctl := ⟨1, 2, [2]⟩, mtl := ⟨2, 2, []⟩ }))) (srcRds (o 324)) [] (fun c => (c.u (o 324)).toNat ≤ c.g.ctl.closed ∧
      c.g.ctl.value.toNat < (c.u (o 324)).toNat ∧ (c.u (o 324)).toNat ≤ c.g.mtl.closed ∧ (c.u (o 324)).toNat ≤ c.g.mtl.value.toNat) ∧
    WitA (tK 4 6) (srcRds (o 324)) [] (fun c => AtSync c ∧ 3 < (c.s0.recOf c.g).ntl ∧ (c.s0.named c.g.lid 3).toNat < (c.u (o 324)).toNat) ∧
    WitA (tK 4 5) (srcRds (o 324)) [] (fun c => AtSync c ∧ (c.u (o 324)).toNat ≤ (c.s0.named c.g.lid 3).toNat) ∧
    (let s := tWaits 0xB970068400030000 5
     let g := tGr s
     s.group? tR = some g ∧ (g.split 0).clause = some ⟨0, [0xB970068400030000]⟩ ∧ (g.split 0).prog = some 5 ∧ (g.split 0).state = .blocked ∧
      (g.split 0).wait = .retest ∧ 5 ≤ (s.tlValue g 3).toNat) ∧
    (let s := tWaits 0xB970068400030000 6
     (s.tlValue (tGr s) 3).toNat < 6) := by
  repeat' apply And.intro
  all_goals first | exact wit_of (by decide +kernel) (by decide +kernel) | exact wit_of (by decide +kernel) ⟨atSync_of (by decide +kernel), by decide +kernel⟩ |
    exact wit_of (by decide +kernel) (atSync_of (by decide +kernel)) | decide +kernel

/-! ### Witnesses: the home engine -/

/-- Module 0 and an object record at 0x300000: method 8 of it, one word in and out, 128 bytes of state at 0x500000. -/
def tObjM (s : State := tS) : State :=
  { tM 0x13 s with
    modTab := 0x400000
    hbm := tM.hbm ++ [(0x300002, 0x50), (0x300007, 1), (0x300008, 8), (0x300016, 4), (0x300018, 0x80),
      (0x400002, 1), (0x400007, 0x80), (0x40000A, 1)] }
/-- A registered object. -/
def tOb : Obj := { (default : Obj) with home := 0x500000, slen := 128, lid := 1, die := (tObjM.homeOf 0 0 0x500000).1, slice := (tObjM.homeOf 0 0 0x500000).2 }
def tObs (os : List Obj) (s : State := tObjM) : State := { s with objs := os }
/-- The checks of OBJR on the record at an address: bad, same, clash, full. -/
def tObjr (c : Ctx) (ka : Nat) : Bool × Bool × Bool × Bool :=
  let u := c.s0.acquireAt c.r.coreRef (c.s0.asidOf c.g) 3 (some [(ka, 32)]) false
  let w (j : Nat) : Nat := (u.homeRead64 c.r.die (c.s0.asidOf c.g) (ka + 8 * j)).toNat
  let r := objRecOf (w 0) (w 1) (w 2) (w 3)
  let m := u.modEnt c.r.die (c.s0.asidOf c.g) r.mdl
  let h := c.s0.homeOf c.r.die (c.s0.asidOf c.g) r.home
  (!r.wf || !m.valid || decide (m.len ≤ r.method), c.s0.objs.any (fun x => x.home = r.home),
    c.s0.objs.any (fun x => decide (x.home < r.home + r.slen ∧ r.home < x.home + x.slen)),
    decide (64 ≤ (c.s0.objs.filter (fun x => x.die = h.1 && x.slice = h.2)).length))
abbrev tObjrIs (s : State) (x : Bool × Bool × Bool × Bool) : Prop :=
  WitA (tK 4 0x300000 s) (srcRds (o 324)) [] (fun c => c.g.isPack = false ∧ (c.k 4).toNat % 32 = 0 ∧
    c.s0.engineFault c.r.coreRef (c.s0.asidOf c.g) (c.k 4).toNat 32 false = none ∧ tObjr c (c.k 4).toNat = x)
/-- A request of lane 0 for that object. -/
def tReq : Req := { (default : Req) with home := 0x500000, args := [7], g := tR, dest := 6, op := 9, lid := 1 }
/-- A pack wave with one request. -/
def tPk : Pack := { (default : Pack) with id := 5, g := tR, home := 0x500000, reqs := [tReq], slen := 128 }
/-- The registers of CMB and its requests' homes. -/
abbrev tCmb (s : State) (P : Ctx → Prop) : Prop :=
  WitA s (srcRds (o 8) (runWords 0) ++ [⟨true, 5, false, false⟩]) [6] (fun c => (c.g.kreg 5).full = true ∧ P c)

theorem wit_HomeObjects :
    tCmb (tV2 (tK 5 0x500040)) (fun c => (c.k 5).toNat % 128 ≠ 0) ∧
    tCmb (tV2 (tK 5 0xFFFF0000000000)) (fun c => (c.k 5).toNat % 128 = 0 ∧ globalVa (c.k 5).toNat = false) ∧
    tCmb (tV2 (tK 5 0x500000 (tObs [tOb] (tLr (fun r => { r with piste := true }) tObjM)))) (fun c => globalVa (c.k 5).toNat = true ∧
      c.g.isPack = false ∧ c.s0.pisteOf c.g = true ∧ ∃ ob ∈ c.s0.objs, ob.home = (c.k 5).toNat ∧ ob.asid = c.s0.asidOf c.g ∧ ob.comm = false) ∧
    Wit (tV2 (tK 5 0x500000)) ⟨true, 7⟩ (srcRds (o 8) (runWords 0) ++ [⟨true, 5, false, false⟩]) [6] (fun c => (c.k 5).toNat % 128 = 0 ∧
      globalVa (c.k 5).toNat = true ∧ c.g.isPack = false ∧ c.s0.pisteOf c.g = false ∧ c.m = 0) ∧
    tCmb (tV2 (tK 5 0xFFFEFFFFFFFF80)) (fun c => (c.k 5).toNat % 128 = 0 ∧ globalVa (c.k 5).toNat = true ∧ c.g.isPack = false ∧
      c.s0.pisteOf c.g = false ∧ c.m ≠ 0 ∧ c.g.ctr.cmb < 65535) ∧
    tCmb (tW (fun g => { g with ctr := { g.ctr with cmb := 65535 } }) (tV2 (tK 5 0x500000))) (fun c => (c.k 5).toNat % 128 = 0 ∧
      globalVa (c.k 5).toNat = true ∧ c.g.isPack = false ∧ c.s0.pisteOf c.g = false ∧ c.m ≠ 0 ∧ 65535 ≤ c.g.ctr.cmb) ∧
    WitA (tV2 (tW (fun g => { g with kind := .pack 5 }) { tObs [{ tOb with state := .running }] with packs := [tPk] })) (srcRds (o 8) (runWords 0)) [] (fun c =>
      c.s0.packOf c.g = some tPk ∧ tPk.committed = false ∧ (8 : Nat) % runWords tPk.rsz = 0 ∧ c.g.inHandler c.e = false ∧
      c.g.allReached c.e = true ∧ c.s0.groupDrained c.r = true ∧ c.g.isResponder = false ∧ (c.s0.obj? tPk.home).isSome = true ∧
      c.sp.prog = none ∧ c.e < 8 ∧ 8 ≤ c.g.splits.length) ∧
    (∀ buf ∈ [[], [(0x500000, (7 : Byte))]], WitA (tV2 (tSp (fun sp => { sp with prog := some 0 }) (tW (fun g => { g with kind := .pack 5 })
        { tObs [{ tOb with state := .running }] with packs := [{ tPk with committed := true, buf := buf }] }))) (srcRds (o 8) (runWords 0)) [] (fun c =>
      c.sp.prog.isSome = true ∧ c.s0.packOf c.g = some { tPk with committed := true, buf := buf })) ∧
    WitA tS [] [] (fun c => c.s0.packOf c.g = none ∧ c.g.allReached c.e = true) ∧
    WitA (tHeld 0 tS) [] [] (fun c => c.s0.packOf c.g = none ∧ c.g.isResponder = false ∧ c.g.inHandler c.e = false ∧ c.g.allReached c.e = false) ∧
    WitA (tW (fun g => { g with kind := .pack 5 }) { tObs [{ tOb with state := .running }] with packs := [{ tPk with rsz := 2 }] }) [] [] (fun c =>
      c.s0.packOf c.g = some { tPk with rsz := 2 } ∧ (6 : Nat) % runWords 2 ≠ 0 ∧ c.g.allReached c.e = true) ∧
    WitA (tK 4 0x300010 tObjM) (srcRds (o 324)) [] (fun c => c.g.isPack = false ∧ (c.k 4).toNat % 32 ≠ 0) ∧
    tObjrIs { tObjM with modTab := 0 } (true, false, false, false) ∧ tObjrIs (tObs [tOb]) (false, true, true, false) ∧
    tObjrIs (tObs [{ tOb with home := 0x4FFF80, slen := 256 }]) (false, false, true, false) ∧
    tObjrIs (tObs (List.replicate 64 { tOb with home := 0x600000 })) (false, false, false, true) ∧ tObjrIs tObjM (false, false, false, false) ∧
    WitA (tK 4 0x500000) (srcRds (o 324)) [] (fun c => c.g.isPack = false ∧ c.s0.obj? (c.k 4).toNat = none) ∧
    WitA (tUser (tK 4 0x500000 (tObs [{ tOb with lid := 2 }]))) (srcRds (o 324)) [] (fun c => c.s0.privileged c.g = false ∧
      (c.s0.obj? (c.k 4).toNat).elim false (fun ob => decide (ob.lid ≠ c.g.lid)) = true) ∧
    WitA (tUser (tK 4 0x500000 (tObs [tOb]))) (srcRds (o 324)) [] (fun c => (c.s0.obj? (c.k 4).toNat).elim false (fun ob =>
      decide (ob.lid = c.g.lid ∧ ob.state ≠ .poisoned ∧ ob.state ≠ .running ∧ ob.state ≠ .closing ∧ ob.delBy = [] ∧
        ∀ q ∈ c.s0.queueOf (ob.die, ob.slice), ¬(q.home = ob.home ∧ q.asid = ob.asid))) = true) ∧
    WitA (tK 4 0x500000 (tObs [{ tOb with state := .poisoned }])) (srcRds (o 324)) [] (fun c => c.s0.privileged c.g = true ∧
      (c.s0.obj? (c.k 4).toNat).elim false (fun ob => ob.state == .poisoned) = true) ∧
    WitA (tK 4 0x500000 (tObs [{ tOb with state := .running }])) (srcRds (o 324)) [] (fun c => c.e < c.g.splits.length ∧
      (c.s0.obj? (c.k 4).toNat).elim false (fun ob => ob.state == .running) = true) := by
  repeat' apply And.intro
  all_goals first | exact wit_of (by decide +kernel) (by decide +kernel) | skip
  intro buf hb
  simp only [List.mem_cons, List.not_mem_nil, or_false] at hb
  rcases hb with rfl | rfl <;> exact wit_of (by decide +kernel) (by decide +kernel)

/-- The slot that waits for the step register's second value. -/
def tWt : Waiter := ⟨tR, 0, 4, 9⟩
/-- A step register with one sweep region of 8 bytes at 0x5000. -/
def tStep (s : State := tM) : State :=
  { s with steps := [⟨0, [0x3FFFFF, 0x400000], [(.slice 0 32, 1)], [(tWt, 2)], [⟨0x5000, 8, []⟩], []⟩] }

/-- A step register whose second value only home core 47 of die 3 has not adopted. -/
def tLast : StepReg := ⟨0, [0, 0x400000], (Place.home 3 47, 1) :: allPlaces.map (fun p => (p, 2)), [(tWt, 2)], [], []⟩

theorem tLast_adopts : ∀ q ∈ allPlaces, 2 ≤ (tLast.adopted.set (.home 3 47) 2).getD q 0 := by
  intro q hq
  have h : (tLast.adopted.set (.home 3 47) 2) = ((Place.home 3 47) :: allPlaces).map (fun p => (p, 2)) := by
    simp [tLast, AMap.set]
  rw [h, getD_const _ 2 0 q (by simp [hq])]

theorem wit_StepRegister :
    WitA (tLr (fun r => { r with piste := true })) [] [] (fun c => c.g.isPack = false ∧ c.s0.pisteOf c.g = true) ∧
    WitA (tK 4 0x400001) (srcRds (o 324)) [] (fun c => c.s0.pisteOf c.g = false ∧ 2 ^ 22 < (c.k 4).toNat) ∧
    WitA (tK 4 0x400000) (srcRds (o 324)) [] (fun c => c.g.isPack = false ∧ c.s0.pisteOf c.g = false ∧ (c.k 4).toNat ≤ 2 ^ 22 ∧
      c.e < c.g.splits.length ∧ (c.s0.stepReg (c.s0.asidOf c.g)).sweeps = []) ∧
    WitA (tK 4 0x5004 (tK 5 8)) (kRds (o 324) 2) [] (fun c => c.g.isPack = false ∧ (c.k 4).toNat % 8 ≠ 0) ∧
    WitA (tK 4 0x4FF8 (tK 5 16 tStep)) (kRds (o 324) 2) [] (fun c => (c.k 4).toNat % 8 = 0 ∧ (c.k 5).toNat % 8 = 0 ∧
      ∃ r ∈ (c.s0.stepReg (c.s0.asidOf c.g)).sweeps, r.base < (c.k 4).toNat + (c.k 5).toNat ∧ (c.k 4).toNat < r.base + r.len) ∧
    WitA (tK 4 0x6000 (tK 5 8 { tS with steps := [⟨0, [], [], [], List.replicate 64 ⟨0x5000, 8, []⟩, []⟩] })) (kRds (o 324) 2) [] (fun c =>
      64 ≤ (c.s0.stepReg (c.s0.asidOf c.g)).sweeps.length ∧
      ¬∃ r ∈ (c.s0.stepReg (c.s0.asidOf c.g)).sweeps, r.base < (c.k 4).toNat + (c.k 5).toNat ∧ (c.k 4).toNat < r.base + r.len) ∧
    WitA (tK 4 0 (tK 5 0x100000000)) (kRds (o 324) 2) [] (fun c => c.s0.launch? c.g.lid = some tL ∧ ¬(2 ^ 32 < (c.k 5).toNat) ∧
      (c.s0.stepReg (c.s0.asidOf c.g)).sweeps.length < 64) ∧
    WitA (tK 4 0x5000 tStep) (srcRds (o 324)) [] (fun c => c.g.isPack = false ∧ ∃ r ∈ (c.s0.stepReg (c.s0.asidOf c.g)).sweeps, r.base = (c.k 4).toNat) ∧
    WitA (tK 4 0x5008 tStep) (srcRds (o 324)) [] (fun c => ∀ r ∈ (c.s0.stepReg (c.s0.asidOf c.g)).sweeps, r.base ≠ (c.k 4).toNat) ∧
    (let s := tStep
     let p : Place := .slice (s.homeOf 0 0 0x5000).1 (s.homeOf 0 0 0x5000).2
     let x := s.stepReg 0
     allPlaces.contains p = true ∧ x.adopted.getD p 0 < x.history.length ∧ x.waiting = [(tWt, 2)] ∧ (s.group? tR).isSome = true ∧
      x.sweeps = [⟨0x5000, 8, []⟩] ∧ (match s.xlate (s.homeOf 0 0 0x5000).1 0 0x5000 with | .ok _ => true | _ => false) = true ∧
      x.todo.getD p [] = [] ∧ (x.history.getD 1 0).toNat / 2 ^ 22 ≠ (x.copy p).toNat / 2 ^ 22) ∧
    (let s := tM
     let p : Place := .slice (s.homeOf 0 0 0x5000).1 (s.homeOf 0 0 0x5000).2
     let x : StepReg := ⟨0, [0x3FFFFF, 0x400000], [(p, 2)], [], [⟨0x5000, 8, []⟩], [(p, [0x5000])]⟩
     allPlaces.contains p = true ∧ x.todo.getD p [] ≠ [] ∧ x.copy p = 0x400000 ∧
      (match s.xlate (s.homeOf 0 0 0x5000).1 0 0x5000 with | .ok _ => true | _ => false) = true ∧
      2 ^ 22 ≤ (0x400000 % 2 ^ 24 + 2 ^ 24 - bytesToNat (s.homeRead 0 0 0x5000 8) / 2 ^ 8 % 2 ^ 24) % 2 ^ 24) ∧
    (let x := tLast
     x.adopted.getD (.home 3 47) 0 < x.history.length ∧ x.waiting = [(tWt, 2)] ∧
      (∀ q ∈ allPlaces, 2 ≤ (x.adopted.set (.home 3 47) 2).getD q 0) ∧ x.todo = []) := by
  refine ⟨?_, ?_, ?_, ?_, ?_, ?_, ?_, ?_, ?_, ?_, ?_, ?_, ?_, tLast_adopts, ?_⟩
  all_goals first | exact wit_of (by decide +kernel) (by decide +kernel) | decide +kernel

theorem wit_CombineSteps :
    (let m : CmbMsg := ⟨5, 0, 3, [tReq], 0, false⟩
     let s : State := { tObjM with cmbs := [m], queues := [((0, 3), List.replicate 511 tReq)] }
     s.cmbs.find? (fun m => m.id = 5) = some m ∧ m.backoff = false ∧ (s.queueOf (0, 3)).length + m.reqs.length ≤ 512) ∧
    (let m : CmbMsg := ⟨5, 0, 3, [tReq, tReq], 0, false⟩
     let s : State := { tObjM with cmbs := [m], queues := [((0, 3), List.replicate 511 tReq)] }
     s.cmbs.find? (fun m => m.id = 5) = some m ∧ m.backoff = false ∧ 512 < (s.queueOf (0, 3)).length + m.reqs.length) ∧
    (let c : CoreRef := ⟨true, 0, 3⟩
     let ob := { tOb with die := 0, slice := 3 }
     let s : State := { tObs [ob] with queues := [((0, 3), List.replicate 33 tReq)] }
     let qs := s.queueOf (c.die, c.core)
     s.held = false ∧ s.partIdx c.die ∉ s.stopped ∧
      qs.findSome? (fun q => s.objs.find? (fun o => o.home = q.home && o.asid = q.asid && o.state = .idle)) = some ob ∧
      [6, 7, 14, 15].find? (fun j => (s.group? { home := true, die := c.die, core := c.core, slot := j }).isNone) = some 6 ∧ ob.asz < 3 ∧
      (qs.filter (fun q => q.home == ob.home && q.asid == ob.asid)).length = 33) ∧
    (∀ f ∈ [none, some 0x6100], ∀ nt ∈ [none, some 6], let r : Reply := ⟨4, { tReq with nt := nt }, [3], f, 128⟩
     let s : State := { tObjM with replies := [r] }
     let g := tGr s
     s.replies.find? (fun r => r.id = 4) = some r ∧ s.group? r.req.g = some g ∧
      (∀ k < runWords r.req.rsz, s.isMbox g (r.req.dest + k) = false) ∧ r.req.lane < 32) ∧
    (let tr : PendTrap := ⟨.access, 0, 0x10008⟩
     let g : Group := { tG with kind := .pack 5, splits := tG.splits.modify 0 (fun sp => { sp with trap := some tr }) }
     let s : State := { tObs [{ tOb with state := .running }] with groups := [g], packs := [{ tPk with reqs := [{ tReq with g := tG2.ref }] }] }
     s.group? tR = some g ∧ s.packOf g = some { tPk with reqs := [{ tReq with g := tG2.ref }] } ∧ tPk.g = tR ∧
      g.splits.findSome? (fun sp => if sp.state = .free then none else sp.trap) = some tr ∧ tPk.committed = false ∧
      s.obj? tPk.home = some { tOb with state := .running }) := by
  repeat' apply And.intro
  all_goals decide +kernel

/-! ### Witnesses: the census engine -/

/-- A responder of census 7 for entry 3. -/
def tResp (done : Bool) (s : State := tS) : State := tW (fun g => { g with kind := .responder 7 3 done }) s
/-- Census 7 of the group at its own core, slot 2. -/
def tCen : Census :=
  { (default : Census) with
    id := 7, g := tR, slot := 2, lid := 1, kmask := 0xFF, dest := 6, mask := Mask.all, prodId := 9, budget := 1, acc := noParts,
    pending := [tR.coreRef] }
def tCens (f : Census → Census) (s : State := tS) : State := { s with censuses := [f tCen] }
/-- A directory entry of the block. -/
def tDir : DirEnt := ⟨5, 0, 1, 0, false, [], none⟩
def tDirs (d : DirEnt) (s : State := tS) : State := { s with dir := [((tR.coreRef, 3), d)] }
/-- A move of that entry to core 1. -/
def tMv : KMove :=
  { (default : KMove) with id := 8, g := tR, kd := 4, src := tR.coreRef, dst := ⟨false, 0, 1⟩, ent := 3, key := 5, lid := 1, blk := 1 }
abbrev tSol (s : State) (P : Ctx → Prop) : Prop := WitA s (kRds (o 324) 4) [6] P
/-- An ordinary group outside its handler. -/
abbrev tOrd (c : Ctx) : Prop := c.g.kind = .ordinary ∧ c.g.inHandler c.e = false

/-- Every entry of a core's directory is taken. -/
def tFull (c : CoreRef) : AMap (CoreRef × Nat) DirEnt := ((List.range 256).map (fun e => (c, e))).map (fun k => (k, tDir))

theorem tFull_full (c : CoreRef) : (List.range 256).filter (fun e => ((tFull c).get? (c, e)).isNone) = [] := by
  simp only [List.filter_eq_nil_iff, List.mem_range]
  intro e he
  rw [tFull, get_const _ _ _ (by simp [he])]
  simp

theorem wit_CensusInstructions :
    tSol tS (fun c => c.mode 6 = some .sr) ∧ tSol (tW (fun g => { g with sp := { g.sp with rmode := 7 } })) (fun c => c.mode 0 = none) ∧
    tSol tS (fun c => c.mode 0 = some .rne ∧ (c.s0.recOf c.g).span + 2 < 3) ∧
    tSol (tResp false) (fun c => c.mode 0 = some .rne ∧ 2 ≤ (c.s0.recOf c.g).span + 2 ∧ ¬tOrd c) ∧
    tSol (tK 7 0x100000000) (fun c => tOrd c ∧ bits (c.k 7).toNat 47 32 ≠ 0) ∧
    tSol tS (fun c => tOrd c ∧ bits (c.k 7).toNat 47 32 = 0 ∧ 3 < c.g.census.length ∧ (c.g.census.getD 3 default).state ≠ 1 ∧
      (c.g.census.getD 3 default).closing = [] ∧ c.g.ctr.cen < 65535 ∧ c.s0.groupDrained c.r = true ∧ c.m ≠ 0 ∧ c.m = c.sp.mask) ∧
    tSol (tW (fun g => { g with ctr := { g.ctr with cen := 65535 } }) tS) (fun c => tOrd c ∧ bits (c.k 7).toNat 47 32 = 0 ∧
      (c.g.census.getD 3 default).state ≠ 1 ∧ (c.g.census.getD 3 default).closing = [] ∧ c.g.ctr.cen = 65535) ∧
    WitA (tResp false) [] [] (fun c => c.g.isResponder = true ∧ c.g.kind = .responder 7 3 false) ∧
    WitA (tW (fun g => { g with census := g.census.set 3 { (g.census.getD 3 default) with state := 1 } })) [] [] (fun c => c.g.isResponder = false ∧
      (c.g.census.getD 3 default).state = 1) ∧
    WitA tS [] [] (fun c => c.g.isResponder = false ∧ (c.g.census.getD 3 default).state = 0 ∧ (∀ n ∈ [7], ∀ e ∈ [3], c.g.kind ≠ .responder n e false) ∧
      c.g.allReached c.e = true) ∧
    WitA (tW (fun g => { g with census := g.census.set 3 { (g.census.getD 3 default) with state := 2 } })) [] [] (fun c => c.g.isResponder = false ∧
      (c.g.census.getD 3 default).state = 2) ∧
    WitA (tResp false (tCens (fun x => { x with op := 1 }))) [] [] (fun c => c.s0.census? 7 = some { tCen with op := 1 } ∧ (o 9).isV = true ∧
      expRun (o 9).vNum (cenWidth 1) = false ∧ c.g.inHandler c.e = false ∧ c.g.allReached c.e = true) ∧
    WitA (tHeld 0 (tResp false (tCens id))) [] [] (fun c => c.s0.census? 7 = some tCen ∧ c.g.inHandler c.e = false ∧ c.g.allReached c.e = false) ∧
    WitA (tV2 (tResp false (tCens id))) (srcRds (o 8)) [] (fun c => c.s0.census? 7 = some tCen ∧ expRun (o 8).vNum (cenWidth 0) = true ∧
      c.g.inHandler c.e = false ∧ c.g.allReached c.e = true ∧ c.s0.groupDrained c.r = true) ∧
    WitA (tK 5 0x10040) (kRds (o 324) 2) [] (fun c => c.g.isResponder = false ∧ bits (c.k 5).toNat 31 0 % 128 ≠ 0) ∧
    WitA (tK 5 0xFF80 { tS with dir := tFull tR.coreRef }) (kRds (o 324) 2) [] (fun c =>
      c.g.isResponder = false ∧ bits (c.k 5).toNat 31 0 + 128 * (bits (c.k 5).toNat 56 48 + 1) = (c.s0.recOf c.g).scratch ∧
      (List.range 256).filter (fun e => (c.s0.dir.get? (c.r.coreRef, e)).isNone) = []) ∧
    WitA (tK 5 0 { tDirs tDir with moves := [] }) (kRds (o 324) 2) [] (fun c => c.r.home = false ∧
      ((List.range 256).filter (fun e => (c.s0.dir.get? (c.r.coreRef, e)).isNone)).headD 9 = 0) ∧
    WitA (tK 4 3) (kRds (o 324) 1) [] (fun c => c.g.isResponder = false ∧ (c.k 4).toNat < 256 ∧ c.s0.dir.get? (c.r.coreRef, (c.k 4).toNat) = none) ∧
    WitA (tK 4 3 (tDirs tDir)) (kRds (o 324) 1) [] (fun c => c.g.kind = .ordinary ∧ (c.k 4).toNat < 256 ∧
      c.s0.dir.get? (c.r.coreRef, (c.k 4).toNat) = some tDir ∧ tDir.leaving = false ∧ tDir.lid = c.g.lid ∧ tDir.blk = c.g.blk ∧
      c.e < c.g.splits.length ∧ tDir.matchedBy = [] ∧ ∀ m ∈ c.s0.moves, ¬(m.srcAt = true ∧ m.src = c.r.coreRef ∧ m.ent = (c.k 4).toNat)) ∧
    WitA (tK 4 3 (tDirs { tDir with matchedBy := [7] })) (kRds (o 324) 1) [] (fun c =>
      c.s0.dir.get? (c.r.coreRef, (c.k 4).toNat) = some { tDir with matchedBy := [7] } ∧ c.e < c.g.splits.length) ∧
    WitA (tK 4 3 (tK 5 0x10000FF80 { tDirs tDir with blocks := [tB, { tB with idx := 1, core := 1 }] })) (kRds (o 324) 2) [] (fun c =>
      c.g.kind = .ordinary ∧ (c.k 4).toNat < 256 ∧ c.g.ctr.st = 0 ∧ c.s0.groupDrained c.r = true ∧
      c.s0.dir.get? (c.r.coreRef, (c.k 4).toNat) = some tDir ∧ c.s0.block? c.g.lid (bits (c.k 5).toNat 63 32) = some { tB with idx := 1, core := 1 } ∧
      bits (c.k 5).toNat 31 0 % 128 = 0 ∧ bits (c.k 5).toNat 31 0 + 128 * (bits tDir.loc.toNat 56 48 + 1) ≤ (c.s0.recOf c.g).scratch) := by
  repeat' apply And.intro
  all_goals first | exact wit_of (by decide +kernel) ⟨by decide +kernel, by decide +kernel, tFull_full _⟩ |
    exact wit_of (by decide +kernel) (by decide +kernel)

theorem wit_CensusSteps :
    (let s := tCens id (tDirs tDir)
     s.census? 7 = some tCen ∧ tR.coreRef ∈ tCen.pending ∧ (∀ z ∈ tCen.after, s.isBefore tR.coreRef z = true) ∧ (∀ k ∈ tCen.cores, k.c ≠ tR.coreRef) ∧
      (tDir.key ^^^ tCen.key) &&& tCen.kmask ≠ 0) ∧
    (let s := tCens (fun x => { x with cores := [⟨tR.coreRef, 0, [3], 0, false⟩] }) (tDirs tDir)
     (s.nextSpawn tR.coreRef).elim false (fun y => decide (y.2 = 3)) = true ∧ s.dir.get? (tR.coreRef, 3) = some tDir ∧ s.launch? 1 = some tL ∧
      s.responderSlot tR.coreRef tL.lrec.gregs = some 15 ∧ tL.lrec.kargs = 0 ∧ s.needPages tR.coreRef tL.lrec.asid [(0, 0)] = none) ∧
    (let s := tLr (fun r => { r with kargs := 0x310000 }) (tM 0x13 (tCens (fun x => { x with cores := [⟨tR.coreRef, 0, [3], 0, false⟩] }) (tDirs tDir)))
     (s.nextSpawn tR.coreRef).elim false (fun y => decide (y.2 = 3)) = true ∧ s.dir.get? (tR.coreRef, 3) = some tDir ∧
      (s.launch? 1).elim false (fun l => decide (l.lrec.kargs = 0x310000 ∧ s.responderSlot tR.coreRef l.lrec.gregs = some 15 ∧
        s.needPages tR.coreRef l.lrec.asid [(l.lrec.kargs, 128)] = none)) = true) ∧
    (let s := tSp (fun sp => { sp with trap := some ⟨.access, 0, 0x10008⟩ }) (tResp false (tCens id))
     let g := tGr s
     s.group? tR = some g ∧ g.kind = .responder 7 3 false ∧ (∃ sp ∈ g.splits, sp.state ≠ .free ∧ sp.trap ≠ none) ∧ s.census? 7 = some tCen ∧
      tCen.complete = false) ∧
    (let m : CenMsg := ⟨4, ⟨false, 1, 47⟩, 3, some 2, false, noParts⟩
     let s := tCens (fun x => { x with msgs := [m], scope := 3 })
     s.census? 7 = some { tCen with msgs := [m], scope := 3 } ∧ m.c.die ≠ tCen.g.die ∧ s.cenPiste tCen = false) ∧
    (let m : CenMsg := ⟨4, tR.coreRef, 3, some 0, false, noParts⟩
     let x := { tCen with msgs := [m], pending := [] }
     let s := tCens (fun _ => x)
     s.census? 7 = some x ∧ x.complete = false ∧ s.cenPiste x = false ∧ s.group? x.g = some tG ∧ x.slot < tG.census.length ∧
      (∀ j < cenWidth x.op, s.isMbox tG (x.dest + j) = false) ∧ x.msgs.find? (fun m => m.id = 4 && m.c.die = x.g.die) = some m ∧
      s.cenAll { x with counted := 1, msgs := [] } = true ∧ s.cenAll { x with counted := 1, matched := 1, msgs := [] } = false ∧ x.budget ≠ 0) ∧
    (let d : DieMsg := { (default : DieMsg) with id := 4, die := 1, cores := 48 }
     let s := tCens (fun x => { x with dieMsgs := [d], scope := 3 })
     s.census? 7 = some { tCen with dieMsgs := [d], scope := 3 } ∧ (∀ m ∈ tCen.msgs, ¬(m.id = 4 ∧ m.c.die = tCen.g.die)) ∧ [d].find? (fun m => m.id = 4) = some d) ∧
    (let x := { tCen with pending := [], closes := [tR.coreRef], cores := [⟨tR.coreRef, 0, [], 0, false⟩], complete := true }
     let s := tCens (fun _ => x) (tDirs { tDir with leaving := true, matchedBy := [7] })
     s.census? 7 = some x ∧ tR.coreRef ∈ x.closes ∧ tR.coreRef ∉ x.pending ∧ x.cores.find? (fun k => k.c = tR.coreRef) = some ⟨tR.coreRef, 0, [], 0, false⟩) ∧
    (let s : State := { tDirs tDir with moves := [tMv] }
     s.moves.find? (fun m => m.id = 8) = some tMv ∧ tMv.atNode = false ∧ s.censuses = [] ∧ s.freeDir tMv.dst (s.reserved tMv.dst) = some 0 ∧
      s.group? tMv.g = some tG ∧
      s.moves.filter (fun y => y.id != 8 && y.atNode) = []) ∧
    (let s : State := { tS with moves := [tMv], dir := tFull tMv.dst }
     s.dir = tFull tMv.dst ∧ s.freeDir tMv.dst (s.reserved tMv.dst) = none) ∧
    (∀ free : Bool, let m := { tMv with atNode := true, srcFree := free }
     let s : State := { tDirs tDir with moves := [m], blocks := [tB, { tB with idx := 1, core := 1 }] }
     s.moves.find? (fun m => m.id = 8) = some m ∧ (∀ z ∈ m.before, s.isBefore m.dst z = true) ∧ m.dstDone = none ∧
      s.block? m.lid m.blk = some { tB with idx := 1, core := 1 } ∧ s.freeDir m.dst 0 = some 0 ∧ s.group? m.g = some tG) ∧
    (let m := { tMv with atNode := true }
     let s : State := { tDirs { tDir with matchedBy := [7] } with moves := [m] }
     m.srcAt = false ∧ s.dir.get? (m.src, m.ent) = some { tDir with matchedBy := [7] } ∧ tDir.key = m.key) := by
  refine ⟨?_, ?_, ?_, ?_, ?_, ?_, ?_, ?_, ?_, ⟨rfl, ?_⟩, ?_, ?_⟩
  case refine_10 => simp only [State.freeDir, tFull_full]; rfl
  all_goals decide +kernel

/-! ### Witnesses: modules, digests and launches -/

/-- Code images at 0x12000 and 0x600000 beside module 0, and module 1 of 16 bytes. -/
def tImg (s : State := tS) : State :=
  let img (a : Nat) : Memory := [(a, 0x4D), (a + 1, 0x4F), (a + 2, 0x44), (a + 3, 0x4C), (a + 4, 1), (a + 8, 0x80), (a + 16, 8)]
  { tObjM s with hbm := img 0x12000 ++ tObjM.hbm ++ [(0x400012, 0x80), (0x400017, 0x80), (0x400018, 0x10)] ++ img 0x600000 }
/-- The same with an empty table and as little memory as the image needs. -/
def tImg0 : State :=
  { tImg with hbm := [(0x100000, 1), (0x100002, 0x20), (0x200000, 1), (0x200002, 0x21), (0x210000, 0x13), (0x600000, 0x4D), (0x600001, 0x4F), (0x600002, 0x44),
      (0x600003, 0x4C), (0x600004, 1), (0x600008, 0x80), (0x600010, 8)] }
/-- The words of the image MODL reads. -/
def tImgW (c : Ctx) (img i : Nat) : Nat :=
  ((c.s0.l1Acquire c.r.coreRef (c.s0.asidOf c.g) (some [(img, 64)])).homeRead64 c.r.die (c.s0.asidOf c.g) (img + 8 * i)).toNat
/-- A table entry whose first word has 0 in its top byte is not valid. -/
theorem modEnt_invalid (s : State) (die asid i : Nat) (h : s.homeByte die 0 (s.modEntAddr asid i + 7) = 0) : (s.modEnt die asid i).valid = false := by
  have hb : ∀ x : Byte, x.toNat < 256 := fun x => x.isLt
  simp only [State.modEnt, State.homeRead64, State.homeRead, List.range_succ, List.range_zero, List.nil_append, List.cons_append, List.map_cons, List.map_nil,
    bytesToNat, h]
  have := hb (s.homeByte die 0 (s.modEntAddr asid i + 0)); have := hb (s.homeByte die 0 (s.modEntAddr asid i + 1))
  have := hb (s.homeByte die 0 (s.modEntAddr asid i + 2)); have := hb (s.homeByte die 0 (s.modEntAddr asid i + 3))
  have := hb (s.homeByte die 0 (s.modEntAddr asid i + 4)); have := hb (s.homeByte die 0 (s.modEntAddr asid i + 5))
  have := hb (s.homeByte die 0 (s.modEntAddr asid i + 6))
  simp [bits]
  omega
/-- An entry of the module table. -/
def tEnt (c : Ctx) (i : Nat) : ModEnt := c.s0.modEnt c.r.die (c.s0.asidOf c.g) i
abbrev tModl (img : Nat) (P : Ctx → Prop) (s : State := tImg) : Prop :=
  WitA (tK 4 (BitVec.ofNat 64 img) s) (srcRds (o 324)) [] (fun c => (c.k 4).toNat = img ∧
    c.s0.engineFault c.r.coreRef (c.s0.asidOf c.g) img 64 false = none ∧
    c.s0.engineFault c.r.coreRef 0 (c.s0.modEntAddr (c.s0.asidOf c.g) 0) 4096 true = none ∧ P c)

theorem tImg0_entries : ∀ i < 256, (tK 4 0x600000 tImg0).homeByte 0 0 ((tK 4 0x600000 tImg0).modEntAddr 0 i + 7) = 0 := by
  intro i hi
  have h : ((List.range 256).all (fun i => decide ((tK 4 0x600000 tImg0).homeByte 0 0 (0x400007 + 16 * i) = 0))) = true := by decide +kernel
  simp only [List.all_eq_true, List.mem_range, decide_eq_true_eq] at h
  have e : (tK 4 0x600000 tImg0).modEntAddr 0 i + 7 = 0x400007 + 16 * i := by
    simp only [State.modEntAddr]
    show (0x400000 : DWord).toNat + 0 * 0x1000 + 16 * i + 7 = _
    simp; omega
  rw [e]; exact h i hi

theorem tImg0_apart (c : Ctx) (hs : c.s0 = tK 4 0x600000 tImg0) (hd : c.r.die = 0) (hg : c.s0.asidOf c.g = 0) :
    ∀ i < 256, ¬((tEnt c i).valid = true ∧ 0x600080 < (tEnt c i).base + (tEnt c i).len ∧ (tEnt c i).base < 0x600080 + 8) := by
  intro i hi ⟨hv, _, _⟩
  have := modEnt_invalid c.s0 c.r.die (c.s0.asidOf c.g) i (by rw [hs, hd, ← hs, hg, hs]; exact tImg0_entries i hi)
  rw [tEnt] at hv; rw [this] at hv; exact absurd hv (by decide)

theorem wit_ModulesAndCounters :
    WitA tS (srcRds (o 324)) [] (fun c => c.s0.codeReachable c.r.coreRef (c.s0.asidOf c.g) 0 = false) ∧
    WitA (tK 4 0x1FF80 tImg) (srcRds (o 324)) [] (fun c => c.s0.codeReachable c.r.coreRef (c.s0.asidOf c.g) 0x1FF80 = true ∧ c.r.home = false ∧
      0 < l0Lines c.r.coreRef) ∧
    (255 < (256 : BitVec 16).toNat) ∧
    tModl 0x600000 (fun c => (tEnt c 0).valid = true ∧ ∃ l ∈ c.s0.launches, l.part = c.s0.partIdx c.r.die ∧ l.lrec.asid = c.s0.asidOf c.g ∧ l.lrec.mdl = 0 ∧ l.state ≠ .done) ∧
    tModl 0x500000 (fun c => (∀ l ∈ c.s0.launches, l.lrec.mdl ≠ 2) ∧ tImgW c 0x500000 0 ≠ 0x14C444F4D) ∧
    tModl 0x12000 (fun c => tImgW c 0x12000 0 = 0x14C444F4D ∧ tImgW c 0x12000 1 = 128 ∧ tImgW c 0x12000 2 = 8 ∧
      (∀ i ∈ [3, 4, 5, 6, 7], tImgW c 0x12000 i = 0) ∧ (tEnt c 0).valid = true ∧ 0x12080 < (tEnt c 0).base + (tEnt c 0).len ∧ (tEnt c 0).base < 0x12080 + 8) ∧
    tModl 0x600000 (s := tImg0) (fun c => tImgW c 0x600000 0 = 0x14C444F4D ∧ tImgW c 0x600000 1 = 128 ∧ tImgW c 0x600000 2 = 8 ∧
      (∀ i ∈ [3, 4, 5, 6, 7], tImgW c 0x600000 i = 0) ∧
      ∀ i < 256, ¬((tEnt c i).valid = true ∧ 0x600080 < (tEnt c i).base + (tEnt c i).len ∧ (tEnt c i).base < 0x600080 + 8)) ∧
    WitA tImg [] [] (fun c => c.s0.engineFault c.r.coreRef 0 (c.s0.modEntAddr (c.s0.asidOf c.g) 255) 16 true = none ∧ (tEnt c 255).valid = false ∧
      ∀ l ∈ c.s0.launches, l.lrec.mdl ≠ 255) ∧
    WitA tImg [] [] (fun c => c.s0.engineFault c.r.coreRef 0 (c.s0.modEntAddr (c.s0.asidOf c.g) 1) 16 true = none ∧ (tEnt c 1).valid = true ∧
      ∀ l ∈ c.s0.launches, l.lrec.mdl ≠ 1) ∧
    (11 ≤ (0xB00 : BitVec 16).toNat / 256) ∧ (openCounter 0x102 = false ∨ openCounter 0x101 = false) ∧
    WitA tUser [] [] (fun c => c.s0.privileged c.g = false) ∧
    WitA tS [] [] (fun c => c.s0.privileged c.g = true ∧ c.s0.counterKey c.r.coreRef 0 ≠ (c.r.coreRef, 0x101)) := by
  refine ⟨?_, ?_, ?_, ?_, ?_, ?_, wit_of (by decide +kernel) ⟨?_, ?_, ?_, ?_, ?_, ?_, ?_, tImg0_apart _ ?_ ?_ ?_⟩, ?_, ?_, ?_, ?_, ?_, ?_⟩
  all_goals first | rfl | exact wit_of (by decide +kernel) (by decide +kernel) | decide +kernel

/-- A piste launch of 2 logical cores and 2 waves with 8 tasks, its table at 0x2000. -/
def tPis (b : Block → Block) (s : State := tM) : State :=
  tLr (fun r => { r with piste := true, ptasks := 8, plcores := 2, pwaves := 2, pdtab := 0x2000 }) { s with blocks := s.blocks.map b }

/-- A gather-direct page of HBM at address 0 that migrates. -/
def tGdM (s : State := tS) : State :=
  { tM 0x33 s with
    migrs := [⟨⟨tR, 0, 6, 3⟩, 0, 0, 2, 0x40000000, 0, 0x40000000, 0x210000, 0x33, []⟩] }

/-- The table's page migrates. -/
theorem wit_TaskDigests_held :
    WitA (tPis (fun b => { b with task := some 4 }) tGdM) [] [] (fun c =>
      c.s0.engineFault c.r.coreRef (c.s0.recOf c.g).asid (((c.s0.recOf c.g).pdtab + 8 * 4) % 2 ^ 64) 8 true = none ∧
      c.s0.gdMigrates c.r.die (c.s0.recOf c.g).asid (((c.s0.recOf c.g).pdtab + 8 * 4) % 2 ^ 64) = true) :=
  wit_of (by decide +kernel) (by decide +kernel)

theorem wit_TaskDigests :
    WitA (tK 4 1 (tPis id)) (srcRds (o 324)) [] (fun c => c.s0.blockOf c.g = some tB ∧ (c.s0.recOf c.g).piste = true ∧
      ¬(((c.k 4).toNat - c.g.blk) % ((c.s0.recOf c.g).plcores * (c.s0.recOf c.g).pwaves) = 0)) ∧
    WitA (tK 4 4 (tPis id)) (srcRds (o 324)) [] (fun c => c.s0.blockOf c.g = some tB ∧ (c.s0.recOf c.g).piste = true ∧ tB.task = none ∧
      (c.k 4).toNat < (c.s0.recOf c.g).ptasks ∧ c.g.blk ≤ (c.k 4).toNat ∧
      ((c.k 4).toNat - c.g.blk) % ((c.s0.recOf c.g).plcores * (c.s0.recOf c.g).pwaves) = 0) ∧
    WitA tS [] [] (fun c => (c.s0.recOf c.g).piste = false) ∧
    WitA (tPis (fun b => { b with task := some 4 })) [] [] (fun c => (c.s0.recOf c.g).piste = true ∧
      c.s0.blockOf c.g = some { tB with task := some 4 } ∧
      c.s0.engineFault c.r.coreRef (c.s0.recOf c.g).asid (((c.s0.recOf c.g).pdtab + 8 * 4) % 2 ^ 64) 8 true = none ∧
      c.s0.homeRead64 c.r.die (c.s0.recOf c.g).asid (((c.s0.recOf c.g).pdtab + 8 * 4) % 2 ^ 64) = tB.dig ∧
      c.s0.gdMigrates c.r.die (c.s0.recOf c.g).asid (((c.s0.recOf c.g).pdtab + 8 * 4) % 2 ^ 64) = false) ∧
    WitA (tPis (fun b => { b with task := some 4, dig := 5 })) [] [] (fun c => c.s0.blockOf c.g = some { tB with task := some 4, dig := 5 } ∧
      c.s0.homeRead64 c.r.die (c.s0.recOf c.g).asid (((c.s0.recOf c.g).pdtab + 8 * 4) % 2 ^ 64) ≠ 5) ∧
    WitA (tPis (fun b => { b with task := some 4, dig := 5, mismatch := true })) [] [] (fun c =>
      c.s0.blockOf c.g = some { tB with task := some 4, dig := 5, mismatch := true } ∧ (c.s0.launch? c.g.lid).isSome = true) := by
  repeat' apply And.intro
  all_goals exact wit_of (by decide +kernel) (by decide +kernel)

/-- A launch record in memory at 0x310000, with bytes replaced. -/
def tRecW (ws : Memory) (s : State := tImg) : State :=
  { s with hbm := (ws ++ [(7, 1), (16, 1)] : Memory).map (fun x : Nat × Byte => (0x310000 + x.1, x.2)) ++ s.hbm }
/-- The code that LAUNCH answers with, 0 when it accepts. -/
def tCode (s : State) (r : LaunchRec) (ntl page : Option Nat) : Nat :=
  let m := s.modEnt 0 r.asid r.mdl
  let q := s.queueLaunches 0 r.queue
  if !r.wf || r.deps.any (fun d => !refWf d.1 ntl) || !refWf r.comp ntl || (bindEntries r (s.readBinds 0 r)).isNone ||
    (r.span == 2 && (decide (s.podSize < r.podn + 1) || decide (r.podn < s.pkg))) then 1
  else if !m.valid || decide (m.len ≤ r.entry) || (r.hen && decide (m.len ≤ r.handler)) then 2
  else if noFit (s.partDies 0) s.pkg r then 3
  else if r.piste && (!r.persist || r.blocks + 1 != r.plcores * r.pwaves || decide ((spanCores (s.partDies 0) r).length < r.plcores)) then 4
  else if 128 ≤ q.length then 5
  else if q.any (fun l => l.lrec.asid != r.asid) || page.any (fun p => p != r.queue) then 6
  else 0
/-- LNCH of that record. -/
abbrev tLnch (s : State) (n : Nat) : Prop :=
  WitA (tK 4 0x310000 s) (srcRds (o 324)) [] (fun c => (c.k 4).toNat % 256 = 0 ∧ c.g.isResponder = false ∧ c.g.isPack = false ∧
    c.s0.pisteOf c.g = false ∧ c.s0.groupDrained c.r = true ∧
    (let u := c.s0.releaseAt c.r.coreRef (c.s0.asidOf c.g) 2 (some [((c.k 4).toNat, 256)])
     let r := recordOf (u.readWords 0 0 (c.k 4).toNat 32)
     u.needPages c.r.coreRef (c.s0.asidOf c.g) [((c.k 4).toNat, 256)] = none ∧ u.needPages c.r.coreRef r.asid [(r.bindt, 16 * r.nbind)] = none ∧
      tCode u r (some (c.s0.recOf c.g).ntl) none = n ∧ ∀ x ∈ u.podNews, x.asid = r.asid → x.recAddr = (c.k 4).toNat → ∀ m ∈ x.msgs, m.2 = true))
/-- Queue 0 of partition 0 holds launch 1 n times. -/
def tQueue (n : Nat) (s : State := tImg) : State := { s with dists := [(0, ⟨[(0, List.replicate n 1)], 191, 0⟩)] }
/-- Command page 0 of partition 0, its steward running. -/
def tPage (c : Option Command) (cells : Memory) (s : State := tImg) : State :=
  { s with
    boot := { s.boot with stewards := [0] }, pages := [((0, 0), ⟨0x700000, 0, false, c⟩)]
    hbm := cells ++ s.hbm }
/-- The same record for a pod of two packages, the part of package 1 having been accepted or refused. -/
def tPodR (ok : Bool) (s : State := tImg) : State :=
  { tRecW [(6, 2), (47, 1)] s with podSize := 2, podNews := [⟨0, 0x310000, [(1, ok)], []⟩] }
abbrev tCmd (c : Command) (s : State) (P : State → Prop) : Prop :=
  (tPage (some c) [] s).pages.get? (0, 0) = some ⟨0x700000, 0, false, some c⟩ ∧
    (tPage (some c) [] s).engineFault ((tPage (some c) [] s).stewardCore 0) 0 0x700000 8 true = none ∧ (tPage (some c) [] s).stewardRuns 0 = true ∧ P (tPage (some c) [] s)

theorem wit_LaunchCommands :
    WitA (tK 4 0x310080) (srcRds (o 324)) [] (fun c => (c.k 4).toNat % 256 ≠ 0) ∧
    WitA (tResp false) (srcRds (o 324)) [] (fun c => (c.k 4).toNat % 256 = 0 ∧ c.g.isResponder = true) ∧
    WitA (tLr (fun r => { r with piste := true })) (srcRds (o 324)) [] (fun c => c.g.isResponder = false ∧ c.g.isPack = false ∧ c.s0.pisteOf c.g = true) ∧
    WitA { tS with ops := [tOp tStg 0x1000 .waiting] } (srcRds (o 324)) [] (fun c => c.s0.pisteOf c.g = false ∧ c.s0.groupDrained c.r = false) ∧
    tLnch (tRecW [(7, 2)]) 1 ∧ tLnch (tRecW [(10, 1)]) 2 ∧ tLnch (tRecW [(16, 0x40), (17, 1), (23, 0xF0)]) 3 ∧
    tLnch (tRecW [(4, 8), (220, 1)]) 4 ∧ tLnch (tRecW [] (tQueue 128)) 5 ∧
    tLnch (tRecW [(8, 0xF8), (9, 0xFF)] (tQueue 127)) 0 ∧
    tLnch (tPodR true) 0 ∧
    WitA (tK 4 0x310000 (tPodR false)) (srcRds (o 324)) [] (fun c => c.s0.groupDrained c.r = true ∧
      (let u := c.s0.releaseAt c.r.coreRef (c.s0.asidOf c.g) 2 (some [((c.k 4).toNat, 256)])
       let r := recordOf (u.readWords 0 0 (c.k 4).toNat 32)
       tCode u r (some (c.s0.recOf c.g).ntl) none = 0 ∧ ∃ p ∈ u.podOthers r, ∃ m ∈ [(p, false)],
        (u.news r.asid (c.k 4).toNat).msgs.find? (fun m => m.1 = p) = some m ∧ m.2 = false)) ∧
    (let s := tPage none []
     ∀ e ∈ [0, 2], ({ s with pages := [((0, 0), ⟨0x700000, e, true, none⟩)] } : State).pages.get? (0, 0) = some ⟨0x700000, e, true, none⟩) ∧
    tCmd ⟨1, 0x310000, 0, 0, 0⟩ (tPodR false) (fun s => tCode s (recordOf (s.readWords 0 0 0x310000 32)) none (some 0) = 0 ∧
      (s.news 0 0x310000).msgs = [(1, false)] ∧ 1 ∈ s.podOthers (recordOf (s.readWords 0 0 0x310000 32))) ∧
    tCmd ⟨2, 0x4000000000008000, 9, 0, 0⟩ tGdM (fun s => s.gdMigrates 0 0 0x8000 = true) ∧
    (let s := tUser (tRecW [] (tQueue 1))
     tCode s (recordOf (s.readWords 0 0 0x310000 32)) none none = 6 ∧ tCode (tRecW []) (recordOf ((tRecW []).readWords 0 0 0x310000 32)) none (some 5) = 6) ∧
    (let s := tPage none []
     s.pages.get? (0, 0) = some ⟨0x700000, 0, false, none⟩ ∧ s.stewardRuns 0 = true ∧ s.engineFault (s.stewardCore 0) 0 0x700000 8 true = none ∧ (s.homeRead64 0 0 0x700000).toNat ≤ (s.homeRead64 0 0 0x700008).toNat) ∧
    (let s := tPage none [(0x700001, 2)]
     (s.homeRead64 0 0 0x700008).toNat + 511 < (s.homeRead64 0 0 0x700000).toNat) ∧
    (let s := tPage none [(0x700000, 255), (0x700001, 1)]
     (s.homeRead64 0 0 0x700008).toNat < (s.homeRead64 0 0 0x700000).toNat ∧ (s.homeRead64 0 0 0x700000).toNat ≤ (s.homeRead64 0 0 0x700008).toNat + 511) ∧
    tCmd ⟨1, 0x310080, 0, 0, 0⟩ tImg (fun _ => (0x310080 : DWord).toNat % 256 ≠ 0) ∧
    tCmd ⟨1, 0x310000, 0, 0, 0⟩ (tRecW [(7, 2)]) (fun s => s.needPages (s.stewardCore 0) 0 [(0x310000, 256)] = none ∧
      tCode s (recordOf (s.readWords 0 0 0x310000 32)) none (some 0) = 1) ∧
    tCmd ⟨1, 0x310000, 0, 0, 0⟩ (tRecW []) (fun s => s.needPages (s.stewardCore 0) 0 [(0x310000, 256)] = none ∧
      tCode s (recordOf (s.readWords 0 0 0x310000 32)) none (some 0) = 0 ∧ s.podNews = []) ∧
    tCmd ⟨2, 0x4000000000008000, 9, 0, 0⟩ tImg (fun s => refKind 0x4000000000008000 = 1 ∧ s.gdMigrates 0 0 0x8000 = false ∧ s.engineFault (s.stewardCore 0) 0 0x8000 8 true = none) ∧
    tCmd ⟨3, 0x600000, 255, 0, 0⟩ tImg (fun s => s.needPages (s.stewardCore 0) 0 [(0x600000, 64), (s.modEntAddr 0 0, 4096)] = none) ∧
    tCmd ⟨4, 0, 255, 0, 0⟩ tImg (fun _ => (255 : DWord).toNat ≤ 255) ∧
    tCmd ⟨5, 0x4000000000008000, 9, 0, 0⟩ tImg (fun s => refKind 0x4000000000008000 = 1 ∧ (s.homeRead64 0 0 0x8000).toNat < (9 : DWord).toNat) ∧
    tCmd ⟨5, 0x4000000000008000, 0, 0, 0⟩ tImg (fun s => (0 : DWord).toNat ≤ (s.homeRead64 0 0 0x8000).toNat) ∧
    tCmd ⟨6, 0, 0, 0, 0⟩ tImg (fun _ => True) := by
  refine ⟨?_, ?_, ?_, ?_, ?_, ?_, ?_, ?_, ?_, ?_, ?_, ?_, ?_, ?_, ?_, ?_, ?_, ?_, ?_, ?_, ?_, ?_, ?_, ?_, ?_, ?_, ?_, ?_⟩
  all_goals first | exact wit_of (by decide +kernel) (by decide +kernel) | decide +kernel

/-! ### Witnesses: the states of a launch -/

/-- Launch 2, alone in queue 0 of partition 0. -/
def tL2 : Launch := { (default : Launch) with lid := 2, lrec := tRec, recAddr := 0x310000, base := 0x10000, tls := [0, 0, 0, 0], unplaced := [0] }
def tLs (l : Launch) : State := { tObjM with launches := [tL, l], dists := [(0, ⟨[(0, [2])], 191, 0⟩)] }
def tDep : Launch := { tL2 with lrec := { tRec with deps := [(0x4000000000008000, 9), (0, 0), (0, 0), (0, 0)] } }
def tPod : Launch := { tL2 with lrec := { tRec with span := 2 } }
def tDone (l : Launch) : State := { tM with groups := [], blocks := [], launches := [l] }
def tDeps (s : State) (l : Launch) : Bool :=
  l.lrec.deps.all (fun d => decide (refKind d.1 = 0) || decide (d.2.toNat ≤ s.refValue (s.distCore l.part).die l.lrec.asid l.issuer d.1))

theorem wit_LaunchSteps_1 :
    ((tLs tDep).queueLaunches 0 0).find? (fun l => l.state = .queued || l.state = .ready) = some tDep := by
  decide +kernel
theorem wit_LaunchSteps_2 :
    tDep.state = .queued := by
  decide +kernel
theorem wit_LaunchSteps_3 :
    tDeps (tLs tDep) tDep = false := by
  decide +kernel
theorem wit_LaunchSteps_4 :
    ((tLs tPod).queueLaunches 0 0).find? (fun l => l.state = .queued || l.state = .ready) = some tPod := by
  decide +kernel
theorem wit_LaunchSteps_5 :
    tPod.lrec.span = 2 := by
  decide +kernel
theorem wit_LaunchSteps_6 :
    ∀ p ≤ tPod.lrec.podn, p = (tLs tPod).pkg ∨ p ∈ tPod.podAccepted := by
  decide +kernel
theorem wit_LaunchSteps_7 :
    let s := { tLs { tL2 with lrec := { tRec with tlinit := 0x310000, gft := 0x310000, bindt := 0x310010, nbind := 1 } } with hbm := (0x31001F, 0x20) :: tObjM.hbm }
    let l : Launch := { tL2 with lrec := { tRec with tlinit := 0x310000, gft := 0x310000, bindt := 0x310010, nbind := 1 } }
    (s.queueLaunches 0 0).find? (fun l => l.state = .queued || l.state = .ready) = some l ∧ tDeps s l = true ∧ l.lrec.span ≠ 2 ∧
      s.needPages (s.distCore 0) l.lrec.asid [(l.lrec.bindt, 16 * l.lrec.nbind), (l.lrec.gft, 1024), (l.lrec.tlinit, 8 * l.lrec.ntl)] = none ∧
      (bindEntries l.lrec (s.readBinds (s.distCore 0).die l.lrec)).isSome := by
  decide +kernel
theorem wit_LaunchSteps_8 :
    (tLs tPod).podPart 0 0x310000 1 = some tPod ∧ 1 ∉ ((tLs tPod).news 0 0x310000).stale ∧ (tLs tPod).launch? tPod.lid = some tPod ∧
      (∀ x ∈ tPod.doneOuts, (tLs tPod).engineFault ((tLs tPod).distCore tPod.part) 0 x.1 x.2 true = none) ∧
      (tLs tPod).outsHeld ((tLs tPod).distCore tPod.part).die 0 tPod.doneOuts = false := by
  decide +kernel
theorem wit_LaunchSteps_9 :
    let s : State := { tLs tPod with podNews := [⟨0, 0x310000, [], [1]⟩] }
    1 ∈ (s.news 0 0x310000).stale := by
  decide +kernel
theorem wit_LaunchSteps_10 :
    tM.podPart 0 0x310000 1 = none ∧ 1 ∉ (tM.news 0 0x310000).stale := by
  decide +kernel
theorem wit_LaunchSteps_11 :
    let l : Launch := { tL2 with state := .ready }
    (tLs l).held = false ∧ 0 ∉ (tLs l).stopped ∧ (tLs l).offers 0 = [] ++ l :: [] ∧ ((tLs l).planFor l).isSome ∧ l.unplaced ≠ [] ∧
      (tLs l).launch? l.lid = some l := by
  decide +kernel
theorem wit_LaunchSteps_12 :
    let s := tW (fun g => { g with phase := .placed }) tM
    let g := { tG with phase := .placed }
    s.group? tR = some g ∧ s.launch? g.lid = some tL ∧ s.needPages tR.coreRef tL.lrec.asid [(tL.lrec.kargs, 0)] = none := by
  decide +kernel
theorem wit_LaunchSteps_13 :
    let s := tLr (fun r => { r with kargs := 0x310000 }) (tW (fun g => { g with phase := .placed }) tM)
    s.needPages tR.coreRef 0 [(0x310000, 128)] = none ∧ (s.launch? 1).map (fun l => l.lrec.kargs) = some 0x310000 := by
  decide +kernel
theorem wit_LaunchSteps_14 :
    let l : Launch := { tL with state := .draining }
    (tDone l).launch? 1 = some l ∧ (tDone l).launchQuiet 1 l.lrec.asid = true ∧ l.lrec.stata = 0 ∧ refKind l.lrec.comp ≠ 1 ∧
      (tDone l).outsHeld 0 0 l.doneOuts = false ∧ (tDone l).regions = [] := by
  decide +kernel
theorem wit_LaunchSteps_15 :
    let l : Launch := { tL with state := .draining, trapped := 1, lrec := { tRec with stata := 0x310000, comp := 0x4000000000008000, compv := 1 } }
    (tDone l).launch? 1 = some l ∧ (tDone l).launchQuiet 1 l.lrec.asid = true ∧
      (tDone l).engineFault ((tDone l).distCore 0) 0 0x310000 16 true = none ∧ refKind l.lrec.comp = 1 ∧
      (tDone l).engineFault ((tDone l).distCore 0) 0 (bits l.lrec.comp.toNat 55 0) 8 true = none ∧
      (tDone l).outsHeld 0 0 l.doneOuts = false := by
  decide +kernel

/-! ### Witnesses: scheduling and code fetch -/

/-- The group's split 0, selected, over a line of code at 0x10000 in the L0. -/
def tFe (f : Split → Split) (ws : List DWord) (fg : Group → Group := id) : State :=
  { tW fg (tSp f tObjM) with
    sched := [((tR.coreRef, 0), ⟨some (0, 0), none⟩)]
    icL0 := [((tR.coreRef, 0), [⟨0, 512, ws⟩])] }
def tFg (s : State) : Group := (s.group? tR).getD tG
def tAt (x : Nat) (s : Split) : Split := { s with hdr := x }
def nopW : DWord := 0x0070000000000000
/-- What every clause of CLAUSE_START asks. -/
def tSel (s : State) (h : Nat) : Bool :=
  let g := tFg s
  decide (s.group? tR = some g) && decide ((s.sched.getD (tR.coreRef, partOf tR) default).sel = some (tR.slot, 0)) && !(g.split 0).started &&
  s.splitReady g 0 && !s.held && decide (s.partIdx tR.die ∉ s.stopped) && decide ((g.split 0).hdr = h)
def tInl (s : State) (h : Nat) (p : Clause → Bool) : Bool :=
  (s.moduleAt 0 (s.asidOf (tFg s)) h).isSome && ((tFg s).split 0).clause.isNone &&
  (match s.fetchClause tR.coreRef 0 (s.asidOf (tFg s)) h with | .inl c => p c | .inr _ => false)
def tInr (s : State) (h : Nat) (p : Nat → Bool) : Bool :=
  (s.moduleAt 0 (s.asidOf (tFg s)) h).isSome && ((tFg s).split 0).clause.isNone &&
  (match s.fetchClause tR.coreRef 0 (s.asidOf (tFg s)) h with | .inr a => p a && (s.moduleAt 0 (s.asidOf (tFg s)) a).isSome | .inl _ => false)
def noFault (s : State) (c : Clause) : Bool := (clauseFault (s.recOf (tFg s)) (tFg s) 0x10000 c).isNone
/-- A clause that begins at a join: bit 38 of its header. -/
def tJ (x : Join) (m : Mask := 3) (jr : Nat := 2) : State :=
  tFe (fun sp => { tAt 0x10000 sp with mask := m, jref := jr }) [0x4000000000, nopW] (fun g => { g with joins := g.joins.set 2 x })
def tJoin : Join := { Join.free with valid := true, mask := 3, j := 0x10000 }
def tJoins (s : State) (p : Join → Mask → Bool) : Bool :=
  tSel s 0x10000 && tInl s 0x10000 (fun c => noFault s c && bits c.hdr.toNat 38 38 == 1) && ((tFg s).split 0).slot == 0 &&
  (match (tFg s).joins[((tFg s).split 0).jref]? with
   | some j => p j (j.arrived ||| ((tFg s).split 0).mask ||| ((tFg s).split 0).dorm)
   | none => ((tFg s).split 0).jref == 0x1F)
/-- A split that waits for its clause's wait slots, A being counter 1 at most 0. -/
def tWs (n : Nat) : State :=
  tW (fun g => { g with ctr := { g.ctr with copy := n } }) (tSp (fun sp => { sp with state := .blocked, wait := .waitSlot, clause := some ⟨2 ^ 54, [nopW]⟩ }) tS)
def tFill (s : State) : State := { s with ifills := [⟨7, tR.coreRef, 0, 0, 512⟩] }

theorem wit_SchedulerAndFetch_1 :
    (tFe id []).held = false ∧ (tFe id []).partIdx tR.coreRef.die ∉ (tFe id []).stopped ∧ tSel (tFe id []) (tG.split 0).hdr = true := by
  decide +kernel
theorem wit_SchedulerAndFetch_2 :
    let s := tFe (fun sp => { sp with started := true, clause := some ⟨0, [nopW]⟩ }) []
    let u := ((s.resident tR.coreRef 0).map (·.ref)).foldl (fun (s : State) r => s.wakeGroup r) s
    (tFg u).split 0 ≠ tG.split 0 ∧ ((tFg u).split 0).started = true ∧ u.splitReady (tFg u) 0 = true := by
  decide +kernel
theorem wit_SchedulerAndFetch_3 :
    let g := tFg (tWs 0)
    (tWs 0).group? tR = some g ∧ (g.split 0).state = .blocked ∧ (g.split 0).trap = none ∧ (g.split 0).wait = .waitSlot ∧ waitsHold g (2 ^ 54) = true := by
  decide +kernel
theorem wit_SchedulerAndFetch_4 :
    waitsHold (tFg (tWs 1)) (2 ^ 54) = false := by
  decide +kernel
theorem wit_SchedulerAndFetch_5 :
    tS.group? tR = some tG ∧ tS.oldestReady tG ≠ none ∧ (tS.sched.getD (tR.coreRef, partOf tR) default).sel = none := by
  decide +kernel
theorem wit_SchedulerAndFetch_6 :
    tSel (tFe (fun sp => { tAt 0x10000 sp with clause := some ⟨0, [nopW]⟩ }) []) 0x10000 = true := by
  decide +kernel
theorem wit_SchedulerAndFetch_7 :
    tSel (tFe (tAt 0x10004) []) 0x10004 = true ∧ ((tFg (tFe (tAt 0x10004) [])).split 0).clause = none := by
  decide +kernel
theorem wit_SchedulerAndFetch_8 :
    tSel (tFe (tAt 0x10040) []) 0x10040 = true ∧ tInr { tFe (tAt 0x10080) [] with icL0 := [] } 0x10080 (fun a => a == 0x10080) = true := by
  decide +kernel
theorem wit_SchedulerAndFetch_9 :
    tSel (tFe (tAt 0x10078) (List.replicate 16 0)) 0x10078 = true ∧ tInr (tFe (tAt 0x10078) (List.replicate 16 0)) 0x10078 (fun a => a == 0x10080) = true := by
  decide +kernel
theorem wit_SchedulerAndFetch_10 :
    let s := tFe (tAt 0x10000) [0x10000, nopW]
    tSel s 0x10000 = true ∧ tInl s 0x10000 (fun c => (clauseFault (s.recOf (tFg s)) (tFg s) 0x10000 c).isSome) = true := by
  decide +kernel
theorem wit_SchedulerAndFetch_11 :
    let s := tFe (tAt 0x10000) [0, nopW]
    tSel s 0x10000 = true ∧ tInl s 0x10000 (fun c => noFault s c && bits c.hdr.toNat 38 38 == 0 && c.slots == [nopW]) = true := by
  decide +kernel
theorem wit_SchedulerAndFetch_12 :
    tJoins (tJ tJoin 3 0x1F) (fun _ _ => false) = true := by
  decide +kernel
theorem wit_SchedulerAndFetch_13 :
    tJoins (tJ Join.free) (fun j _ => !j.valid) = true := by
  decide +kernel
theorem wit_SchedulerAndFetch_14 :
    tJoins (tJ { tJoin with defer := true, dmask := 0xC, dpc := 0x10000 }) (fun j _ => j.valid && j.j == 0x10000 && j.defer) = true := by
  decide +kernel
theorem wit_SchedulerAndFetch_15 :
    tJoins (tJ { tJoin with mask := 7 }) (fun j m => j.valid && j.j == 0x10000 && !j.defer && m != j.mask) = true := by
  decide +kernel
theorem wit_SchedulerAndFetch_16 :
    tJoins (tJ tJoin) (fun j m => j.valid && j.j == 0x10000 && !j.defer && m == j.mask && j.outer == 0x1F) = true := by
  decide +kernel
theorem wit_SchedulerAndFetch_17 :
    let s := tFill tObjM
    (s.ifills.find? (fun f => f.id = 7)).isSome ∧ s.rangeFault 0 0 0x10000 128 false = none ∧ s.poisonAt 0 0 0x10000 128 = none := by
  decide +kernel
theorem wit_SchedulerAndFetch_18 :
    let s := tFill { tFe (fun sp => { tAt 0x10000 sp with state := .blocked, wait := .fetch }) [] with icL0 := [] }
    s.lineWaiters ⟨7, tR.coreRef, 0, 0, 512⟩ = [(tR, 0)] ∧ s.rangeFault 0 0 0x10000 128 false = none := by
  decide +kernel
theorem wit_SchedulerAndFetch_19 :
    (tFill tS).rangeFault 0 0 0x10000 128 false ≠ none := by
  decide +kernel

/-- With nothing in memory no address lies in a module. -/
theorem wit_SchedulerAndFetch_noModule : (let s := { tSp (tAt 0x10000) tS with sched := [((tR.coreRef, 0), ⟨some (0, 0), none⟩)] }
    tSel s 0x10000 = true ∧ s.moduleAt tR.die (s.asidOf (tFg s)) 0x10000 = none) := by
  decide +kernel

/-! ### Witnesses: translation, migration and errors -/

/-- 2 MiB mapped at address 0 of ASID 0, nothing kept of it; top: the leaf's top byte. -/
def tM2 (top : Byte := 0) (s : State := tS) : State :=
  { s with
    regs := { s.regs with ctxbase := 0x100000 }
    hbm := [(0x100000, 1), (0x100002, 0x20), (0x200000, 1), (0x200002, 0x21), (0x210000, 1), (0x210002, 0x22), (0x220000, 0x13)] ++
      (if top = 0 then [] else [(0x220007, top)]) }
def tWalkB (s : State) (asid a : Nat) (p : DWord → Nat → Bool) : Bool :=
  (s.walkAll 0 asid a).2.all (fun x => !s.poison.contains (s.physKey 0 x / 16 * 16)) &&
  (match (s.walkAll 0 asid a).1 with | .leaf l lv => p l lv | .fault _ _ _ => false)
def tFaultB (s : State) (asid a : Nat) : Bool :=
  (s.walkAll 0 asid a).2.all (fun x => !s.poison.contains (s.physKey 0 x / 16 * 16)) && (match (s.walkAll 0 asid a).1 with | .leaf _ _ => false | .fault _ _ _ => true)
/-- MIGR of address a to destination dst. -/
abbrev tMig (a dst : Nat) (s : State) (P : Ctx → Prop) : Prop :=
  WitA (tK 5 (BitVec.ofNat 64 dst) (tK 4 (BitVec.ofNat 64 a) s)) (kRds (o 324) 2) [] (fun c => (c.k 4).toNat = a ∧ (c.k 5).toNat = dst ∧ P c)
def tMg : Migr :=
  { id := 3, g := tR, entry := 0, kd := 6, asid := 0, va := 0, level := 1, size := 0x200000, old := 0, new := 0x800000, leafAt := 0x220000, leaf := 0x13,
    held := [] }
def badB (s : State) (die pa : Nat) (l : DWord) (lv : Nat) : Bool :=
  leafSec l || leafOwn l == 3 || lv == 2 || pa % levelSize lv != 0 || bits pa 51 44 != s.pkg || s.outside die (pa + levelSize lv - 1) || s.outside die pa ||
    pa == leafPa l
/-- An access whose lane 0 meets poison: in memory, or in a line of the core. -/
def tPois (own : Nat) (dirty : Bool) : State :=
  { tM with
    ops := [tOp tLdg 0x1000 .accepted]
    poison := if dirty then [] else [0x1000]
    l1d := if dirty then [(tR.coreRef, [⟨0, 32, [], [], false, false, 0, 0, own, [0]⟩])] else [] }
def tMeets (own : Nat) (dirty : Bool) : Bool :=
  let s := tPois own dirty
  match s.op? 9 with
  | some q => !q.holds && s.fqRoom &&
    (match q.lanes.findSome? (fun l => if l.status = .accepted then (s.lanePoison q l).map (fun x => (l, x)) else none) with
     | some (_, w, d, _) => w == own && d == dirty
     | none => false)
  | none => false
def tCtl : Nat := ctlOf (tM2.homeOf 0 0 0x1000)
def tDl : State := { tM with ops := [tOp tLdg 0x1000 .accepted], dls := [⟨3, .op 9, ctlOf (tM.homeOf 0 0 0x1000), false⟩, ⟨4, .op 10, 0, false⟩] }

theorem wit_TranslationAndErrors_1 :
    tMig 0 0x800000 (tUser tM2) (fun c => c.s0.privileged c.g = false) := by
  exact wit_of (by decide +kernel) (by decide +kernel)
theorem wit_TranslationAndErrors_2 :
    tMig (2 ^ 56) 0x800000 tM2 (fun c => c.s0.privileged c.g = true ∧ (c.s0.walkAll 0 0 (2 ^ 56)).2.all (fun x => !c.s0.poison.contains (c.s0.physKey 0 x / 16 * 16)) = true) := by
  exact wit_of (by decide +kernel) (by decide +kernel)
theorem wit_TranslationAndErrors_3 :
    tMig 0 0x800000 tS (fun c => c.s0.privileged c.g = true ∧ tFaultB c.s0 0 0 = true) := by
  exact wit_of (by decide +kernel) (by decide +kernel)
theorem wit_TranslationAndErrors_4 :
    tMig 0 0x800000 tM (fun c => c.s0.privileged c.g = true ∧ tWalkB c.s0 0 0 (badB c.s0 0 0x800000) = true) := by
  exact wit_of (by decide +kernel) (by decide +kernel)
theorem wit_TranslationAndErrors_5 :
    tMig 0 0x810000 tM2 (fun c => c.s0.privileged c.g = true ∧ tWalkB c.s0 0 0 (badB c.s0 0 0x810000) = true) := by
  exact wit_of (by decide +kernel) (by decide +kernel)
theorem wit_TranslationAndErrors_6 :
    tMig 0 0x800000 { tM2 with migrs := [tMg] } (fun c => c.s0.privileged c.g = true ∧ c.s0.migrs = [tMg] ∧
      tWalkB c.s0 0 0 (fun l lv => !badB c.s0 0 0x800000 l lv && leafPa l == tMg.old) = true) := by
  exact wit_of (by decide +kernel) (by decide +kernel)
theorem wit_TranslationAndErrors_7 :
    tMig 0 0x800000 tM2 (fun c => c.s0.privileged c.g = true ∧ c.s0.migrs = [] ∧ tWalkB c.s0 0 0 (fun l lv => !badB c.s0 0 0x800000 l lv) = true) := by
  exact wit_of (by decide +kernel) (by decide +kernel)
theorem wit_TranslationAndErrors_8 :
    (({ tM2 with migrs := [tMg] } : State).migrs.find? (fun m => m.id = 3) = some tMg) ∧ tM2.group? tMg.g = some tG ∧ Memory.wf tM2.hbm = true ∧
      Memory.wf tM2.onchip = true ∧ tMg.old + tMg.size ≤ tMg.new ∧ tMg.leafAt + 8 ≤ tMg.new := by
  decide +kernel
theorem wit_TranslationAndErrors_9 :
    ctlOf (tM2.homeOf (tCtl / 2) 0 0x1000) = tCtl ∧ tlbFind (tM2.tlb.getD tCtl []) 0 0x1000 = none ∧ globalVa 0x1000 = true ∧
      tWalkB tM2 0 0x1000 (fun _ _ => true) = true ∧ tFaultB tS 0 0x1000 = true ∧ ctlOf (tS.homeOf (tCtl / 2) 0 0x1000) = tCtl := by
  decide +kernel
theorem wit_TranslationAndErrors_10 :
    tDl.dls.find? (fun d => d.id = 3) = some ⟨3, .op 9, ctlOf (tM.homeOf 0 0 0x1000), false⟩ ∧
      tDl.dlHere ⟨3, .op 9, ctlOf (tM.homeOf 0 0 0x1000), false⟩ = true ∧
      tDl.dls.find? (fun d => d.id = 4) = some ⟨4, .op 10, 0, false⟩ ∧ tDl.dlHere ⟨4, .op 10, 0, false⟩ = false := by
  decide +kernel
theorem wit_TranslationAndErrors_11 :
    ((⟨9, [(5, 3, 2)], []⟩ : Ecc).rows.find? (fun r => r.1 = 5)) = some (5, 3, 2) ∧ ¬(8192 ≤ 9 - 2) ∧ tS.fqRoom = true := by
  decide +kernel
theorem wit_TranslationAndErrors_12 :
    let l : Line := ⟨0, 32, [], [(0, 1)], false, false, 0, 0, 0, []⟩
     let s : State := { tS with slices := [((0, 3), [l])] }
     findLine (s.sliceLines (0, 3)) 0 0x1000 = some l ∧ l.dirty ≠ [] := by
  decide +kernel
theorem wit_TranslationAndErrors_13 :
    tMeets 0 false = true ∧ (tPois 0 false).group? tR = some tG := by
  decide +kernel
theorem wit_TranslationAndErrors_14 :
    tMeets 2 true = true := by
  decide +kernel
theorem wit_TranslationAndErrors_15 :
    tMeets 3 true = true := by
  decide +kernel
theorem wit_TranslationAndErrors_16 :
    (tS.kports.getD 15 ⟨false, 0⟩).down = false := by
  decide +kernel

/-! ### Witnesses: port collectives -/

/-- A collective record at 0x310000: two members, a sum of four words at 0x320000, its type in byte 6. -/
def tColM (ty : Byte) (s : State := tM) : State :=
  { s with hbm := s.hbm ++ [(0x310006, ty), (0x310007, 1), (0x31000A, 0x32), (0x310010, 4), (0x310014, 1), (0x310019, 0x10), (0x31001A, 0x31), (0x311001, 1)] }
/-- PCOL of it. -/
abbrev tPc (ka : Nat) (s : State) (P : Ctx → Prop) : Prop :=
  WitA (tK 4 (BitVec.ofNat 64 ka) s) (kRds (o 324) 1) [] (fun c => (c.k 4).toNat = ka ∧ P c)
def tPcOrd (c : Ctx) : Bool := !c.g.isResponder && !c.g.isPack && !c.g.inHandler c.e && bits c.g.sp.rmode.toNat 2 0 != 7
def tPcBad (c : Ctx) : Bool :=
  let ws := c.s0.readWords 0 0 0x310000 16
  colBad ws ((c.s0.homeRead 0 0 (ws.getD 3 0).toNat (bits (ws.getD 2 0).toNat 39 32 + 1)).map BitVec.toNat) c.s0.pkg (c.s0.recOf c.g).ntl
def tPcPages (c : Ctx) : Bool :=
  (c.s0.needPages tR.coreRef 0 [(0x310000, 128)]).isNone && (c.s0.needPages tR.coreRef 0 [(((c.s0.readWords 0 0 0x310000 16).getD 3 0).toNat, 2)]).isNone
def tCol (st : ColState) : Collective :=
  { (default : Collective) with
    id := 4, lid := 1, core := tR.coreRef, dtype := 1, bucket := 0x320000, count := 4, members := [0, 1], state := st, contrib := [1, 2, 3, 4], contribLo := [] }
def tCl (c : Collective) : Bool := decide (({ tM with cols := [c] } : State).col? 4 = some c)
def tRanges (c : Collective) (store : Bool) : Bool :=
  (bucketRanges c.bucket c.count c.dtype c.caoff).all (fun r => (tM.rangeFault c.core.die c.asid r.1 r.2 store).isNone && (tM.poisonAt c.core.die c.asid r.1 r.2).isNone)

theorem wit_PortCollectives_record :
    (tPc 0x310000 (tW (fun g => { g with kind := .responder 7 3 false }) tM) (fun c => c.g.isResponder = true)) ∧
    (tPc 0x310000 (tW (fun g => { g with sp := { g.sp with rmode := 7 } }) tM) (fun c => c.g.isResponder = false ∧ bits c.g.sp.rmode.toNat 2 0 = 7)) ∧
    (tPc 0x310000 (tLr (fun r => { r with piste := true }) tM) (fun c => tPcOrd c = true ∧ c.s0.pisteOf c.g = true)) ∧
    (tPc 0x310008 tM (fun c => tPcOrd c = true ∧ c.s0.pisteOf c.g = false ∧ (c.k 4).toNat % 128 ≠ 0 ∧ AtSync c)) ∧
    (tPc 0x310000 (tColM 0x10) (fun c => tPcOrd c = true ∧ tPcPages c = true ∧ (bits ((c.s0.readWords 0 0 0x310000 16).getD 0 0).toNat 53 51 = 2) ∧ c.g.sp.caoff = 0)) ∧
    (tPc 0x310000 (tW (fun g => { g with sp := { g.sp with caoff := 4 } }) (tColM 0x10)) (fun c => tPcOrd c = true ∧ tPcPages c = true ∧
      (bits ((c.s0.readWords 0 0 0x310000 16).getD 0 0).toNat 53 51 = 2) ∧ c.g.sp.caoff.toNat % 2 ^ 32 ≠ 0)) ∧
    (tPc 0x310000 (tColM 0x20) (fun c => tPcOrd c = true ∧ tPcPages c = true ∧ tPcBad c = true ∧ AtSync c)) ∧
    (tPc 0x310000 { tColM 8 with cols := [tCol .waiting] } (fun c => tPcOrd c = true ∧ tPcPages c = true ∧ tPcBad c = false ∧
      ((tCol .waiting).colid = bits ((c.s0.readWords 0 0 0x310000 16).getD 0 0).toNat 31 0 ∧ (tCol .waiting).part = c.s0.partIdx 0) ∧ AtSync c)) ∧
    (tPc 0x310000 (tColM 8) (fun c => tPcOrd c = true ∧ tPcPages c = true ∧ tPcBad c = false ∧ c.s0.cols = [] ∧ AtSync c)) := by
  refine ⟨?_, ?_, ?_, wit_of (by decide +kernel) ⟨?_, ?_, ?_, ?_, atSync_of ?_⟩, ?_, ?_, wit_of (by decide +kernel) ⟨?_, ?_, ?_, ?_, atSync_of ?_⟩,
    wit_of (by decide +kernel) ⟨?_, ?_, ?_, ?_, ?_, atSync_of ?_⟩, wit_of (by decide +kernel) ⟨?_, ?_, ?_, ?_, ?_, atSync_of ?_⟩⟩
  all_goals first | decide +kernel | exact wit_of (by decide +kernel) (by decide +kernel)

theorem wit_PortCollectives_open :
    (tCl (tCol .waiting) = true ∧ (tCol .waiting).state = .waiting ∧ 1 < (tCol .waiting).members.length ∧ (tCol .waiting).nowait = false ∧
      refKind (tCol .waiting).wait = 0 ∧ ({ tM with cols := [tCol .waiting] } : State).colAsks (tCol .waiting) = false ∧ tRanges (tCol .waiting) false = true) ∧
    (tRanges { tCol .waiting with dtype := 2, caoff := 0x100000000 } false = false ∧ tRanges { tCol .waiting with dtype := 2, caoff := 0x1000 } false = true) ∧
    (let c := { tCol .waiting with wait := 0x4000000000008000, waitv := 1 }
     tCl c = true ∧ refKind c.wait ≠ 0 ∧ tM.refValue 0 c.asid c.lid c.wait < c.waitv.toNat) ∧
    (let c := { tCol .ring with op := 2 }
     tCl c = true ∧ c.result = [] ∧ (c.members.findIdx? (fun m => m = tM.pkg)).getD 0 = 0 ∧ (1 < 2 ∧ c.op ≠ 0 ∧ 1 ≠ 0) ∧ (c.op ≠ 1 ∧ (1 + 1 + 0) % 2 = 0 ∧ 1 + 1 = 2) ∧
      (0 + 1 + 1) % 2 = 0) ∧
    (let c := { tCol .ring with op := 2, result := [(0, [1, 2], [0, 0]), (1, [3, 4], [0, 0])], budget := 1 }
     tCl c = true ∧ c.known 0 = true ∧ c.todo = [] ∧ tRanges c true = true ∧ c.stata = 0 ∧ c.budget ≠ 0 ∧ c.state ≠ .closing ∧
      ({ tM with cols := [c] } : State).colAsks c = false ∧ ∀ a ∈ c.doneOuts, tM.rangeFault 0 c.asid a 8 true = none) ∧
    (let c := { tCol .ring with stata := 0x311000 }
     c.doneOuts = [0x311000] ∧ tGdM.gdMigrates 0 c.asid 0x311000 = true ∧ tM.gdMigrates 0 c.asid 0x311000 = false ∧ tM.rangeFault 0 c.asid 0x311000 8 true = none) ∧
    (let c := { tCol .closing with status := 2 }
     tCl c = true ∧ c.state = .closing) ∧
    (let c := { tCol .reading with left := [(false, 0)] }
     tCl c = true ∧ c.state = .reading ∧ ({ tM with cols := [c] } : State).colAsks c = false ∧ tRanges c false = true ∧ c.contrib.length = c.count) := by
  decide +kernel

/-! ### Witnesses: the host attachment -/

/-- Master 3 owns the attachment. -/
def tOwn (s : State := tM) : State := { s with regs := { s.regs with owner := 3 } }
/-- The three ways a write can come: any master, the owner, a privileged group. -/
def actsB (owner : Bool) (m off : Nat) (v : DWord) (s : State) : Bool :=
  (decide (1 ≤ m) && decide (m < 16) && (!owner || s.regs.owner == m)) ||
  (m == 0 && (match s.portWrites with | w :: _ => w.off == off && decide (w.val = v) | [] => false))
def tFlt (j : Requester) : FaultRec := { fid := 5, asid := 0, page := 1, kind := 1, joined := [j] }
def tPkd (s : State) : State := tW (fun g => { g with parked := g.parked.set 2 { Parked.free with valid := true, mask := 1 } }) s
def tQ (v : Nat) : DWord := BitVec.ofNat 64 v

theorem wit_HostAttachment_1 :
    1 ≤ 15 ∧ tS.regs.owner ≠ 15 ∧ tOwn.regs.owner ≠ 15 := by
  decide +kernel
theorem wit_HostAttachment_2 :
    actsB false 15 0x010 0x0F tS = true ∧ tS.regs.owner = bits (0x0F : DWord).toNat 7 4 ∧ bits (0x0F : DWord).toNat 3 0 = 15 := by
  decide +kernel
theorem wit_HostAttachment_3 :
    actsB false 3 0x010 0x35 tOwn = true ∧ tOwn.regs.owner = bits (0x35 : DWord).toNat 7 4 := by
  decide +kernel
theorem wit_HostAttachment_4 :
    actsB false 0 0x010 0x30 { tOwn with portWrites := [⟨1, 0x010, 0x30⟩] } = true := by
  decide +kernel
theorem wit_HostAttachment_5 :
    actsB true 3 0x040 (tQ (5 * 2 ^ 32)) tOwn = true ∧ bits (tQ (5 * 2 ^ 32)).toNat 47 32 = 5 ∧ bits (tQ (5 * 2 ^ 32)).toNat 0 0 = 0 ∧
      tOwn.faults = [] ∧ bits (tQ (5 * 2 ^ 32 + 1)).toNat 0 0 = 1 := by
  decide +kernel
theorem wit_HostAttachment_6 :
    let s : State := { tPkd tOwn with faults := [tFlt (.parked tR 2)] }
    s.faults.find? (fun f => f.fid = 5) = some (tFlt (.parked tR 2)) ∧ (tFlt (.parked tR 2)).joined = [.parked tR 2] ∧ (s.group? tR).isSome = true ∧
      ((s.group? tR).bind (fun g => g.parked[2]?)).isSome = true := by
  decide +kernel
theorem wit_HostAttachment_7 :
    let s : State := { tSp (fun sp => { sp with state := .blocked, wait := .fetch }) tOwn with faults := [tFlt (.fetch tR 0)] }
    s.faults.find? (fun f => f.fid = 5) = some (tFlt (.fetch tR 0)) ∧ ((tFg s).split 0).state = .blocked ∧ ((tFg s).split 0).wait = .fetch ∧
      s.group? tR = some (tFg s) := by
  decide +kernel
theorem wit_HostAttachment_8 :
    actsB true 3 0x038 9 tOwn = true ∧ ∀ off ∈ [0x020, 0x028, 0x030, 0x050, 0x058, 0x068, 0x078, 0x000, 0x098], actsB true 3 off 9 tOwn = true := by
  decide +kernel
theorem wit_HostAttachment_preset :
    actsB false 15 0x088 3 tOwn = true ∧ (3 : DWord).toNat % 4 ≠ 1 ∧ (3 : DWord).toNat % 4 ≠ 2 := by
  decide +kernel
theorem wit_HostAttachment_9 :
    actsB true 3 0x048 (tQ (7 * 2 ^ 52 + 3)) tOwn = true ∧ bits (tQ (7 * 2 ^ 52 + 3)).toNat 0 0 = 1 ∧ tOwn.shoots = [] := by
  decide +kernel
theorem wit_HostAttachment_10 :
    actsB true 3 0x048 2 tOwn = true ∧ bits (2 : DWord).toNat 1 0 = 2 := by
  decide +kernel
theorem wit_HostAttachment_11 :
    let s : State := { tOwn with shoots := [⟨4, 7, 0, 128, false, true⟩] }
    s.shoots.find? (fun x => x.asid = bits (tQ (7 * 2 ^ 52 + 3)).toNat 63 52 && x.data) = some ⟨4, 7, 0, 128, false, true⟩ ∧
      s.shoots.find? (fun x => x.id = 4) = some ⟨4, 7, 0, 128, false, true⟩ := by
  decide +kernel
theorem wit_HostAttachment_12 :
    let s : State := { tOwn with shoots := [⟨4, 7, 0, 128, false, false⟩] }
    s.shoots.find? (fun x => x.id = 4) = some ⟨4, 7, 0, 128, false, false⟩ := by
  decide +kernel
theorem wit_HostAttachment_13 :
    actsB true 3 0x070 3 tOwn = true ∧ tOwn.parts.length ≤ bits (3 : DWord).toNat 1 0 := by
  decide +kernel
theorem wit_HostAttachment_14 :
    actsB true 3 0x070 (tQ (2 ^ 63 + 0x700000)) tOwn = true ∧ bits (tQ (2 ^ 63 + 0x700000)).toNat 1 0 < tOwn.parts.length ∧
      bits (tQ (2 ^ 63 + 0x700000)).toNat 63 63 = 1 ∧ tOwn.engineFault (tOwn.stewardCore 0) 0 0x700000 8 true = none ∧
      (tOwn tS).engineFault ((tOwn tS).stewardCore 0) 0 0x700000 8 true ≠ none := by
  decide +kernel
theorem wit_HostAttachment_15 :
    let s := tOwn (tPage none [])
    actsB true 3 0x070 0 s = true ∧ s.pages.get? (0, 0) = some ⟨0x700000, 0, false, none⟩ ∧ s.engineFault (s.stewardCore 0) 0 0x700000 8 true = none := by
  decide +kernel
theorem wit_HostAttachment_16 :
    tS.regs.owner = 0 ∧ tOwn.regs.owner ≠ 0 ∧ tOwn.rangeFault 0 0 0x310000 8 true = none ∧ 0x310000 + 8 ≤ 2 ^ 40 := by
  decide +kernel
theorem wit_HostAttachment_17 :
    actsB false 15 0x080 (tQ 0x310000) tM = true ∧ tM.engineFault ⟨false, 0, 0⟩ 0 0x310000 4096 true = none ∧
      (tS.engineFault ⟨false, 0, 0⟩ 0 0x310000 4096 true).isSome = true ∧ tM.boot.attest < 2 ^ 20 ∧
      2 ^ 20 ≤ ({ tM with boot := { tM.boot with attest := 2 ^ 20 } } : State).boot.attest := by
  decide +kernel
theorem wit_HostAttachment_18 :
    actsB true 3 0x088 1 tOwn = true ∧ bits (1 : DWord).toNat 1 0 = 1 := by
  decide +kernel
theorem wit_HostAttachment_19 :
    actsB true 3 0x088 2 tOwn = true ∧ bits (2 : DWord).toNat 1 0 = 2 ∧ 0 ∈ ({ tOwn with stopped := [0] } : State).stopped := by
  decide +kernel
theorem wit_HostAttachment_20 :
    let s (n : Nat) : State := { State.reset with boot := { State.reset.boot with stage := n } }
    (s 0).regs.failStage = 0 ∧ (s 0).held = true ∧ (s 0).boot.stage = 0 ∧ (s 1).boot.stage = 1 ∧ (s 2).boot.stage = 2 ∧ (s 3).boot.stage = 3 ∧
      0 < (s 3).parts.length ∧ 0 ∉ (s 3).boot.stewards ∧ 0 ∉ (s 3).stopped := by
  decide +kernel

/-! ### Ill-formed terms: for each check of WellFormed a term that it refuses -/

/-- A well-formed term, and changes of it that are all refused. -/
def refuses {α : Type} (mk : α → Instr) (good : α) (bad : List α) : Bool :=
  wellFormed (mk good) && bad.all (fun x => !wellFormed (mk x))
/-- A guard that is legal but not always; and the one that never holds, which is not legal. -/
abbrev gp : Guard := ⟨false, 0⟩
abbrev gn : Guard := ⟨true, 7⟩
/-- Sources: a last use, an emptying trap, a k register with L. -/
abbrev sl : Src := ⟨8, true, false⟩
abbrev kl : Src := ⟨324, true, false⟩
def sS : OpS := ⟨aw, 0, z, 0, 0, 0⟩
def sK : OpS := { sS with a := o 324 }
def sD : OpS := { sS with d := 326 }
def sKD : OpS := { sK with d := 326 }
def rV : OpR := ⟨aw, 6, o 8, o 9, o 10, 0⟩
def rK : OpR := ⟨aw, 326, o 324, o 325, o 326, 0⟩
def nS (x : OpS) : List OpS := [{ x with g := gp }, { x with m := 1 }]

theorem test_wf_seq : refuses .nop sS (nS sS ++ [{ sS with d := 1 }, { sS with a := o 1 }, { sS with imm := 1 }, { sS with sub := 1 }]) &&
    refuses .bra ⟨gp, 0, 1, false, false, 0⟩ [⟨gn, 0, 0, false, false, 0⟩, ⟨gp, 0, 1, false, false, 1⟩, ⟨gp, 0, 1, true, false, 0⟩, ⟨aw, 0, 1, false, false, 0⟩,
      ⟨gp, 0, 0, false, true, 1⟩, ⟨aw, 0, 0, true, true, 1⟩, ⟨aw, 0, 1, false, true, 1⟩] &&
    refuses .brx ⟨⟨gp, 0, 1, false, false, 0⟩, 8⟩ [⟨⟨gp, 1, 1, false, false, 0⟩, 8⟩] &&
    refuses .jmpk sK (nS sK ++ [sS, { sK with a := kl }, { sK with d := 326 }, { sK with imm := 1 }, { sK with sub := 1 }]) &&
    refuses .exit { sS with g := gp } [{ sS with g := gn }, sK, sD, { sS with imm := 1 }, { sS with sub := 1 }, { sS with m := 1 }] &&
    refuses .maskr { sD with sub := 3 } (nS sD ++ [sS, { sKD with a := o 1 }, { sD with sub := 4 }]) &&
    refuses .vote { rV with d := 6, a := o 11, b := z, c := z } [⟨gp, 6, o 11, z, z, 0⟩, ⟨aw, 6, o 12, z, z, 0⟩, ⟨aw, 6, o 1, o 1, z, 0⟩, ⟨aw, 6, o 1, z, o 1, 0⟩,
      ⟨aw, 6, o 1, z, z, 1⟩, ⟨aw, 385, o 1, z, z, 0⟩, ⟨aw, 6, o 1, z, z, 2⟩] &&
    refuses .plop ⟨aw, 393, o 7, o 8, o 11, 0x1FE⟩ [⟨gp, 393, o 7, o 8, o 11, 0⟩, ⟨aw, 393, o 6, o 8, o 11, 0⟩, ⟨aw, 385, o 12, o 0, o 0, 0⟩,
      ⟨aw, 385, o 0, o 12, o 0, 0⟩, ⟨aw, 385, o 0, o 0, o 12, 0⟩, ⟨aw, 385, o 0, o 0, o 0, 1⟩, ⟨aw, 6, o 7, o 7, o 7, 0⟩] &&
    refuses .chkf { sS with d := 385, a := o 8 } (nS { sS with d := 385, a := o 8 } ++ [{ sS with d := 6, a := o 8 }, { sS with d := 385, a := sl }, { sS with d := 385, a := o 384 },
      { sS with d := 385, a := o 8, imm := 1 }, { sS with d := 385, a := o 8, sub := 1 }]) &&
    refuses .waitf sK (nS sK ++ [sKD, { sS with a := o 385 }, { sK with imm := 1 }, { sK with sub := 1 }]) = true := by decide +kernel

theorem test_wf_uniform : refuses .kmov ⟨aw, 326, o 385, z, z, 0⟩ [⟨gp, 326, o 385, z, z, 0⟩, ⟨aw, 6, o 385, z, z, 0⟩, ⟨aw, 326, o 8, z, z, 0⟩, ⟨aw, 326, o 385, o 1, z, 0⟩,
      ⟨aw, 326, o 385, z, o 1, 0⟩, ⟨aw, 326, o 385, z, z, 1⟩] &&
    refuses .kmovi ⟨aw, 326, 0, 1⟩ [⟨gp, 326, 0, 1⟩, ⟨aw, 6, 0, 1⟩, ⟨aw, 326, 1, 1⟩] &&
    refuses .klit ⟨⟨aw, 326, 0, 0⟩, 5⟩ [⟨⟨gp, 326, 0, 0⟩, 5⟩, ⟨⟨aw, 6, 0, 0⟩, 5⟩, ⟨⟨aw, 326, 1, 0⟩, 5⟩, ⟨⟨aw, 326, 0, 1⟩, 5⟩] &&
    refuses (fun x => .kadd (.r x)) { rK with c := z } [{ rK with g := gp, c := z }, { rK with d := 6, c := z }, { rK with a := o 8, c := z }, { rK with b := o 8, c := z }, rK,
      { rK with c := z, m := 1 }, { rK with c := z, m := 2 }] &&
    refuses (fun x => .kadd (.i x)) ⟨aw, 326, o 324, 5, 1⟩ [⟨aw, 326, o 324, 5, 0⟩, ⟨aw, 326, o 324, 5, 3⟩] &&
    refuses .kmad rK [{ rK with g := gp }, { rK with d := 6 }, { rK with a := o 433 }, { rK with b := o 8 }, { rK with c := kl }, { rK with m := 1 }] &&
    refuses (fun x => .kcmp (.r x)) { rK with d := 393, c := z, m := 18 } [{ rK with c := z, g := gp }, { rK with c := z, d := 385 }, { rK with c := z, a := o 8 }, rK,
      { rK with c := z, b := o 8 }, { rK with c := z, m := 20 }, { rK with c := z, m := 32 }] &&
    refuses .ksel { rK with c := z, m := 0xE } [{ rK with c := z, g := gp }, { rK with c := z, d := 393 }, { rK with c := z, a := o 8 }, { rK with c := z, b := o 8 }, rK, { rK with c := z, m := 1 }] &&
    refuses .krds { sD with imm := 0x28 } (nS { sD with imm := 1 } ++ [{ sS with imm := 1 }, { sKD with imm := 1 }, { sD with imm := 1, sub := 1 }, sD, { sD with imm := 0x29 }]) &&
    refuses .kwrs { sK with imm := 0x22 } (nS { sK with imm := 9 } ++ [{ sS with imm := 9 }, { sKD with imm := 9 }, { sK with imm := 9, sub := 1 }, { sK with imm := 0x0C }, { sK with imm := 0x23 }]) &&
    refuses .krdf ⟨aw, 326, o 8, z, z, 2⟩ [⟨gp, 326, o 8, z, z, 2⟩, ⟨aw, 6, o 8, z, z, 2⟩, ⟨aw, 326, o 324, z, z, 0⟩, ⟨aw, 326, o 8, o 1, z, 0⟩, ⟨aw, 326, o 8, z, o 1, 0⟩,
      ⟨aw, 326, o 8, z, z, 4⟩, ⟨aw, 326, o 9, z, z, 2⟩] = true := by decide +kernel

theorem test_wf_system : refuses .trap { sS with imm := 7 } (nS { sS with imm := 7 } ++ [sD, sK, { sS with sub := 1 }]) &&
    refuses .iprf { sK with imm := 1, sub := 2 } (nS { sK with imm := 1 } ++ [{ sKD with imm := 1 }, { sS with imm := 1 }, sK, { sK with imm := 1, sub := 3 }]) &&
    refuses .modl { sKD with imm := 256 } (nS sKD ++ [sK, sD, { sKD with sub := 1 }]) &&
    refuses .modu { sD with imm := 255 } (nS sD ++ [sS, sKD, { sD with sub := 1 }, { sD with imm := 256 }]) &&
    refuses .cntr { sD with imm := 0xA00 } (nS sD ++ [sS, sKD, { sD with sub := 1 }, { sD with imm := 0xB00 }]) &&
    refuses .cntc sS (nS sS ++ [sD, sK, { sS with sub := 2 }, { sS with imm := 0xB00 }]) &&
    refuses .cntcAll { sS with sub := 1 } (nS { sS with sub := 1 } ++ [{ sD with sub := 1 }, { sK with sub := 1 }, sS, { sS with sub := 1, imm := 1 }]) &&
    refuses .sregRd { sD with imm := 4 } (nS sD ++ [sS, sKD, { sD with sub := 1 }, { sD with imm := 5 }]) &&
    refuses .sregWr { sK with sub := 1, imm := 4 } (nS { sK with sub := 1 } ++ [{ sKD with sub := 1 }, { sS with sub := 1 }, sK, { sK with sub := 1, imm := 2 }, { sK with sub := 1, imm := 5 }]) &&
    refuses .preemptreq { sK with sub := 1, imm := 2 } [{ sK with sub := 1, imm := 3 }] &&
    refuses .lnch sKD (nS sKD ++ [sK, sD, { sKD with imm := 1 }, { sKD with sub := 1 }, { sKD with a := kl }]) &&
    refuses .dgstRead { sD with sub := 1 } [{ sKD with sub := 1 }, { sS with sub := 1 }] && refuses .migr sKD [{ sKD with a := o 325 }] = true := by decide +kernel

theorem test_wf_lane : refuses (fun x => .iadd (.r x)) ⟨gp, 6, sl, o 9, z, 0x88⟩ [⟨gn, 6, o 8, o 9, z, 0⟩, ⟨aw, 326, o 8, o 9, z, 0⟩, ⟨aw, 6, o 400, o 9, z, 0⟩, ⟨aw, 6, kl, o 9, z, 0⟩,
      ⟨aw, 6, o 8, o 400, z, 0⟩, ⟨aw, 6, o 8, o 9, o 1, 0⟩, ⟨aw, 6, o 8, o 9, z, 1⟩, ⟨aw, 6, o 8, o 9, z, 0x180⟩, ⟨aw, 6, o 8, o 9, z, 8⟩, ⟨aw, 6, o 8, o 9, z, 4⟩,
      ⟨aw, 6, o 8, o 9, z, 2⟩, ⟨aw, 6, o 8, o 9, z, 0x10⟩, ⟨aw, 6, ⟨385, false, true⟩, o 9, z, 0⟩] &&
    refuses (fun x => .iadd (.i x)) ⟨aw, 6, o 8, 0x10000, 0x81⟩ [⟨aw, 6, o 8, 0x10000, 0x301⟩, ⟨aw, 6, o 8, 5, 0x80⟩] &&
    refuses .imulh { rV with c := z, m := 0x80 } [{ rV with c := z }, { rV with m := 0x80 }, { rV with c := z, b := o 400, m := 0x80 }] &&
    refuses .iabs ⟨aw, 6, o 8, z, z, 0x88⟩ [⟨aw, 6, o 8, o 1, z, 0x80⟩, ⟨aw, 6, o 8, z, o 1, 0x80⟩, ⟨aw, 6, o 8, z, z, 0x100⟩, ⟨aw, 6, o 8, z, z, 0x81⟩] &&
    refuses .imad { rV with m := 0x80 } [{ rV with c := o 400, m := 0x80 }, { rV with m := 0x81 }] &&
    refuses .frsq ⟨aw, 6, o 8, z, z, 0x190⟩ [⟨aw, 6, o 8, z, z, 0x1A0⟩, ⟨aw, 6, o 8, z, z, 0x80⟩] && refuses .frcp ⟨aw, 6, o 8, z, z, 0x1A0⟩ [⟨aw, 6, o 8, z, z, 0x1F0⟩] &&
    refuses .lop3 { rV with m := 0x1FE } [{ rV with m := 1 }, { rV with m := 0x200 }, { rV with g := gn }, { rV with d := 385 }, { rV with a := o 400 }, { rV with b := o 400 }, { rV with c := o 400 }] &&
    refuses (fun x => .icmp (.r x)) ⟨aw, 385, o 8, o 9, z, 0xA8⟩ [⟨gn, 385, o 8, o 9, z, 0⟩, ⟨aw, 385, o 8, o 9, z, 0x300⟩, ⟨aw, 393, o 8, o 9, z, 0⟩, ⟨aw, 385, o 8, o 400, z, 0⟩,
      ⟨aw, 385, o 8, o 9, z, 0x180⟩, ⟨aw, 385, o 8, o 9, z, 0x82⟩, ⟨aw, 385, o 8, o 9, z, 0xB0⟩, ⟨aw, 385, o 8, o 9, z, 0x10⟩] &&
    refuses (fun x => .fcmp (.r x)) ⟨aw, 385, o 8, o 9, z, 0x1E0⟩ [⟨aw, 385, o 8, o 9, z, 0x1E8⟩, ⟨aw, 385, o 8, o 9, z, 0x182⟩, ⟨aw, 385, o 8, o 9, z, 0⟩] &&
    refuses .fcls ⟨aw, 385, o 8, o 9, z, 0x180⟩ [⟨aw, 385, o 8, o 9, o 1, 0x180⟩, ⟨aw, 385, o 8, o 9, z, 0x188⟩, ⟨aw, 385, o 8, o 9, z, 0x184⟩, ⟨aw, 385, o 8, o 9, z, 0x190⟩,
      ⟨aw, 385, o 8, o 9, z, 0x181⟩, ⟨aw, 385, o 8, o 9, z, 0⟩, ⟨aw, 385, o 8, o 400, z, 0x180⟩] &&
    refuses (fun x => .fmnx (.r x)) ⟨aw, 6, o 8, o 9, z, 0x192⟩ [⟨aw, 6, o 8, o 9, z, 0x1A0⟩, ⟨aw, 6, o 8, o 9, z, 0⟩, ⟨aw, 385, o 8, o 9, z, 0x180⟩] = true := by decide +kernel

theorem test_wf_move : refuses .mov ⟨aw, 6, sl, z, z, 2⟩ [⟨aw, 5, o 8, z, z, 2⟩, ⟨aw, 6, o 9, z, z, 2⟩, ⟨aw, 6, o 433, z, z, 2⟩, ⟨aw, 6, o 8, o 1, z, 0⟩, ⟨aw, 6, o 8, z, o 1, 0⟩, ⟨aw, 6, o 8, z, z, 1⟩, ⟨gn, 6, o 8, z, z, 0⟩] &&
    refuses .movi ⟨gp, 6, 0, 1⟩ [⟨gn, 6, 0, 1⟩, ⟨aw, 326, 0, 1⟩, ⟨aw, 6, 1, 1⟩] &&
    refuses .sel ⟨aw, 6, o 8, o 10, o 11, 6⟩ [⟨gn, 6, o 8, o 9, o 1, 0⟩, ⟨aw, 5, o 8, o 10, o 1, 4⟩, ⟨aw, 6, o 9, o 10, o 1, 4⟩, ⟨aw, 6, o 8, o 9, o 1, 4⟩, ⟨aw, 6, o 8, o 9, o 12, 0⟩, ⟨aw, 6, o 8, o 9, o 1, 1⟩] &&
    refuses .cvt ⟨aw, 6, o 8, o 0x30, z, 0⟩ [⟨gn, 6, o 8, o 0x30, z, 0⟩, ⟨aw, 6, o 8, ⟨0x30, false, true⟩, z, 0⟩, ⟨aw, 6, o 8, o 0x70, z, 0⟩, ⟨aw, 6, o 8, ⟨0x33, true, false⟩, z, 0⟩,
      ⟨aw, 6, o 8, o 0x30, o 1, 0⟩, ⟨aw, 6, o 8, o 0x30, z, 1⟩, ⟨aw, 6, o 8, o 0x30, z, 0x70⟩, ⟨aw, 326, o 8, o 0x30, z, 0⟩, ⟨aw, 6, o 400, o 0x30, z, 0⟩, ⟨aw, 5, o 8, o 0xB0, z, 0⟩,
      ⟨aw, 6, o 8, o 0x10, z, 2⟩, ⟨aw, 6, o 8, o 0x30, z, 4⟩, ⟨aw, 6, o 8, o 0x84, z, 0x10⟩] &&
    refuses .pack ⟨aw, 6, o 8, o 9, o 10, 0x203⟩ [⟨gn, 6, o 8, o 9, o 10, 0x200⟩, ⟨aw, 385, o 8, o 9, o 10, 0x200⟩, ⟨aw, 6, o 400, o 9, o 10, 0x200⟩, ⟨aw, 6, o 8, o 400, o 10, 0x200⟩,
      ⟨aw, 6, o 8, o 9, z, 0x380⟩, ⟨aw, 6, o 8, o 9, o 10, 0x270⟩, ⟨aw, 6, o 8, o 9, o 10, 0x102⟩, ⟨aw, 6, o 8, o 9, z, 0x290⟩, ⟨aw, 6, o 8, o 9, z, 0x284⟩, ⟨aw, 6, o 8, o 9, o 400, 0x200⟩,
      ⟨aw, 6, o 8, o 9, o 10, 0⟩] &&
    refuses .unpk ⟨aw, 6, o 8, z, z, 0x203⟩ [⟨gn, 6, o 8, z, z, 0⟩, ⟨aw, 5, o 8, z, z, 0⟩, ⟨aw, 6, o 400, z, z, 0⟩, ⟨aw, 6, o 8, o 1, z, 0⟩, ⟨aw, 6, o 8, z, o 1, 0⟩, ⟨aw, 6, o 8, z, z, 0x380⟩,
      ⟨aw, 6, o 8, z, z, 4⟩, ⟨aw, 6, o 8, z, z, 1⟩] &&
    refuses .prmb rV [{ rV with g := gn }, { rV with d := 326 }, { rV with a := o 400 }, { rV with b := o 400 }, { rV with c := o 400 }, { rV with m := 1 }] &&
    refuses .clmp { rV with m := 0x180 } [{ rV with m := 0x190 }, rV] &&
    refuses .qnt { rV with m := 0x203 } [{ rV with g := gn }, { rV with d := 326 }, { rV with a := o 9 }, { rV with b := o 400 }, { rV with c := o 400 }, { rV with m := 0x300 }, { rV with m := 0x70 },
      { rV with m := 4 }, { rV with m := 2 }] &&
    refuses .dqnt { rV with c := z, m := 1 } [{ rV with c := z, g := gn }, { rV with c := z, d := 5 }, { rV with c := z, a := o 400 }, { rV with c := z, b := o 400 }, rV, { rV with c := z, m := 0x300 },
      { rV with c := z, m := 0x70 }, { rV with c := z, m := 2 }] = true := by decide +kernel

theorem test_wf_cross : refuses .xshf { rV with c := o 392, m := 0x16 } [{ rV with c := o 386, g := gn }, { rV with c := o 386, d := 5, m := 0x10 }, { rV with c := o 386, a := o 9, m := 0x10 },
      { rV with c := o 386, b := o 400 }, { rV with c := o 10 }, { rV with c := kl }, { rV with c := o 386, m := 1 }, { rV with c := o 386, m := 8 }] &&
    refuses .xscn ⟨aw, 6, o 8, z, o 386, 0x185⟩ [⟨gn, 6, o 8, z, o 386, 0x180⟩, ⟨aw, 326, o 8, z, o 386, 0x180⟩, ⟨aw, 6, o 400, z, o 386, 0x180⟩, ⟨aw, 6, o 8, o 1, o 386, 0x180⟩,
      ⟨aw, 6, o 8, z, o 10, 0x180⟩, ⟨aw, 6, o 8, z, o 386, 0x1F0⟩, ⟨aw, 6, o 8, z, o 386, 0x90⟩, ⟨aw, 6, o 8, z, o 386, 0xC⟩, ⟨aw, 6, o 8, z, o 386, 0x186⟩, ⟨aw, 6, o 8, z, o 386, 0⟩] &&
    refuses .xred ⟨aw, 6, o 8, z, o 386, 6⟩ [⟨aw, 6, o 8, z, o 386, 7⟩] &&
    refuses .mxix { rV with c := o 386, m := 0x187 } [{ rV with c := o 386, m := 0x180, g := gn }, { rV with c := o 386, m := 0x180, d := 5 }, { rV with c := o 386, m := 0x180, a := o 9 },
      { rV with c := o 386, m := 0x180, b := o 400 }, { rV with m := 0x180 }, { rV with c := o 386 }, { rV with c := o 386, m := 0x190 }, { rV with c := o 386, m := 0x188 }] &&
    refuses .rand ⟨aw, 6, z, z, z, 2⟩ [⟨gn, 6, z, z, z, 0⟩, ⟨aw, 5, z, z, z, 2⟩, ⟨aw, 6, o 1, z, z, 0⟩, ⟨aw, 6, z, o 1, z, 0⟩, ⟨aw, 6, z, z, o 1, 0⟩, ⟨aw, 6, z, z, z, 4⟩, ⟨aw, 6, z, z, z, 1⟩,
      ⟨aw, 6, z, z, z, 0x80⟩, ⟨aw, 6, z, z, z, 0x182⟩] &&
    refuses .rdsr ⟨aw, 6, z, 0x29, 1, 0⟩ [⟨gn, 6, z, 1, 0, 0⟩, ⟨aw, 6, z, 1, 2, 0⟩, ⟨aw, 5, z, 1, 1, 0⟩, ⟨aw, 6, o 1, 1, 0, 0⟩, ⟨aw, 6, z, 0x2A, 0, 0⟩, ⟨aw, 6, z, 1, 0, 1⟩] = true := by decide +kernel

theorem test_wf_expansion : refuses .tsum ⟨aw, 6, o 8, o 9, z, 0x203⟩ [⟨gn, 6, o 8, o 9, z, 0⟩, ⟨aw, 6, o 8, o 9, z, 0x300⟩, ⟨aw, 6, o 8, o 9, z, 4⟩, ⟨aw, 6, o 8, o 9, z, 1⟩, ⟨aw, 5, o 8, o 9, z, 0⟩,
      ⟨aw, 6, o 417, o 9, z, 0⟩, ⟨aw, 6, o 8, o 384, z, 0⟩, ⟨aw, 6, o 8, o 9, o 1, 0⟩] &&
    refuses .tfma { rV with d := 8, m := 0x107 } [{ rV with d := 6 }, { rV with d := 8, m := 4 }, { rV with d := 8, c := o 417 }, { rV with d := 8, m := 0x300 }, { rV with d := 8, m := 8 }] &&
    refuses .xadd ⟨aw, 8, o 12, o 16, z, 0xB4⟩ [⟨gn, 8, o 12, o 16, z, 0⟩, ⟨aw, 8, o 12, o 16, z, 0x300⟩, ⟨aw, 8, o 12, o 16, z, 1⟩, ⟨aw, 9, o 12, o 16, z, 4⟩, ⟨aw, 8, o 13, o 16, z, 0x40⟩,
      ⟨aw, 8, o 12, o 17, z, 0x10⟩, ⟨aw, 8, o 12, o 16, o 1, 0⟩, ⟨aw, 8, o 324, o 16, z, 0x40⟩] &&
    refuses .xacc ⟨aw, 8, o 12, o 17, o 19, 0x44⟩ [⟨aw, 8, o 12, o 17, o 19, 0x40⟩, ⟨aw, 8, o 12, o 18, o 19, 0x54⟩, ⟨aw, 8, o 12, o 417, o 19, 0x44⟩, ⟨aw, 8, o 12, o 17, o 417, 0x44⟩,
      ⟨aw, 8, o 12, o 17, o 19, 0x45⟩] &&
    refuses .xrnm ⟨aw, 8, o 12, z, z, 0x44⟩ [⟨aw, 8, o 12, z, z, 0x40⟩, ⟨aw, 8, o 12, z, z, 0x54⟩, ⟨aw, 8, o 12, o 1, z, 0x44⟩, ⟨aw, 8, o 12, z, o 1, 0x44⟩] &&
    refuses .xcpr ⟨aw, 8, o 12, z, z, 0x40⟩ [⟨aw, 8, o 12, z, z, 4⟩] &&
    refuses .xcmp ⟨aw, 385, o 12, o 16, z, 0x55⟩ [⟨aw, 385, o 12, o 16, z, 6⟩, ⟨aw, 393, o 12, o 16, z, 0⟩, ⟨aw, 385, o 12, o 16, o 1, 0⟩, ⟨aw, 385, o 13, o 16, z, 0x40⟩, ⟨aw, 385, o 12, o 16, z, 0x300⟩] &&
    refuses .xcvt ⟨aw, 8, o 12, o 0x10, z, 0⟩ [⟨gn, 8, o 12, o 0x10, z, 0⟩, ⟨aw, 8, o 12, o 0x10, z, 0x100⟩, ⟨aw, 8, o 12, o 0x10, z, 1⟩, ⟨aw, 8, o 12, o 0x10, z, 0x10⟩, ⟨aw, 8, o 12, ⟨0x10, false, true⟩, z, 0⟩,
      ⟨aw, 8, o 12, o 0x30, z, 0⟩, ⟨aw, 8, o 12, ⟨0x11, true, false⟩, z, 0⟩, ⟨aw, 8, o 12, o 0xA5, z, 0⟩, ⟨aw, 8, o 12, o 0x10, o 1, 0⟩, ⟨aw, 8, o 12, o 0x05, z, 0x40⟩, ⟨aw, 8, o 12, o 0xA0, z, 4⟩,
      ⟨aw, 9, o 12, o 0xB0, z, 0⟩] &&
    refuses .xspl ⟨aw, 8, o 12, z, z, 0x104⟩ [⟨aw, 8, o 12, z, z, 4⟩, ⟨aw, 8, o 12, z, z, 0x105⟩, ⟨aw, 8, o 12, z, z, 0x114⟩, ⟨aw, 8, o 12, o 1, z, 0x104⟩, ⟨aw, 8, o 12, z, o 1, 0x104⟩] &&
    refuses .xtre ⟨aw, 8, o 12, z, o 386, 4⟩ [⟨aw, 8, o 12, z, o 386, 0x40⟩, ⟨aw, 8, o 12, z, o 10, 4⟩, ⟨aw, 8, o 12, o 1, o 386, 4⟩, ⟨aw, 8, o 12, z, o 386, 0x14⟩] &&
    refuses .xscl ⟨aw, 8, o 12, o 417, z, 0x44⟩ [⟨aw, 8, o 12, o 417, z, 0x40⟩, ⟨aw, 8, o 12, o 433, z, 0x44⟩, ⟨aw, 8, o 12, o 417, o 1, 0x44⟩, ⟨aw, 8, o 12, o 417, z, 0x54⟩] = true := by decide +kernel

def mG : OpM := ⟨aw, 8, o 324, o 9, 0, 2, 0, 2, 5⟩
def mN : OpM := { mG with d := 0, scope := 0 }
theorem test_wf_access : refuses .ldg { mG with ord := 1, evict := 7 } [{ mG with g := gn }, { mG with size := 5 }, { mG with ord := 2 }, { mG with ord := 1, size := 1 }, { mG with a := o 9 }, { mG with b := o 433 },
      { mG with d := 326 }, { mG with d := 9, size := 3 }, { mG with d := 10, size := 4 }] &&
    refuses .stg { mG with ord := 2 } [{ mG with ord := 1 }] && refuses .lds { mG with scope := 0 } [mG, { mG with scope := 0, evict := 1 }] &&
    refuses .ldw mG [{ mG with evict := 1 }] &&
    refuses .ldk { mG with d := 326, b := o 417 } [{ mG with d := 326, b := o 417, g := gn }, { mG with d := 326, b := o 417, size := 5 }, { mG with d := 326, b := o 417, ord := 2 },
      { mG with d := 326, b := o 417, a := o 8 }, { mG with d := 326 }, { mG with b := o 417 }, { mG with d := 327, b := o 417, size := 4 }] &&
    refuses .gthr { mG with size := 7, off := 0 } [{ mG with off := 0 }, { mG with size := 7 }, { mG with size := 7, off := 0, ord := 1 }, { mG with size := 7, off := 0, a := o 8 },
      { mG with size := 7, off := 0, b := o 433 }, { mG with size := 7, off := 0, d := 9 }, { mG with size := 7, off := 0, g := gn }] &&
    refuses .pref { mN with evict := 3 } [{ mN with d := 1 }, { mN with scope := 1 }, { mN with size := 5 }, { mN with ord := 1 }, { mN with a := o 9 }, { mN with b := o 433 }, { mN with g := gn }] &&
    refuses .wbk mN [{ mN with evict := 3 }, { mN with scope := 1 }] && refuses .inv mN [{ mN with evict := 3 }, { mN with scope := 1 }] &&
    refuses .fnc ⟨aw, 0, z, z, 3, 5, 0, 0, 0⟩ [⟨gp, 0, z, z, 3, 5, 0, 0, 0⟩, ⟨aw, 1, z, z, 3, 5, 0, 0, 0⟩, ⟨aw, 0, o 1, z, 3, 5, 0, 0, 0⟩, ⟨aw, 0, z, o 1, 3, 5, 0, 0, 0⟩, ⟨aw, 0, z, z, 0, 5, 0, 0, 0⟩,
      ⟨aw, 0, z, z, 3, 5, 1, 0, 0⟩, ⟨aw, 0, z, z, 3, 5, 0, 1, 0⟩, ⟨aw, 0, z, z, 3, 5, 0, 0, 1⟩] &&
    refuses .sbnd sKD (nS sKD ++ [sK, sD, { sKD with a := o 325 }, { sKD with imm := 1 }, { sKD with sub := 1 }]) &&
    refuses .aadd { mG with ord := 3 } [{ mG with g := gn }, { mG with a := o 9 }, { mG with evict := 4 }, { mG with evict := 1 }, { mG with b := o 417 }, { mG with d := 326 }] &&
    refuses .acas { mG with b := o 12, size := 3 } [{ mG with b := o 10, size := 3 }, { mG with b := o 324, size := 3 }, { mG with d := 9, b := o 12, size := 3 }, { mG with evict := 1, b := o 12, size := 3 }] &&
    refuses .afad mG [{ mG with evict := 3 }] && refuses .acad { mG with b := o 10 } [mG] && refuses .amnx mG [{ mG with size := 3 }] && refuses .afmx mG [{ mG with evict := 6 }] &&
    refuses .amxi { mG with b := o 10, size := 3 } [{ mG with b := o 10, size := 3, evict := 1 }] && refuses .alop mG [{ mG with evict := 3 }, { mG with size := 1 }] && refuses .axch mG [{ mG with evict := 1 }] &&
    refuses .ainc mG [{ mG with evict := 2 }] && refuses .ared { mG with d := 0 } [mG, { mG with d := 0, evict := 6 }] &&
    refuses .waita { mG with evict := 3, ord := 1 } [{ mG with evict := 4 }, { mG with ord := 2 }, { mG with scope := 1 }] &&
    illScope (.ldg { mG with scope := 6 }) && !illScope (.ldg { mG with scope := 5 }) = true := by decide +kernel

theorem test_wf_sync : refuses .bar { sS with imm := 0x2007 } (nS sS ++ [{ sS with sub := 1 }, { sS with imm := 0xA000 }, { sS with imm := 0x10 }, { sS with imm := 0x2008 }, sD, sK]) &&
    refuses .bara sD [sS, sKD] && refuses .barw sK [sKD, sS] &&
    refuses .phaExpect { sS with sub := 1, a := o 417, imm := 31 } (nS { sS with sub := 1, a := o 417 } ++ [{ sS with a := o 417 }, { sS with sub := 1, a := o 417, imm := 32 }, { sS with sub := 1 },
      { sD with sub := 1, a := o 417 }]) &&
    refuses .phxRead { sD with sub := 2 } [{ sS with sub := 2 }] &&
    refuses .phw { sS with sub := 1, imm := 31 } (nS sS ++ [{ sS with sub := 2 }, { sS with imm := 32 }, sK, sD]) &&
    refuses .tkg { sD with imm := 15 } (nS sD ++ [{ sD with sub := 1 }, { sD with imm := 16 }, sKD, sS]) && refuses .tkw { sK with imm := 15 } [sS, sKD, { sK with imm := 16 }, { sK with sub := 1 }] &&
    refuses .tksSet { sS with a := o 417 } [sS, { sD with a := o 417 }, { sS with a := o 417, imm := 16 }, { sS with a := o 417, sub := 1 }] && refuses .tksInc { sS with sub := 1 } [{ sK with sub := 1 }] &&
    refuses .tlw { sK with imm := 0x8000 } (nS sK ++ [{ sK with sub := 1 }, { sK with imm := 0xC000 }, { sK with imm := 0x400 }, { sK with imm := 0x4001 }, sKD, sS]) &&
    refuses .tls { sK with imm := 0x3FF } [{ sK with imm := 0x4000 }] && refuses .tlr sD [sKD, sS] = true := by decide +kernel

def tT : OpT := ⟨aw, 0, 0, 0, false, 0, 0, 0, 0⟩
theorem test_wf_matrix : refuses .tld { tT with td := 15, shp := 0x3FFE00 } [{ tT with g := gp }, { tT with ta := 1 }, { tT with tb := 1 }, { tT with res := true }, { tT with acc := 1 }, { tT with ts := 1 },
      { tT with shp := 1 }, { tT with m := 1 }] && refuses .tst { tT with ta := 1 } [{ tT with td := 1 }, { tT with shp := 1 }, { tT with m := 1 }] &&
    refuses .tzro { tT with td := 1 } [{ tT with shp := 1 }, { tT with m := 1 }] &&
    refuses .tzroAcc { tT with acc := 7, shp := 8 } [tT, { tT with shp := 9 }, { tT with shp := 0x11 }, { tT with shp := 1, m := 1 }] &&
    refuses .tmvv { tT with ta := 1, shp := 0x27E000 } [{ tT with shp := 0x27E200 }, { tT with m := 1 }] && refuses .tmvvAcc { tT with acc := 1, m := 1 } [tT, { tT with m := 1, ta := 1 }] &&
    refuses .tmvt { tT with td := 1 } [{ tT with ta := 1 }, { tT with m := 1 }] && refuses .tmvtAcc { tT with acc := 1, m := 1 } [tT, { tT with m := 1, td := 1 }] &&
    refuses .ttrn { tT with td := 1, ta := 1 } [{ tT with shp := 1 }, { tT with m := 1 }] &&
    refuses .tscl { tT with td := 1, ta := 1, ts := 1, m := 0x60 } [{ tT with m := 0x70 }, { tT with m := 1 }, { tT with shp := 1 }] && refuses .wld { tT with ta := 1, ts := 1 } [{ tT with shp := 1 }, { tT with m := 1 }] &&
    refuses .ald { tT with ta := 1, res := true, acc := 1 } [{ tT with shp := 1 }, { tT with m := 1 }] && refuses .ast { tT with m := 0x6E } [{ tT with m := 0x70 }, { tT with m := 1 }, { tT with shp := 1 }] &&
    refuses .mma { tT with ta := 1, res := true, acc := 1, ts := 1, shp := 1 } [{ tT with shp := 2 }, { tT with m := 1 }] && refuses .mfct { tT with td := 1, acc := 1, shp := 63 } [{ tT with shp := 64 }, { tT with m := 1 }] &&
    refuses .mtrs { tT with td := 1, tb := 1, acc := 1, shp := 0x2000 } [{ tT with tb := 1 }, { tT with shp := 0x20000 }, { tT with m := 1 }] &&
    refuses .gang sKD (nS sKD ++ [{ sKD with imm := 1 }, { sKD with sub := 1 }, sK, sD]) && refuses .mfen sS [sD, sK] = true := by decide +kernel

theorem test_wf_copy : refuses .rbnd { sKD with imm := 63 } (nS sKD ++ [{ sKD with sub := 1 }, sK, { sKD with a := o 325 }, { sKD with a := o 326 }, { sKD with imm := 64 }, { sKD with a := kl }]) &&
    refuses .lrec sKD [{ sKD with imm := 1 }, { sKD with a := o 325 }] && refuses .runb sD [sKD, sS] && refuses .cfen sS [sD] &&
    refuses .rtst { sKD with d := 393, sub := 3, imm := 63 } (nS sKD ++ [{ sKD with sub := 4 }, { sKD with d := 385 }, sD, { sKD with imm := 64 }]) &&
    refuses .rwt { sK with sub := 1, imm := 63 } (nS sK ++ [{ sK with sub := 2 }, sKD, sS, { sK with imm := 64 }]) = true := by decide +kernel

def mL : OpM := ⟨aw, 8, o 324, o 9, 0, 2, 0, 3, 5⟩
theorem test_wf_home : refuses .cmb ⟨gp, 8, o 12, 63, 0, 0x240⟩ [⟨gn, 8, o 12, 0, 0, 0⟩, ⟨aw, 8, o 12, 64, 0, 0⟩, ⟨aw, 8, o 12, 0, 1, 0⟩, ⟨aw, 8, o 12, 0, 0, 0x300⟩, ⟨aw, 8, o 12, 0, 0, 0xC0⟩, ⟨aw, 8, o 12, 0, 0, 8⟩,
      ⟨aw, 8, o 12, 0, 0, 1⟩, ⟨aw, 326, o 12, 0, 0, 0⟩, ⟨aw, 9, o 12, 0, 0, 0x40⟩, ⟨aw, 8, o 324, 0, 0, 0⟩, ⟨aw, 8, o 13, 0, 0, 0x100⟩] &&
    refuses .cmbNt ⟨aw, 8, o 12, 0, 1, 6⟩ [⟨aw, 8, o 12, 0, 1, 7⟩] &&
    refuses .cmbr { sS with a := o 8 } (nS { sS with a := o 8 } ++ [{ sS with a := o 324 }, { sS with a := o 8, d := 1 }, { sS with a := o 8, imm := 1 }, { sS with a := o 8, sub := 1 }]) &&
    refuses .gld { mL with ord := 1 } [{ mL with g := gn }, { mL with size := 2 }, { mL with scope := 1 }, { mL with evict := 1 }, { mL with ord := 2 }, { mL with a := o 9 }, { mL with b := o 433 }, { mL with d := 326 }] &&
    refuses .gadd { mL with b := o 433, d := 0, ord := 2 } [{ mL with d := 0, b := o 417 }, mL, { mL with evict := 1, d := 326 }, { mL with d := 0, evict := 2 }, { mL with d := 0, ord := 1 }] &&
    refuses .gmrg { mL with b := o 10, d := 0 } [{ mL with d := 0 }] && refuses .gset { mL with b := o 10, d := 0, evict := 2 } [{ mL with b := o 10, evict := 2 }, { mL with b := o 10, d := 0, evict := 1 }] &&
    refuses .gswpAdd sKD [{ sKD with a := o 325 }] && refuses .gstpRd { sD with sub := 1 } [{ sKD with sub := 1 }, sD] &&
    refuses .sol ⟨aw, 8, o 324, 3, 6, 0x250⟩ [⟨gp, 8, o 324, 0, 0, 0⟩, ⟨aw, 8, o 324, 4, 0, 0⟩, ⟨aw, 8, o 324, 0, 7, 0⟩, ⟨aw, 8, o 324, 0, 0, 0x280⟩, ⟨aw, 8, o 324, 0, 0, 0x60⟩, ⟨aw, 8, o 324, 0, 0, 1⟩,
      ⟨aw, 326, o 324, 0, 0, 0⟩, ⟨aw, 9, o 324, 0, 1, 0⟩, ⟨aw, 10, o 324, 0, 4, 0⟩, ⟨aw, 8, o 8, 0, 0, 0⟩, ⟨aw, 8, o 326, 0, 0, 0⟩] &&
    refuses .solw { sS with imm := 3 } (nS sS ++ [{ sS with imm := 4 }, { sS with sub := 1 }, sK, sD]) && refuses .solr sD [sS] &&
    refuses .rsp { sS with g := gp, a := sl } [{ sS with g := gn }, sD, { sS with imm := 1 }, { sS with sub := 1 }, { sS with m := 1 }, { sS with a := ⟨385, false, true⟩ }] &&
    !wellFormed .powerOnReset = true := by decide +kernel

/-! ### One step, or one operation, on the spec's own worked values -/

/-- What register v n holds in a lane after the instruction. -/
def after (i : Instr) (s : State) (n lane : Nat) : Option Word :=
  match exec i s with
  | .next t => (t.group? tR).map (fun g => (g.vreg n).lane lane)
  | _ => none

/-- 06, worked example of IADD: saturating and wrapping. -/
theorem test_iadd_sat : after (.iadd (.i ⟨aw, 6, o 8, 1, 0x089⟩)) (tV 8 (fun _ => 0x7FFFFFFF)) 6 31 = some 0x7FFFFFFF := by decide +kernel
theorem test_iadd_wrap : after (.iadd (.i ⟨aw, 6, o 8, 1, 0x081⟩)) (tV 8 (fun _ => 0x7FFFFFFF)) 6 0 = some 0x80000000 := by decide +kernel
/-- 06: LOP3 with LUT 0x96 is a xor b xor c, with LUT 0xEA (a and b) or c; source and destination may be one register. -/
theorem test_lop3_xor : after (.lop3 ⟨aw, 8, o 8, o 9, o 386, 0x12C⟩) (tV 8 (fun _ => 0xF0F0AAAA) (tV 9 (fun l => if l = 3 then 0xFF00CCCC else 0))) 8 3 =
    some 0xF00F9999 := by decide +kernel
theorem test_lop3_and_or : after (.lop3 ⟨aw, 6, o 8, o 9, o 385, 0x1D4⟩) (tV 8 (fun _ => 0xF0F0AAAA) (tV 9 (fun _ => 0xFF00CCCC))) 6 0 = some 0xF0008888 := by
  decide +kernel
/-- 06, worked values of R176 to R178: a tie to even, and upwards. -/
theorem test_fadd_tie : after (.fadd (.r ⟨aw, 6, o 8, o 9, z, 0x180⟩)) (tV 8 (fun _ => 0x3F800000) (tV 9 (fun _ => 0x33800000))) 6 5 = some 0x3F800000 := by decide +kernel
theorem test_fadd_up : after (.fadd (.r ⟨aw, 6, o 8, o 9, z, 0x1C0⟩)) (tV 8 (fun _ => 0x3F800000) (tV 9 (fun _ => 0x33800000))) 6 5 = some 0x3F800001 := by decide +kernel
theorem test_fmul_subnormal : after (.fmul (.r ⟨aw, 6, o 8, o 9, z, 0x184⟩)) (tV 8 (fun _ => 0x0D800000) (tV 9 (fun _ => 0x30800000))) 6 0 = some 0x00080000 := by decide +kernel
/-- 06: CVT to E4M3 of 500.0 with `.nanov` is 0x7F; the word is the one of the worked encoding. -/
theorem test_cvt_nanov : after (.cvt ⟨aw, 5, o 4, o 0x30, z, 0x002⟩) (tV 4 (fun _ => 0x43FA0000)) 5 0 = some 0x7F := by decide +kernel
/-- 06, worked example of R206 and R207: the order of the adds. -/
theorem test_xred_order : after (.xred ⟨aw, 6, o 8, z, o 324, 0x180⟩)
    (tSp (fun sp => { sp with mask := 0xF }) (tK 4 0xF (tV 8 (fun l => if l = 0 then 0x4B800000 else if l = 3 then 0xCB800000 else 0x3F800000)))) 6 2 = some 0x3F800000 := by decide +kernel
theorem test_xscn_order : after (.xscn ⟨aw, 6, o 8, z, o 324, 0x180⟩)
    (tSp (fun sp => { sp with mask := 0xF }) (tK 4 0xF (tV 8 (fun l => if l = 0 then 0x4B800000 else if l = 3 then 0xCB800000 else 0x3F800000)))) 6 2 = some 0x4B800000 := by decide +kernel
/-- 09, worked values of R260 to R262. -/
theorem test_tsum_error : after (.tsum ⟨aw, 6, o 8, o 9, z, 0⟩) (tV 8 (fun _ => 0x3F800000) (tV 9 (fun _ => 0x4B800001))) 7 0 = some 0xBF800000 := by decide +kernel
theorem test_ftsm_error : after (.ftsm ⟨aw, 6, o 8, o 9, z, 0⟩) (tV 8 (fun _ => 0x3F800000) (tV 9 (fun _ => 0x4B800001))) 7 0 = some 0xC0000000 := by decide +kernel
theorem test_tprd_error : after (.tprd ⟨aw, 6, o 8, o 9, z, 0⟩) (tV 8 (fun _ => 0x3F800001) (tV 9 (fun _ => 0x3F800001))) 7 0 = some 0x28800000 := by decide +kernel
/-- 09, worked example of XADD: (2^30, 1) plus (-2^30, 2^-30). -/
theorem test_xadd_pair : after (.xadd ⟨aw, 6, o 8, o 10, z, 0x54⟩)
    (tV 8 (fun _ => 0x4E800000) (tV 9 (fun _ => 0x3F800000) (tV 10 (fun _ => 0xCE800000) (tV 11 (fun _ => 0x30800000))))) 7 0 = some 0x30800000 := by decide +kernel
theorem test_xadd_fold : after (.xadd ⟨aw, 6, o 8, o 10, z, 0x50⟩)
    (tV 8 (fun _ => 0x4E800000) (tV 9 (fun _ => 0x3F800000) (tV 10 (fun _ => 0xCE800000) (tV 11 (fun _ => 0x30800000))))) 6 0 = some 0x3F800000 := by decide +kernel
/-- 12, worked values of decay_to. -/
theorem test_glide_decay : decayTo (gWord 0x41000000 0 0) 4 [0x3F000000] = 0x3F000000 ∧ decayTo (gWord 0x41440000 0 1) 3 [0, 0x3F400000] = 0x40A56000 ∧
    decayTo (gWord 0x3F800000 0 0) 200 [0x3F000000] = 0 ∧ decayTo (gWord 0x7FC00000 0 0) 5 [0x3F000000] = 0x7FC00000 := by decide +kernel
/-- 12, worked example of the home function. -/
theorem test_home : homeIn (0, 4) 0x12345680 = (1, 32) ∧ homeIn (0, 4) 0x5000004000 = (2, 32) := by decide +kernel
/-- 04, worked example of the launch digest. -/
theorem test_launch_digest : rotDig 0x8000000000000001 3 + rotDig 1 65 = 0xE ∧ rotDig 1 3 + rotDig 0x8000000000000001 65 = 0xB := by decide +kernel
/-- 10, worked example of the layout: element (5, 70). -/
theorem test_layout : ({ (default : Layout) with esz := 1, br := 4, bc := 64, orr := 2, oc := 2, swz := 2, rowStride := 4096 } : Layout).elementAt 0x69C = (5, 70, 0x68C / 2) := by
  decide +kernel
/-- 14 R402: two partitions of two dies; local address 0x100 of the second lies on its own stacks. -/
theorem test_partition_base : (let s := { tS with parts := [(0, 2), (2, 2)] }
    s.physKey 1 0x100 = 0x100 ∧ s.physKey 3 0x100 = 2 * 96 * 2 ^ 30 + 0x100 ∧ s.outside 3 (2 * 96 * 2 ^ 30) = true) := by decide +kernel

end Sys2Proof.Tests
end

section
/-! PROOF of O34, landing and acknowledgment: finite maps, the lanes of a register, the destination of a load, and an
operation that is over. -/

namespace Sys2Proof.Machine

open Sys2Proof

/-! ### Finite maps, sets of lanes, lists of lanes -/

@[simp] theorem AMap.get?_set_self {κ α : Type} [DecidableEq κ] (m : AMap κ α) (k : κ) (a : α) :
    (AMap.set m k a).get? k = some a := by
  induction m with
  | nil => simp [AMap.set, AMap.get?]
  | cons x m ih => by_cases h : x.1 = k <;> simp [AMap.set, AMap.get?, h, ih]

theorem AMap.get?_set_of_ne {κ α : Type} [DecidableEq κ] (m : AMap κ α) {k k' : κ} (a : α) (h : k' ≠ k) :
    (AMap.set m k a).get? k' = m.get? k' := by
  induction m with
  | nil => simp [AMap.set, AMap.get?, Ne.symm h]
  | cons x m ih => by_cases hx : x.1 = k <;> simp [AMap.set, AMap.get?, hx, Ne.symm h, ih]

@[simp] theorem Group.vreg_setV_self (g : Group) (n : Nat) (r : VReg) : (g.setV n r).vreg n = r := by
  simp [Group.vreg, Group.setV, AMap.getD]

theorem Group.vreg_setV_of_ne (g : Group) {n k : Nat} (r : VReg) (h : k ≠ n) : (g.setV n r).vreg k = g.vreg k := by
  simp [Group.vreg, Group.setV, AMap.getD, AMap.get?_set_of_ne _ _ h]

theorem getD_perLane {α : Type} (f : Nat → α) {l : Nat} (d : α) (h : l < 32) : (perLane f).getD l d = f l := by
  simp [perLane, lanes, List.getD_eq_getElem?_getD, h]

/-- The number with bit l set for each lane l of an initial segment that passes a test. -/
theorem testBit_foldl_lanes (f : Nat → Bool) (n i : Nat) :
    ((List.range n).foldl (fun x l => if f l then x + 2 ^ l else x) 0).testBit i = (decide (i < n) && f i) ∧
    (List.range n).foldl (fun x l => if f l then x + 2 ^ l else x) 0 < 2 ^ n := by
  induction n with
  | zero => simp
  | succ n ih =>
    obtain ⟨hbit, hlt⟩ := ih
    rw [List.range_succ, List.foldl_append]
    generalize (List.range n).foldl (fun x l => if f l then x + 2 ^ l else x) 0 = x at hbit hlt
    simp only [List.foldl_cons, List.foldl_nil]
    cases hf : f n with
    | false =>
      refine ⟨?_, by simpa using hlt.trans (Nat.pow_lt_pow_right (by omega) (by omega))⟩
      by_cases hi : i = n
      · subst hi; simp [hbit, hf]
      · simp [hbit, show i < n + 1 ↔ i < n by omega]
    | true =>
      have hsucc : x + 2 ^ n < 2 ^ (n + 1) := by omega
      refine ⟨?_, by simpa using hsucc⟩
      rw [if_pos rfl]
      rcases Nat.lt_trichotomy i n with hi | rfl | hi
      · rw [Nat.add_comm, Nat.testBit_two_pow_add_gt hi, hbit]; simp [hi, show i < n + 1 by omega]
      · rw [Nat.add_comm, Nat.testBit_two_pow_add_eq, hbit]; simp [hf]
      · rw [Nat.testBit_lt_two_pow (hsucc.trans_le (Nat.pow_le_pow_right (by omega) hi))]; simp; omega

@[simp] theorem has_maskOf (f : Nat → Bool) {l : Nat} (h : l < 32) : (maskOf f).has l = f l := by
  unfold maskOf Mask.has lanes
  rw [BitVec.getLsbD_ofNat, (testBit_foldl_lanes f 32 l).1]
  simp [h]

/-- Of entries listed once each, the one found by its name is that entry. -/
theorem find?_key {α : Type} {f : α → Nat} {l : List α} {a : α} (hn : (l.map f).Nodup) (ha : a ∈ l) :
    l.find? (fun b => f b = f a) = some a := by
  induction l with
  | nil => cases ha
  | cons b l ih =>
    rw [List.map_cons, List.nodup_cons] at hn
    rcases List.mem_cons.1 ha with rfl | ha
    · simp
    · have hb : f b ≠ f a := fun h => hn.1 (h ▸ List.mem_map_of_mem ha)
      simpa [hb] using ih hn.2 ha

/-- The set of the lanes of a list has the lanes listed. -/
theorem has_foldl_lanes (ls : List LaneAcc) (m : Mask) {i : Nat} (hi : i < 32) :
    Mask.has (ls.foldl (fun m l => m ||| BitVec.ofNat 32 (2 ^ l.lane)) m) i =
      (m.has i || ls.any (fun l => l.lane == i)) := by
  induction ls generalizing m with
  | nil => simp
  | cons l ls ih =>
    have hbit : (BitVec.ofNat 32 (2 ^ l.lane)).getLsbD i = (l.lane == i) := by
      rw [BitVec.getLsbD_ofNat, Nat.testBit_two_pow]; simp [hi, beq_eq_decide]
    rw [List.foldl_cons, ih]
    simp only [Mask.has, BitVec.getLsbD_or, hbit, List.any_cons, Bool.or_assoc]

theorem foldl_eq_self {α β : Type} {f : α → β → α} {a : α} {l : List β} (h : ∀ b ∈ l, f a b = a) : l.foldl f a = a := by
  induction l with
  | nil => rfl
  | cons b l ih => rw [List.foldl_cons, h b (by simp), ih fun b hb => h b (by simp [hb])]

/-! ### Data that land in registers (01 R16, R27) -/

/-- Data of an operation land in the lanes of a set in which it is the outstanding producer. -/
theorem VReg.has_and_prod (r : VReg) (m : Mask) (id : Nat) {l : Nat} (hl : l < 32) :
    (m &&& maskOf (fun l => r.prod.getD l 0 == id)).has l = (m.has l && r.prod.getD l 0 == id) := by
  rw [← has_maskOf (fun l => r.prod.getD l 0 == id) hl]
  simp [Mask.has]

theorem VReg.land_lane (r : VReg) (m : Mask) (id : Nat) (f : Nat → Word) {l : Nat} (hl : l < 32) :
    (r.land m id f).lane l = if m.has l && r.prod.getD l 0 == id then f l else r.lane l := by
  unfold VReg.land VReg.lane
  rw [getD_perLane _ _ hl, r.has_and_prod m id hl]

theorem VReg.land_prod (r : VReg) (m : Mask) (id : Nat) (f : Nat → Word) {l : Nat} (hl : l < 32) :
    (r.land m id f).prod.getD l 0 = if m.has l && r.prod.getD l 0 == id then 0 else r.prod.getD l 0 := by
  unfold VReg.land
  rw [getD_perLane _ _ hl, r.has_and_prod m id hl]

/-- The data of a reply of k words landed in the registers from n on. -/
def Group.landWords (g : Group) (n : Nat) (m : Mask) (id : Nat) (w : Nat → Nat → Word) (k : Nat) : Group :=
  (List.range k).foldl (fun g i => g.landV (n + i) m id (w i)) g

theorem Group.landWords_succ (g : Group) (n : Nat) (m : Mask) (id : Nat) (w : Nat → Nat → Word) (k : Nat) :
    g.landWords n m id w (k + 1) = (g.landWords n m id w k).landV (n + k) m id (w k) := by
  simp [Group.landWords, List.range_succ]

/-- Landing changes the v registers only. -/
theorem Group.landWords_eq (g : Group) (n : Nat) (m : Mask) (id : Nat) (w : Nat → Nat → Word) (k : Nat) :
    ∃ v, g.landWords n m id w k = { g with vregs := v } := by
  induction k with
  | zero => exact ⟨g.vregs, rfl⟩
  | succ k ih => obtain ⟨v, hv⟩ := ih; exact ⟨_, by rw [Group.landWords_succ, hv, Group.landV, Group.setV]⟩

@[simp] theorem Group.landWords_ref (g : Group) (n : Nat) (m : Mask) (id : Nat) (w : Nat → Nat → Word) (k : Nat) :
    (g.landWords n m id w k).ref = g.ref := by
  obtain ⟨v, hv⟩ := g.landWords_eq n m id w k; rw [hv]

theorem Group.vreg_landWords_other (g : Group) (n : Nat) (m : Mask) (id : Nat) (w : Nat → Nat → Word) (k : Nat) {j : Nat}
    (h : j < n ∨ n + k ≤ j) : (g.landWords n m id w k).vreg j = g.vreg j := by
  induction k with
  | zero => rfl
  | succ k ih =>
    rw [Group.landWords_succ, Group.landV, Group.vreg_setV_of_ne _ _ (by omega), ih (by omega)]

theorem Group.vreg_landWords (g : Group) (n : Nat) (m : Mask) (id : Nat) (w : Nat → Nat → Word) (k : Nat) {i : Nat}
    (h : i < k) : (g.landWords n m id w k).vreg (n + i) = (g.vreg (n + i)).land m id (w i) := by
  induction k with
  | zero => omega
  | succ k ih =>
    rw [Group.landWords_succ, Group.landV]
    rcases Nat.lt_succ_iff_lt_or_eq.1 h with hi | rfl
    · rw [Group.vreg_setV_of_ne _ _ (by omega), ih hi]
    · rw [Group.vreg_setV_self, Group.vreg_landWords_other _ _ _ _ _ _ (by omega)]

/-! ### Groups changed one change after another -/

theorem State.modGroup_modGroup (s : State) (r : GRef) {f f' : Group → Group} (hf : ∀ g, (f g).ref = g.ref) :
    (s.modGroup r f).modGroup r f' = s.modGroup r (fun g => f' (f g)) := by
  simp only [State.modGroup, List.map_map]
  congr 1
  refine List.map_congr_left fun g _ => ?_
  by_cases h : g.ref = r <;> simp [h, hf]

theorem State.modGroup_self (s : State) (r : GRef) : s.modGroup r (fun g => g) = s := by
  simp [State.modGroup]

/-- A change of a group's v registers makes none of its registers a mailbox register or an ordinary one. -/
theorem State.isMbox_modGroup_vregs (s : State) (r : GRef) (f : Group → Group) (g : Group) (v : AMap Nat VReg) (n : Nat) :
    (s.modGroup r f).isMbox { g with vregs := v } n = s.isMbox g n := rfl

/-! ### The destination of a load (08 R236) -/

/-- The word of a reply that goes to a register's lane. -/
def laneWord (ls : List LaneAcc) (i lane : Nat) : Word :=
  match ls.find? (fun l => l.lane = lane) with | some l => replyWord l.reply i | none => 0

/-- Replies to registers that are no mailbox registers land in the registers of the group, and change nothing else. -/
theorem State.landLanes_eq {s : State} {o : MemOp} {f : AccForm} {g : Group} {ls : List LaneAcc} (hf : accForm o.ins = some f)
    (hk : f.destK = false) (hg : s.group? o.g = some g) (hm : ∀ i < f.destW, s.isMbox g (o.dest + i) = false) (hls : ls ≠ []) :
    s.landLanes o ls = s.modGroup o.g (fun g => g.landWords o.dest
      (ls.foldl (fun m l => m ||| BitVec.ofNat 32 (2 ^ l.lane)) (0 : Mask)) o.id (laneWord ls) f.destW) := by
  simp only [State.landLanes, hf, hls, hk, if_false, Bool.false_eq_true]
  generalize f.destW = k at hm
  induction k with
  | zero => exact (s.modGroup_self o.g).symm
  | succ k ih =>
    rw [List.range_succ, List.foldl_append, ih fun i hi => hm i (by omega)]
    simp only [List.foldl_cons, List.foldl_nil]
    rw [State.group?_modGroup hg (Group.landWords_ref ..)]
    obtain ⟨v, hv⟩ := g.landWords_eq o.dest
      (ls.foldl (fun m l => m ||| BitVec.ofNat 32 (2 ^ l.lane)) (0 : Mask)) o.id (laneWord ls) k
    simp only [hv, State.isMbox_modGroup_vregs, hm k (by omega), Bool.false_eq_true, if_false]
    rw [State.modGroup_modGroup _ _ (fun g => Group.landWords_ref ..)]
    simp only [Group.landWords_succ]
    rfl

/-- What lanes saw of engines' signals is remembered by their group, which changes in nothing else. -/
theorem State.engLanded_eq (s : State) (o : MemOp) (ls : List LaneAcc) :
    ∃ e : Group → Mask, s.engLanded o ls = s.modGroup o.g (fun g => { g with engSeen := e g }) := by
  unfold State.engLanded
  split
  · exact ⟨fun g => g.engSeen, (s.modGroup_self o.g).symm⟩
  · exact ⟨_, rfl⟩

/-! ### An operation that is over (02 R34) -/

/-- Storage of closed blocks is given up without a trace outside the list of blocks. -/
theorem State.releaseClosed_eq (s : State) : ∃ b, s.releaseClosed = { s with blocks := b } := by
  unfold State.releaseClosed
  generalize ((s.blocks.filter (·.closed)).map (·.lid)).dedup = ids
  induction ids generalizing s with
  | nil => exact ⟨s.blocks, rfl⟩
  | cons i ids ih => obtain ⟨b, hb⟩ := ih (s.releaseBlocks i); exact ⟨b, hb⟩

theorem State.closeOp_eq {s : State} {o : MemOp} {f : AccForm} (hf : accForm o.ins = some f) (hc : f.ctr ≠ 0) :
    ∃ b d, s.closeOp o = ({ s with ops := s.ops.filter (fun p => p.id ≠ o.id), dls := d, blocks := b } : State).modGroup o.g
      (fun g => g.decCtr f.ctr) := by
  simp only [State.closeOp, hf, hc, if_false]
  split
  · obtain ⟨b, hb⟩ := State.releaseClosed_eq
      { s with ops := s.ops.filter (fun p => p.id ≠ o.id), dls := s.dls.filter (fun d => d.who ≠ .op o.id) }
    exact ⟨b, _, by rw [hb]⟩
  · exact ⟨s.blocks, _, rfl⟩

theorem State.op?_id {s : State} {id : Nat} {o : MemOp} (h : s.op? id = some o) : o.id = id := by
  simpa using List.find?_some h

theorem find?_filter_id (l : List MemOp) (id : Nat) : (l.filter (fun p => p.id ≠ id)).find? (fun p => p.id = id) = none := by
  simp

/-- An operation that is over is listed no more, its counter is lowered, and memory stays. -/
theorem State.closeOp_post {s : State} {o : MemOp} {f : AccForm} {g : Group} (hf : accForm o.ins = some f) (hc : f.ctr ≠ 0)
    (hg : s.group? o.g = some g) :
    (s.closeOp o).op? o.id = none ∧ (s.closeOp o).hbm = s.hbm ∧ (s.closeOp o).onchip = s.onchip ∧
      (s.closeOp o).group? o.g = some (g.decCtr f.ctr) := by
  obtain ⟨b, d, h⟩ := State.closeOp_eq (s := s) hf hc
  rw [h]
  exact ⟨find?_filter_id s.ops o.id, rfl, rfl, State.group?_modGroup (s := { s with ops := _, dls := d, blocks := b }) hg rfl⟩

/-! ### An operation whose lanes are performed -/

theorem State.laneReady_of_done (s : State) (o : MemOp) {l : LaneAcc} (h : l.isDone = true) : s.laneReady o l = false := by
  have hs : (l.status == .accepted) = false := by
    have : l.status = .performed := by simpa [LaneAcc.isDone] using h
    rw [this]; rfl
  simp [State.laneReady, State.laneHere, hs]

theorem State.performLocal_of_done (s : State) (o : MemOp) {l : LaneAcc} (h : l.isDone = true) : s.performLocal o l = s := by
  simp [State.performLocal, State.mayPerform, s.laneReady_of_done o h]

/-- Where every lane of an operation is performed nothing is left to perform. -/
theorem State.performAll_of_done {s : State} {id : Nat} {o : MemOp} (ho : s.op? id = some o)
    (hd : o.lanes.all LaneAcc.isDone = true) : s.performAll id = s := by
  unfold State.performAll State.eachLane
  simp only [ho]
  refine foldl_eq_self fun l hl => ?_
  rw [ho]
  refine s.performLocal_of_done o ?_
  cases hk : o.lanes.find? (fun k => k.lane = l.lane) with
  | none => exact List.all_eq_true.1 hd l hl
  | some k => exact List.all_eq_true.1 hd k (List.mem_of_find?_eq_some hk)

/-! ### The events (08 R236, 01 R16) -/

/-- A load whose lanes are all performed lands in every lane, and is over. -/
theorem execLoadDataLand_done {s : State} {op : Nat} {o : MemOp} {f : AccForm} {g : Group} (ho : s.op? op = some o)
    (hf : accForm o.ins = some f) (hc : f.ctr = 6) (hg : s.group? o.g = some g)
    (hw : (g.split o.entry).wait ≠ .verdict op) (hd : o.lanes.all LaneAcc.isDone = true) (hh : o.holds = false) :
    execLoadDataLand op s = .next (((s.landLanes o o.lanes).engLanded o o.lanes).closeOp o) := by
  have hready : o.lanes.filter LaneAcc.isDone = o.lanes := List.filter_eq_self.2 (List.all_eq_true.1 hd)
  have hrest : o.lanes.filter (fun l => !l.isDone) = [] := by
    simpa [List.filter_eq_nil_iff] using hd
  simp [execLoadDataLand, ho, hf, hc, hg, hw, State.performAll_of_done ho hd, hh, hready, hrest]

/-- A store whose lanes are all performed, none of its writes held or on its way, is over. -/
theorem execStoreAck_done {s : State} {op : Nat} {o : MemOp} {f : AccForm} {g : Group} (ho : s.op? op = some o)
    (hf : accForm o.ins = some f) (hc : f.ctr = 5) (hg : s.group? o.g = some g)
    (hw : (g.split o.entry).wait ≠ .verdict op) (hd : o.lanes.all LaneAcc.isDone = true) (hh : o.holds = false)
    (hm : s.heldByMigr o = false) (hp : s.portWrites.all (fun w => w.op ≠ op) = true) :
    execStoreAck op s = .next (s.closeOp o) := by
  have hdone : o.lanes.all (fun l => l.isDone || (o.toMbox l && s.mbox.all (fun w => w.op ≠ op))) = true :=
    List.all_eq_true.2 fun l hl => by simp [List.all_eq_true.1 hd l hl]
  simp only [execStoreAck, ho, hf, hc, hg, State.performAll_of_done ho hd, hh, hm, hp, hdone]
  simp [hw]

/-- A lane of a load whose reply has landed (01 R27). -/
theorem Group.landWords_at (g : Group) {o : MemOp} {l : LaneAcc} (hl : l ∈ o.lanes) (hn : (o.lanes.map (·.lane)).Nodup)
    (h32 : l.lane < 32) {k i : Nat} (hi : i < k) :
    let m := o.lanes.foldl (fun m l => m ||| BitVec.ofNat 32 (2 ^ l.lane)) (0 : Mask)
    let r := (g.landWords o.dest m o.id (laneWord o.lanes) k).vreg (o.dest + i)
    r.lane l.lane = (if (g.vreg (o.dest + i)).prod.getD l.lane 0 = o.id then replyWord l.reply i
      else (g.vreg (o.dest + i)).lane l.lane) ∧
    r.prod.getD l.lane 0 = if (g.vreg (o.dest + i)).prod.getD l.lane 0 = o.id then 0
      else (g.vreg (o.dest + i)).prod.getD l.lane 0 := by
  intro m r
  have hm : Mask.has m l.lane = true := by
    rw [has_foldl_lanes _ _ h32, List.any_eq_true.2 ⟨l, hl, by simp⟩, Bool.or_true]
  have hw : laneWord o.lanes i l.lane = replyWord l.reply i := by simp only [laneWord, find?_key hn hl]
  have hr : r = (g.vreg (o.dest + i)).land m o.id (laneWord o.lanes i) := g.vreg_landWords _ _ _ _ _ hi
  rw [hr, VReg.land_lane _ _ _ _ h32, VReg.land_prod _ _ _ _ h32, hm, hw]
  simp

theorem loadDataLand_answers {s : State} {op : Nat} {o : MemOp} {g : Group} {f : AccForm} (ho : s.op? op = some o)
    (hf : accForm o.ins = some f) (hc : f.ctr = 6) (hk : f.destK = false) (hg : s.group? o.g = some g)
    (hw : (g.split o.entry).wait ≠ .verdict op) (hd : o.lanes.all LaneAcc.isDone = true) (hh : o.holds = false)
    (hls : o.lanes ≠ []) (hn : (o.lanes.map (·.lane)).Nodup) (h32 : ∀ l ∈ o.lanes, l.lane < 32)
    (hm : ∀ i < f.destW, s.isMbox g (o.dest + i) = false) :
    Answers (.loadDataLand op) s (fun t => t.op? op = none ∧ t.hbm = s.hbm ∧ t.onchip = s.onchip ∧
      ∃ g', t.group? o.g = some g' ∧ g'.ctr = (g.decCtr 6).ctr ∧ g'.kregs = g.kregs ∧ g'.splits = g.splits ∧
        (∀ i < f.destW, ∀ l ∈ o.lanes, (g.vreg (o.dest + i)).prod.getD l.lane 0 = op →
          (g'.vreg (o.dest + i)).lane l.lane = replyWord l.reply i ∧ (g'.vreg (o.dest + i)).prod.getD l.lane 0 = 0) ∧
        (∀ i < f.destW, ∀ l ∈ o.lanes, (g.vreg (o.dest + i)).prod.getD l.lane 0 ≠ op →
          (g'.vreg (o.dest + i)).lane l.lane = (g.vreg (o.dest + i)).lane l.lane) ∧
        (∀ n, n < o.dest ∨ o.dest + f.destW ≤ n → g'.vreg n = g.vreg n)) := by
  refine ⟨_, execLoadDataLand_done ho hf hc hg hw hd hh, ?_⟩
  obtain rfl := State.op?_id ho
  let x := g.landWords o.dest (o.lanes.foldl (fun m l => m ||| BitVec.ofNat 32 (2 ^ l.lane)) (0 : Mask)) o.id
    (laneWord o.lanes) f.destW
  obtain ⟨v, hv⟩ : ∃ v, x = { g with vregs := v } := g.landWords_eq ..
  have hx : (s.landLanes o o.lanes).group? o.g = some x := by
    rw [State.landLanes_eq hf hk hg hm hls]
    exact State.group?_modGroup hg (Group.landWords_ref ..)
  obtain ⟨e, he⟩ := (s.landLanes o o.lanes).engLanded_eq o o.lanes
  have hx' : ((s.landLanes o o.lanes).engLanded o o.lanes).group? o.g = some { x with engSeen := e x } := by
    rw [he]; exact State.group?_modGroup hx rfl
  obtain ⟨hop, hhbm, hoc, hgr⟩ := State.closeOp_post hf (by omega) hx'
  rw [hc] at hgr
  refine ⟨hop, ?_, ?_, _, hgr, ?_, ?_, ?_, ?_, ?_, ?_⟩
  · rw [hhbm, he, State.landLanes_eq hf hk hg hm hls]; rfl
  · rw [hoc, he, State.landLanes_eq hf hk hg hm hls]; rfl
  · rw [hv]; rfl
  · rw [hv]; rfl
  · rw [hv]; rfl
  · intro i hi l hl hp
    obtain ⟨h1, h2⟩ := g.landWords_at hl hn (h32 l hl) hi
    exact ⟨h1.trans (if_pos hp), h2.trans (if_pos hp)⟩
  · intro i hi l hl hp
    exact (g.landWords_at hl hn (h32 l hl) hi).1.trans (if_neg hp)
  · intro n hn'
    exact g.vreg_landWords_other _ _ _ _ _ hn'

/-- Writes held since a state are marked as an access's own: since the state itself there are none. -/
theorem State.ownHeld_self {s : State} (hn : (s.migrs.map (·.id)).Nodup) (src : List WriteSrc) : s.ownHeld s src = s := by
  unfold State.ownHeld
  split
  · rfl
  · conv_rhs => rw [show s = { s with migrs := s.migrs.map id } by simp]
    congr 1
    exact List.map_congr_left fun m hm => by simp [find?_key hn hm]

/-- A scratchpad load is performed on chip, and reads there. -/
theorem State.scratchLoad {s : State} {o : MemOp} {q : OpM} {l : LaneAcc} (hi : o.ins = .lds q) (hsp : o.space = .scratch)
    (hfe : l.fence = none) (hn : (s.migrs.map (·.id)).Nodup) :
    s.placeFor o l = .chip ∧
      s.performAt o .chip l = (s, { l with status := .performed, reply := s.ocRead l.addr o.size, eng := false }) := by
  have hoc : o.oc l = some l.addr := by simp [MemOp.oc, hsp]
  have hpair : o.isPair = false := by simp [MemOp.isPair, hi]
  have hwr : o.writes = false := by simp [MemOp.writes, hi, accForm, loadForm, AccForm.writes]
  have hrel : s.releaseFor o l = s := by simp [State.releaseFor, hfe, hwr]
  have hspan : o.spans l = [(l.addr, o.size)] := by simp [MemOp.spans, hpair, hoc]
  have happ : ∀ st ft old, o.apply l st ft old = (none, old) := by simp [MemOp.apply, hi, hwr]
  have heng : ∀ old, s.sawEngine o l old = false := by simp [State.sawEngine, hoc]
  refine ⟨by simp [State.placeFor, MemOp.isFloatAred, hi, hoc], ?_⟩
  simp [State.performAt, hpair, hoc, hrel, hspan, State.reach, happ, State.readTouch, State.placeRead, heng,
    State.ownHeld_self hn]

theorem storeAck_answers {s : State} {op : Nat} {o : MemOp} {g : Group} {f : AccForm} (ho : s.op? op = some o)
    (hf : accForm o.ins = some f) (hc : f.ctr = 5) (hg : s.group? o.g = some g)
    (hw : (g.split o.entry).wait ≠ .verdict op) (hd : o.lanes.all LaneAcc.isDone = true) (hh : o.holds = false)
    (hm : s.heldByMigr o = false) (hp : s.portWrites.all (fun w => w.op ≠ op) = true) :
    Answers (.storeAck op) s (fun t => t.op? op = none ∧ t.hbm = s.hbm ∧ t.onchip = s.onchip ∧
      ∃ g', t.group? o.g = some g' ∧ g'.ctr = (g.decCtr 5).ctr ∧ g'.SameRegs g ∧ g'.splits = g.splits) := by
  refine ⟨_, execStoreAck_done ho hf hc hg hw hd hh hm hp, ?_⟩
  obtain rfl := State.op?_id ho
  obtain ⟨hop, hhbm, hoc, hgr⟩ := State.closeOp_post hf (by omega) hg
  rw [hc] at hgr
  exact ⟨hop, hhbm, hoc, _, hgr, rfl, ⟨rfl, rfl, rfl, rfl, rfl⟩, rfl⟩

/-- A message none of whose lanes releases has no release work. -/
theorem State.mboxRelease_eq_self {s : State} {w : MboxWrite}
    (h : ∀ o, s.op? w.op = some o → ∀ l ∈ o.lanes, o.releases l = false) : s.mboxRelease w = s := by
  unfold State.mboxRelease
  split
  · next o ho =>
    have hnil : o.lanes.filter (fun l => o.toMbox l && o.releases l) = [] := by
      simpa [List.filter_eq_nil_iff] using fun l hl _ => h o ho l hl
    rw [hnil]; rfl
  · rfl

/-- A counted write that WAITAs see changes the counters and what the WAITAs have seen. -/
theorem State.count_watch_eq (s : State) (c : CoreRef) (a b n : Nat) :
    ∃ k l, (s.count c a b n).watch = { s with counters := k, ops := l } := by
  obtain ⟨k, hk⟩ := s.count_eq c a b n
  obtain ⟨l, hl, -⟩ := State.watch_eq (s.count c a b n)
  exact ⟨k, l, by rw [hl, hk]⟩

/-- A message lands in a mailbox register of a running group, and in nothing else that a statement speaks of. -/
theorem State.mboxDeliver_running {s : State} {r : GRef} {g : Group} {n : Nat} (hg : s.group? r = some g)
    (hm : s.isMbox g n = true) (hp : g.phase = .running) (bs : ByteMap) :
    ∃ k l, s.mboxDeliver r n bs = { s.modGroup r (fun x => x.setV n ((g.vreg n).mboxLand bs)) with counters := k, ops := l } := by
  simp only [State.mboxDeliver, hg, hm, hp]
  exact State.count_watch_eq ..

theorem mailboxWriteLand_answers {s : State} {n : Nat} {w : MboxWrite} {g : Group}
    (hw : s.mbox.find? (fun w => w.id = n) = some w) (hg : s.group? w.g = some g) (hm : s.isMbox g w.reg = true)
    (hp : g.phase = .running) (hfirst : s.mbox.any (fun x => x.id < n && x.g = w.g && x.reg = w.reg && x.src = w.src) = false)
    (hclear : s.mboxClear w = true) (hrel : ∀ o, s.op? w.op = some o → ∀ l ∈ o.lanes, o.releases l = false) :
    Answers (.mailboxWriteLand n) s (fun t => t.mbox = s.mbox.filter (fun x => x.id ≠ n) ∧ t.onchip = s.onchip ∧ t.hbm = s.hbm ∧
      ∃ g', t.group? w.g = some g' ∧ g'.vreg w.reg = (g.vreg w.reg).mboxLand w.bytes ∧
        (g'.vreg w.reg).full = ((g.vreg w.reg).full || w.bytes.any (fun x => x.1 / 4 == 31)) ∧
        (∀ k, k ≠ w.reg → g'.vreg k = g.vreg k) ∧ g'.kregs = g.kregs) := by
  have hexec : exec (.mailboxWriteLand n) s =
      .next ({ s with mbox := s.mbox.filter (fun x => x.id ≠ n) }.mboxDeliver w.g w.reg w.bytes) := by
    show execMailboxWriteLand n s = _
    simp only [execMailboxWriteLand, hw, hfirst, hclear, State.mboxRelease_eq_self hrel]
    rfl
  obtain ⟨k, l, hd⟩ := State.mboxDeliver_running (s := { s with mbox := s.mbox.filter (fun x => x.id ≠ n) }) hg hm hp w.bytes
  refine ⟨_, hexec, ?_⟩
  rw [hd]
  refine ⟨rfl, rfl, rfl, g.setV w.reg ((g.vreg w.reg).mboxLand w.bytes), ?_, ?_, ?_, ?_, rfl⟩
  · exact State.group?_modGroup hg rfl
  · exact Group.vreg_setV_self ..
  · rw [Group.vreg_setV_self]; rfl
  · exact fun k hk => Group.vreg_setV_of_ne _ _ hk

/-- A message that earlier ones go before, or that is not clear to land, waits. -/
theorem mailboxWriteLand_waits {s : State} {n : Nat} {w : MboxWrite} (hw : s.mbox.find? (fun w => w.id = n) = some w)
    (h : s.mbox.any (fun x => x.id < n && x.g = w.g && x.reg = w.reg && x.src = w.src) = true ∨ s.mboxClear w = false) :
    Answers (.mailboxWriteLand n) s (fun t => t = s) := by
  refine ⟨s, ?_, rfl⟩
  show execMailboxWriteLand n s = _
  simp only [execMailboxWriteLand, hw]
  exact if_pos (by rcases h with h | h <;> simp [h])

/-- Settles O34: a performed access whose lanes are all done finds nothing left to perform, so that landing and
acknowledgment are what its registers, its counter and the list of operations show. -/
theorem landingAndAcknowledgment : Obligations.LandingAndAcknowledgment := by
  unfold Obligations.LandingAndAcknowledgment
  refine ⟨?_, ?_, ?_, ?_, ?_⟩
  · exact fun s op o g f ho hf hc hk hg hw hd hh hls hn h32 hm => loadDataLand_answers ho hf hc hk hg hw hd hh hls hn h32 hm
  · exact fun s o q l hi _ hsp hfe hn => State.scratchLoad hi hsp hfe hn
  · exact fun s op o g f ho hf hc hg hw hd hh hm hp => storeAck_answers ho hf hc hg hw hd hh hm hp
  · exact fun s n w g hw hg hm hp hfirst hclear hrel => mailboxWriteLand_answers hw hg hm hp hfirst hclear hrel
  · exact fun s n w hw h => mailboxWriteLand_waits hw h

end Sys2Proof.Machine
end

section
/-! PROOF of O2 and O3, the canonical form of memory. Only a few functions of the model write HBM or on-chip storage, and
they write through `memPut`, `memWrite` and filters, which keep the form (Laws/Memory). Every other function hands on the
memories of the state it is given. There is one rule for each function of the model that makes a state, named after it: from
states with canonical memories it makes one. -/

namespace Sys2Proof.Machine

open Sys2Proof

/-- Both states a meaning works on have canonical memories. -/
structure Ctx.Inv (c : Ctx) : Prop where
  s0 : c.s0.Inv
  s : c.s.Inv

/-- A state that may be answered has canonical memories. -/
def State.InvSome (o : Option State) : Prop := ∀ t, o = some t → t.Inv

/-- The state that an outcome answers. -/
def outState : Out → Option State
  | .next s => some s
  | _ => none

/-- The state that an outcome answers has canonical memories. -/
def Out.Inv (o : Out) : Prop := State.InvSome (outState o)

/-- The state in which a slot's meaning ends: a trap at the slot has no effect. -/
def SlotRes.state? : SlotRes → Option State
  | .ok s | .ok2 s | .trapAt s _ _ _ | .block s _ | .held s _ | .jump s _ | .done s | .stay s => some s
  | .trap _ _ => none

/-- The state in which a slot's meaning ends has canonical memories. -/
def SlotRes.Inv (r : SlotRes) : Prop := State.InvSome r.state?

/-- A result that may be answered has canonical memories. -/
def SlotRes.InvSome (o : Option SlotRes) : Prop := ∀ r, o = some r → r.Inv

/-- The state that the act of a synchronising slot answers has canonical memories. -/
def SyncInv (x : (Cause × Nat) ⊕ (State × Option Nat) ⊕ State) : Prop := ∀ s k, x = .inr (.inl (s, k)) → s.Inv

/-- The state that a steward command answers has canonical memories. -/
def CmdInv (x : State ⊕ DWord × State) : Prop := State.Inv (x.elim id Prod.snd)

theorem State.Inv.upd {s : State}
    {agenda tick cur nextId poison l1d roFilter lastPeer slices remap tlb quadCopies quadWrites ops mbox engWords icL0
    icL1 icL2 ifills groups blocks bars barMsgs tickets sched launches nextLid podNews dists pages ctxs engines regions
    mats gangs ring objs queues cmbs packs replies steps dir censuses moves regs faults nextFid shoots portWrites migrs
    cols ecc dls kports lostBytes parts stopped held boot pkg pod podSize spillBase spillPrev preBudget modTab modAt
    codeHist counters}
    (h : s.Inv) :
    State.Inv ⟨agenda, tick, cur, nextId, s.hbm, poison, s.onchip, l1d, roFilter, lastPeer, slices, remap, tlb, quadCopies,
      quadWrites, ops, mbox, engWords, icL0, icL1, icL2, ifills, groups, blocks, bars, barMsgs, tickets, sched,
      launches, nextLid, podNews, dists, pages, ctxs, engines, regions, mats, gangs, ring, objs, queues, cmbs, packs,
      replies, steps, dir, censuses, moves, regs, faults, nextFid, shoots, portWrites, migrs, cols, ecc, dls, kports,
      lostBytes, parts, stopped, held, boot, pkg, pod, podSize, spillBase, spillPrev, preBudget, modTab, modAt,
      codeHist, counters⟩ := h

theorem State.Inv.ite {s t : State} {p : Prop} {_ : Decidable p} (hs : s.Inv) (ht : t.Inv) :
    (if p then s else t).Inv := by
  split
  · exact hs
  · exact ht

theorem Out.Inv.ite {s t : Out} {p : Prop} {_ : Decidable p} (hs : s.Inv) (ht : t.Inv) :
    Out.Inv (if p then s else t) := by
  split
  · exact hs
  · exact ht

theorem SlotRes.Inv.ite {s t : SlotRes} {p : Prop} {_ : Decidable p} (hs : s.Inv) (ht : t.Inv) :
    SlotRes.Inv (if p then s else t) := by
  split
  · exact hs
  · exact ht

theorem SyncInv.ite {s t : (Cause × Nat) ⊕ (State × Option Nat) ⊕ State} {p : Prop} {_ : Decidable p} (hs : SyncInv s)
    (ht : SyncInv t) : SyncInv (if p then s else t) := by
  split
  · exact hs
  · exact ht

theorem CmdInv.ite {s t : State ⊕ DWord × State} {p : Prop} {_ : Decidable p} (hs : CmdInv s) (ht : CmdInv t) :
    CmdInv (if p then s else t) := by
  split
  · exact hs
  · exact ht

theorem State.InvSome.none : State.InvSome Option.none := fun _ e => nomatch e

theorem State.InvSome.some {s : State} (h : s.Inv) : State.InvSome (Option.some s) := fun _ e => Option.some.inj e ▸ h

theorem State.InvSome.ite {s t : Option State} {p : Prop} {_ : Decidable p} (hs : State.InvSome s)
    (ht : State.InvSome t) : State.InvSome (if p then s else t) := by
  split
  · exact hs
  · exact ht

theorem SlotRes.InvSome.none : SlotRes.InvSome Option.none := fun _ e => nomatch e

theorem SlotRes.InvSome.some {r : SlotRes} (h : r.Inv) : SlotRes.InvSome (Option.some r) :=
  fun _ e => Option.some.inj e ▸ h

theorem SlotRes.InvSome.ite {s t : Option SlotRes} {p : Prop} {_ : Decidable p} (hs : SlotRes.InvSome s)
    (ht : SlotRes.InvSome t) : SlotRes.InvSome (if p then s else t) := by
  split
  · exact hs
  · exact ht

theorem State.Inv.getD {o : Option State} {s : State} (hs : s.Inv) (ho : State.InvSome o) : (o.getD s).Inv := by
  cases o with
  | none => exact hs
  | some t => exact ho t rfl

theorem State.Inv.of_some {o : Option State} {s : State} (ho : State.InvSome o) (e : o = Option.some s) : s.Inv := ho s e

theorem SlotRes.Inv.of_some {o : Option SlotRes} {r : SlotRes} (ho : SlotRes.InvSome o) (e : o = Option.some r) : r.Inv :=
  ho r e

theorem State.InvSome.findSome? {α : Type} {f : α → Option State} {l : List α} (hf : ∀ x, State.InvSome (f x)) :
    State.InvSome (l.findSome? f) := fun t e => by
  obtain ⟨x, -, hx⟩ := List.exists_of_findSome?_eq_some e
  exact hf x t hx

theorem State.InvSome.bind {o : Option State} {f : State → Option State} (ho : State.InvSome o)
    (hf : ∀ s, s.Inv → State.InvSome (f s)) : State.InvSome (o.bind f) := fun t e => by
  obtain ⟨s, hs, ht⟩ := Option.bind_eq_some_iff.1 e
  exact hf s (ho s hs) t ht

theorem State.InvSome.foldl {α : Type} {o : Option State} (ho : State.InvSome o) (f : Option State → α → Option State)
    (l : List α) (hf : ∀ o x, State.InvSome o → State.InvSome (f o x)) : State.InvSome (l.foldl f o) :=
  List.foldlRecOn l f ho fun o ho x _ => hf o x ho

theorem State.Inv.foldlFst {α β : Type} {a : State × β} (h : a.1.Inv) (f : State × β → α → State × β) (l : List α)
    (hf : ∀ a x, a.1.Inv → (f a x).1.Inv) : (l.foldl f a).1.Inv :=
  List.foldlRecOn (motive := fun a => a.1.Inv) l f h fun a ha x _ => hf a x ha

theorem State.Inv.of_fst {α : Type} {s : State} {x : α} {p : State × α} (h : p.1.Inv) (e : p = (s, x)) : s.Inv := by
  subst e; exact h

theorem State.Inv.of_snd {α : Type} {s : State} {x : α} {p : α × State} (h : p.2.Inv) (e : p = (x, s)) : s.Inv := by
  subst e; exact h

theorem State.Inv.iteFst {α : Type} {x y : State × α} {p : Prop} {_ : Decidable p} (hx : x.1.Inv) (hy : y.1.Inv) :
    (if p then x else y).1.Inv := by
  split
  · exact hx
  · exact hy

theorem State.Inv.iteSnd {α : Type} {x y : α × State} {p : Prop} {_ : Decidable p} (hx : x.2.Inv) (hy : y.2.Inv) :
    (if p then x else y).2.Inv := by
  split
  · exact hx
  · exact hy

theorem Out.Inv.next {s : State} (h : s.Inv) : Out.Inv (.next s) := .some h
theorem Out.Inv.fault {r : Fault} : Out.Inv (.fault r) := .none
theorem SlotRes.Inv.ok {s : State} (h : s.Inv) : SlotRes.Inv (.ok s) := .some h
theorem SlotRes.Inv.ok2 {s : State} (h : s.Inv) : SlotRes.Inv (.ok2 s) := .some h
theorem SlotRes.Inv.trapAt {s : State} {ca : Cause} {d tpc : Nat} (h : s.Inv) : SlotRes.Inv (.trapAt s ca d tpc) := .some h
theorem SlotRes.Inv.block {s : State} {w : Wait} (h : s.Inv) : SlotRes.Inv (.block s w) := .some h
theorem SlotRes.Inv.held {s : State} {w : Wait} (h : s.Inv) : SlotRes.Inv (.held s w) := .some h
theorem SlotRes.Inv.jump {s : State} {tgt : Nat} (h : s.Inv) : SlotRes.Inv (.jump s tgt) := .some h
theorem SlotRes.Inv.done {s : State} (h : s.Inv) : SlotRes.Inv (.done s) := .some h
theorem SlotRes.Inv.stay {s : State} (h : s.Inv) : SlotRes.Inv (.stay s) := .some h
theorem SlotRes.Inv.trap {ca : Cause} {d : Nat} : SlotRes.Inv (.trap ca d) := .none
theorem SyncInv.trap {x : Cause × Nat} : SyncInv (.inl x) := fun _ _ e => nomatch e
theorem SyncInv.hold {s : State} : SyncInv (.inr (.inr s)) := fun _ _ e => nomatch e
theorem SyncInv.done {s : State} {k : Option Nat} (h : s.Inv) : SyncInv (.inr (.inl (s, k))) := fun _ _ e => by
  cases e; exact h
theorem CmdInv.waits {s : State} (h : s.Inv) : CmdInv (.inl s) := h
theorem CmdInv.done {v : DWord} {s : State} (h : s.Inv) : CmdInv (.inr (v, s)) := h

/-! ### On-chip storage that the matrix engine computes -/

theorem Memory.wf_foldl {α : Type} {m : Memory} (h : m.wf = true) (f : Memory → α → Memory) (l : List α)
    (hf : ∀ m x, m.wf = true → (f m x).wf = true) : Memory.wf (l.foldl f m) = true :=
  List.foldlRecOn (motive := fun m : Memory => m.wf = true) l f h fun m hm x _ => hf m x hm

theorem Memory.wf_putF32 {m : Memory} (h : m.wf = true) (a x : Nat) : (putF32 m a x).wf = true :=
  Memory.wf_memWrite h a _

theorem Memory.wf_swapRows {m : Memory} (h : m.wf = true) (base c i k : Nat) : (swapRows m base c i k).wf = true := by
  unfold swapRows
  split
  · exact h
  · exact Memory.wf_memWrite (Memory.wf_memWrite h _ _) _ _

theorem Memory.wf_storeRun {m : Memory} (h : m.wf = true) (o : MatOp) (q : OpT) (base : Nat) :
    (storeRun o q base m).wf = true :=
  Memory.wf_foldl h _ _ fun _ _ hm => Memory.wf_foldl hm _ _ fun _ _ hm => Memory.wf_memWrite hm _ _

theorem Memory.wf_mmaRegion {m : Memory} (h : m.wf = true) (base : Nat) (a : Activation) (w : Latch) (res init : Bool) :
    (mmaRegion m base a w res init).1.wf = true := by
  refine List.foldlRecOn (motive := fun st : Memory × Nat => st.1.wf = true) _ _ h fun st hst x _ => ?_
  dsimp only
  split
  · exact Memory.wf_putF32 (Memory.wf_putF32 hst _ _) _ _
  · exact Memory.wf_putF32 hst _ _

theorem State.wf_tscl {s : State} (h : s.onchip.wf = true) (o : MatOp) (q : OpT) : (s.tscl o q).wf = true :=
  Memory.wf_foldl h _ _ fun _ _ hm => Memory.wf_foldl (TView.wf_put _ hm ..) _ _ fun _ _ hm => TView.wf_put _ hm ..

/-- What a factorisation or a solve does keeps the canonical form. -/
theorem SolveSt.wf_foldl {α : Type} {st : SolveSt} (h : st.mem.wf = true) (f : SolveSt → α → SolveSt) (l : List α)
    (hf : ∀ st x, st.mem.wf = true → (f st x).mem.wf = true) : (l.foldl f st).mem.wf = true :=
  List.foldlRecOn (motive := fun st : SolveSt => st.mem.wf = true) l f h fun st hst x _ => hf st x hst

theorem SolveSt.wf_put {m : Memory} {perm : List Nat} {flag : Nat} {ovf nan : Bool} (h : m.wf = true) (a x : Nat) :
    (SolveSt.put ⟨m, perm, flag, ovf, nan⟩ a x).mem.wf = true :=
  Memory.wf_putF32 h a x

theorem SolveSt.wf_ite {st st' : SolveSt} {p : Prop} {_ : Decidable p} (h : st.mem.wf = true) (h' : st'.mem.wf = true) :
    (if p then st else st').mem.wf = true := by
  split
  · exact h
  · exact h'

theorem SolveSt.wf_fctStep {st : SolveSt} (h : st.mem.wf = true) (base n : Nat) (pv : DWord) (k : Nat) :
    (fctStep base n pv st k).mem.wf = true := by
  have hm := Memory.wf_swapRows h
  exact SolveSt.wf_foldl (SolveSt.wf_ite (SolveSt.wf_put (hm ..) ..) (hm ..)) _ _ fun _ _ hst =>
    SolveSt.wf_foldl (SolveSt.wf_put hst ..) _ _ fun _ _ hst => SolveSt.wf_put hst ..

theorem wf_factor {m : Memory} (h : m.wf = true) (base n : Nat) (pv : DWord) : (factor m base n pv).mem.wf = true :=
  SolveSt.wf_foldl h _ _ fun _ _ hst => SolveSt.wf_fctStep hst ..

theorem wf_solve {m : Memory} (h : m.wf = true) (fb bb n r : Nat) (up : Bool) (perm : Option (List Nat)) :
    (solve m fb bb n r up perm).mem.wf = true := by
  unfold solve
  extract_lets f ba b m1 st0 cols elim
  have h0 : st0.mem.wf = true := by
    show m1.wf = true
    cases perm with
    | none => exact h
    | some ps =>
      refine Memory.wf_foldl h _ _ fun _ _ hm => ?_
      split
      · exact Memory.wf_swapRows hm ..
      · exact hm
  have he : ∀ st k i, st.mem.wf = true → (elim st k i).mem.wf = true := fun _ _ _ hst =>
    SolveSt.wf_foldl hst _ _ fun _ _ hst => SolveSt.wf_put hst ..
  split
  · exact SolveSt.wf_foldl h0 _ _ fun _ _ hst => SolveSt.wf_foldl hst _ _ fun _ _ hst => he _ _ _ hst
  · refine SolveSt.wf_foldl h0 _ _ fun st k hst => SolveSt.wf_foldl (SolveSt.wf_foldl ?_ _ _ fun _ _ hst => ?_) _ _
      fun _ _ hst => he _ _ _ hst
    · split
      · exact hst
      · exact hst
    · exact SolveSt.wf_put hst ..

/-! ### Groups and launches -/

theorem State.Inv.putGroup {s : State} {g : Group} (h : s.Inv) : (s.putGroup g).Inv := .modGroup h ..

theorem State.Inv.modSplit {s : State} {r : GRef} {e : Nat} {f : Split → Split}
    (h : s.Inv) : (s.modSplit r e f).Inv :=
  .modGroup h ..

theorem State.Inv.modReady {s : State} {r : GRef} {f : Group → Group} (h : s.Inv) : (s.modReady r f).Inv :=
  .upd (.modGroup h ..)

theorem State.Inv.countPort {s : State} {die event n : Nat} (h : s.Inv) : (s.countPort die event n).Inv := .count h ..
theorem State.Inv.fresh {s : State} (h : s.Inv) : s.fresh.2.Inv := .upd h

/-! ### Memory, caches and the state (03) -/

theorem State.Inv.countHome {s : State} {die asid va event : Nat} (h : s.Inv) : (s.countHome die asid va event).Inv :=
  .count h ..

theorem State.Inv.remapUse {s : State} {die asid : Nat} {as : List Nat} (h : s.Inv) :
    (s.remapUse die asid as).Inv := by
  refine .ite h (.foldl h _ _ fun _ _ hs => ?_)
  dsimp only
  split
  · exact .upd hs
  · exact hs

theorem State.Inv.ownHeld {s before : State} {src : List WriteSrc} (hs : s.Inv) : (s.ownHeld before src).Inv :=
  .ite hs (.upd hs)

theorem State.Inv.engNote {s : State} {die asid a : Nat} (h : s.Inv) : (s.engNote die asid a).Inv := .upd h
theorem State.Inv.engDrop {s : State} {asid a : Nat} (h : s.Inv) : (s.engDrop asid a).Inv := .ite h (.upd h)

theorem State.Inv.setSlice {s : State} {h : Nat × Nat} {ls : List Line} (hs : s.Inv) : (s.setSlice h ls).Inv :=
  .upd hs

theorem State.Inv.sliceFlush {s : State} {die : Nat} {l : Line} (h : s.Inv) : (s.sliceFlush die l).Inv := by
  unfold State.sliceFlush
  split
  · exact h
  refine .upd (.foldl h _ _ fun _ _ hs => .ite (.ctlWrite hs ..) (.foldl hs _ _ fun _ _ hs1 => ?_))
  split
  · exact .ctlWrite hs1 ..
  · exact hs1

theorem State.Inv.sliceRoom {s : State} {die : Nat} {h : Nat × Nat} {line : Nat} (hs : s.Inv) :
    (s.sliceRoom die h line).Inv := by
  refine .ite hs ?_
  split
  · exact hs
  · exact .setSlice (.sliceFlush hs)

theorem State.Inv.sliceAlloc {s : State} {die : Nat} {h : Nat × Nat} {asid va prio : Nat} {leaf : DWord}
    (hs : s.Inv) : (s.sliceAlloc die h asid va prio leaf).Inv := by
  unfold State.sliceAlloc
  split
  · exact hs
  · exact .setSlice (.sliceRoom hs)

theorem State.Inv.sliceTouch {s : State} {die asid va prio : Nat} {last : Bool} (h : s.Inv) :
    (s.sliceTouch die asid va prio last).Inv := by
  unfold State.sliceTouch
  split
  · exact h
  split
  · dsimp only
    split
    · exact h
    · exact .setSlice (.ite (.sliceFlush h) h)
  dsimp only
  split
  · exact h
  · exact .setSlice (.ite (.sliceFlush h) h)

theorem State.Inv.homePut {s : State} {die asid va prio : Nat} {b : Byte} (h : s.Inv) :
    (s.homePut die asid va prio b).Inv := by
  unfold State.homePut
  split
  · exact .ite (.ctlWrite (.engDrop h) ..) (.setSlice (.sliceAlloc (.engDrop h)))
  · exact .setSlice (.sliceAlloc h)

theorem State.Inv.homeClearPoison {s : State} {die asid va len : Nat} (h : s.Inv) :
    (s.homeClearPoison die asid va len).Inv := by
  refine .foldl h _ _ fun _ _ hs => .ite ?_ hs
  split
  · exact .ite (.upd (.setSlice hs)) (.setSlice hs)
  · exact hs

theorem State.Inv.codeKeep {s : State} {k : Nat × Nat} {ws : List DWord} (h : s.Inv) : (s.codeKeep k ws).Inv := .upd h

theorem State.Inv.codeNote {s : State} {die asid va n : Nat} (h : s.Inv) : (s.codeNote die asid va n).Inv :=
  .ite h (.foldl h _ _ fun _ _ hs => .codeKeep hs)

theorem State.Inv.homeStore {s : State} {die asid va : Nat} {bs : List Byte} (h : s.Inv) :
    (s.homeStore die asid va bs).Inv :=
  .ite (.foldl (.codeNote h) _ _ fun _ _ hs => .homePut hs) (.homeClearPoison
      (.foldl (.codeNote h) _ _ fun _ _ hs => .homePut hs))

theorem State.Inv.sliceFill {s : State} {die asid va prio : Nat} (h : s.Inv) :
    (s.sliceFill die asid va prio).Inv := by
  unfold State.sliceFill
  split
  · exact h
  · exact .ite h (.setSlice (.sliceAlloc h))

theorem State.Inv.homeWrite {s : State} {die asid va : Nat} {bs : List Byte} (h : s.Inv) :
    (s.homeWrite die asid va bs).Inv :=
  .watch (.homeStore h) ..

theorem State.Inv.homeWriteDef {s : State} {die asid va : Nat} {bs : List Byte} (h : s.Inv) :
    (s.homeWriteDef die asid va bs).Inv :=
  .sliceTouch (.homeWrite h)

theorem State.Inv.quadForget {s : State} {q : Nat × Nat} {asid a n : Nat} (h : s.Inv) :
    (s.quadForget q asid a n).Inv :=
  .ite (.upd h) h

theorem State.Inv.quadYield {s : State} {q : Nat × Nat} {asid a n : Nat} (h : s.Inv) : (s.quadYield q asid a n).Inv :=
  .ite h (.quadForget h)

theorem State.Inv.setL1 {s : State} {c : CoreRef} {ls : List Line} (h : s.Inv) : (s.setL1 c ls).Inv := .upd h

theorem State.Inv.homePoison {s : State} {die asid va : Nat} (h : s.Inv) : (s.homePoison die asid va).Inv := by
  unfold State.homePoison
  split
  · exact h
  · exact .ite (.ite h (.upd h)) (.setSlice h)

theorem State.Inv.l1Flush {s : State} {c : CoreRef} {l : Line} {counted : Bool} (h : s.Inv) :
    (s.l1Flush c l counted).Inv :=
  .ite h (.watch (.count (.foldl (.foldl (.codeNote h) _ _ fun _ _ hs => .homePut (.quadYield hs)) _ _
      fun _ _ hs => .homePoison hs) ..) ..)

theorem State.Inv.l1WriteBack {s : State} {c : CoreRef} {asid va : Nat} {counted : Bool} (h : s.Inv) :
    (s.l1WriteBack c asid va counted).Inv := by
  unfold State.l1WriteBack
  split
  · exact h
  · exact .setL1 (.l1Flush h)

theorem State.Inv.l1Invalidate {s : State} {c : CoreRef} {asid va : Nat} {counted : Bool} (h : s.Inv) :
    (s.l1Invalidate c asid va counted).Inv := by
  unfold State.l1Invalidate
  split
  · exact h
  · exact .setL1 (.l1Flush h)

theorem State.Inv.l1Alloc {s : State} {c : CoreRef} {asid va prio : Nat} {leaf : DWord} (h : s.Inv) :
    (s.l1Alloc c asid va prio leaf).Inv := by
  unfold State.l1Alloc
  split
  · exact h
  refine .setL1 (.ite h ?_)
  split
  · exact h
  · exact .l1Invalidate h

theorem State.Inv.l1Sync {s : State} {c : CoreRef} {asid a n : Nat} (h : s.Inv) : (s.l1Sync c asid a n).Inv := by
  refine .ite h ?_
  split
  · exact h
  · exact .setL1 (.ite (.l1WriteBack h) h)

theorem State.Inv.l1Release {s : State} {c : CoreRef} {asid : Nat} {rs : Option (List (Nat × Nat))} (h : s.Inv) :
    (s.l1Release c asid rs).Inv :=
  .foldl h _ _ fun _ _ hs => .ite (.l1WriteBack hs) hs

theorem State.Inv.l1Acquire {s : State} {c : CoreRef} {asid : Nat} {rs : Option (List (Nat × Nat))} (h : s.Inv) :
    (s.l1Acquire c asid rs).Inv :=
  .foldl h _ _ fun _ _ hs => .ite (.l1Invalidate hs) hs

theorem State.Inv.l1AcquireAll {s : State} {c : CoreRef} (h : s.Inv) : (s.l1AcquireAll c).Inv :=
  .foldl h _ _ fun _ _ hs => .l1Invalidate hs

/-! ### Saved images of groups -/

theorem State.Inv.imgPutReg {s : State} {r : GRef} {mbox : Bool} {n : Nat} {v : VReg} (h : s.Inv) :
    (s.imgPutReg r mbox n v).Inv :=
  .ite (.homeWrite h) (.homeWrite (.homeWrite h))

theorem State.Inv.imgSpill {s : State} {r : GRef} {n : Nat} (h : s.Inv) : (s.imgSpill r n).Inv := by
  unfold State.imgSpill
  dsimp only
  split
  · exact .modGroup (.imgPutReg (.modGroup h ..)) ..
  · exact .modGroup h ..

theorem State.Inv.mboxDeliver {s : State} {r : GRef} {n : Nat} {bs : ByteMap} (h : s.Inv) :
    (s.mboxDeliver r n bs).Inv := by
  unfold State.mboxDeliver
  split
  · exact h
  · exact .ite h (.watch (.count (.ite (.imgPutReg (.modGroup h ..)) (.modGroup h ..)) ..) ..)

theorem State.Inv.ocStore {s : State} {a : Nat} {bs : List Byte} (h : s.Inv) : (s.ocStore a bs).Inv := by
  unfold State.ocStore
  split
  · exact h
  refine .ite ?_ (.ocWrite h ..)
  split
  · exact .mboxDeliver h
  · exact h

/-! ### Slots, splits and blocks of a group -/

theorem State.Inv.finishSlot {s : State} {r : GRef} {e n : Nat} (h : s.Inv) : (s.finishSlot r e n).Inv :=
  .count (.modReady h) ..

theorem State.Inv.answer {s : State} {w : Waiter} {x : DWord} (h : s.Inv) : (s.answer w x).Inv := by
  unfold State.answer
  dsimp only
  split
  · exact .ite (.finishSlot (.modGroup h ..)) (.modGroup h ..)
  · exact .modGroup h ..

theorem State.Inv.applyAred {s : State} {die asid : Nat} {h : HeldAred} (hs : s.Inv) :
    (s.applyAred die asid h).Inv := by
  unfold State.applyAred
  split
  · extract_lets chip s' _ put _ _
    have h' : s'.Inv := .ite hs (.countHome hs)
    have hput : ∀ s a x, s.Inv → (put s a x).Inv := fun _ _ _ h => .ite (.ocStore h) (.homeWriteDef h)
    split
    · exact hput _ _ _ (hput _ _ _ h')
    · exact hput _ _ _ h'
  · exact hs

theorem State.Inv.mergeEpochs {s : State} {die asid : Nat} {es : List Epoch} (h : s.Inv) :
    (s.mergeEpochs die asid es).Inv :=
  .foldl (.foldl h _ _ fun _ _ hs => .homeWrite hs) _ _ fun _ _ hs => .applyAred hs

theorem State.Inv.epochEnd {s : State} {lid : Nat} {bar : Option Nat} (h : s.Inv) : (s.epochEnd lid bar).Inv := by
  unfold State.epochEnd
  split
  · exact h
  · exact .upd (.foldl (.foldl h _ _ fun _ _ hs => .mergeEpochs hs) _ _ fun _ _ hs => .count hs ..)

theorem State.Inv.epochArrive {s : State} {lid blk : Nat} (h : s.Inv) : (s.epochArrive lid blk).Inv := by
  unfold State.epochArrive
  split
  · exact h
  · exact .ite (.foldl h _ _ fun _ _ hs => .modBlock hs ..) h

theorem State.Inv.completeBar {s : State} {b : HBar} (h : s.Inv) : (s.completeBar b).Inv := by
  refine .ite ?_ h
  split
  · exact .ite (.epochEnd (.foldl (.upd h) _ _ fun _ _ hs => .count hs ..))
        (.foldl (.upd h) _ _ fun _ _ hs => .count hs ..)
  · exact .foldl (.upd h) _ _ fun _ _ hs => .count hs ..

theorem State.Inv.completeBars {s : State} {lid : Nat} (h : s.Inv) : (s.completeBars lid).Inv :=
  .foldl h _ _ fun _ _ hs => .completeBar hs

theorem State.Inv.windowsClose {s : State} {lid blk : Nat} (h : s.Inv) : (s.windowsClose lid blk).Inv :=
  .upd (.foldl h _ _ fun _ _ hs => .count hs ..)

theorem State.Inv.moveDone {s : State} {n : Nat} (h : s.Inv) : (s.moveDone n).Inv := by
  unfold State.moveDone
  split
  · exact h
  · split
    · exact .answer (.upd h)
    · exact h

theorem State.Inv.dirRelease {s : State} {k : CoreRef × Nat} (h : s.Inv) : (s.dirRelease k).Inv := by
  unfold State.dirRelease
  split
  · exact h
  refine .ite ?_ h
  split
  · exact .answer (.foldl (.count (.upd h) ..) _ _ fun _ _ hs => .moveDone hs)
  · exact .foldl (.count (.upd h) ..) _ _ fun _ _ hs => .moveDone hs

theorem State.Inv.cenClose {s : State} {n : Nat} {c : CoreRef} (h : s.Inv) : (s.cenClose n c).Inv := by
  unfold State.cenClose
  split
  · exact h
  · split
    · exact h
    · exact .ite (.foldl (.modGroup (.upd h) ..) _ _ fun _ _ hs => .dirRelease hs) h

theorem State.Inv.responderEnd {s : State} {n : Nat} {c : CoreRef} (h : s.Inv) : (s.responderEnd n c).Inv :=
  .cenClose (.upd h)

theorem State.Inv.dirPurge {s : State} {lid blk : Nat} (h : s.Inv) : (s.dirPurge lid blk).Inv :=
  .foldl (.upd h) _ _ fun _ _ hs => .dirRelease hs

theorem State.Inv.gangDissolve {s : State} {g : Group} (h : s.Inv) : (s.gangDissolve g).Inv :=
  .foldl h _ _ fun _ _ hs => .upd (.modGroup hs ..)

theorem State.Inv.mmagCancel {s : State} {r : GRef} (h : s.Inv) : (s.mmagCancel r).Inv := by
  unfold State.mmagCancel
  split
  · exact h
  · exact .upd (.modGroup (.foldl h _ _ fun _ _ hs => .ite hs (.count (.modGroup (.upd hs) ..) ..)) ..)

theorem State.Inv.detach {s : State} {r : GRef} (h : s.Inv) : (s.detach r).Inv := .upd h
theorem State.Inv.releaseBlocks {s : State} {lid : Nat} (h : s.Inv) : (s.releaseBlocks lid).Inv := .upd h

theorem State.Inv.drainCheck {s : State} {lid : Nat} (h : s.Inv) : (s.drainCheck lid).Inv := by
  unfold State.drainCheck
  split
  · exact h
  · exact .ite (.releaseBlocks (.modLaunch (.ite (.epochEnd h) h) ..)) (.releaseBlocks h)

theorem State.Inv.blockEnd {s : State} {lid blk : Nat} (h : s.Inv) : (s.blockEnd lid blk).Inv :=
  .modBlock (.dirPurge (.windowsClose h)) ..

theorem State.Inv.groupEnd {s : State} {r : GRef} (h : s.Inv) : (s.groupEnd r).Inv := by
  unfold State.groupEnd
  split
  · exact h
  refine .ite (.drainCheck (.completeBars (.ite (.blockEnd (.upd (.detach (.gangDissolve h))))
      (.epochArrive (.upd (.detach (.gangDissolve h))))))) (.releaseBlocks ?_)
  split
  · exact .responderEnd (.upd (.detach (.gangDissolve h)))
  · exact .upd (.detach (.gangDissolve h))

theorem State.Inv.groupTrapped {s : State} {r : GRef} (h : s.Inv) : (s.groupTrapped r).Inv := by
  unfold State.groupTrapped
  split
  · exact h
  · exact .groupEnd (.ite (.modLaunch h ..) h)

/-! ### What a slot does with its result (05) -/

theorem State.Inv.takeTrap {s : State} {r : GRef} {e : Nat} {c : Cause} {detail tpc : Nat} (h : s.Inv) :
    (s.takeTrap r e c detail tpc).Inv := by
  unfold State.takeTrap
  split
  · exact h
  · split
    · exact .ite (.ite (.count (.modReady h) ..) (.groupTrapped h))
          (.ite (.modSplit h) (.ite (.count (.modReady h) ..) (.groupTrapped h)))
    · exact .modSplit h

theorem State.Inv.slotEnd {c : Ctx} {res : SlotRes} (hc : c.Inv) (hres : res.Inv) : (slotEnd c res).Inv := by
  unfold Machine.slotEnd
  split
  · exact .finishSlot (hres _ rfl)
  · exact .finishSlot (hres _ rfl)
  · exact .takeTrap (.count hc.s0 ..)
  · exact .ite (.takeTrap hc.s0) (.takeTrap (.modGroup (hres _ rfl) ..))
  · exact .modSplit (hres _ rfl)
  · exact .modSplit (hres _ rfl)
  · exact .count (.modReady (hres _ rfl)) ..
  · exact .count (hres _ rfl) ..
  · exact hres _ rfl

theorem State.InvSome.issueCheck {s : State} {g : Group} {r : GRef} {e : Nat} {m : Mask} {pc : Nat} {rds : List Rd}
    {dsts : List Nat} (h : s.Inv) : State.InvSome (issueCheck s g r e m pc rds dsts) := by
  unfold Machine.issueCheck
  split
  · dsimp only
    split
    · exact .some (.takeTrap h)
    · split
      · exact .some (.modSplit h)
      · exact .some (.takeTrap h)
  split
  · dsimp only
    split
    · exact .some (.takeTrap h)
    · split
      · exact .some (.modSplit h)
      · exact .some (.takeTrap (.ite h (.modGroup h ..)))
  split
  · dsimp only
    split
    · exact .some (.takeTrap h)
    · split
      · exact .some (.modSplit h)
      · exact .some (.modSplit h)
  split
  · dsimp only
    split
    · exact .some (.takeTrap h)
    · split
      · exact .some (.modSplit h)
      · exact .some (.modSplit h)
  dsimp only
  split
  · exact .some (.takeTrap h)
  · split
    · exact .some (.modSplit h)
    · exact .ite (.some (.modSplit h)) .none

theorem Out.Inv.slotOn {s : State} {lanesOf : Group → Split → Mask} {rds : List Rd} {dsts : List Nat}
    {body : Ctx → SlotRes} (h : s.Inv) (hbody : ∀ (c : Ctx), c.Inv → (body c).Inv) :
    (slotOn s lanesOf rds dsts body).Inv := by
  unfold Machine.slotOn
  split
  · exact .fault
  split
  · exact .fault
  dsimp only
  split
  · next he => exact .next (.of_some (.issueCheck h) he)
  · exact .next (.slotEnd (⟨h, .count (.modGroup h ..) ..⟩) (hbody _ (⟨h, .count (.modGroup h ..) ..⟩)))

theorem Out.Inv.slot {s : State} {gd : Guard} {rds : List Rd} {dsts : List Nat} {body : Ctx → SlotRes} (h : s.Inv)
    (hbody : ∀ (c : Ctx), c.Inv → (body c).Inv) : (slot s gd rds dsts body).Inv :=
  .slotOn h fun _ ha => hbody _ ha

theorem State.Inv.putV {c : Ctx} {s : State} {n : Nat} {m : Mask} {f : Nat → Word}
    (h : s.Inv) : (c.putV s n m f).Inv :=
  .ite (.watch (.count (.modGroup h ..) ..) ..) (.count (.modGroup h ..) ..)

theorem State.Inv.putK {c : Ctx} {s : State} {n : Nat} {x : DWord} (h : s.Inv) : (c.putK s n x).Inv := .modGroup h ..
theorem State.Inv.awaitK {c : Ctx} {s : State} {n : Nat} (h : s.Inv) : (c.awaitK s n).2.Inv := .modGroup (.fresh h) ..

theorem State.Inv.putV64 {c : Ctx} {s : State} {n : Nat} {m : Mask} {f : Nat → DWord}
    (h : s.Inv) : (c.putV64 s n m f).Inv :=
  .putV (.putV h)

theorem State.Inv.putPred {c : Ctx} {s : State} {d : BitVec 9} {m v : Mask}
    (h : s.Inv) : (c.putPred s d m v).Inv := by
  unfold Ctx.putPred
  split
  · exact .modGroup h ..
  · exact .modGroup h ..
  · exact h

theorem State.Inv.modSp {c : Ctx} {s : State} {f : Specials → Specials} (h : s.Inv) : (c.modSp s f).Inv :=
  .modGroup h ..

theorem SlotRes.Inv.syncAny {c : Ctx} {act : State → (Cause × Nat) ⊕ (State × Option Nat) ⊕ State} (hc : c.Inv)
    (hact : ∀ s, s.Inv → SyncInv (act s)) : (c.syncAny act).Inv := by
  refine .ite .trap (.ite ?_ (.held hc.s0))
  split
  · exact .trap
  · exact .held hc.s0
  · next hx =>
    have ha := hact c.s hc.s _ _ hx
    dsimp only
    split
    · exact .done (.modReady ha)
    · exact .stay (.modReady ha)

theorem SlotRes.Inv.sync {c : Ctx} {act : State → Cause × Nat ⊕ State × Option Nat ⊕ State} (hc : c.Inv)
    (hact : ∀ (s : State), s.Inv → SyncInv (act s)) : (c.sync act).Inv :=
  .ite .trap (.syncAny hc fun _ ha => hact _ ha)

/-! ### Fault records (14) -/

theorem State.Inv.sysWrite {s : State} {va : Nat} {bs : List Byte} (h : s.Inv) : (s.sysWrite va bs).Inv :=
  .homeWrite h

theorem State.Inv.fqPut {s : State} {w0 w1 w2 w3 : Nat} (h : s.Inv) : (s.fqPut w0 w1 w2 w3).Inv :=
  .sysWrite (.sysWrite h)

theorem State.InvSome.recordFault {s : State} {asid va kind : Nat} {entry : DWord} {level sclass src : Nat}
    {who : Requester} (h : s.Inv) : State.InvSome (s.recordFault asid va kind entry level sclass src who) := by
  refine .ite .none ?_
  split
  · exact .ite (.some h) (.some (.countPort (.upd h)))
  · exact .ite .none (.some (.countPort (.upd (.fqPut h))))

theorem State.InvSome.engineFault {s : State} {c : CoreRef} {asid va n : Nat} {store : Bool} (h : s.Inv) :
    State.InvSome (s.engineFault c asid va n store) := by
  unfold State.engineFault
  split
  · exact .none
  · exact .some (.getD h (.recordFault h))

theorem State.Inv.putModEnt {s : State} {die asid idx : Nat} {m : ModEnt} (h : s.Inv) :
    (s.putModEnt die asid idx m).Inv :=
  .homeWrite h

theorem State.Inv.icFill {s : State} {c : CoreRef} {p asid va upTo : Nat} (h : s.Inv) :
    (s.icFill c p asid va upTo).Inv :=
  .ite (.upd (.ite (.upd (.ite (.upd h) h)) (.ite (.upd h) h))) (.ite (.upd (.ite (.upd h) h)) (.ite (.upd h) h))

theorem State.Inv.requestLine {s : State} {c : CoreRef} {p asid va : Nat} (h : s.Inv) :
    (s.requestLine c p asid va).Inv :=
  .ite h (.upd h)

theorem State.Inv.icInvalidate {s : State} {asid base len : Nat} (h : s.Inv) : (s.icInvalidate asid base len).Inv :=
  .upd h

/-! ### The sequencer (05) -/

theorem Out.Inv.execNop {o : OpS} {s : State} (h : s.Inv) : (execNop o s).Inv := .slot h fun _ hc => .ok hc.s

theorem Out.Inv.execYield {o : OpS} {s : State} (h : s.Inv) : (execYield o s).Inv :=
  .slot h fun _ hc => .ok (.upd hc.s)

theorem Out.Inv.execGsync {o : OpS} {s : State} (h : s.Inv) : (execGsync o s).Inv :=
  .slot h fun _ hc => .sync hc fun _ hs => .ite (.done hs) .hold

theorem SlotRes.Inv.diverge {c : Ctx} {s : State} {t n : Mask} {tgt next : Nat} {j : Option Nat} (h : s.Inv) :
    (diverge c s t n tgt next j).Inv := by
  unfold Machine.diverge
  split
  · exact .trap
  split
  · dsimp only
    split
    · exact .trap
    · split
      · exact .done (.count (.modGroup h ..) ..)
      · exact .done (.count (.count (.modGroup h ..) ..) ..)
  dsimp only
  split
  · exact .trap
  · split
    · exact .done (.count (.modGroup h ..) ..)
    · exact .done (.count (.count (.modGroup h ..) ..) ..)

theorem Out.Inv.branch {o : OpB} {off : ℤ} {isCall : Bool} {lits : Nat} {s : State} (h : s.Inv) :
    (branch o off isCall lits s).Inv :=
  .slot h fun _ hc => .ite (.jump (.count hc.s ..)) (.ite .trap (.ite
      (.jump (.ite (.putK (.count hc.s ..)) (.count hc.s ..))) (.diverge
      (.ite (.putK (.count hc.s ..)) (.count hc.s ..)))))

theorem Out.Inv.execBra {o : OpB} {s : State} (h : s.Inv) : (execBra o s).Inv := .branch h
theorem Out.Inv.execBrx {o : OpBL} {s : State} (h : s.Inv) : (execBrx o s).Inv := .branch h
theorem Out.Inv.execCall {o : OpB} {s : State} (h : s.Inv) : (execCall o s).Inv := .branch h
theorem Out.Inv.execCallx {o : OpBL} {s : State} (h : s.Inv) : (execCallx o s).Inv := .branch h

theorem Out.Inv.jumpK {n : Nat} {etrap : Bool} {s : State} (h : s.Inv) : (jumpK n etrap s).Inv :=
  .slot h fun _ hc => .ite .trap (.jump hc.s)

theorem Out.Inv.execRet {x : OpS} {s : State} (h : s.Inv) : (execRet x s).Inv := .jumpK h
theorem Out.Inv.execJmpk {o : OpS} {s : State} (h : s.Inv) : (execJmpk o s).Inv := .jumpK h

theorem Out.Inv.execExit {o : OpS} {s : State} (h : s.Inv) : (execExit o s).Inv := by
  refine .slot h fun _ hc => .ite .trap (.ite (.jump hc.s) ?_)
  dsimp only
  split
  · exact .ite (.done (.groupEnd (.modGroup hc.s ..))) (.done (.modGroup hc.s ..))
  · exact .done (.modGroup hc.s ..)

theorem Out.Inv.execMaskr {o : OpS} {s : State} (h : s.Inv) : (execMaskr o s).Inv :=
  .slot h fun _ hc => .ok (.putK hc.s)

theorem Out.Inv.execMaskw {o : OpS} {s : State} (h : s.Inv) : (execMaskw o s).Inv :=
  .slot h fun _ hc => .ite .trap (.ok (.modSplit hc.s))

theorem Out.Inv.execVote {o : OpR} {s : State} (h : s.Inv) : (execVote o s).Inv := by
  refine .slot h fun _ hc => ?_
  split
  · split
    · exact .ite (.ok (.putV hc.s)) (.ok (.putK hc.s))
    · exact .ok (.putPred hc.s)
    · exact .ok (.putPred hc.s)
    · exact .ok (.putPred hc.s)
  split
  · exact .ite (.ok (.putV hc.s)) (.ok (.putK hc.s))
  · exact .ok (.putPred hc.s)
  · exact .ok (.putPred hc.s)
  · exact .ok (.putPred hc.s)

theorem Out.Inv.execPlop {o : OpR} {s : State} (h : s.Inv) : (execPlop o s).Inv :=
  .slot h fun _ hc => .ok (.putPred hc.s)

theorem Out.Inv.execChkf {o : OpS} {s : State} (h : s.Inv) : (execChkf o s).Inv :=
  .slot h fun _ hc => .ite (.ok (.putPred hc.s)) (.ok (.putPred hc.s))

theorem Out.Inv.execWaitf {o : OpS} {s : State} (h : s.Inv) : (execWaitf o s).Inv := by
  refine .slot h fun _ hc => .ite (.ok hc.s) ?_
  split
  · exact .block hc.s
  · exact .block hc.s

theorem Out.Inv.uni2 {o : OpRI} {f : DWord → DWord → DWord} {s : State} (h : s.Inv) : (uni2 o f s).Inv :=
  .slot h fun _ hc => .ok (.putK hc.s)

theorem Out.Inv.uni3 {o : OpR} {f : DWord → DWord → DWord → DWord} {s : State} (h : s.Inv) : (uni3 o f s).Inv :=
  .slot h fun _ hc => .ok (.putK hc.s)

theorem Out.Inv.execKmov {o : OpR} {s : State} (h : s.Inv) : (execKmov o s).Inv :=
  .slot h fun _ hc => .ok (.putK hc.s)

theorem Out.Inv.execKmovi {o : OpW} {s : State} (h : s.Inv) : (execKmovi o s).Inv :=
  .slot h fun _ hc => .ok (.putK hc.s)

theorem Out.Inv.execKlit {o : OpWL} {s : State} (h : s.Inv) : (execKlit o s).Inv :=
  .slot h fun _ hc => .ok2 (.putK hc.s)

theorem Out.Inv.execKadd {o : OpRI} {s : State} (h : s.Inv) : (execKadd o s).Inv := .uni2 h
theorem Out.Inv.execKsub {o : OpRI} {s : State} (h : s.Inv) : (execKsub o s).Inv := .uni2 h
theorem Out.Inv.execKmul {o : OpRI} {s : State} (h : s.Inv) : (execKmul o s).Inv := .uni2 h
theorem Out.Inv.execKmad {o : OpR} {s : State} (h : s.Inv) : (execKmad o s).Inv := .uni3 h
theorem Out.Inv.execKshl {o : OpRI} {s : State} (h : s.Inv) : (execKshl o s).Inv := .uni2 h
theorem Out.Inv.execKshr {o : OpRI} {s : State} (h : s.Inv) : (execKshr o s).Inv := .uni2 h
theorem Out.Inv.execKlop {o : OpR} {s : State} (h : s.Inv) : (execKlop o s).Inv := .uni3 h
theorem Out.Inv.execKmnx {o : OpRI} {s : State} (h : s.Inv) : (execKmnx o s).Inv := .uni2 h

theorem Out.Inv.execKcmp {o : OpRI} {s : State} (h : s.Inv) : (execKcmp o s).Inv :=
  .slot h fun _ hc => .ite (.ok (.putPred hc.s)) (.ok (.putK hc.s))

theorem Out.Inv.execKsel {o : OpR} {s : State} (h : s.Inv) : (execKsel o s).Inv :=
  .slot h fun _ hc => .ok (.putK hc.s)

theorem Out.Inv.execKrds {o : OpS} {s : State} (h : s.Inv) : (execKrds o s).Inv :=
  .slot h fun _ hc => .ok (.putK hc.s)

theorem Out.Inv.execKwrs {o : OpS} {s : State} (h : s.Inv) : (execKwrs o s).Inv :=
  .slot h fun _ hc => .ok (.modSp hc.s)

theorem Out.Inv.execKrdf {o : OpR} {s : State} (h : s.Inv) : (execKrdf o s).Inv := by
  unfold Machine.execKrdf
  exact .slotOn h fun _ hc => .ok (.putK hc.s)

theorem Out.Inv.codeTrap {o : OpS} {ca : Cause} {s : State} (h : s.Inv) : (codeTrap o ca s).Inv :=
  .slot h fun _ hc => .trapAt hc.s

theorem Out.Inv.execTrap {o : OpS} {s : State} (h : s.Inv) : (execTrap o s).Inv := .codeTrap h
theorem Out.Inv.execBrk {o : OpS} {s : State} (h : s.Inv) : (execBrk o s).Inv := .codeTrap h

/-! ### Save and resume (05) -/

theorem State.Inv.saveBegin {s : State} {g : Group} (h : s.Inv) : (s.saveBegin g).Inv := .modGroup h ..

theorem State.Inv.saveAll {s0 : State} {g : Group} (h : s0.Inv) : (s0.saveAll g).Inv :=
  .foldl (.homeWrite (.homeWrite (.homeWrite (.homeWrite (.homeWrite
      (.saveBegin h)))))) _ _ fun _ _ hs => .imgPutReg hs

theorem State.Inv.saveCookie {s0 : State} {g : Group} {cookie : DWord} (h : s0.Inv) : (s0.saveCookie g cookie).Inv :=
  .foldl (.homeWrite (.homeWrite (.saveBegin h))) _ _ fun _ _ hs => .ite (.imgPutReg hs) hs

theorem Out.Inv.execTret {o : OpS} {s : State} (h : s.Inv) : (execTret o s).Inv :=
  .slot h fun _ hc => .ite .trap (.ite (.done (.groupTrapped hc.s))
      (.ite (.ite .trap (.ite .trap (.done (.modReady hc.s)))) (.ite .trap (.done (.modReady hc.s)))))

theorem Out.Inv.execTdone {o : OpS} {s : State} (h : s.Inv) : (execTdone o s).Inv :=
  .slot h fun _ hc => .ite (.done (.groupTrapped hc.s)) (.ite .trap
      (.ite (.block hc.s) (.done (.modGroup (.upd (.saveCookie hc.s)) ..))))

theorem Out.Inv.execSregRd {o : OpS} {s : State} (h : s.Inv) : (execSregRd o s).Inv :=
  .slot h fun _ hc => .ite .trap (.ok (.putK hc.s))

theorem Out.Inv.execSregWr {o : OpS} {s : State} (h : s.Inv) : (execSregWr o s).Inv := by
  refine .slot h fun _ hc => .ite .trap ?_
  split
  · exact .ite .trap (.ok (.upd hc.s))
  · exact .ok (.upd hc.s)
  · exact .ite .trap (.ok (.upd hc.s))

theorem State.Inv.abandonWaita {s : State} {r : GRef} (h : s.Inv) : (s.abandonWaita r).Inv := .upd (.modReady h)

theorem State.Inv.abandonWaits {s : State} {r : GRef} (h : s.Inv) : (s.abandonWaits r).Inv :=
  .mmagCancel (.abandonWaita h)

theorem Out.Inv.execPreemptreq {o : OpS} {s : State} (h : s.Inv) : (execPreemptreq o s).Inv :=
  .slot h fun _ hc => .ite .trap (.ok (.foldl (.modLaunch hc.s ..) _ _ fun _ _ hs => .modGroup (.abandonWaits hs) ..))

theorem State.Inv.resumeGroup {s : State} {g : Group} (h : s.Inv) : (s.resumeGroup g).Inv := by
  unfold State.resumeGroup
  split
  · exact .modReady h
  · split
    · exact .count (.modReady h) ..
    · exact h
  · exact h

theorem Out.Inv.execResumereq {o : OpS} {s : State} (h : s.Inv) : (execResumereq o s).Inv :=
  .slot h fun _ hc => .ite .trap (.ok (.foldl (.modLaunch hc.s ..) _ _ fun _ _ hs => .resumeGroup hs))

theorem Out.Inv.execPreemptTrap {g : GRef} {s : State} (h : s.Inv) : (execPreemptTrap g s).Inv := by
  unfold Machine.execPreemptTrap
  split
  · exact .next h
  refine .ite ?_ (.next h)
  dsimp only
  split
  · exact .next h
  · exact .ite (.next (.count (.modReady (.abandonWaits h)) ..)) (.next (.abandonWaits h))

theorem Out.Inv.execForcedSave {g : GRef} {s : State} (h : s.Inv) : (execForcedSave g s).Inv := by
  unfold Machine.execForcedSave
  split
  · exact .next h
  refine .ite (.next h) ?_
  dsimp only
  split
  · exact .next h
  · exact .ite (.next (.abandonWaits h)) (.next (.count (.modGroup (.saveAll (.abandonWaits h)) ..) ..))

theorem Out.Inv.execTrapEntry {g : GRef} {e : Nat} {s : State} (h : s.Inv) : (execTrapEntry g e s).Inv := by
  unfold Machine.execTrapEntry
  split
  · exact .next h
  · split
    · exact .next h
    · exact .ite (.next h) (.ite (.next (.modSplit h)) (.next (.takeTrap (.modSplit h))))

/-! ### Code modules and the uniform unit (05) -/

theorem Out.Inv.execIprf {o : OpS} {s : State} (h : s.Inv) : (execIprf o s).Inv :=
  .slot h fun _ hc => .ok (.foldl hc.s _ _ fun _ _ hs => .ite (.icFill hs) (.count hs ..))

theorem State.Inv.recordModule {s : State} {die asid idx base len : Nat} (h : s.Inv) :
    (s.recordModule die asid idx base len).Inv :=
  .upd h

theorem State.Inv.installModule {s : State} {die asid idx img : Nat} (h : s.Inv) :
    (s.installModule die asid idx img).2.Inv := by
  unfold State.installModule
  refine .iteSnd h ?_
  split
  · exact h
  refine .iteSnd h ?_
  dsimp only
  exact .putModEnt (.recordModule (.icInvalidate (.ite (.icInvalidate h) h)))

theorem State.Inv.removeModule {s : State} {die asid idx : Nat} (h : s.Inv) :
    (s.removeModule die asid idx).2.Inv := by
  unfold State.removeModule
  refine .iteSnd h (.iteSnd h ?_)
  dsimp only
  exact .putModEnt (.icInvalidate h)

theorem Out.Inv.execModl {o : OpS} {s : State} (h : s.Inv) : (execModl o s).Inv := by
  refine .slot h fun _ hc => .ite .trap ?_
  split
  · next he => exact .block (.of_some (.engineFault hc.s) he)
  split
  · next he => exact .block (.of_some (.engineFault hc.s) he)
  · exact .ok (.putK (.installModule (.l1Acquire (.l1Acquire hc.s))))

theorem Out.Inv.execModu {o : OpS} {s : State} (h : s.Inv) : (execModu o s).Inv := by
  refine .slot h fun _ hc => ?_
  dsimp only
  split
  · next he => exact .block (.of_some (.engineFault hc.s) he)
  · exact .ok (.putK (.removeModule hc.s))

theorem Out.Inv.execCntr {o : OpS} {s : State} (h : s.Inv) : (execCntr o s).Inv :=
  .slot h fun _ hc => .ite .trap (.ite (.ok (.putK (.upd hc.s))) (.ok (.putK hc.s)))

theorem Out.Inv.execCntc {o : OpS} {s : State} (h : s.Inv) : (execCntc o s).Inv :=
  .slot h fun _ hc => .ite .trap (.ok (.upd hc.s))

theorem Out.Inv.execCntcAll {o : OpS} {s : State} (h : s.Inv) : (execCntcAll o s).Inv :=
  .slot h fun _ hc => .ite .trap (.ok (.upd hc.s))

/-! ### Lane instructions (06) -/

theorem State.Inv.countOuts {s : State} {c : CoreRef} {os : List LaneOut} (h : s.Inv) : (countOuts s c os).Inv :=
  .count (.count (.count h ..) ..) ..

theorem State.Inv.putLanes {c : Ctx} {d : Nat} {f : Nat → LaneOut} (hc : c.Inv) : (c.putLanes d f).Inv :=
  .countOuts (.putV hc.s)

theorem State.Inv.putLanes2 {c : Ctx} {d : Nat} {f : Nat → LaneOut × LaneOut} (hc : c.Inv) : (c.putLanes2 d f).Inv :=
  .countOuts (.countOuts (.putV (.putV hc.s)))

theorem State.Inv.laneTail {c : Ctx} {sr draws : Bool} {s : State} (h : s.Inv) : (laneTail c sr draws s).Inv :=
  .ite (.modSp (.ite (.count (.count (.count h ..) ..) ..) (.count (.count h ..) ..)))
      (.ite (.count (.count (.count h ..) ..) ..) (.count (.count h ..) ..))

theorem Out.Inv.laneSlot {gd : Guard} {rds : List Rd} {dsts : List Nat} {rnd : Option Nat} {draws : Bool}
    {act : Ctx → Rm → State} {s : State} (hact : ∀ (c : Ctx) (rm : Rm), c.Inv → (act c rm).Inv) (h : s.Inv) :
    (laneSlot gd rds dsts rnd draws act s).Inv := by
  refine .slot h fun _ hc => ?_
  split
  · exact .trap
  · exact .ok (.laneTail (hact _ _ hc))

theorem Out.Inv.intOp2 {o : OpRI} {f : ℤ → ℤ → ℤ} {s : State} (h : s.Inv) : (intOp2 o f s).Inv :=
  .laneSlot (fun _ _ hc => .putLanes hc) h

theorem Out.Inv.execIadd {o : OpRI} {s : State} (h : s.Inv) : (execIadd o s).Inv := .intOp2 h
theorem Out.Inv.execIsub {o : OpRI} {s : State} (h : s.Inv) : (execIsub o s).Inv := .intOp2 h
theorem Out.Inv.execImul {o : OpRI} {s : State} (h : s.Inv) : (execImul o s).Inv := .intOp2 h
theorem Out.Inv.execImnx {o : OpRI} {s : State} (h : s.Inv) : (execImnx o s).Inv := .intOp2 h

theorem Out.Inv.laneR {o : OpR} {n : Nat} {f : Ctx → Nat → LaneOut} {s : State} (h : s.Inv) : (laneR o n f s).Inv :=
  .laneSlot (fun _ _ hc => .putLanes hc) h

theorem Out.Inv.execImulh {o : OpR} {s : State} (h : s.Inv) : (execImulh o s).Inv := .laneR h
theorem Out.Inv.execImad {o : OpR} {s : State} (h : s.Inv) : (execImad o s).Inv := .laneR h
theorem Out.Inv.execIabs {o : OpR} {s : State} (h : s.Inv) : (execIabs o s).Inv := .laneR h

theorem Out.Inv.shiftOp {o : OpRI} {f : Nat → Nat → Nat → Nat} {s : State} (h : s.Inv) : (shiftOp o f s).Inv :=
  .laneSlot (fun _ _ hc => .putLanes hc) h

theorem Out.Inv.execShl {o : OpRI} {s : State} (h : s.Inv) : (execShl o s).Inv := .shiftOp h
theorem Out.Inv.execShr {o : OpRI} {s : State} (h : s.Inv) : (execShr o s).Inv := .shiftOp h
theorem Out.Inv.execSar {o : OpRI} {s : State} (h : s.Inv) : (execSar o s).Inv := .shiftOp h
theorem Out.Inv.execLop3 {o : OpR} {s : State} (h : s.Inv) : (execLop3 o s).Inv := .laneR h
theorem Out.Inv.execPopc {o : OpR} {s : State} (h : s.Inv) : (execPopc o s).Inv := .laneR h
theorem Out.Inv.execClz {o : OpR} {s : State} (h : s.Inv) : (execClz o s).Inv := .laneR h
theorem Out.Inv.execBfx {o : OpR} {s : State} (h : s.Inv) : (execBfx o s).Inv := .laneR h
theorem Out.Inv.execBfi {o : OpR} {s : State} (h : s.Inv) : (execBfi o s).Inv := .laneR h

theorem State.Inv.putCmp {c : Ctx} {d : BitVec 9} {packed : Bool} {f : Nat → Nat → Bool}
    (hc : c.Inv) : (c.putCmp d packed f).Inv :=
  .ite (.putPred hc.s) (.putLanes hc)

theorem Out.Inv.execIcmp {o : OpRI} {s : State} (h : s.Inv) : (execIcmp o s).Inv :=
  .laneSlot (fun _ _ hc => .putCmp hc) h

theorem Out.Inv.fltOp2 {o : OpRI} {f : Rm → FV → FV → FV} {s : State} (h : s.Inv) : (fltOp2 o f s).Inv :=
  .laneSlot (fun _ _ hc => .putLanes hc) h

theorem Out.Inv.execFadd {o : OpRI} {s : State} (h : s.Inv) : (execFadd o s).Inv := .fltOp2 h
theorem Out.Inv.execFsub {o : OpRI} {s : State} (h : s.Inv) : (execFsub o s).Inv := .fltOp2 h
theorem Out.Inv.execFmul {o : OpRI} {s : State} (h : s.Inv) : (execFmul o s).Inv := .fltOp2 h

theorem Out.Inv.fltR {o : OpR} {n : Nat} {f : Rm → FV → FV → FV → FV} {s : State} (h : s.Inv) : (fltR o n f s).Inv :=
  .laneSlot (fun _ _ hc => .putLanes hc) h

theorem Out.Inv.execFfma {o : OpR} {s : State} (h : s.Inv) : (execFfma o s).Inv := .fltR h
theorem Out.Inv.execFrcp {o : OpR} {s : State} (h : s.Inv) : (execFrcp o s).Inv := .fltR h
theorem Out.Inv.execFsqrt {o : OpR} {s : State} (h : s.Inv) : (execFsqrt o s).Inv := .fltR h
theorem Out.Inv.execFdiv {o : OpR} {s : State} (h : s.Inv) : (execFdiv o s).Inv := .fltR h

theorem Out.Inv.execFscl {o : OpR} {s : State} (h : s.Inv) : (execFscl o s).Inv :=
  .laneSlot (fun _ _ hc => .putLanes hc) h

theorem Out.Inv.fltUnary {o : OpR} {f : FV → FV} {s : State} (h : s.Inv) : (fltUnary o f s).Inv := .laneR h
theorem Out.Inv.execFrsq {o : OpR} {s : State} (h : s.Inv) : (execFrsq o s).Inv := .fltUnary h
theorem Out.Inv.execFex2 {o : OpR} {s : State} (h : s.Inv) : (execFex2 o s).Inv := .fltUnary h
theorem Out.Inv.execFlg2 {o : OpR} {s : State} (h : s.Inv) : (execFlg2 o s).Inv := .fltUnary h
theorem Out.Inv.execFsin {o : OpR} {s : State} (h : s.Inv) : (execFsin o s).Inv := .fltUnary h
theorem Out.Inv.execFcos {o : OpR} {s : State} (h : s.Inv) : (execFcos o s).Inv := .fltUnary h

theorem Out.Inv.execFmnx {o : OpRI} {s : State} (h : s.Inv) : (execFmnx o s).Inv :=
  .laneSlot (fun _ _ hc => .putLanes hc) h

theorem Out.Inv.execFcmp {o : OpRI} {s : State} (h : s.Inv) : (execFcmp o s).Inv :=
  .laneSlot (fun _ _ hc => .putCmp hc) h

theorem Out.Inv.execFcls {o : OpR} {s : State} (h : s.Inv) : (execFcls o s).Inv :=
  .laneSlot (fun _ _ hc => .ite (.putPred hc.s) (.putLanes hc)) h

theorem Out.Inv.execMov {o : OpR} {s : State} (h : s.Inv) : (execMov o s).Inv :=
  .ite (.laneSlot (fun _ _ hc => .putLanes2 hc) h) (.laneR h)

theorem Out.Inv.execMovi {o : OpW} {s : State} (h : s.Inv) : (execMovi o s).Inv :=
  .laneSlot (fun _ _ hc => .putLanes hc) h

theorem Out.Inv.execSel {o : OpR} {s : State} (h : s.Inv) : (execSel o s).Inv := by
  unfold Machine.execSel
  exact .laneSlot (fun _ _ hc => .ite (.putLanes2 hc) (.putLanes hc)) h

theorem Out.Inv.execCvt {o : OpR} {s : State} (h : s.Inv) : (execCvt o s).Inv :=
  .laneSlot (fun _ _ hc => .ite (.putLanes2 hc) (.putLanes hc)) h

theorem Out.Inv.execPack {o : OpR} {s : State} (h : s.Inv) : (execPack o s).Inv :=
  .laneSlot (fun _ _ hc => .putLanes hc) h

theorem Out.Inv.execUnpk {o : OpR} {s : State} (h : s.Inv) : (execUnpk o s).Inv := by
  unfold Machine.execUnpk
  exact .laneSlot (fun _ _ hc => .putLanes2 hc) h

theorem Out.Inv.execPrmb {o : OpR} {s : State} (h : s.Inv) : (execPrmb o s).Inv := .laneR h
theorem Out.Inv.execClmp {o : OpR} {s : State} (h : s.Inv) : (execClmp o s).Inv := .laneR h

theorem Out.Inv.execQnt {o : OpR} {s : State} (h : s.Inv) : (execQnt o s).Inv :=
  .laneSlot (fun _ _ hc => .putLanes hc) h

theorem Out.Inv.execDqnt {o : OpR} {s : State} (h : s.Inv) : (execDqnt o s).Inv :=
  .laneSlot (fun _ _ hc => .putLanes2 hc) h

theorem Out.Inv.execRand {o : OpR} {s : State} (h : s.Inv) : (execRand o s).Inv :=
  .laneSlot (fun _ _ hc => .count (.ite (.putLanes2 hc) (.ite (.putLanes hc) (.putLanes hc))) ..) h

theorem Out.Inv.execRdsr {o : OpS} {s : State} (h : s.Inv) : (execRdsr o s).Inv := by
  unfold Machine.execRdsr
  exact .laneSlot (fun _ _ hc => .ite (.putLanes2 hc) (.putLanes hc)) h

/-! ### Windows (10) -/

theorem State.Inv.setRegion {s : State} {k : CoreRef × Nat} {r : Region} (h : s.Inv) : (s.setRegion k r).Inv := .upd h

theorem State.Inv.touchFill {s : State} {k : CoreRef × Nat} {chunk : Nat} (h : s.Inv) : (s.touchFill k chunk).Inv :=
  .ite (.count (.setRegion h) ..) h

theorem State.Inv.serveTouches {s : State} {k : CoreRef × Nat} {which : Nat → Bool} (h : s.Inv) :
    (s.serveTouches k which).Inv :=
  .count (.setRegion h) ..

/-! ### Accesses (08) -/

theorem State.Inv.releaseAt {s : State} {c : CoreRef} {asid scope : Nat} {rs : Option (List (Nat × Nat))}
    (h : s.Inv) : (s.releaseAt c asid scope rs).Inv :=
  .ite h (.l1Release h)

theorem State.Inv.acquireAt {s : State} {c : CoreRef} {asid scope : Nat} {rs : Option (List (Nat × Nat))}
    {engine : Bool} (h : s.Inv) : (s.acquireAt c asid scope rs engine).Inv :=
  .ite h (.l1Acquire h)

theorem State.Inv.releaseFor {s : State} {o : MemOp} {l : LaneAcc} (h : s.Inv) : (s.releaseFor o l).Inv := by
  refine .ite (.releaseAt ?_) ?_
  · split
    · exact .releaseAt h
    · exact h
  · split
    · exact .releaseAt h
    · exact h

theorem State.Inv.engLanded {s : State} {o : MemOp} {ls : List LaneAcc} (h : s.Inv) : (s.engLanded o ls).Inv :=
  .ite h (.modGroup h ..)

theorem State.Inv.acquireFor {s : State} {o : MemOp} (h : s.Inv) : (s.acquireFor o).Inv :=
  .ite (.foldl h _ _ fun _ _ hs => .acquireAt hs) h

theorem State.Inv.portSend {s : State} {op va : Nat} {bs : List Byte} (h : s.Inv) : (s.portSend op va bs).Inv :=
  .upd h

theorem State.Inv.touchPrio {s : State} {c : CoreRef} {asid a : Nat} {p : Policy} (h : s.Inv) :
    (s.touchPrio c asid a p).Inv :=
  .ite h (.setL1 (.ite (.l1WriteBack h) h))

theorem State.Inv.quadPut {s : State} {q : Nat × Nat} {asid a : Nat} {bs : List Byte} (h : s.Inv) :
    (s.quadPut q asid a bs).Inv :=
  .upd (.quadForget h)

theorem State.Inv.codeSee {s : State} {c : CoreRef} {asid a : Nat} (h : s.Inv) : (s.codeSee c asid a).Inv :=
  .ite h (.codeKeep h)

theorem State.Inv.l1Store {s : State} {c : CoreRef} {asid a : Nat} {bs : List Byte} {p : Policy} {leaf : DWord}
    (h : s.Inv) : (s.l1Store c asid a bs p leaf).Inv :=
  .ite (.sliceTouch (.homeWrite h)) (.ite (.sliceTouch (.homeWrite
      (.quadForget (.foldl h _ _ fun _ _ hs => .setL1 hs)))) (.codeSee
      (.touchPrio (.ite (.setL1 (.foldl (.l1Alloc h) _ _ fun _ _ hs => .setL1 hs))
      (.foldl (.l1Alloc h) _ _ fun _ _ hs => .setL1 hs)))))

theorem State.Inv.roFilled {s : State} {c : CoreRef} {asid a : Nat} {leaf : DWord} (h : s.Inv) :
    (s.roFilled c asid a leaf).Inv :=
  .ite h (.upd h)

theorem State.Inv.l1Fill {s : State} {c : CoreRef} {asid a : Nat} {p : Policy}
    (h : s.Inv) : (s.l1Fill c asid a p).Inv :=
  .ite (.sliceTouch (.sliceFill h)) (.touchPrio (.roFilled (.setL1 (.l1Alloc (.sliceTouch (.sliceFill h))))))

theorem State.InvSome.peerFill {s : State} {c : CoreRef} {asid a n : Nat} {p : Policy} (h : s.Inv) :
    State.InvSome (s.peerFill c asid a n p) := by
  refine .ite .none ?_
  split
  · dsimp only
    split
    · exact .none
    · exact .ite .none (.some (.count (.upd h) ..))
  dsimp only
  split
  · exact .none
  · exact .ite .none (.some (.count (.touchPrio (.roFilled (.upd (.setL1 (.l1Alloc h))))) ..))

theorem State.Inv.placeWrite {s : State} {o : MemOp} {p : PlaceK} {a : Nat} {bs : List Byte} {lanes : List Nat}
    (h : s.Inv) : (s.placeWrite o p a bs lanes).Inv := by
  unfold State.placeWrite
  split
  · exact .ocStore h
  · split
    · split
      · exact .upd h
      · exact h
    · exact h
  · exact .l1Store h
  · split
    · exact .modBlock h ..
    · exact h
  · exact .l1Store h
  · exact .upd (.fresh (.quadPut h))
  · exact .sliceTouch (.homeWrite h)
  · exact .sliceTouch (.homeWrite h)
  · exact .sliceTouch (.homeWrite h)
  · exact .portSend h

theorem State.Inv.missFill {s : State} {o : MemOp} {a n lanes : Nat} {p : Policy} (h : s.Inv) :
    (s.missFill o a n lanes p).Inv := by
  unfold State.missFill
  dsimp only
  split
  · next hx => exact .of_some (.ite .none (.peerFill h)) hx
  · exact .l1Fill (.count h ..)

theorem State.Inv.reach {s : State} {o : MemOp} {p : PlaceK} {a n : Nat} (h : s.Inv) : (s.reach o p a n).Inv := by
  unfold State.reach
  split
  · exact .ite h (.missFill h)
  · exact .ite (.l1Sync h) (.quadPut (.l1Sync h))
  · exact .ite (.quadForget (.l1Sync h)) h
  · exact .ite (.quadForget (.l1Sync h)) h
  · exact .ite (.quadForget (.l1Sync h)) h
  · exact h

theorem State.Inv.readTouch {s : State} {o : MemOp} {p : PlaceK} {a : Nat} (h : s.Inv) : (s.readTouch o p a).Inv := by
  unfold State.readTouch
  split
  · exact .touchPrio h
  · exact .touchPrio h
  · exact .sliceTouch h
  · exact .sliceTouch h
  · exact .sliceTouch h
  · exact h

theorem State.Inv.performAt {s : State} {o : MemOp} {p : PlaceK} {l : LaneAcc} (h : s.Inv) :
    (s.performAt o p l).1.Inv := by
  unfold State.performAt
  split
  · exact .placeWrite (.foldl (.releaseFor h) _ _ fun _ _ hs => .reach hs)
  split
  · exact .ownHeld (.placeWrite (.placeWrite (.foldl (.releaseFor h) _ _ fun _ _ hs => .reach hs)))
  refine .ownHeld ?_
  split
  · exact .placeWrite (.foldl (.releaseFor h) _ _ fun _ _ hs => .reach hs)
  · exact .readTouch (.foldl (.releaseFor h) _ _ fun _ _ hs => .reach hs)

theorem State.Inv.setOp {s : State} {o : MemOp} (h : s.Inv) : (s.setOp o).Inv := .upd h
theorem State.Inv.setLane {s : State} {id : Nat} {l : LaneAcc} (h : s.Inv) : (s.setLane id l).Inv := .upd h

theorem State.Inv.dlEnter {s : State} {who : DlWho} {ks : List Nat} (h : s.Inv) : (s.dlEnter who ks).Inv :=
  .foldl h _ _ fun _ _ hs => .countPort (.upd (.fresh hs))

theorem State.Inv.dlLeave {s : State} {who : DlWho} (h : s.Inv) : (s.dlLeave who).Inv := .upd h

theorem State.Inv.performMates {s : State} {o : MemOp} {p : PlaceK} {l : LaneAcc}
    (h : s.Inv) : (s.performMates o p l).Inv :=
  .foldl (.performAt (.foldl h _ _ fun _ _ hs => .releaseFor hs)) _ _ fun _ _ hs => .setLane hs

theorem State.Inv.fillFor {s : State} {o : MemOp} {l : LaneAcc} (h : s.Inv) : (s.fillFor o l).Inv :=
  .ite h (.missFill h)

theorem State.Inv.performLocal {s : State} {o : MemOp} {l : LaneAcc} (h : s.Inv) : (s.performLocal o l).Inv :=
  .ite h (.performMates (.ite (.fillFor h) h))

theorem State.Inv.eachLane {s : State} {id : Nat} {f : State → MemOp → LaneAcc → State} (h : s.Inv)
    (hf : ∀ (s : State) (o : MemOp) (l : LaneAcc), s.Inv → (f s o l).Inv) : (s.eachLane id f).Inv := by
  unfold State.eachLane
  split
  · exact h
  refine .foldl h _ _ fun _ _ hs => ?_
  split
  · exact hf _ _ _ hs
  · exact hs

theorem State.Inv.performAll {s : State} {id : Nat} (h : s.Inv) : (s.performAll id).Inv :=
  .eachLane h fun _ _ _ hs => .performLocal hs

theorem State.Inv.mboxSend {s : State} {o : MemOp} (h : s.Inv) : (s.mboxSend o).Inv :=
  .foldl h _ _ fun _ _ hs => .upd (.fresh hs)

theorem State.Inv.markDest {s : State} {r : GRef} {f : AccForm} {m : Mask} {id : Nat}
    (h : s.Inv) : (s.markDest r f m id).Inv :=
  .ite h (.ite (.modGroup h ..) (.foldl h _ _ fun _ _ hs => .modGroup hs ..))

theorem State.Inv.countBanks {s : State} {o : MemOp} (h : s.Inv) : (s.countBanks o).Inv :=
  .foldl h _ _ fun _ _ hs => .count hs ..

theorem State.InvSome.iteFst {α : Type} {x y : Option State × α} {p : Prop} {_ : Decidable p} (hx : State.InvSome x.1)
    (hy : State.InvSome y.1) : State.InvSome (if p then x else y).1 := by
  split
  · exact hx
  · exact hy

theorem State.InvSome.touchAll {s : State} {g : Group} {ls : List (Nat × Nat)} (h : s.Inv) :
    State.InvSome (s.touchAll g ls).1 :=
  .iteFst .none (.some (.foldl h _ _ fun _ _ hs => .touchFill hs))

theorem Out.Inv.issueAccess {i : Instr} {pre : Ctx → Option (Cause × Nat)} {post : Ctx → State → State} {s : State}
    (hpost : ∀ (c : Ctx) (s : State), c.Inv → s.Inv → (post c s).Inv) (h : s.Inv) :
    (issueAccess i pre post s).Inv := by
  unfold Machine.issueAccess
  split
  · exact .next h
  refine .slot h fun c hc => ?_
  extract_lets core _ ls _ _ _ _ _ tw slotEv
  refine .ite .trap ?_
  split
  · exact .trap
  refine .ite .trap ?_
  split
  · exact .trap
  refine .ite (.block hc.s0) (.ite .trap ?_)
  split
  · exact .trap
  next sT hsT =>
  extract_lets s0 s1 s2
  have hT : sT.Inv := .of_some (.iteFst (.touchAll hc.s) (.some hc.s)) hsT
  have h0 : s0.Inv := by
    clear_value slotEv
    cases slotEv with
    | some e => exact .count hT ..
    | none => exact hT
  have h2 : s2.Inv := hpost _ _ hc (.ite (.count h0 ..) h0)
  refine .ite (.ok h2) ?_
  split
  next id s3 hs3 =>
  extract_lets _ s3' s4 s5 s6 s7 s9
  have h3 : s3'.Inv := .ite (.modGroup (.of_snd (.fresh h2) hs3) ..) (.of_snd (.fresh h2) hs3)
  have h6 : s6.Inv := .modGroup (.watch (.countBanks (.upd (.ite h3 (.markDest h3))))) ..
  have h7 : s7.Inv := .foldl h6 _ _ fun _ _ hs => .setRegion hs
  have h9 : s9.Inv := .ite (.count (.performAll h7) ..) (.ite (.mboxSend h7) h7)
  exact .ite (.block h6) (.ite (.block h9) (.ok h9))

theorem State.Inv.noPost {c : Ctx} {s : State} (h : s.Inv) : (noPost c s).Inv := h

theorem Out.Inv.execLdg {o : OpM} {s : State} (h : s.Inv) : (execLdg o s).Inv :=
  .issueAccess (fun _ _ _ hs => .noPost hs) h

theorem Out.Inv.execStg {o : OpM} {s : State} (h : s.Inv) : (execStg o s).Inv :=
  .issueAccess (fun _ _ _ hs => .noPost hs) h

theorem Out.Inv.execLds {o : OpM} {s : State} (h : s.Inv) : (execLds o s).Inv :=
  .issueAccess (fun _ _ _ hs => .noPost hs) h

theorem Out.Inv.execSts {o : OpM} {s : State} (h : s.Inv) : (execSts o s).Inv :=
  .issueAccess (fun _ _ _ hs => .noPost hs) h

theorem Out.Inv.execLdw {o : OpM} {s : State} (h : s.Inv) : (execLdw o s).Inv :=
  .issueAccess (fun _ _ _ hs => .noPost hs) h

theorem Out.Inv.execStw {o : OpM} {s : State} (h : s.Inv) : (execStw o s).Inv :=
  .issueAccess (fun _ _ _ hs => .noPost hs) h

theorem Out.Inv.execLdk {o : OpM} {s : State} (h : s.Inv) : (execLdk o s).Inv :=
  .issueAccess (fun _ _ _ hs => .noPost hs) h

theorem Out.Inv.execStk {o : OpM} {s : State} (h : s.Inv) : (execStk o s).Inv :=
  .issueAccess (fun _ _ _ hs => .noPost hs) h

theorem Out.Inv.execGthr {o : OpM} {s : State} (h : s.Inv) : (execGthr o s).Inv :=
  .issueAccess (fun _ _ _ hs => .noPost hs) h

theorem Out.Inv.execSctr {o : OpM} {s : State} (h : s.Inv) : (execSctr o s).Inv :=
  .issueAccess (fun _ _ _ hs => .noPost hs) h

theorem Out.Inv.execPref {o : OpM} {s : State} (h : s.Inv) : (execPref o s).Inv := by
  refine .slot h fun _ hc => .ok (.foldl hc.s _ _ fun _ _ hs => .ite (.count hs ..) ?_)
  split
  · exact .count hs ..
  · exact .foldl (.count hs ..) _ _ fun _ _ hs1 => .ite hs1 (.l1Fill hs1)

theorem Out.Inv.maintain {i : Instr} {o : OpM} {act : State → CoreRef → Nat → Nat → State} {s : State}
    (hact : ∀ (s : State) (c : CoreRef) (n n2 : Nat), s.Inv → (act s c n n2).Inv)
    (h : s.Inv) : (maintain i o act s).Inv :=
  .slot h fun _ hc => .ite (.block hc.s0) (.ite .trap (.ite (.ok hc.s)
      (.ite (.block hc.s0) (.ok (.modGroup (.upd (.fresh (.foldl hc.s _ _ fun _ _ hs => hact _ _ _ _ hs))) ..)))))

theorem Out.Inv.execWbk {o : OpM} {s : State} (h : s.Inv) : (execWbk o s).Inv :=
  .maintain (fun _ _ _ _ hs => .l1WriteBack hs) h

theorem Out.Inv.execInv {o : OpM} {s : State} (h : s.Inv) : (execInv o s).Inv :=
  .maintain (fun _ _ _ _ hs => .l1Invalidate hs) h

theorem Out.Inv.execFnc {o : OpM} {s : State} (h : s.Inv) : (execFnc o s).Inv :=
  .slot h fun _ hc => .ite (.block hc.s0) (.ok (.ite (.modGroup (.ite (.acquireAt (.ite (.modGroup hc.s ..) hc.s))
      hc.s) ..) (.ite (.acquireAt (.ite (.modGroup hc.s ..) hc.s)) hc.s)))

theorem Out.Inv.changeBindings {o : OpS} {rds : List Rd} {f : Ctx → Launch → Nat × List Binding} {s : State}
    (h : s.Inv) : (changeBindings o rds f s).Inv := by
  refine .slot h fun _ hc => ?_
  split
  · exact .ok (.putK hc.s)
  · exact .ite (.block hc.s0) (.ite (.ok (.putK hc.s)) (.block (.modLaunch (.awaitK hc.s) ..)))

theorem Out.Inv.execSbnd {o : OpS} {s : State} (h : s.Inv) : (execSbnd o s).Inv := .changeBindings h
theorem Out.Inv.execSunb {o : OpS} {s : State} (h : s.Inv) : (execSunb o s).Inv := .changeBindings h

/-! ### Verdicts, landing and acknowledgment (08) -/

theorem State.Inv.releaseClosed {s : State} (h : s.Inv) : s.releaseClosed.Inv :=
  .foldl h _ _ fun _ _ hs => .releaseBlocks hs

theorem State.Inv.closeOp {s : State} {o : MemOp} (h : s.Inv) : (s.closeOp o).Inv := by
  unfold State.closeOp
  split
  · split
    · exact .ite (.releaseClosed (.upd h)) (.modGroup (.releaseClosed (.upd h)) ..)
    · exact .releaseClosed (.upd h)
  · split
    · exact .ite (.upd h) (.modGroup (.upd h) ..)
    · exact .upd h

theorem State.Inv.takeRegs {s : State} {o : MemOp} {m : Mask} (h : s.Inv) : (s.takeRegs o m).Inv := by
  unfold State.takeRegs
  split
  · exact h
  · exact .modGroup h ..

theorem State.Inv.acceptStores {s : State} {o : MemOp} (h : s.Inv) : (s.acceptStores o).Inv :=
  .ite (.eachLane h fun _ _ _ hs => .ite (.performMates hs) hs) h

theorem State.Inv.dlArrive {s : State} {o : MemOp} (h : s.Inv) : (s.dlArrive o).Inv := .dlEnter h

theorem State.Inv.waitaReach {s : State} {o : MemOp} (h : s.Inv) : (s.waitaReach o).Inv :=
  .ite (.foldl h _ _ fun _ _ hs => .foldl hs _ _ fun _ _ hs1 => .reach hs1) h

theorem State.Inv.unfenceFor {s : State} {o : MemOp} (h : s.Inv) : (s.unfenceFor o).Inv := .ite (.modGroup h ..) h

theorem State.Inv.transCounts {s : State} {o : MemOp} (h : s.Inv) : (s.transCounts o).Inv :=
  .remapUse (.countPort (.countPort (.countPort h)))

theorem State.Inv.acceptOp {s : State} {o : MemOp} (h : s.Inv) : (s.acceptOp o).Inv := by
  unfold State.acceptOp
  extract_lets _ _ _ _ _ s1 o1 s2 s3
  have h1 : s1.Inv := .count (.count (.count (.count (.count h ..) ..) ..) ..) ..
  have h2 : s2.Inv := .watch (.unfenceFor (.waitaReach (.setOp (.dlArrive (.transCounts h1)))))
  have h3 : s3.Inv := .acceptStores (.ite h2 (.takeRegs h2))
  exact .ite (.modSplit h3) (.finishSlot h3)

theorem State.InvSome.recordLane {s : State} {o : MemOp} {set : Nat} {x : LaneAcc × Nat × Nat × DWord × Nat}
    (h : s.Inv) : State.InvSome (s.recordLane o set x) :=
  .recordFault h

theorem State.Inv.recordLanes {s : State} {o : MemOp} {set : Nat} {bad : List (LaneAcc × Nat × Nat × DWord × Nat)}
    (h : s.Inv) : (s.recordLanes o set bad).1.Inv := by
  unfold State.recordLanes
  dsimp only
  split
  · refine .upd (.foldlFst h _ _ fun _ _ ha => ?_)
    split
    · next he => exact .of_some (.recordLane ha) he
    · exact ha
  refine .foldlFst h _ _ fun _ _ ha => ?_
  split
  · next he => exact .of_some (.recordLane ha) he
  · exact ha

theorem Out.Inv.execAccessVerdict {op : Nat} {s : State} (h : s.Inv) : (execAccessVerdict op s).Inv := by
  unfold Machine.execAccessVerdict
  split
  · exact .next h
  split
  · exact .next h
  refine .ite (.next h) (.ite (.next h) (.ite (.next (.acceptOp h)) ?_))
  split
  · exact .next (.modSplit (.closeOp h))
  split
  · next he => exact .next (.of_fst (.recordLanes h) he)
  · next he =>
    extract_lets _ _ _ s2 _ s3
    have h2 : s2.Inv := .count (.count (.modGroup (.of_fst (.recordLanes h) he) ..) ..) ..
    exact .ite (.next (.ite (.closeOp h2) (.finishSlot (.closeOp h2)))) (.next (.acceptOp h2))

theorem Out.Inv.execParkedSetReplay {g : GRef} {i : Nat} {s : State} (h : s.Inv) :
    (execParkedSetReplay g i s).Inv := by
  unfold Machine.execParkedSetReplay
  split
  · exact .next h
  refine .ite (.next h) ?_
  split
  · exact .next h
  · exact .next (.modReady h)

theorem State.Inv.landLanes {s : State} {o : MemOp} {ls : List LaneAcc} (h : s.Inv) : (s.landLanes o ls).Inv := by
  unfold State.landLanes
  split
  · exact h
  refine .ite h (.ite (.modGroup h ..) (.foldl h _ _ fun _ _ hs => ?_))
  split
  · exact hs
  · exact .ite (.mboxDeliver hs) (.modGroup hs ..)

theorem Out.Inv.execLoadDataLand {op : Nat} {s : State} (h : s.Inv) : (execLoadDataLand op s).Inv := by
  unfold Machine.execLoadDataLand
  split
  · exact .next h
  split
  · exact .next h
  refine .ite (.next h) ?_
  dsimp only
  split
  · exact .next (.performAll h)
  · exact .ite (.ite (.next (.finishSlot (.closeOp (.acquireFor (.engLanded (.landLanes (.performAll h)))))))
        (.next (.performAll h))) (.ite (.next (.closeOp (.engLanded (.landLanes (.performAll h)))))
        (.next (.setOp (.engLanded (.landLanes (.performAll h))))))

theorem Out.Inv.execStoreAck {op : Nat} {s : State} (h : s.Inv) : (execStoreAck op s).Inv := by
  unfold Machine.execStoreAck
  split
  · exact .next h
  split
  · exact .next h
  refine .ite (.next h) ?_
  dsimp only
  split
  · exact .next (.performAll h)
  · exact .ite (.next (.ite (.finishSlot (.closeOp (.acquireFor (.performAll h))))
        (.closeOp (.performAll h)))) (.next (.performAll h))

theorem State.Inv.mboxRelease {s : State} {w : MboxWrite} (h : s.Inv) : (s.mboxRelease w).Inv := by
  unfold State.mboxRelease
  split
  · exact .foldl h _ _ fun _ _ hs => .releaseFor hs
  · exact h

theorem Out.Inv.execMailboxWriteLand {n : Nat} {s : State} (h : s.Inv) : (execMailboxWriteLand n s).Inv := by
  unfold Machine.execMailboxWriteLand
  split
  · exact .next h
  · exact .ite (.next h) (.next (.mboxDeliver (.upd (.mboxRelease h))))

theorem State.Inv.performLane {p : PlaceK} {op lane : Nat} {s : State} (h : s.Inv) :
    (performLane p op lane s).Inv := by
  unfold Machine.performLane
  split
  · exact h
  · split
    · exact h
    · exact .ite (.performMates h) h

theorem State.Inv.homeCount {s : State} {op lane : Nat} {s' : State} (hs' : s'.Inv) :
    (s.homeCount op lane s').Inv := by
  unfold State.homeCount
  split
  · split
    · exact .ite (.countHome hs') hs'
    · exact hs'
  · exact hs'

theorem Out.Inv.execHomeAtomic {op lane : Nat} {s : State} (h : s.Inv) : (execHomeAtomic op lane s).Inv :=
  .next (.homeCount (.performLane h))

theorem Out.Inv.execPortAtomic {op lane : Nat} {s : State} (h : s.Inv) : (execPortAtomic op lane s).Inv := by
  refine .next ?_
  split
  · exact .ite (.countPort (.performLane h)) (.performLane h)
  · exact .performLane h

theorem State.Inv.quadReplace {s : State} {q : Nat × Nat} {asid a n : Nat} (h : s.Inv) :
    (s.quadReplace q asid a n).Inv :=
  .ite (.quadYield h) h

theorem Out.Inv.execQuadAtomic {op lane : Nat} {s : State} (h : s.Inv) : (execQuadAtomic op lane s).Inv := by
  unfold Machine.execQuadAtomic
  split
  · exact .next h
  · split
    · exact .next h
    · exact .next (.performLane (.quadReplace h))

theorem Out.Inv.execQuadWriteThroughArrive {n : Nat} {s : State} (h : s.Inv) :
    (execQuadWriteThroughArrive n s).Inv := by
  unfold Machine.execQuadWriteThroughArrive
  split
  · exact .next h
  · exact .ite (.next h) (.next (.ownHeld (.homeWriteDef (.upd h))))

theorem Out.Inv.execAredGatewayCombine {op1 lane1 op2 lane2 : Nat} {s : State} (h : s.Inv) :
    (execAredGatewayCombine op1 lane1 op2 lane2 s).Inv := by
  unfold Machine.execAredGatewayCombine
  split
  · split
    · exact .ite (.next h) (.next (.upd (.upd h)))
    · exact .next h
  · exact .next h

theorem Out.Inv.execGatherPacketExpand {op stack : Nat} {s : State} (h : s.Inv) :
    (execGatherPacketExpand op stack s).Inv := by
  unfold Machine.execGatherPacketExpand
  split
  · exact .next h
  · exact .next (.foldl h _ _ fun _ _ hs => .performLane hs)

theorem Out.Inv.execPeerFill {op lane : Nat} {s : State} (h : s.Inv) : (execPeerFill op lane s).Inv := by
  unfold Machine.execPeerFill
  split
  · exact .next h
  · split
    · exact .next h
    · exact .ite (.next h) (.next (.getD h (.peerFill h)))

theorem State.Inv.waitaDone {s0 : State} {o : MemOp} (h : s0.Inv) : (s0.waitaDone o).Inv := by
  refine .finishSlot (.closeOp (.acquireFor (.engLanded (.foldl (.foldl (.takeRegs (.waitaReach h)) _ _ fun _ _ hs =>
      ?_) _ _ fun _ _ hs => .ite (.countHome hs) hs))))
  split
  · exact hs
  · exact .ite (.mboxDeliver hs) (.modGroup hs ..)

theorem Out.Inv.execWaitaRetest {op : Nat} {s : State} (h : s.Inv) : (execWaitaRetest op s).Inv := by
  unfold Machine.execWaitaRetest
  split
  · exact .next h
  · split
    · exact .next h
    · exact .ite (.next (.waitaDone h)) (.next h)

theorem Out.Inv.execBindingChangePropagate {lid : Nat} {c : CoreRef} {s : State} (h : s.Inv) :
    (execBindingChangePropagate lid c s).Inv := by
  unfold Machine.execBindingChangePropagate
  split
  · exact .next h
  · split
    · exact .next h
    · exact .ite (.next (.answer (.modLaunch h ..))) (.next (.modLaunch h ..))

theorem Out.Inv.execUncorrectedTrap {g : GRef} {s : State} (h : s.Inv) : (execUncorrectedTrap g s).Inv := by
  unfold Machine.execUncorrectedTrap
  split
  · exact .next h
  · exact .ite (.next h) (.ite (.next (.modGroup h ..)) (.ite (.next h)
        (.ite (.ite (.next (.count (.modReady h) ..)) (.next (.groupTrapped h)))
        (.ite (.next (.count (.modReady h) ..)) (.next (.groupTrapped h))))))

theorem Out.Inv.execRegisterSpill {c : CoreRef} {p : Nat} {s : State} (h : s.Inv) :
    (execRegisterSpill c p s).Inv := by
  unfold Machine.execRegisterSpill
  dsimp only
  split
  · exact .next h
  · exact .ite (.next h) (.next (.count (.imgSpill h) ..))

theorem Out.Inv.execRegisterReload {g : GRef} {r : Nat} {s : State} (h : s.Inv) : (execRegisterReload g r s).Inv := by
  unfold Machine.execRegisterReload
  split
  · exact .next h
  · exact .ite (.next h) (.next (.count (.modReady (.modGroup h ..)) ..))

/-! ### Atomics (08) -/

theorem State.Inv.drawPost {c : Ctx} {s : State} (h : s.Inv) : (drawPost c s).Inv := .ite (.modSp h) h

theorem Out.Inv.execAadd {o : OpM} {s : State} (h : s.Inv) : (execAadd o s).Inv :=
  .issueAccess (fun _ _ _ hs => .noPost hs) h

theorem Out.Inv.execAfad {o : OpM} {s : State} (h : s.Inv) : (execAfad o s).Inv :=
  .issueAccess (fun _ _ _ hs => .drawPost hs) h

theorem Out.Inv.execAcad {o : OpM} {s : State} (h : s.Inv) : (execAcad o s).Inv :=
  .issueAccess (fun _ _ _ hs => .noPost hs) h

theorem Out.Inv.execAmnx {o : OpM} {s : State} (h : s.Inv) : (execAmnx o s).Inv :=
  .issueAccess (fun _ _ _ hs => .noPost hs) h

theorem Out.Inv.execAfmx {o : OpM} {s : State} (h : s.Inv) : (execAfmx o s).Inv :=
  .issueAccess (fun _ _ _ hs => .noPost hs) h

theorem Out.Inv.execAmxi {o : OpM} {s : State} (h : s.Inv) : (execAmxi o s).Inv :=
  .issueAccess (fun _ _ _ hs => .noPost hs) h

theorem Out.Inv.execAlop {o : OpM} {s : State} (h : s.Inv) : (execAlop o s).Inv :=
  .issueAccess (fun _ _ _ hs => .noPost hs) h

theorem Out.Inv.execAxch {o : OpM} {s : State} (h : s.Inv) : (execAxch o s).Inv :=
  .issueAccess (fun _ _ _ hs => .noPost hs) h

theorem Out.Inv.execAcas {o : OpM} {s : State} (h : s.Inv) : (execAcas o s).Inv :=
  .issueAccess (fun _ _ _ hs => .noPost hs) h

theorem Out.Inv.execAinc {o : OpM} {s : State} (h : s.Inv) : (execAinc o s).Inv :=
  .issueAccess (fun _ _ _ hs => .noPost hs) h

theorem Out.Inv.execAred {o : OpM} {s : State} (h : s.Inv) : (execAred o s).Inv := by
  refine .ite (.issueAccess (fun _ _ _ hs => .noPost hs) h) (.issueAccess (fun _ _ _ hs => ?_) h)
  split
  · exact .drawPost hs
  · exact .noPost hs

theorem Out.Inv.execWaita {o : OpM} {s : State} (h : s.Inv) : (execWaita o s).Inv :=
  .issueAccess (fun _ _ _ hs => .noPost hs) h

/-! ### Barriers, tickets and timelines (07) -/

theorem State.Inv.release {c : Ctx} {s : State} {obj scope : Nat} (h : s.Inv) : (c.release s obj scope).Inv :=
  .releaseAt h

theorem State.Inv.acquireObj {s : State} {g : Group} {obj scope : Nat} {engine : Bool} (h : s.Inv) :
    (s.acquireObj g obj scope engine).Inv :=
  .acquireAt h

theorem SlotRes.Inv.syncRelease {c : Ctx} {act : State → Cause × Nat ⊕ State × Option Nat ⊕ State} (hc : c.Inv)
    (hact : ∀ (s : State), s.Inv → SyncInv (act s)) : (c.syncRelease act).Inv :=
  .sync hc fun _ hs => .ite (hact _ hs) .hold

theorem Out.Inv.synSlot {s : State} {gd : Guard} {rds : List Rd} {dsts : List Nat} {body : Ctx → SlotRes} (h : s.Inv)
    (hbody : ∀ (c : Ctx), c.Inv → (body c).Inv) : (synSlot s gd rds dsts body).Inv :=
  .slot h fun _ hc => .ite .trap (hbody _ hc)

theorem State.Inv.barEnsure {s : State} {lid level inst id : Nat} (h : s.Inv) : (s.barEnsure lid level inst id).Inv :=
  .ite h (.upd h)

theorem Out.Inv.arrive {o : OpS} {kd : Option Nat} {s : State} (h : s.Inv) : (arrive o kd s).Inv := by
  refine .synSlot h fun _ hc => .ite .trap ?_
  split
  · exact .ite (.ok (.acquireObj hc.s)) (.block hc.s)
  refine .ite .trap (.syncRelease hc fun _ hs => .ite .hold (.done (.count (.upd (.fresh ?_)) ..)))
  split
  · exact .awaitK (.barEnsure (.release hs))
  · exact .barEnsure (.release hs)

theorem Out.Inv.execBar {o : OpS} {s : State} (h : s.Inv) : (execBar o s).Inv := .arrive h
theorem Out.Inv.execBara {o : OpS} {s : State} (h : s.Inv) : (execBara o s).Inv := .arrive h

theorem Out.Inv.execBarw {o : OpS} {s : State} (h : s.Inv) : (execBarw o s).Inv :=
  .synSlot h fun _ hc => .ite .trap (.ite (.ok (.acquireObj hc.s)) (.block (.modSplit hc.s)))

theorem Out.Inv.execBarrierArrival {n : Nat} {s : State} (h : s.Inv) : (execBarrierArrival n s).Inv := by
  unfold Machine.execBarrierArrival
  split
  · exact .next h
  split
  · dsimp only
    split
    · exact .ite (.next h) (.next (.completeBars (.epochArrive (.foldl (.modGroup (.upd h) ..) _ _
          fun _ _ hs => .finishSlot hs))))
    · exact .next h
  dsimp only
  split
  · exact .ite (.next h) (.next (.completeBars (.epochArrive (.foldl (.upd h) _ _ fun _ _ hs => .modSplit hs))))
  · exact .next h

theorem Out.Inv.execBarrierCompletionNotify {g : GRef} {e : Nat} {s0 : State} (h : s0.Inv) :
    (execBarrierCompletionNotify g e s0).Inv := by
  unfold Machine.execBarrierCompletionNotify
  split
  · exact .next h
  dsimp only
  split
  · exact .ite (.next (.finishSlot (.acquireObj (.completeBars h)))) (.next (.completeBars h))
  · exact .next (.completeBars h)

theorem State.Inv.phwSee {s : State} {lid blk n : Nat} {p : Bool} (h : s.Inv) : (s.phwSee lid blk n p).Inv := .upd h

theorem State.Inv.putPhase {s : State} {lid blk n : Nat} {f : PhaseBar → PhaseBar} (h : s.Inv) :
    (s.putPhase lid blk n f).Inv := by
  unfold State.putPhase
  split
  · exact h
  · exact .ite (.phwSee (.count (.modBlock h ..) ..)) (.count (.modBlock h ..) ..)

theorem State.Inv.phaseCount {s : State} {g : Group} {lid blk n k : Nat} {b : PhaseBar} (h : s.Inv) :
    (s.phaseCount g lid blk n k b).Inv := by
  refine .ite ?_ (.foldl (.putPhase h) _ _ fun _ _ hs => .finishSlot hs)
  split
  · exact .takeTrap (.count (.modGroup h ..) ..)
  · exact .modGroup h ..

theorem State.Inv.phaseTake {s : State} {lid blk n fuel : Nat} (h : s.Inv) : (s.phaseTake lid blk n fuel).Inv := by
  induction fuel generalizing s with
  | zero => exact h
  | succ fuel ih =>
    unfold State.phaseTake
    split
    · exact h
    · refine .ite h ?_
      split
      · exact ih (.phaseCount h)
      · exact h

theorem State.Inv.modPhase {s : State} {lid blk n : Nat} {f : PhaseBar → PhaseBar} (h : s.Inv) :
    (s.modPhase lid blk n f).Inv :=
  .phaseTake (.putPhase h)

theorem State.Inv.phaseChunk {s : State} {lid blk n : Nat} (h : s.Inv) : (s.phaseChunk lid blk n).Inv := by
  unfold State.phaseChunk
  split
  · exact h
  · exact .count (.modPhase h) ..

theorem SlotRes.Inv.heldForPhase {r : SlotRes} {c : Ctx} {n k : Nat} (hr : r.Inv) : (r.heldForPhase c n k).Inv := by
  unfold SlotRes.heldForPhase
  split
  · exact .stay (.modGroup (hr _ rfl) ..)
  · exact hr

theorem Out.Inv.phaseArrive {o : OpS} {ka : Ctx → Nat} {rds : List Rd} {s : State} (h : s.Inv) :
    (phaseArrive o ka rds s).Inv :=
  .synSlot h fun _ hc => .heldForPhase (.syncRelease hc fun _ hs => .ite (.done (.release hs))
      (.ite .trap (.done (.modPhase (.release hs)))))

theorem Out.Inv.execPha {o : OpS} {s : State} (h : s.Inv) : (execPha o s).Inv := .phaseArrive h
theorem Out.Inv.execPhaExpect {o : OpS} {s : State} (h : s.Inv) : (execPhaExpect o s).Inv := .phaseArrive h

theorem Out.Inv.execPhxExpect {o : OpS} {s : State} (h : s.Inv) : (execPhxExpect o s).Inv :=
  .synSlot h fun _ hc => .ite .trap (.ok (.modPhase hc.s))

theorem Out.Inv.execPhxInit {o : OpS} {s : State} (h : s.Inv) : (execPhxInit o s).Inv :=
  .synSlot h fun _ hc => .ite .trap (.ok (.modPhase hc.s))

theorem Out.Inv.execPhxRead {o : OpS} {s : State} (h : s.Inv) : (execPhxRead o s).Inv :=
  .synSlot h fun _ hc => .ok (.putK hc.s)

theorem Out.Inv.execPhw {o : OpS} {s : State} (h : s.Inv) : (execPhw o s).Inv :=
  .synSlot h fun _ hc => .ite (.ok (.acquireObj hc.s)) (.block (.modSplit hc.s))

theorem State.Inv.setTicket {s : State} {t : Ticket} (h : s.Inv) : (s.setTicket t).Inv := .ite (.upd h) (.upd h)

theorem Out.Inv.execTkg {o : OpS} {s : State} (h : s.Inv) : (execTkg o s).Inv :=
  .synSlot h fun _ hc => .ite .trap (.ok (.count (.putK (.setTicket hc.s)) ..))

theorem Out.Inv.execTkw {o : OpS} {s : State} (h : s.Inv) : (execTkw o s).Inv :=
  .synSlot h fun _ hc => .ite (.ok (.acquireObj hc.s)) (.block (.modSplit hc.s))

theorem Out.Inv.serve {o : OpS} {rds : List Rd} {f : Ctx → Word → Word} {s : State}
    (h : s.Inv) : (serve o rds f s).Inv :=
  .synSlot h fun _ hc => .syncRelease hc fun _ hs => .done (.setTicket (.release hs))

theorem Out.Inv.execTksSet {o : OpS} {s : State} (h : s.Inv) : (execTksSet o s).Inv := .serve h
theorem Out.Inv.execTksInc {o : OpS} {s : State} (h : s.Inv) : (execTksInc o s).Inv := .serve h

theorem Out.Inv.execTicketServeBroadcast {lid blk tk core : Nat} {s : State} (h : s.Inv) :
    (execTicketServeBroadcast lid blk tk core s).Inv := by
  unfold Machine.execTicketServeBroadcast
  dsimp only
  split
  · exact .next h
  · exact .next (.foldl (.setTicket h) _ _ fun _ _ hs => .finishSlot (.acquireObj hs))

theorem State.Inv.raiseNamed {s : State} {lid i : Nat} {v : DWord} (h : s.Inv) : (s.raiseNamed lid i v).Inv :=
  .modLaunch h ..

theorem State.Inv.podTimeline {s : State} {lid i : Nat} (h : s.Inv) : (s.podTimeline lid i).Inv := by
  unfold State.podTimeline
  split
  · exact .ite (.raiseNamed h) h
  · exact h

theorem State.Inv.tlAcquire {s : State} {g : Group} {imm : Nat} (h : s.Inv) : (s.tlAcquire g imm).Inv := by
  unfold State.tlAcquire
  split
  · exact .acquireObj h
  · exact .acquireObj h
  · exact .acquireObj h

theorem State.Inv.tlSync {s : State} {g : Group} {imm : Nat} (h : s.Inv) : (s.tlSync g imm).Inv :=
  .ite (.podTimeline h) h

theorem Out.Inv.execTlw {o : OpS} {s : State} (h : s.Inv) : (execTlw o s).Inv :=
  .slot h fun _ hc => .ite .trap (.ite .trap (.ite (.ok (.tlAcquire (.tlSync hc.s)))
      (.block (.modSplit (.tlSync hc.s)))))

theorem Out.Inv.execTlr {o : OpS} {s : State} (h : s.Inv) : (execTlr o s).Inv :=
  .slot h fun _ hc => .ite .trap (.ok (.putK (.tlSync hc.s)))

theorem Out.Inv.execTls {o : OpS} {s : State} (h : s.Inv) : (execTls o s).Inv :=
  .synSlot h fun _ hc => .ite .trap (.syncRelease hc fun _ hs => .ite (.done (.tlSync hs))
      (.done (.count (.raiseNamed (.release (.tlSync hs))) ..)))

theorem Out.Inv.execTimelineSignalArrival {g : GRef} {e : Nat} {s0 : State} (h : s0.Inv) :
    (execTimelineSignalArrival g e s0).Inv := by
  unfold Machine.execTimelineSignalArrival
  split
  · exact .next h
  dsimp only
  split
  · refine .ite (.next (.finishSlot (.tlAcquire ?_))) (.next ?_)
    · split
      · exact .ite (.tlSync h) h
      · exact h
    · split
      · exact .ite (.tlSync h) h
      · exact h
  refine .next ?_
  split
  · exact .ite (.tlSync h) h
  · exact h

/-! ### Cross-lane slots (06) -/

theorem State.Inv.releaseHeld {s : State} {r : GRef} {es : List Nat} (h : s.Inv) : (releaseHeld s r es).Inv :=
  .foldl h _ _ fun _ _ hs => .finishSlot hs

theorem Out.Inv.crossSlot {gd : Guard} {mem : Src} {rds : List Rd} {dsts : List Nat} {rnd : Option Nat} {engine : Nat}
    {act : Ctx → Rm → State} {tail : Ctx → Bool → State → State} {s : State}
    (hact : ∀ (c : Ctx) (rm : Rm), c.Inv → (act c rm).Inv) (htail : ∀ (c : Ctx) (x : Bool) (s : State), c.Inv → s.Inv
    → (tail c x s).Inv) (h : s.Inv) : (crossSlot gd mem rds dsts rnd engine act tail s).Inv := by
  unfold Machine.crossSlot
  split
  · exact .fault
  split
  · exact .fault
  refine .ite (.slotOn h fun _ hc => .block hc.s0) (.ite (.slotOn h fun _ hc => ?_) (.slotOn h fun _ hc => ?_))
  · split
    · exact .trap
    · exact .ok (.releaseHeld (htail _ _ _ hc (.ite (.count (.modSp (hact _ _ hc)) ..) (hact _ _ hc))))
  · split
    · exact .trap
    · exact .held (.modSplit hc.s)

theorem Out.Inv.laneCross {o : OpR} {rds : List Rd} {dsts : List Nat} {rnd : Option Nat} {act : Ctx → Rm → State}
    {s : State} (hact : ∀ (c : Ctx) (rm : Rm), c.Inv → (act c rm).Inv) (h : s.Inv) :
    (laneCross o rds dsts rnd act s).Inv :=
  .crossSlot (fun _ _ ha => hact _ _ ha) (fun _ _ _ _ hs => .laneTail hs) h

theorem Out.Inv.execXshf {o : OpR} {s : State} (h : s.Inv) : (execXshf o s).Inv :=
  .laneCross (fun _ _ hc => .ite (.putLanes2 hc) (.putLanes hc)) h

theorem Out.Inv.execXred {o : OpR} {s : State} (h : s.Inv) : (execXred o s).Inv :=
  .laneCross (fun _ _ hc => .countOuts (.putV hc.s)) h

theorem Out.Inv.execXscn {o : OpR} {s : State} (h : s.Inv) : (execXscn o s).Inv :=
  .laneCross (fun _ _ hc => .countOuts (.putV hc.s)) h

theorem Out.Inv.execMxix {o : OpR} {s : State} (h : s.Inv) : (execMxix o s).Inv :=
  .laneCross (fun _ _ hc => .putLanes2 hc) h

/-! ### Expansion instructions (09) -/

theorem State.Inv.putXs {c : Ctx} {s : State} {fmt m d : Nat} {eft : Bool} {f : Nat → XOut} (h : s.Inv) :
    (c.putXs s fmt m d eft f).Inv :=
  .ite (.count (.count (.count (.count (.foldl h _ _ fun _ _ hs => .putV hs) ..) ..) ..) ..)
      (.count (.count (.foldl h _ _ fun _ _ hs => .putV hs) ..) ..)

theorem Out.Inv.expSlot {g : Guard} {rds : List Rd} {dsts : List Nat} {act : Ctx → State} {s : State}
    (hact : ∀ (c : Ctx), c.Inv → (act c).Inv) (h : s.Inv) : (expSlot g rds dsts act s).Inv :=
  .slot h fun _ hc => .ok (.count (hact _ hc) ..)

theorem Out.Inv.eft2 {o : OpR} {g : Fmt → Nat → Nat → Nat × Nat} {ex : FV → FV → FV} {s : State}
    (h : s.Inv) : (eft2 o g ex s).Inv :=
  .expSlot (fun _ hc => .putXs hc.s) h

theorem Out.Inv.execTsum {o : OpR} {s : State} (h : s.Inv) : (execTsum o s).Inv := .eft2 h
theorem Out.Inv.execTdif {o : OpR} {s : State} (h : s.Inv) : (execTdif o s).Inv := .eft2 h
theorem Out.Inv.execTprd {o : OpR} {s : State} (h : s.Inv) : (execTprd o s).Inv := .eft2 h
theorem Out.Inv.execFtsm {o : OpR} {s : State} (h : s.Inv) : (execFtsm o s).Inv := .eft2 h

theorem Out.Inv.execTfma {o : OpR} {s : State} (h : s.Inv) : (execTfma o s).Inv :=
  .expSlot (fun _ hc => .putXs hc.s) h

theorem Out.Inv.xArith {o : OpR} {merge : Bool} {rds : List Rd} {terms : Ctx → Nat → List Nat} {s : State}
    (h : s.Inv) : (xArith o merge rds terms s).Inv :=
  .expSlot (fun _ hc => .putXs hc.s) h

theorem Out.Inv.execXadd {o : OpR} {s : State} (h : s.Inv) : (execXadd o s).Inv := .xArith h
theorem Out.Inv.execXsub {o : OpR} {s : State} (h : s.Inv) : (execXsub o s).Inv := .xArith h
theorem Out.Inv.execXmul {o : OpR} {s : State} (h : s.Inv) : (execXmul o s).Inv := .xArith h
theorem Out.Inv.execXacc {o : OpR} {s : State} (h : s.Inv) : (execXacc o s).Inv := .xArith h
theorem Out.Inv.execXrnm {o : OpR} {s : State} (h : s.Inv) : (execXrnm o s).Inv := .xArith h
theorem Out.Inv.execXcpr {o : OpR} {s : State} (h : s.Inv) : (execXcpr o s).Inv := .xArith h
theorem Out.Inv.execXcmp {o : OpR} {s : State} (h : s.Inv) : (execXcmp o s).Inv := .expSlot (fun _ hc => .putCmp hc) h

theorem Out.Inv.execXcvt {o : OpR} {s : State} (h : s.Inv) : (execXcvt o s).Inv :=
  .expSlot (fun _ hc => .ite (.ite (.putV64 hc.s) (.putV hc.s)) (.putXs hc.s)) h

theorem Out.Inv.execXspl {o : OpR} {s : State} (h : s.Inv) : (execXspl o s).Inv :=
  .expSlot (fun _ hc => .putXs hc.s) h

theorem Out.Inv.execXscl {o : OpR} {s : State} (h : s.Inv) : (execXscl o s).Inv :=
  .expSlot (fun _ hc => .putXs hc.s) h

theorem Out.Inv.execXtre {o : OpR} {s : State} (h : s.Inv) : (execXtre o s).Inv := by
  unfold Machine.execXtre
  exact .crossSlot (fun _ _ hc => .count (.putXs hc.s) ..) (fun _ _ _ _ hs => .count hs ..) h

/-! ### The copy engine (10) -/

theorem State.Inv.closeTransfer {s : State} {t : Transfer} (h : s.Inv) : (s.closeTransfer t).Inv := by
  unfold State.closeTransfer
  split
  · exact h
  · exact .modGroup h ..

theorem State.Inv.settleFill {s : State} {k : CoreRef × Nat} (h : s.Inv) : (s.settleFill k).Inv := by
  unfold State.settleFill
  dsimp only
  split
  · exact h
  · exact .ite h (.ite (.setRegion (.closeTransfer h)) (.setRegion (.closeTransfer h)))

theorem State.Inv.settleRegion {s0 : State} {k : CoreRef × Nat} (h : s0.Inv) : (s0.settleRegion k).Inv := by
  unfold State.settleRegion
  dsimp only
  split
  · exact .ite (.settleFill h) (.ite (.releaseBlocks (.upd (.closeTransfer (.settleFill h))))
        (.setRegion (.closeTransfer (.settleFill h))))
  · exact .ite (.upd (.settleFill h)) (.settleFill h)

theorem State.Inv.acquireFar {s : State} {c : CoreRef} {r : Region} (h : s.Inv) : (s.acquireFar c r).Inv := by
  unfold State.acquireFar
  split
  · exact .ite h (.acquireAt h)
  · exact h

theorem State.Inv.serveRwt {s : State} {k : CoreRef × Nat} (h : s.Inv) : (s.serveRwt k).Inv :=
  .foldl h _ _ fun _ _ hs => .ite (.finishSlot (.acquireFar hs)) (.takeTrap hs)

theorem State.Inv.served {s : State} {k : CoreRef × Nat} {which : Nat → Bool} (h : s.Inv) : (s.served k which).Inv :=
  .serveRwt (.serveTouches h)

theorem State.Inv.revoke {s : State} {k : CoreRef × Nat} {reason : Nat} (h : s.Inv) : (s.revoke k reason).Inv :=
  .ite h (.settleRegion (.served (.count (.setRegion h) ..)))

theorem State.Inv.freeContext {s : State} {k : Nat × Nat} {reason : Nat} (h : s.Inv) : (s.freeContext k reason).Inv :=
  .foldl (.upd h) _ _ fun _ _ hs => .revoke hs

theorem Out.Inv.execHnewNew {o : OpS} {s : State} (h : s.Inv) : (execHnewNew o s).Inv := by
  refine .slot h fun _ hc => ?_
  split
  · exact .ok (.putK hc.s)
  · exact .ok (.putK (.upd hc.s))

theorem Out.Inv.execHnewFree {o : OpS} {s : State} (h : s.Inv) : (execHnewFree o s).Inv := by
  refine .slot h fun _ hc => ?_
  dsimp only
  split
  · exact .trap
  · exact .ok (.freeContext hc.s)

theorem Out.Inv.execLrec {o : OpS} {s : State} (h : s.Inv) : (execLrec o s).Inv := by
  refine .slot h fun _ hc => ?_
  dsimp only
  split
  · exact .trap
  refine .ite (.ok (.putK hc.s)) (.ite .trap ?_)
  split
  · next he => exact .block (.of_some (.engineFault hc.s0) he)
  · exact .ite (.ok (.putK (.releaseAt hc.s))) (.ok (.putK (.upd (.releaseAt hc.s))))

theorem Out.Inv.execRbnd {o : OpS} {s : State} (h : s.Inv) : (execRbnd o s).Inv := by
  refine .slot h fun _ hc => ?_
  dsimp only
  split
  · exact .trap
  · exact .ite (.ok (.putK hc.s)) (.ite (.ok (.putK hc.s)) (.ite (.ok (.putK hc.s))
        (.ite .trap (.ok (.putK (.setRegion hc.s))))))

theorem State.Inv.joinCopy {s : State} {r : GRef} (h : s.Inv) : (s.joinCopy r).2.Inv := by
  unfold State.joinCopy
  split
  · exact h
  · exact .modGroup h ..

theorem State.Inv.startOut {c : Ctx} {s : State} {key : CoreRef × Nat} {r : Region} {todo : List Nat} {st : RState}
    {unbind : Bool} (h : s.Inv) : (c.startOut s key r todo st unbind).Inv :=
  .setRegion (.joinCopy h)

theorem SlotRes.InvSome.copyFull {c : Ctx} (hc : c.Inv) : SlotRes.InvSome c.copyFull :=
  .ite (.some (.block hc.s0)) .none

theorem SlotRes.InvSome.fillWaits {c : Ctx} {r : Region} (hc : c.Inv) : SlotRes.InvSome (c.fillWaits r) := by
  unfold Ctx.fillWaits
  split
  · next he => exact .some (.of_some (.copyFull hc) he)
  · exact .ite .none (.some (.block hc.s0))

theorem Out.Inv.execRunb {o : OpS} {s : State} (h : s.Inv) : (execRunb o s).Inv := by
  refine .slot h fun _ hc => ?_
  split
  · exact .trap
  split
  · exact .ok (.putK hc.s)
  · exact .ok (.putK (.settleRegion (.setRegion hc.s)))
  · exact .ok (.putK (.settleRegion (.setRegion (.served (.count (.setRegion hc.s) ..)))))
  · refine .ite (.ok (.putK hc.s)) ?_
    split
    · dsimp only
      split
      · next he => exact .of_some (.ite (.copyFull hc) .none) he
      · exact .ok (.putK (.settleRegion (.served (.count (.setRegion (.ite (.startOut hc.s) (.setRegion hc.s))) ..))))
    dsimp only
    split
    · next he => exact .of_some (.ite (.copyFull hc) .none) he
    · exact .ok (.putK (.settleRegion (.served (.count (.setRegion (.ite (.startOut hc.s) (.setRegion hc.s))) ..))))
  · refine .ite (.ok (.putK hc.s)) (.ite (.ok (.putK (.upd hc.s))) ?_)
    split
    · next he => exact .of_some (.copyFull hc) he
    · exact .ok (.putK (.startOut hc.s))
  · exact .trap

theorem Out.Inv.execRtchFill {o : OpS} {s : State} (h : s.Inv) : (execRtchFill o s).Inv := by
  refine .slot h fun _ hc => ?_
  split
  · exact .trap
  refine .ite (.ok (.putK hc.s)) (.ite (.ok (.putK hc.s)) (.ite (.ok (.putK hc.s)) (.ite .trap ?_)))
  split
  · next he => exact .of_some (.fillWaits hc) he
  refine .ok (.putK (.setRegion (.joinCopy ?_)))
  split
  · exact .releaseAt hc.s
  · exact hc.s

theorem Out.Inv.execRtchOut {o : OpS} {s : State} (h : s.Inv) : (execRtchOut o s).Inv := by
  refine .slot h fun _ hc => ?_
  split
  · exact .trap
  refine .ite (.ok (.putK hc.s)) (.ite (.ok (.putK hc.s)) (.ite (.ok (.putK hc.s)) ?_))
  split
  · next he => exact .of_some (.copyFull hc) he
  · exact .ok (.putK (.startOut hc.s))

theorem Out.Inv.execRtst {o : OpS} {s : State} (h : s.Inv) : (execRtst o s).Inv := by
  refine .slot h fun _ hc => ?_
  split
  · exact .trap
  · exact .ite (.ok (.putPred (.ite (.acquireFar hc.s) hc.s))) (.ok (.putK (.ite (.acquireFar hc.s) hc.s)))

theorem Out.Inv.execRwt {o : OpS} {s : State} (h : s.Inv) : (execRwt o s).Inv := by
  refine .slot h fun _ hc => ?_
  split
  · exact .trap
  dsimp only
  split
  · exact .trap
  · exact .ok (.acquireFar hc.s)
  · exact .block hc.s

theorem Out.Inv.execCfen {o : OpS} {s : State} (h : s.Inv) : (execCfen o s).Inv :=
  .slot h fun _ hc => .ok (.modGroup hc.s ..)

theorem Out.Inv.execCfenNum {o : OpS} {s : State} (h : s.Inv) : (execCfenNum o s).Inv :=
  .slot h fun _ hc => .ok (.putK (.modGroup hc.s ..))

theorem Out.Inv.execRstaE {o : OpS} {s : State} (h : s.Inv) : (execRstaE o s).Inv := by
  refine .slot h fun _ hc => ?_
  split
  · exact .trap
  · exact .ok (.putK hc.s)

theorem Out.Inv.execRstaH {o : OpS} {s : State} (h : s.Inv) : (execRstaH o s).Inv :=
  .slot h fun _ hc => .ok (.putK hc.s)

theorem Out.Inv.execChunkRequest {c : CoreRef} {n : Nat} {s : State} (h : s.Inv) : (execChunkRequest c n s).Inv := by
  refine .ite (.next h) ?_
  split
  · exact .next (.dlEnter (.upd (.setRegion h)))
  · exact .next (.dlEnter (.upd (.setRegion h)))
  · exact .next h

theorem State.Inv.chunkWait {s : State} {q : EngReq} {f : Nat × Nat × DWord × Nat}
    (h : s.Inv) : (s.chunkWait q f).Inv :=
  .getD h (.recordFault h)

theorem Out.Inv.execChunkLandFill {c : CoreRef} {n k : Nat} {s : State} (h : s.Inv) :
    (execChunkLandFill c n k s).Inv := by
  unfold Machine.execChunkLandFill
  extract_lets key r s1
  split
  · exact .next h
  refine .ite (.next h) ?_
  split
  · exact .next (.chunkWait h)
  · extract_lets r1 s2 s3 s4
    have h1 : s1.Inv := .ite (.ocWrite h ..) (.foldl h _ _ fun _ _ hs => .ocWrite hs ..)
    have h3 : s3.Inv := .served (.remapUse (.dlLeave (.count (.count (.count (.setRegion h1) ..) ..) ..)))
    exact .next (.settleRegion (.ite (.phaseChunk h3) h3))

theorem Out.Inv.execChunkLandWriteout {c : CoreRef} {n k : Nat} {s : State} (h : s.Inv) :
    (execChunkLandWriteout c n k s).Inv := by
  unfold Machine.execChunkLandWriteout
  dsimp only
  split
  · exact .next h
  refine .ite (.next h) ?_
  split
  · exact .next (.chunkWait h)
  refine .next (.settleRegion (.remapUse (.dlLeave ?_)))
  split
  · exact .phaseChunk (.count (.count (.count (.setRegion (.ite (.foldl h _ _ fun _ _ hs => .ocStore hs)
        (.ite (.ocWrite h ..) (.foldl h _ _ fun _ _ hs' => .homeWrite hs')))) ..) ..) ..)
  · exact .count (.count (.count (.setRegion (.ite (.foldl h _ _ fun _ _ hs => .ocStore hs)
        (.ite (.ocWrite h ..) (.foldl h _ _ fun _ _ hs' => .homeWrite hs')))) ..) ..) ..

theorem State.Inv.abortChunk {s : State} {q : EngReq} {reason : Nat} (h : s.Inv) : (s.abortChunk q reason).Inv :=
  .ite h (.ite (.settleRegion (.served (.dlLeave (.count (.setRegion h) ..))))
      (.revoke (.served (.dlLeave (.count (.setRegion h) ..)))))

theorem Out.Inv.execChunkAbort {c : CoreRef} {n k : Nat} {s : State} (h : s.Inv) : (execChunkAbort c n k s).Inv :=
  .ite (.next (.abortChunk h)) (.ite (.next (.abortChunk h)) (.next h))

/-! ### Home cores and glide (12) -/

theorem Out.Inv.execObjr {o : OpS} {s : State} (h : s.Inv) : (execObjr o s).Inv := by
  refine .slot h fun _ hc => .ite .trap ?_
  split
  · next he => exact .block (.of_some (.ite (.engineFault hc.s) .none) he)
  · exact .ok (.putK (.ite (.upd (.ite (.acquireAt hc.s) hc.s)) (.ite (.acquireAt hc.s) hc.s)))

theorem State.Inv.modObj {s : State} {home : Nat} {f : Obj → Obj} (h : s.Inv) : (s.modObj home f).Inv := .upd h

theorem State.Inv.sendReply {s : State} {q : Req} {words : List Word} {fail : Option Nat} {slen : Nat} (h : s.Inv) :
    (s.sendReply q words fail slen).Inv :=
  .upd (.fresh h)

theorem State.Inv.failReq {s : State} {h : Nat × Nat} {q : Req} {detail : Nat}
    (hs : s.Inv) : (s.failReq h q detail).Inv :=
  .count (.sendReply hs) ..

theorem State.Inv.failQueued {s : State} {ob : Obj} {detail : Nat} (h : s.Inv) : (s.failQueued ob detail).Inv :=
  .foldl (.upd h) _ _ fun _ _ hs => .failReq hs

theorem State.Inv.objFree {s : State} {ob : Obj} (h : s.Inv) : (s.objFree ob).Inv :=
  .foldl (.upd h) _ _ fun _ _ hs => .answer hs

theorem State.Inv.objDeregister {s : State} {ob : Obj} (h : s.Inv) : (s.objDeregister ob).1.Inv := by
  unfold State.objDeregister
  split
  · exact .modObj (.failQueued h)
  · exact .objFree (.failQueued h)

theorem Out.Inv.execObjcClr {o : OpS} {s : State} (h : s.Inv) : (execObjcClr o s).Inv := by
  refine .slot h fun _ hc => .ite .trap ?_
  split
  · exact .ok (.putK hc.s)
  · exact .ite (.ok (.putK hc.s)) (.ite (.ok (.putK hc.s)) (.ok (.putK (.modObj hc.s))))

theorem Out.Inv.execObjcDel {o : OpS} {s : State} (h : s.Inv) : (execObjcDel o s).Inv := by
  refine .slot h fun _ hc => .ite .trap ?_
  split
  · exact .ok (.putK hc.s)
  · exact .ite (.ok (.putK hc.s)) (.ite (.ok (.putK (.objDeregister hc.s)))
        (.block (.modObj (.awaitK (.objDeregister hc.s)))))

theorem State.Inv.markRunFn {s : State} {r : GRef} {n w : Nat} {m : Mask} {id : Nat}
    (h : s.Inv) : (s.markRun r n w m id).Inv :=
  .ite h (.foldl h _ _ fun _ _ hs => .modGroup hs ..)

theorem Out.Inv.combine {nt : Option Nat} {o : OpS} {s : State} (h : s.Inv) : (combine nt o s).Inv :=
  .slot h fun _ hc => .ite (.block hc.s0) (.ite .trap (.ite .trap
      (.ite .trap (.ite .trap (.ite (.ok hc.s) (.ite (.block hc.s0)
      (.ok (.modGroup (.upd (.markRunFn (.fresh hc.s))) ..))))))))

theorem Out.Inv.execCmb {o : OpS} {s : State} (h : s.Inv) : (execCmb o s).Inv := .combine h
theorem Out.Inv.execCmbNt {o : OpS} {s : State} (h : s.Inv) : (execCmbNt o s).Inv := .combine h

theorem State.Inv.acceptReq {s : State} {h : Nat × Nat} {q : Req} (hs : s.Inv) : (s.acceptReq h q).Inv := by
  unfold State.acceptReq
  split
  · exact .failReq hs
  · exact .ite (.failReq hs) (.ite (.failReq hs) (.ite (.failReq hs) (.upd hs)))

theorem Out.Inv.execCmbAccept {n : Nat} {s : State} (h : s.Inv) : (execCmbAccept n s).Inv := by
  unfold Machine.execCmbAccept
  split
  · exact .next h
  · exact .ite (.next h) (.ite (.next (.count (.upd h) ..)) (.next
        (.foldl (.count (.upd h) ..) _ _ fun _ _ hs => .acceptReq hs)))

theorem Out.Inv.execCmbResend {n : Nat} {s : State} (h : s.Inv) : (execCmbResend n s).Inv := .next (.upd h)

theorem State.Inv.landReply {s : State} {r : Reply} (h : s.Inv) : (s.landReply r).Inv := by
  refine .ite h ?_
  split
  · refine .modGroup (.foldl h _ _ fun _ _ hs => ?_) ..
    split
    · exact hs
    split
    · split
      · exact .ite (.modGroup (.ite (.mboxDeliver hs) hs) ..) (.modGroup (.ite (.mboxDeliver hs) hs) ..)
      · exact .ite (.ite (.mboxDeliver hs) hs) (.modGroup (.ite (.mboxDeliver hs) hs) ..)
    · split
      · exact .ite (.modGroup (.ite (.mboxDeliver hs) hs) ..) (.modGroup (.ite (.mboxDeliver hs) hs) ..)
      · exact .ite (.ite (.mboxDeliver hs) hs) (.modGroup (.ite (.mboxDeliver hs) hs) ..)
  refine .foldl h _ _ fun _ _ hs => ?_
  split
  · exact hs
  split
  · split
    · exact .ite (.modGroup (.ite (.mboxDeliver hs) hs) ..) (.modGroup (.ite (.mboxDeliver hs) hs) ..)
    · exact .ite (.ite (.mboxDeliver hs) hs) (.modGroup (.ite (.mboxDeliver hs) hs) ..)
  · split
    · exact .ite (.modGroup (.ite (.mboxDeliver hs) hs) ..) (.modGroup (.ite (.mboxDeliver hs) hs) ..)
    · exact .ite (.ite (.mboxDeliver hs) hs) (.modGroup (.ite (.mboxDeliver hs) hs) ..)

theorem Out.Inv.execReplyLand {n : Nat} {s : State} (h : s.Inv) : (execReplyLand n s).Inv := by
  unfold Machine.execReplyLand
  split
  · exact .next h
  · exact .next (.ite (.landReply (.ite (.upd h) (.acquireAt (.upd h))))
        (.modGroup (.landReply (.ite (.upd h) (.acquireAt (.upd h)))) ..))

theorem Out.Inv.execPackForm {c : CoreRef} {s : State} (h : s.Inv) : (execPackForm c s).Inv := by
  refine .ite (.next h) ?_
  split
  · exact .next (.count (.count (.count (.upd (.modObj (.fresh h))) ..) ..) ..)
  · exact .next h

theorem State.Inv.objAfter {s : State} {p : Pack} {st : OState} (h : s.Inv) : (s.objAfter p st).Inv := by
  unfold State.objAfter
  split
  · exact h
  · exact .ite (.objFree h) (.modObj h)

theorem State.Inv.modPack {s : State} {id : Nat} {f : Pack → Pack} (h : s.Inv) : (s.modPack id f).Inv := .upd h

theorem State.Inv.commitLine {s : State} {p : Pack} (h : s.Inv) : (s.commitLine p).Inv :=
  .foldl (.modPack h) _ _ fun _ _ hs => .homeWrite hs

theorem State.Inv.packReplies {s : State} {p : Pack} {word : Nat → Nat → Word}
    (h : s.Inv) : (s.packReplies p word).Inv :=
  .ite h (.objAfter (.foldl (.modPack h) _ _ fun _ _ hs => .sendReply hs))

theorem Out.Inv.execCmbr {o : OpS} {s : State} (h : s.Inv) : (execCmbr o s).Inv := by
  refine .slot h fun _ hc => ?_
  split
  · exact .sync hc fun _ _ => .trap
  · exact .ite (.sync hc fun _ _ => .trap) (.ite (.syncRelease hc fun _ hs => .done (.modPack hs))
        (.ite (.block (.commitLine hc.s0)) (.ok (.packReplies hc.s))))

theorem State.Inv.methodFault {s : State} {p : Pack} {nn : Nat} (h : s.Inv) : (s.methodFault p nn).Inv := by
  refine .count (.groupEnd (.objAfter ?_)) ..
  split
  · exact .ite (.foldl (.modPack h) _ _ fun _ _ hs => .sendReply hs)
        (.failQueued (.foldl (.modPack h) _ _ fun _ _ hs => .sendReply hs))
  · exact .foldl (.modPack h) _ _ fun _ _ hs => .sendReply hs

theorem Out.Inv.execMethodFault {g : GRef} {s : State} (h : s.Inv) : (execMethodFault g s).Inv := by
  unfold Machine.execMethodFault
  split
  · exact .next h
  split
  · exact .next h
  refine .ite (.next (.methodFault h)) ?_
  split
  · exact .ite (.next (.count (.groupEnd h) ..)) (.next (.methodFault h))
  · exact .ite (.next (.methodFault h)) (.next h)

theorem Out.Inv.execGld {o : OpM} {s : State} (h : s.Inv) : (execGld o s).Inv :=
  .issueAccess (fun _ _ _ hs => .noPost hs) h

theorem Out.Inv.execGadd {o : OpM} {s : State} (h : s.Inv) : (execGadd o s).Inv :=
  .issueAccess (fun _ _ _ hs => .noPost hs) h

theorem Out.Inv.execGmrg {o : OpM} {s : State} (h : s.Inv) : (execGmrg o s).Inv :=
  .issueAccess (fun _ _ _ hs => .noPost hs) h

theorem Out.Inv.execGset {o : OpM} {s : State} (h : s.Inv) : (execGset o s).Inv :=
  .issueAccess (fun _ _ _ hs => .noPost hs) h

theorem State.Inv.setStepReg {s : State} {x : StepReg} (h : s.Inv) : (s.setStepReg x).Inv := .ite (.upd h) (.upd h)

theorem State.Inv.sweepWord {s : State} {h : Nat × Nat} {asid a step : Nat} {ft : List Word} (hs : s.Inv) :
    (s.sweepWord h asid a step ft).Inv := by
  unfold State.sweepWord
  split
  · exact hs
  · exact .ite hs (.count (.homeWrite hs) ..)

theorem State.Inv.sweepNext {s : State} {asid : Nat} {p : Place} (h : s.Inv) : (s.sweepNext asid p).Inv := by
  unfold State.sweepNext
  dsimp only
  split
  · exact .sweepWord (.setStepReg h)
  · exact .setStepReg h

theorem State.Inv.adoptStep {s : State} {asid : Nat} {p : Place} (h : s.Inv) : (s.adoptStep asid p).Inv :=
  .ite h (.setStepReg h)

theorem State.Inv.stepDone {s : State} {asid : Nat} (h : s.Inv) : (s.stepDone asid).Inv :=
  .foldl (.setStepReg h) _ _ fun _ _ hs => .answer hs

theorem Out.Inv.execStepPropagate {asid : Nat} {p : Place} {s : State} (h : s.Inv) :
    (execStepPropagate asid p s).Inv :=
  .ite (.next h) (.ite (.next (.stepDone (.adoptStep h))) (.next (.stepDone (.sweepNext h))))

theorem Out.Inv.execGstpAdd {o : OpS} {s : State} (h : s.Inv) : (execGstpAdd o s).Inv :=
  .slot h fun _ hc => .ite .trap (.ite .trap (.ite .trap (.block (.adoptStep (.setStepReg (.awaitK hc.s))))))

theorem Out.Inv.execGstpRd {o : OpS} {s : State} (h : s.Inv) : (execGstpRd o s).Inv :=
  .slot h fun _ hc => .ite .trap (.ite .trap (.ok (.putK hc.s)))

theorem Out.Inv.execGswpAdd {o : OpS} {s : State} (h : s.Inv) : (execGswpAdd o s).Inv :=
  .slot h fun _ hc => .ite .trap (.ok (.putK (.ite (.setStepReg hc.s) hc.s)))

theorem Out.Inv.execGswpRem {o : OpS} {s : State} (h : s.Inv) : (execGswpRem o s).Inv :=
  .slot h fun _ hc => .ite .trap (.ok (.putK (.ite (.setStepReg hc.s) hc.s)))

/-! ### Pod launches and packages -/

theorem State.Inv.refSync {s : State} {issuer : Nat} {r : DWord} (h : s.Inv) : (s.refSync issuer r).Inv :=
  .ite (.podTimeline h) h

theorem State.Inv.refSignal {s : State} {die asid issuer : Nat} {r v : DWord} (h : s.Inv) :
    (s.refSignal die asid issuer r v).Inv := by
  unfold State.refSignal
  split
  · exact .ite (.engNote (.homeWrite h)) h
  · exact .raiseNamed h
  · exact h

/-! ### The launch engine (04) -/

theorem State.Inv.setDist {s : State} {pt : Nat} {d : Distributor} (h : s.Inv) : (s.setDist pt d).Inv := .upd h

theorem State.InvSome.needPages {s : State} {c : CoreRef} {asid : Nat} {rs : List (Nat × Nat)} (h : s.Inv) :
    State.InvSome (s.needPages c asid rs) :=
  .findSome? (fun _ => .ite .none (.engineFault h))

theorem State.Inv.finishLaunch {s : State} {lid : Nat} (h : s.Inv) : (s.finishLaunch lid).Inv := by
  unfold State.finishLaunch
  split
  · exact h
  · exact .count (.upd (.modLaunch (.setDist (.foldl (.foldl (.refSignal
        (.modLaunch (.foldl (.ite h (.homeWrite h)) _ _ fun _ _ hs => .l1Release hs) ..)) _ _ fun _ _ hs =>
        .objDeregister hs) _ _ fun _ _ hs => .freeContext hs)) ..)) ..

theorem State.Inv.closeLaunch {s : State} {lid : Nat} (h : s.Inv) : (s.closeLaunch lid).Inv := by
  unfold State.closeLaunch
  split
  · exact h
  split
  · next he => exact .of_some (.findSome? (fun _ => .engineFault h)) he
  · exact .ite h (.finishLaunch h)

theorem State.Inv.refuseLaunch {s : State} {lid endc : Nat} (h : s.Inv) : (s.refuseLaunch lid endc).Inv :=
  .closeLaunch (.modLaunch h ..)

theorem State.Inv.setNews {s : State} {n : PodNews} (h : s.Inv) : (s.setNews n).Inv := .upd h

theorem State.Inv.podAnswer {s : State} {r : LaunchRec} {ka : Nat} {ok : Bool} (h : s.Inv) :
    (s.podAnswer r ka ok).1.Inv := by
  unfold State.podAnswer
  dsimp only
  split
  · exact h
  · exact .setNews h

theorem State.Inv.submit {s : State} {pt die asid ka : Nat} {issuer : Option (Nat × Nat)} {page : Option Nat}
    (h : s.Inv) : (s.submit pt die asid ka issuer page).2.Inv := by
  unfold State.submit
  dsimp only
  split
  · exact .count (.podAnswer h) ..
  · exact .ite (.count (.setDist (.upd (.podAnswer h))) ..) (.refuseLaunch
        (.count (.setDist (.upd (.podAnswer h))) ..))

theorem Out.Inv.execLnch {o : OpS} {s : State} (h : s.Inv) : (execLnch o s).Inv := by
  refine .slot h fun _ hc => .ite .trap (.ite .trap (.ite .trap (.ite (.block hc.s0) ?_)))
  dsimp only
  split
  · next he => exact .block (.of_some (.needPages (.releaseAt hc.s)) he)
  · next he => exact .block (.of_some (.needPages (.releaseAt hc.s)) he)
  · exact .ok (.putK (.submit (.releaseAt hc.s)))

theorem State.Inv.modPage {s : State} {k : Nat × Nat} {f : CmdPage → CmdPage} (h : s.Inv) : (s.modPage k f).Inv :=
  .upd h

theorem State.Inv.clearPage {s : State} {k : Nat × Nat} {p : CmdPage} (h : s.Inv) : (s.clearPage k p).Inv :=
  .modPage (.ite (.homeWrite h) (.homeWrite h))

theorem Out.Inv.execStewardPoll {pt page : Nat} {s : State} (h : s.Inv) : (execStewardPoll pt page s).Inv := by
  unfold Machine.execStewardPoll
  split
  · exact .next h
  refine .ite (.next (.getD (.clearPage h) (.engineFault h))) (.ite (.next h) ?_)
  split
  · next he => exact .next (.of_some (.engineFault h) he)
  · exact .ite (.next h) (.ite (.next (.modPage (.homeWrite h))) (.next (.modPage h)))

theorem State.Inv.cmdDone {s : State} {pt page : Nat} {p : CmdPage} {n : Nat} {stat : DWord} (h : s.Inv) :
    (s.cmdDone pt page p n stat).Inv := by
  unfold State.cmdDone
  exact .modPage (.homeWrite (.homeWrite h))

theorem Out.Inv.command {pt page : Nat} {isOp : Nat → Bool} {act : State → Command → State ⊕ DWord × State}
    {s : State} (hact : ∀ (s : State) (c : Command), s.Inv → CmdInv (act s c)) (h : s.Inv) :
    (command pt page isOp act s).Inv := by
  unfold Machine.command
  split
  · exact .next h
  split
  · exact .next h
  next c hc =>
  refine .ite (.next h) ?_
  split
  · next he => exact .next (.of_some (.engineFault h) he)
  have hs := hact s c h
  split
  · next he => rw [he] at hs; exact .next hs
  · next he => rw [he] at hs; exact .next (.cmdDone hs)

theorem Out.Inv.execLaunch {pt page : Nat} {s : State} (h : s.Inv) : (execLaunch pt page s).Inv := by
  refine .command (fun _ _ hs => .ite (.done hs) ?_) h
  split
  · next he => exact .waits (.of_some (.needPages hs) he)
  · next he => exact .waits (.of_some (.needPages hs) he)
  · exact .submit hs

theorem Out.Inv.execSignal {pt page : Nat} {s : State} (h : s.Inv) : (execSignal pt page s).Inv := by
  refine .command (fun _ _ hs => ?_) h
  split
  · exact .done hs
  dsimp only
  split
  · next he => exact .waits (.of_some (.engineFault hs) he)
  · exact .ite (.waits hs) (.done (.refSignal hs))

theorem Out.Inv.execModload {pt page : Nat} {s : State} (h : s.Inv) : (execModload pt page s).Inv := by
  refine .command (fun _ _ hs => .ite (.done hs) ?_) h
  split
  · next he => exact .waits (.of_some (.needPages hs) he)
  · exact .done (.installModule hs)

theorem Out.Inv.execModunload {pt page : Nat} {s : State} (h : s.Inv) : (execModunload pt page s).Inv :=
  .command (fun _ _ hs => .ite (.done hs) (.done (.removeModule hs))) h

theorem Out.Inv.execWait {pt page : Nat} {s : State} (h : s.Inv) : (execWait pt page s).Inv := by
  refine .command (fun _ _ hs => ?_) h
  split
  · exact .done hs
  dsimp only
  split
  · next he => exact .waits (.of_some (.engineFault hs) he)
  · exact .ite (.waits hs) (.done hs)

theorem Out.Inv.execBadcmd {pt page : Nat} {s : State} (h : s.Inv) : (execBadcmd pt page s).Inv :=
  .command (fun _ _ hs => .done hs) h

theorem Out.Inv.execLaunchReady {pt q : Nat} {s0 : State} (h : s0.Inv) : (execLaunchReady pt q s0).Inv := by
  unfold Machine.execLaunchReady
  split
  · exact .next h
  refine .ite (.next (.foldl h _ _ fun _ _ hs => .refSync hs)) ?_
  dsimp only
  split
  · next he => exact .next (.of_some (.needPages (.foldl h _ _ fun _ _ hs => .refSync hs)) he)
  · exact .next (.setDist (.modLaunch (.foldl h _ _ fun _ _ hs => .refSync hs) ..))

theorem Out.Inv.podMsg {asid rec pkg : Nat} {ok : Bool} {act : Launch → State} {s : State}
    (hact : ∀ (l : Launch), (act l).Inv) (h : s.Inv) : (podMsg asid rec pkg ok act s).Inv := by
  refine .ite (.next (.setNews h)) ?_
  split
  · exact .next (hact _)
  · exact .next (.setNews h)

theorem Out.Inv.execPodPartAcceptMsg {asid rec pkg : Nat} {s : State} (h : s.Inv) :
    (execPodPartAcceptMsg asid rec pkg s).Inv :=
  .podMsg (fun _ => .modLaunch h ..) h

theorem Out.Inv.execPodPartRefusalMsg {asid rec pkg : Nat} {s : State} (h : s.Inv) :
    (execPodPartRefusalMsg asid rec pkg s).Inv :=
  .podMsg (fun _ => .refuseLaunch (.setNews h)) h

theorem State.Inv.residentBlock {s : State} {l : Launch} {p : BlockPlan} (h : s.Inv) : (s.residentBlock l p).Inv := by
  have h1 : (s.l1AcquireAll { home := false, die := p.at_ / 48, core := p.at_ % 48 }).Inv := .l1AcquireAll h
  unfold State.residentBlock
  refine .count ?_ ..
  exact ⟨h1.1, Memory.wf_memClear (Memory.wf_memClear h1.2 _ _) _ _⟩

theorem Out.Inv.execBlockPlace {pt : Nat} {s : State} (h : s.Inv) : (execBlockPlace pt s).Inv := by
  unfold Machine.execBlockPlace
  refine .ite (.next h) ?_
  extract_lets ls wait s0
  have h0 : s0.Inv := .count h ..
  clear_value s0 ls
  split
  · split
    · exact .next h
    · exact .next (.foldl h0 _ _ fun _ _ hs => .modLaunch hs ..)
  · extract_lets s1 _ s2 _ s3
    have h3 : s3.Inv := .setDist (.modLaunch (.foldl h0 _ _ fun _ _ hs => .residentBlock hs) ..)
    exact .next (.ite (.drainCheck h3) h3)

theorem State.Inv.startGroup {s : State} {r : GRef} {ks : AMap Nat KReg} (h : s.Inv) : (s.startGroup r ks).Inv :=
  .upd (.modGroup h ..)

theorem Out.Inv.execGroupStart {g : GRef} {s : State} (h : s.Inv) : (execGroupStart g s).Inv := by
  unfold Machine.execGroupStart
  split
  · exact .next h
  split
  · exact .next h
  refine .ite (.next h) ?_
  dsimp only
  split
  · next he => exact .next (.of_some (.needPages h) he)
  · exact .next (.count (.startGroup h) ..)

theorem Out.Inv.execLaunchDone {lid : Nat} {s : State} (h : s.Inv) : (execLaunchDone lid s).Inv := by
  unfold Machine.execLaunchDone
  split
  · exact .next h
  · exact .next (.ite h (.closeLaunch h))

theorem State.Inv.closeTask {s : State} {lid blk t : Nat} {d : DWord} (h : s.Inv) : (s.closeTask lid blk t d).Inv :=
  .modLaunch (.modBlock h ..) ..

theorem Out.Inv.execDgstOpen {o : OpS} {s : State} (h : s.Inv) : (execDgstOpen o s).Inv := by
  refine .slot h fun _ hc => ?_
  split
  · exact .trap
  · exact .ite .trap (.ok (.modBlock hc.s ..))

theorem Out.Inv.execDgstRead {o : OpS} {s : State} (h : s.Inv) : (execDgstRead o s).Inv := by
  refine .slot h fun _ hc => ?_
  split
  · exact .trap
  · exact .ok (.putK hc.s)

theorem Out.Inv.execDgstRecord {o : OpS} {s : State} (h : s.Inv) : (execDgstRecord o s).Inv := by
  refine .slot h fun _ hc => ?_
  split
  · exact .trap
  dsimp only
  split
  · next he => exact .block (.of_some (.engineFault hc.s) he)
  · exact .ite (.block hc.s0) (.ok (.closeTask (.homeWrite hc.s)))

theorem State.Inv.holdWaves {s : State} {lid blk : Nat} {h : Bool} (hs : s.Inv) : (s.holdWaves lid blk h).Inv := by
  unfold State.holdWaves
  split
  · exact hs
  · exact .upd hs

theorem State.Inv.digestFail {s : State} {lid : Nat} (h : s.Inv) : (s.digestFail lid).Inv :=
  .foldl (.upd (.modLaunch h ..)) _ _ fun _ _ hs => .groupEnd hs

theorem Out.Inv.execDgstCheck {o : OpS} {s : State} (h : s.Inv) : (execDgstCheck o s).Inv := by
  refine .slot h fun _ hc => ?_
  split
  · exact .trap
  split
  · dsimp only
    split
    · next he => exact .block (.of_some (.engineFault hc.s) he)
    · exact .ite (.ok (.closeTask (.holdWaves (.count hc.s ..)))) (.done (.digestFail (.count hc.s ..)))
  dsimp only
  split
  · next he => exact .block (.of_some (.engineFault hc.s) he)
  · exact .ite (.ok (.closeTask (.count hc.s ..))) (.trapAt (.count (.holdWaves (.modBlock (.count hc.s ..) ..)) ..))

/-! ### The census engine (13) -/

theorem State.Inv.modCensus {s : State} {n : Nat} {f : Census → Census} (h : s.Inv) : (s.modCensus n f).Inv := .upd h

theorem State.Inv.landCenWord {s : State} {x : Census} {i : Nat} {acc : List LanePart} {fail : Option Nat}
    (h : s.Inv) : (s.landCenWord x i acc fail).Inv := by
  unfold State.landCenWord
  split
  · exact h
  refine .ite ?_ ?_
  · split
    · split
      · exact .mboxDeliver h
      · exact .modGroup (.mboxDeliver h) ..
    · split
      · exact .mboxDeliver h
      · exact .modGroup (.mboxDeliver h) ..
  · split
    · exact .modGroup h ..
    · exact .modGroup h ..

theorem State.Inv.cenFinish {s : State} {x : Census} {timeout : Bool} (h : s.Inv) : (s.cenFinish x timeout).Inv :=
  .count (.modCensus (.modGroup (.foldl h _ _ fun _ _ hs => .landCenWord hs) ..)) ..

theorem State.Inv.cenCheck {s : State} {n : Nat} (h : s.Inv) : (s.cenCheck n).Inv := by
  unfold State.cenCheck
  split
  · exact h
  · exact .ite (.cenFinish h) h

theorem Out.Inv.execSol {o : OpS} {s : State} (h : s.Inv) : (execSol o s).Inv := by
  refine .slot h fun _ hc => ?_
  split
  · dsimp only
    split
    · exact .trap
    · exact .ite (.block hc.s0) (.block hc.s0)
  split
  · dsimp only
    split
    · exact .trap
    · exact .ite (.block hc.s0) (.block hc.s0)
  split
  · dsimp only
    split
    · exact .trap
    · exact .ite (.block hc.s0) (.ok (.count (.upd (.modGroup (.markRunFn (.fresh (.releaseAt hc.s))) ..)) ..))
  dsimp only
  split
  · exact .trap
  · exact .ite (.block hc.s0) (.ok (.count (.upd (.modGroup (.markRunFn (.fresh (.releaseAt hc.s))) ..)) ..))

theorem State.Inv.foreignCensus {s : State} {l : Launch} {c : CoreRef} (h : s.Inv) : (s.foreignCensus l c).Inv :=
  .upd (.fresh h)

theorem Out.Inv.execCensusBroadcastArrive {n : Nat} {c : CoreRef} {s : State} (h : s.Inv) :
    (execCensusBroadcastArrive n c s).Inv := by
  unfold Machine.execCensusBroadcastArrive
  split
  · split
    · dsimp only
      split
      · exact .next h
      · exact .next h
    dsimp only
    split
    · exact .next (.foreignCensus h)
    · exact .next h
  · exact .ite (.next h) (.next (.cenClose (.count (.upd (.fresh (.fresh h))) ..)))

theorem Out.Inv.execResponderSpawn {c : CoreRef} {s : State} (h : s.Inv) : (execResponderSpawn c s).Inv := by
  refine .ite (.next h) ?_
  split
  · exact .next h
  split
  · split
    · exact .next (.count h ..)
    dsimp only
    split
    · next he => exact .next (.of_some (.needPages h) he)
    · exact .next (.count (.count (.upd (.modCensus (.acquireAt h))) ..) ..)
  · exact .next h

theorem State.Inv.respond {s : State} {n : Nat} {c : CoreRef} {e : Nat} {fault : Bool} {parts : List LanePart}
    (h : s.Inv) : (s.respond n c e fault parts).Inv :=
  .modCensus (.fresh h)

theorem Out.Inv.execRsp {o : OpS} {s : State} (h : s.Inv) : (execRsp o s).Inv := by
  refine .slot h fun _ hc => ?_
  split
  · exact .syncAny hc fun _ _ => .trap
  · exact .ite (.syncAny hc fun _ _ => .trap) (.syncAny hc fun _ hs => .ite .hold
        (.done (.modGroup (.respond (.releaseAt (.modGroup hs ..))) ..)))

theorem Out.Inv.execResponderFault {g : GRef} {s : State} (h : s.Inv) : (execResponderFault g s).Inv := by
  unfold Machine.execResponderFault
  split
  · exact .next h
  · split
    · exact .ite (.ite (.next (.count (.groupEnd h) ..)) (.next (.count (.groupEnd (.respond h)) ..))) (.next h)
    · exact .next h

theorem Out.Inv.execDiePartialFold {n r : Nat} {s : State} (h : s.Inv) : (execDiePartialFold n r s).Inv := by
  unfold Machine.execDiePartialFold
  split
  · exact .next h
  · split
    · exact .next h
    · exact .ite (.next h) (.next (.modCensus (.fresh h)))

theorem State.Inv.showSlot {s : State} {n : Nat} (h : s.Inv) : (s.showSlot n).Inv := by
  unfold State.showSlot
  split
  · exact h
  · exact .ite h (.modGroup h ..)

theorem Out.Inv.execCensusResponseArrive {n r : Nat} {s : State} (h : s.Inv) :
    (execCensusResponseArrive n r s).Inv := by
  unfold Machine.execCensusResponseArrive
  split
  · exact .next h
  split
  · exact .next (.cenCheck (.showSlot (.modCensus h)))
  · exact .next (.cenCheck (.showSlot (.modCensus h)))
  · split
    · exact .ite (.next h) (.ite (.next (.cenCheck h)) (.next (.cenCheck (.showSlot (.modCensus h)))))
    · exact .next h

theorem Out.Inv.execCensusTimeout {n : Nat} {s : State} (h : s.Inv) : (execCensusTimeout n s).Inv := by
  unfold Machine.execCensusTimeout
  split
  · exact .next h
  · exact .ite (.next h) (.next (.cenFinish h))

theorem Out.Inv.execCensusCloseArrive {n : Nat} {c : CoreRef} {s : State} (h : s.Inv) :
    (execCensusCloseArrive n c s).Inv := by
  unfold Machine.execCensusCloseArrive
  split
  · exact .next h
  · exact .ite (.next h) (.next (.cenClose (.modCensus h)))

theorem Out.Inv.execSolw {o : OpS} {s : State} (h : s.Inv) : (execSolw o s).Inv :=
  .slot h fun _ hc => .ite .trap (.ite (.block hc.s) (.ite (.ok (.acquireAt hc.s)) (.ok hc.s)))

theorem Out.Inv.execSolr {o : OpS} {s : State} (h : s.Inv) : (execSolr o s).Inv :=
  .slot h fun _ hc => .ok (.putK hc.s)

theorem Out.Inv.execKins {o : OpS} {s : State} (h : s.Inv) : (execKins o s).Inv := by
  refine .slot h fun _ hc => .ite .trap (.ite (.ok (.putK hc.s)) ?_)
  split
  · exact .ok (.putK hc.s)
  · exact .ok (.putK (.upd hc.s))

theorem Out.Inv.execKdel {o : OpS} {s : State} (h : s.Inv) : (execKdel o s).Inv := by
  refine .slot h fun _ hc => .ite .trap (.ite .trap ?_)
  split
  · exact .ok (.putK hc.s)
  · exact .ite (.ok (.putK (.dirRelease (.upd hc.s)))) (.block (.upd (.awaitK hc.s)))

theorem Out.Inv.execKdelMv {o : OpS} {s : State} (h : s.Inv) : (execKdelMv o s).Inv := by
  refine .slot h fun _ hc => .ite .trap (.ite .trap (.ite (.block hc.s0) ?_))
  split
  · exact .ok (.putK hc.s)
  · split
    · exact .ok (.putK hc.s)
    · exact .ite (.ok (.putK hc.s)) (.block (.upd (.awaitK (.releaseAt hc.s))))

theorem Out.Inv.execCensusMoveAtNode {n : Nat} {passed : List Nat} {s : State} (h : s.Inv) :
    (execCensusMoveAtNode n passed s).Inv := by
  unfold Machine.execCensusMoveAtNode
  split
  · exact .next h
  refine .ite (.next h) ?_
  split
  · exact .next (.answer (.upd h))
  · exact .next (.upd h)

theorem State.Inv.moveSourceFree {s : State} {n : Nat} (h : s.Inv) : (s.moveSourceFree n).Inv := .upd h

theorem State.Inv.moveAtSource {s : State} {m : KMove} (h : s.Inv) : (s.moveAtSource m).Inv := by
  unfold State.moveAtSource
  dsimp only
  split
  · exact .ite (.dirRelease (.upd h)) (.moveDone (.moveSourceFree h))
  · exact .moveDone (.moveSourceFree h)

theorem State.Inv.moveAtDest {s : State} {m : KMove} (h : s.Inv) : (s.moveAtDest m).Inv := .moveDone (.upd h)

theorem Out.Inv.execCensusMoveAtCore {n : Nat} {dst : Bool} {s : State} (h : s.Inv) :
    (execCensusMoveAtCore n dst s).Inv := by
  unfold Machine.execCensusMoveAtCore
  split
  · exact .next h
  · exact .ite (.next h) (.next (.ite (.moveAtDest h) (.moveAtSource h)))

/-! ### The matrix engine (11) -/

theorem State.Inv.setMat {s : State} {c : CoreRef} {m : MatEng} (h : s.Inv) : (s.setMat c m).Inv := .upd h

theorem State.Inv.matTouch {s : State} {o : MatOp} (h : s.Inv) : (s.matTouch o).Inv :=
  .foldl h _ _ fun _ _ hs => .touchFill hs

theorem Out.Inv.issueMat {i : Instr} {o : OpT} {rds : List Rd} {dsts : List Nat} {pre : Ctx → Option (Cause × Nat)}
    {sample : Ctx → MatOp → MatOp} {post : Ctx → Nat → State → State} {s : State}
    (hpost : ∀ (c : Ctx) (n : Nat) (s : State), c.Inv → s.Inv → (post c n s).Inv) (h : s.Inv) :
    (issueMat i o rds dsts pre sample post s).Inv := by
  refine .slot h fun _ hc => .ite (.block hc.s0) ?_
  split
  · exact .trap
  dsimp only
  split
  · exact .trap
  · exact .ite (.block hc.s0) (.ok (hpost _ _ _ hc (.setMat (.modGroup
        (.fresh (.matTouch (.ite hc.s (.releaseAt hc.s)))) ..))))

theorem State.Inv.noMore {c : Ctx} {x : Nat} {s : State} (h : s.Inv) : (noMore c x s).Inv := h

theorem Out.Inv.execTld {o : OpT} {s : State} (h : s.Inv) : (execTld o s).Inv :=
  .issueMat (fun _ _ _ _ hs => .noMore hs) h

theorem Out.Inv.execTst {o : OpT} {s : State} (h : s.Inv) : (execTst o s).Inv :=
  .issueMat (fun _ _ _ _ hs => .noMore hs) h

theorem Out.Inv.execTzro {o : OpT} {s : State} (h : s.Inv) : (execTzro o s).Inv :=
  .issueMat (fun _ _ _ _ hs => .noMore hs) h

theorem Out.Inv.execTzroAcc {o : OpT} {s : State} (h : s.Inv) : (execTzroAcc o s).Inv :=
  .issueMat (fun _ _ _ _ hs => .noMore hs) h

theorem State.Inv.markRun {o : OpT} {c : Ctx} {id : Nat} {s : State} (h : s.Inv) : (Machine.markRun o c id s).Inv :=
  .ite h (.foldl h _ _ fun _ _ hs => .modGroup hs ..)

theorem Out.Inv.execTmvv {o : OpT} {s : State} (h : s.Inv) : (execTmvv o s).Inv :=
  .issueMat (fun _ _ _ _ hs => .markRun hs) h

theorem Out.Inv.execTmvvAcc {o : OpT} {s : State} (h : s.Inv) : (execTmvvAcc o s).Inv :=
  .issueMat (fun _ _ _ _ hs => .markRun hs) h

theorem Out.Inv.execTmvt {o : OpT} {s : State} (h : s.Inv) : (execTmvt o s).Inv :=
  .issueMat (fun _ _ _ _ hs => .noMore hs) h

theorem Out.Inv.execTmvtAcc {o : OpT} {s : State} (h : s.Inv) : (execTmvtAcc o s).Inv :=
  .issueMat (fun _ _ _ _ hs => .noMore hs) h

theorem Out.Inv.execTtrn {o : OpT} {s : State} (h : s.Inv) : (execTtrn o s).Inv :=
  .issueMat (fun _ _ _ _ hs => .noMore hs) h

theorem Out.Inv.execTscl {o : OpT} {s : State} (h : s.Inv) : (execTscl o s).Inv :=
  .issueMat (fun _ _ _ _ hs => .noMore hs) h

theorem Out.Inv.execWld {o : OpT} {s : State} (h : s.Inv) : (execWld o s).Inv :=
  .issueMat (fun _ _ _ _ hs => .noMore hs) h

theorem Out.Inv.execAld {o : OpT} {s : State} (h : s.Inv) : (execAld o s).Inv :=
  .issueMat (fun _ _ _ _ hs => .noMore hs) h

theorem Out.Inv.execAst {o : OpT} {s : State} (h : s.Inv) : (execAst o s).Inv :=
  .issueMat (fun _ _ _ _ hs => .noMore hs) h

theorem Out.Inv.execMma {o : OpT} {s : State} (h : s.Inv) : (execMma o s).Inv :=
  .issueMat (fun _ _ _ _ hs => .noMore hs) h

theorem Out.Inv.execMmag {o : OpT} {s : State} (h : s.Inv) : (execMmag o s).Inv :=
  .issueMat (fun _ _ _ _ hs => .modSp hs) h

theorem Out.Inv.execMfct {o : OpT} {s : State} (h : s.Inv) : (execMfct o s).Inv :=
  .issueMat (fun _ _ _ _ hs => .noMore hs) h

theorem Out.Inv.execMtrs {o : OpT} {s : State} (h : s.Inv) : (execMtrs o s).Inv :=
  .issueMat (fun _ _ _ _ hs => .noMore hs) h

theorem Out.Inv.execMfen {o : OpS} {s : State} (h : s.Inv) : (execMfen o s).Inv :=
  .slot h fun _ hc => .ok (.modGroup hc.s ..)

theorem Out.Inv.execMfenNum {o : OpS} {s : State} (h : s.Inv) : (execMfenNum o s).Inv :=
  .slot h fun _ hc => .ok (.putK (.modGroup hc.s ..))

theorem Out.Inv.execMestRd {o : OpS} {s : State} (h : s.Inv) : (execMestRd o s).Inv :=
  .slot h fun _ hc => .ok (.putK hc.s)

theorem Out.Inv.execMestClr {o : OpS} {s : State} (h : s.Inv) : (execMestClr o s).Inv :=
  .slot h fun _ hc => .ok (.setMat hc.s)

theorem SlotRes.Inv.gangWait {c : Ctx} {d : BitVec 9} {list : Nat} {dis : Bool} (hc : c.Inv) :
    (c.gangWait d list dis).Inv :=
  .ite (.block hc.s0) (.block (.upd (.awaitK hc.s)))

theorem Out.Inv.execGang {o : OpS} {s : State} (h : s.Inv) : (execGang o s).Inv :=
  .slot h fun _ hc => .ite (.ok (.putK hc.s)) (.ite (.ok (.putK hc.s)) (.gangWait hc))

theorem Out.Inv.execGangDis {o : OpS} {s : State} (h : s.Inv) : (execGangDis o s).Inv :=
  .slot h fun _ hc => .ite (.ok (.putK hc.s)) (.gangWait hc)

theorem State.Inv.gangFinish {s : State} {w : GangWait} {status : Nat} {f : DWord → DWord} (h : s.Inv) :
    (s.gangFinish w status f).Inv :=
  .answer (.upd (.modGroup h ..))

theorem Out.Inv.execGangRendezvous {c : CoreRef} {s : State} (h : s.Inv) : (execGangRendezvous c s).Inv := by
  unfold Machine.execGangRendezvous
  split
  · exact .next h
  · split
    · exact .next h
    · exact .ite (.ite (.next (.gangFinish h)) (.ite (.next (.upd (.foldl h _ _ fun _ _ hs => .gangFinish hs)))
          (.next h))) (.ite (.next (.foldl h _ _ fun _ _ hs => .upd (.gangFinish hs))) (.next h))

theorem Out.Inv.execMatOpAccept {c : CoreRef} {s : State} (h : s.Inv) : (execMatOpAccept c s).Inv := by
  unfold Machine.execMatOpAccept
  dsimp only
  split
  · exact .next h
  · exact .next (.dlEnter (.count (.matTouch (.setMat h)) ..))

theorem State.Inv.streamRows {s : State} {c : CoreRef} {budget : Nat} {rows : List Nat} (h : s.Inv) :
    (s.streamRows c budget rows).Inv :=
  .ite (.setMat h) (.count (.setMat h) ..)

theorem Out.Inv.execThrottleWindow {c : CoreRef} {s : State} (h : s.Inv) : (execThrottleWindow c s).Inv :=
  .next (.ite h (.setMat h))

theorem State.Inv.putChip {s : State} {o : MatOp} {m : Memory} (h : s.Inv) (hm : m.wf = true) : (s.putChip o m).Inv :=
  .ite ⟨h.1, hm⟩ h

theorem State.Inv.putMatRow {s : State} {o : MatOp} {sp : Bool} {i : Nat} {bs : List Byte} (h : s.Inv) :
    (s.putMatRow o sp i bs).Inv :=
  .ite (.putChip h (Memory.wf_memWrite h.2 _ _)) h

theorem State.Inv.product {s : State} {o : MatOp} {q : OpT} {a : Activation} (h : s.Inv) : (s.product o q a).Inv := by
  unfold State.product
  split
  · exact h
  · exact .count (.count (.setMat (.count (.streamRows (.putChip h (Memory.wf_mmaRegion h.2 ..))) ..)) ..) ..

theorem State.Inv.landRun {s : State} {o : MatOp} {q : OpT} {base : Nat} (h : s.Inv) : (s.landRun o q base).Inv := by
  refine .foldl h _ _ fun _ _ hs => ?_
  split
  · exact hs
  · exact .ite (.mboxDeliver hs) (.modGroup hs ..)

theorem State.Inv.ald {s : State} {o : MatOp} {q : OpT} (h : s.Inv) : (s.ald o q).Inv :=
  .foldl h _ _ fun _ _ hs => .putChip hs (Memory.wf_foldl hs.2 _ _ fun _ _ hm => Memory.wf_putF32 hm _ _)

theorem State.Inv.perform {s : State} {o : MatOp} (h : s.Inv) : (s.perform o).Inv := by
  have hput : ∀ {m : Memory}, m.wf = true → (s.putChip o m).Inv := fun hm => .putChip h hm
  unfold State.perform
  dsimp only
  split
  case h_1 => exact .foldl h _ _ fun _ _ hs => .putChip hs (Memory.wf_memWrite hs.2 _ _)
  case h_2 => exact .foldl h _ _ fun _ _ hs => .putMatRow hs
  case h_3 => exact .foldl h _ _ fun _ _ hs => .putMatRow hs
  case h_4 => exact hput (Memory.wf_memWrite h.2 _ _)
  case h_5 => exact hput (Memory.wf_memWrite h.2 _ _)
  case h_6 => exact .landRun h
  case h_7 => exact .landRun h
  case h_8 => exact hput (Memory.wf_storeRun h.2 ..)
  case h_9 => exact hput (Memory.wf_storeRun h.2 ..)
  case h_10 => exact hput (Memory.wf_foldl h.2 _ _ fun _ _ hm => TView.wf_put _ hm ..)
  case h_11 => exact hput (State.wf_tscl h.2 ..)
  case h_12 => exact .setMat (.streamRows (.modBlock h ..))
  case h_13 => exact .ald h
  case h_14 => exact .product h
  case h_15 => exact .count (hput (Memory.wf_memWrite (wf_factor h.2 ..) _ _)) ..
  case h_16 => exact .count (hput (Memory.wf_memWrite (wf_solve h.2 ..) _ _)) ..
  case h_17 => exact h

theorem State.Inv.startMat {s : State} {o : MatOp} {act : State → State} (h : s.Inv)
    (hact : ∀ s, s.Inv → (act s).Inv) : (s.startMat o act).1.Inv := by
  have h1 : ((act s).remapUse o.g.die o.asid o.farAddrs).Inv := .remapUse (hact s h)
  unfold State.startMat
  exact .iteFst h1 ⟨h1.1, h.2⟩

theorem State.Inv.putSector {s : State} {o : MatOp} {w : SecWrite} (h : s.Inv) : (s.putSector o w).Inv := by
  refine .ite (.watch (.putChip h (Memory.wf_foldl h.2 _ _ fun _ _ hm => Memory.wf_memPut hm _ _))) ?_
  split
  · exact h
  · exact .homeWrite h

theorem State.Inv.putSome {s : State} {o : MatOp} {ws : List SecWrite} (h : s.Inv) : (s.putSome o ws).1.Inv := by
  refine .foldlFst h _ _ fun _ _ ha => ?_
  split
  · exact .putSector ha
  · exact ha

theorem State.Inv.closeMat {s : State} {o : MatOp} (h : s.Inv) : (s.closeMat o).Inv :=
  .dlLeave (.modGroup (.setMat h) ..)

theorem State.Inv.modMatOp {s : State} {c : CoreRef} {id : Nat} {f : MatOp → MatOp}
    (h : s.Inv) : (s.modMatOp c id f).Inv :=
  .setMat h

theorem State.Inv.advanceMat {s : State} {o : MatOp} {ws : List SecWrite} (h : s.Inv) : (s.advanceMat o ws).Inv :=
  .ite (.closeMat (.putSome h)) (.modMatOp (.putSome h))

theorem Out.Inv.execMatOpComplete {c : CoreRef} {s : State} (h : s.Inv) : (execMatOpComplete c s).Inv := by
  unfold Machine.execMatOpComplete
  split
  · exact .next h
  refine .ite (.next (.closeMat h)) (.ite (.next h) (.ite (.next h) ?_))
  split
  · exact .next (.getD h (.recordFault h))
  · split
    · exact .next (.advanceMat h)
    · exact .ite (.next h) (.next (.advanceMat (.startMat h fun _ hs => .perform hs)))

theorem State.Inv.abandonMat {s : State} {o : MatOp} (h : s.Inv) : (s.abandonMat o).Inv :=
  .count (.closeMat (.modGroup (.putSome h) ..)) ..

theorem Out.Inv.execMatOpAbandon {c : CoreRef} {s : State} (h : s.Inv) : (execMatOpAbandon c s).Inv := by
  unfold Machine.execMatOpAbandon
  split
  · exact .next h
  · exact .ite (.next (.abandonMat h)) (.next h)

theorem Out.Inv.execLiftLineMatch {c : CoreRef} {s : State} (h : s.Inv) : (execLiftLineMatch c s).Inv := by
  unfold Machine.execLiftLineMatch
  split
  · exact .next h
  split
  · exact .next h
  refine .ite (.next h) (.ite ?_ (.next (.foldl h _ _ fun _ _ hs => .count (.modGroup (.modMatOp hs) ..) ..)))
  split
  · exact .next h
  · exact .ite (.next h) (.next (.foldl h _ _ fun _ _ hs => .modMatOp (.startMat hs fun _ hs1 => .product hs1)))

/-! ### Scheduling and fetch (04, 05) -/

theorem State.Inv.requestLines {s : State} {c : CoreRef} {p asid va : Nat} (h : s.Inv) :
    (s.requestLines c p asid va).Inv :=
  .foldl h _ _ fun _ _ hs => .requestLine hs

theorem State.Inv.wakeGroup {s : State} {r : GRef} (h : s.Inv) : (s.wakeGroup r).Inv := by
  unfold State.wakeGroup
  split
  · exact h
  · exact .ite (.putGroup h) (.modReady h)

theorem Out.Inv.execClauseSchedule {c : CoreRef} {p : Nat} {s : State} (h : s.Inv) :
    (execClauseSchedule c p s).Inv := by
  refine .ite (.next h) (.ite (.next (.foldl h _ _ fun _ _ hs => .wakeGroup hs)) ?_)
  split
  · exact .next (.count (.upd (.foldl h _ _ fun _ _ hs => .wakeGroup hs)) ..)
  · exact .next (.upd (.foldl h _ _ fun _ _ hs => .wakeGroup hs))

theorem Out.Inv.execAgePromote {g : GRef} {s : State} (h : s.Inv) : (execAgePromote g s).Inv := by
  unfold Machine.execAgePromote
  split
  · exact .next h
  · exact .ite (.next (.count (.modGroup h ..) ..)) (.next h)

theorem State.Inv.startClause {s : State} {r : GRef} {e : Nat} {c : Clause} (h : s.Inv) :
    (s.startClause r e c).Inv := by
  unfold State.startClause
  split
  · exact h
  · exact .ite (.modSplit h) (.ite (.modGroup h ..) (.count (.count (.upd (.modGroup h ..)) ..) ..))

theorem State.Inv.deselect {s : State} {r : GRef} (h : s.Inv) : (s.deselect r).Inv := .upd h

theorem Out.Inv.execClauseStart {g : GRef} {e : Nat} {s : State} (h : s.Inv) : (execClauseStart g e s).Inv := by
  unfold Machine.execClauseStart
  split
  · exact .next h
  refine .ite (.next h) ?_
  split
  · exact .next (.startClause h)
  refine .ite (.next (.takeTrap (.deselect h))) (.ite (.next (.takeTrap (.deselect h))) ?_)
  split
  · exact .ite (.next (.takeTrap (.deselect h))) (.next (.modSplit (.deselect (.requestLines h))))
  split
  · exact .next (.takeTrap (.deselect (.requestLines h)))
  refine .ite (.next (.modReady (.deselect (.requestLines h)))) (.ite ?_ (.next (.startClause (.requestLines h))))
  split
  · exact .next (.count (.deselect (.modGroup (.requestLines h) ..)) ..)
  · exact .next (.count (.startClause (.modGroup (.requestLines h) ..)) ..)

theorem Out.Inv.execIfetchLineArrival {n : Nat} {s : State} (h : s.Inv) : (execIfetchLineArrival n s).Inv := by
  unfold Machine.execIfetchLineArrival
  split
  · exact .next h
  dsimp only
  split
  · exact .next (.getD h (.foldl (.some (.upd h)) _ _ fun _ _ ho => .bind ho fun _ hs => .recordFault hs))
  · exact .ite (.next h) (.next (.foldl (.icFill (.upd h)) _ _ fun _ _ hs => .modReady hs))

/-! ### Ports, migration and errors (14) -/

theorem State.Inv.markUncorr {s : State} {p : Group → Bool} (h : s.Inv) : (s.markUncorr p).Inv := .upd h

theorem State.Inv.containLaunch {s : State} {lid : Nat} (h : s.Inv) : (s.containLaunch lid).Inv := by
  unfold State.containLaunch
  split
  · exact h
  split
  · exact h
  · exact .refuseLaunch h
  · exact .refuseLaunch h
  · exact .drainCheck (.modLaunch h ..)

theorem State.Inv.containLaunches {s : State} {p : Launch → Bool} (h : s.Inv) : (s.containLaunches p).Inv :=
  .foldl (.markUncorr h) _ _ fun _ _ hs => .containLaunch hs

theorem State.Inv.stopPart {s : State} {pt : Nat} (h : s.Inv) : (s.stopPart pt).Inv := .upd (.containLaunches h)

theorem State.InvSome.escalate {s : State} {level die asid pa sclass src : Nat} {g : Option GRef} (h : s.Inv) :
    State.InvSome (s.escalate level die asid pa sclass src g) := by
  refine .ite .none ?_
  split
  · split
    · exact .some (.countPort (.countPort (.fqPut h)))
    · exact .some (.ite (.markUncorr (.countPort (.countPort (.fqPut h))))
          (.modLaunch (.markUncorr (.countPort (.countPort (.fqPut h)))) ..))
  · exact .some (.containLaunches (.countPort (.countPort (.fqPut h))))
  · exact .some (.stopPart (.countPort (.countPort (.fqPut h))))
  · exact .some (.upd (.foldl (.countPort (.countPort (.fqPut h))) _ _ fun _ _ hs => .stopPart hs))

theorem Out.Inv.execPoisonConsume {n : Nat} {s : State} (h : s.Inv) : (execPoisonConsume n s).Inv := by
  unfold Machine.execPoisonConsume
  split
  · split
    · exact .next h
    split
    · exact .next h
    · next he => exact .next (.ite (.finishSlot (.closeOp (.of_some (.escalate h) he)))
          (.closeOp (.of_some (.escalate h) he)))
  · split
    · exact .next h
    dsimp only
    split
    · exact .next h
    · next he => exact .next (.upd (.of_some (.escalate h) he))
  · exact .next h

theorem State.Inv.remapEnter {s : State} {die asid va : Nat} {l : DWord} (h : s.Inv) :
    (s.remapEnter die asid va l).Inv := by
  refine .ite h (.ite (.remapUse h) ?_)
  dsimp only
  split
  · exact .ite h (.upd h)
  · exact h

theorem Out.Inv.execPageWalk {ctl asid va : Nat} {s : State} (h : s.Inv) : (execPageWalk ctl asid va s).Inv := by
  refine .ite (.next h) ?_
  split
  · exact .next (.remapEnter h)
  dsimp only
  split
  · split
    · exact .next h
    · next he => exact .next (.of_some (.escalate h) he)
  · split
    · exact .next h
    · exact .next (.remapEnter (.upd h))

theorem State.Inv.dropTranslations {s : State} {pt asid va len : Nat} (h : s.Inv) :
    (s.dropTranslations pt asid va len).Inv :=
  .upd h

theorem State.Inv.colFinish {s : State} {c : Collective} {status : Nat} (h : s.Inv) : (s.colFinish c status).Inv :=
  .ite (.upd h) (.countPort (.upd (.dlLeave (.ite (.refSignal (.ite (.homeWrite h) h)) (.ite (.homeWrite h) h)))))

theorem State.Inv.answerOne {s : State} {refuse : Bool} {w : Requester} (h : s.Inv) : (s.answerOne refuse w).Inv := by
  unfold State.answerOne
  split
  · exact .modGroup h ..
  · split
    · exact h
    · exact .ite (.ite (.takeTrap (.modSplit h)) (.modReady h)) h
  · exact .ite (.abortChunk h) h
  · split
    · exact .ite (.abandonMat h) h
    · exact h
  · split
    · exact .ite (.colFinish h) h
    · exact h
  · exact h

theorem State.Inv.answerFault {s : State} {fid : Nat} {refuse : Bool} (h : s.Inv) :
    (s.answerFault fid refuse).Inv := by
  unfold State.answerFault
  split
  · exact h
  · exact .foldl (.upd h) _ _ fun _ _ hs => .answerOne hs

theorem Out.Inv.execMigr {o : OpS} {s : State} (h : s.Inv) : (execMigr o s).Inv := by
  refine .slot h fun _ hc => .ite .trap (.ite (.block hc.s) (.ite (.ok (.putK hc.s)) ?_))
  split
  · exact .ok (.putK hc.s)
  · exact .ite (.ok (.putK hc.s)) (.ite (.ok (.putK hc.s)) (.block (.upd (.awaitK hc.s))))

theorem Out.Inv.execMigrSwitch {n : Nat} {s : State} (h : s.Inv) : (execMigrSwitch n s).Inv := by
  unfold Machine.execMigrSwitch
  split
  · exact .next h
  next m _ =>
  have hmove := Memory.wf_foldl_move (Memory.wf_memClear h.1 m.new m.size) (fun a => a - m.old + m.new)
  refine .next (.answer (.watch (.countPort (.foldl (.dropTranslations (.hbmWrite ?_ ..)) _ _
      fun _ _ hs => .hbmWrite hs ..))))
  exact ⟨hmove _, h.2⟩

theorem Out.Inv.execDeadlineExpiry {n : Nat} {s : State} (h : s.Inv) : (execDeadlineExpiry n s).Inv := by
  unfold Machine.execDeadlineExpiry
  split
  · exact .next h
  · exact .ite (.next h) (.next (.countPort (.upd h)))

theorem Out.Inv.execCorrectedError {ctl region : Nat} {s : State} (h : s.Inv) :
    (execCorrectedError ctl region s).Inv :=
  .ite (.next (.countPort (.upd h))) (.ite (.next h) (.next (.countPort
      (.fqPut (.countPort (.countPort (.upd (.upd h))))))))

theorem Out.Inv.execRefreshInterval {ctl : Nat} {s : State} (h : s.Inv) : (execRefreshInterval ctl s).Inv :=
  .next (.upd h)

theorem State.Inv.poisonSector {s : State} {p : Nat} (h : s.Inv) : (s.poisonSector p).Inv := .ite h (.upd h)

theorem Out.Inv.execUncorrectableError {site : ErrorSite} {s : State} (h : s.Inv) :
    (execUncorrectableError site s).Inv := by
  unfold Machine.execUncorrectableError
  split
  · exact .next (.poisonSector (.poisonSector h))
  · dsimp only
    split
    · exact .next h
    · exact .ite (.next (.countPort (.foldl (.setSlice h) _ _ fun _ _ hs => .sliceFill hs))) (.next (.setSlice h))
  dsimp only
  split
  · exact .next h
  · exact .ite (.next (.countPort (.foldl (.setL1 h) _ _ fun _ _ hs => .l1Fill hs))) (.next (.setL1 h))

theorem Out.Inv.execKorilinkCrcResend {port : Nat} {s : State} (h : s.Inv) : (execKorilinkCrcResend port s).Inv :=
  .ite (.next h) (.next (.countPort (.upd h)))

/-! ### Pod collectives (14) -/

theorem Out.Inv.collective {nowait : Bool} {o : OpS} {s : State} (h : s.Inv) : (collective nowait o s).Inv := by
  refine .slot h fun _ hc => .ite .trap (.ite .trap (.ite .trap (.ite
      (.sync hc fun _ hs => .ite (.done (.putK hs)) .hold) ?_)))
  split
  · next he => exact .held (.ite (.of_some (.needPages hc.s) he) hc.s0)
  refine .ite .trap ?_
  split
  · next he => exact .held (.ite (.of_some (.needPages hc.s) he) hc.s0)
  · exact .sync hc fun _ hs => .ite .hold (.ite (.done (.putK (.releaseAt hs)))
        (.ite (.done (.putK (.releaseAt hs))) (.done (.putK (.upd (.fresh (.releaseAt hs)))))))

theorem Out.Inv.execPcol {o : OpS} {s : State} (h : s.Inv) : (execPcol o s).Inv := .collective h
theorem Out.Inv.execPcolNowait {o : OpS} {s : State} (h : s.Inv) : (execPcolNowait o s).Inv := .collective h
theorem State.Inv.setCol {s : State} {c : Collective} (h : s.Inv) : (s.setCol c).Inv := .upd h

theorem State.InvSome.colFault {s : State} {c : Collective} {rs : List (Nat × Nat)} {store : Bool} (h : s.Inv) :
    State.InvSome (s.colFault c rs store) := by
  unfold State.colFault
  split
  · exact .none
  · exact .some (.getD h (.recordFault h))

theorem State.Inv.colArrive {s : State} {c : Collective} {as : List Nat} (h : s.Inv) : (s.colArrive c as).Inv :=
  .dlEnter h

theorem Out.Inv.execPcolMemberExchange {n : Nat} {same : Bool} {s0 : State} (h : s0.Inv) :
    (execPcolMemberExchange n same s0).Inv := by
  unfold Machine.execPcolMemberExchange
  split
  · exact .next h
  refine .ite (.next (.refSync h)) (.ite (.next (.colFinish (.refSync h))) (.ite (.next (.refSync h)) ?_))
  split
  · next he => exact .next (.of_some (.colFault (.refSync h)) he)
  split
  · split
    · dsimp only
      split
      · split
        · exact .next (.refSync h)
        · next he => exact .next (.colFinish (.ite (.modLaunch (.of_some (.escalate (.refSync h)) he) ..)
              (.of_some (.escalate (.refSync h)) he)))
      · exact .next (.ite (.colArrive (.dlLeave (.remapUse (.setCol (.colArrive (.refSync h))))))
            (.remapUse (.setCol (.colArrive (.refSync h)))))
    dsimp only
    split
    · split
      · exact .next (.refSync h)
      · next he => exact .next (.colFinish (.ite (.modLaunch (.of_some (.escalate (.refSync h)) he) ..)
            (.of_some (.escalate (.refSync h)) he)))
    · exact .next (.ite (.colArrive (.dlLeave (.remapUse (.setCol (.colArrive (.refSync h))))))
          (.remapUse (.setCol (.colArrive (.refSync h)))))
  dsimp only
  split
  · split
    · exact .next (.refSync h)
    · next he => exact .next (.colFinish (.ite (.modLaunch (.of_some (.escalate (.refSync h)) he) ..)
          (.of_some (.escalate (.refSync h)) he)))
  · exact .next (.ite (.colArrive (.dlLeave (.remapUse (.setCol (.refSync h))))) (.remapUse (.setCol (.refSync h))))

theorem Out.Inv.execPcolRingStep {n j i : Nat} {data : List Word} {s : State} (h : s.Inv) :
    (execPcolRingStep n j i data s).Inv := by
  unfold Machine.execPcolRingStep
  split
  · exact .next h
  · exact .ite (.next h) (.ite (.next (.ite (.colArrive (.setCol h)) h))
        (.ite (.next h) (.next (.colArrive (.setCol h)))))

theorem State.Inv.putPieces {s : State} {c : Collective} {ps : List (Nat × List Byte)}
    (h : s.Inv) : (s.putPieces c ps).Inv :=
  .foldl h _ _ fun _ _ hs => .homeWrite hs

theorem Out.Inv.execPcolComplete {n : Nat} {s : State} (h : s.Inv) : (execPcolComplete n s).Inv := by
  unfold Machine.execPcolComplete
  split
  · exact .next h
  refine .ite (.next (.colFinish h)) (.ite (.next h) ?_)
  split
  · next he => exact .next (.of_some (.colFault h) he)
  · exact .next (.ite (.colFinish (.ite (.dlLeave (.remapUse (.putPieces h))) (.remapUse (.putPieces h))))
        (.setCol (.ite (.dlLeave (.remapUse (.putPieces h))) (.remapUse (.putPieces h)))))

theorem Out.Inv.execPcolBudgetExpiry {n : Nat} {s : State} (h : s.Inv) : (execPcolBudgetExpiry n s).Inv := by
  unfold Machine.execPcolBudgetExpiry
  split
  · exact .next h
  · exact .next (.ite h (.colFinish h))

/-! ### The host attachment (14) -/

theorem Out.Inv.portWrite {master off : Nat} {isIt : DWord → Bool} {owner : Bool} {act : State → State} {s : State}
    (hact : ∀ (s : State), s.Inv → (act s).Inv) (h : s.Inv) : (portWrite master off isIt owner act s).Inv := by
  refine .ite ?_ (.ite (.next h) (.ite (.next (.foldl (.upd h) _ _ fun _ _ hs => .countPort hs)) (.next (hact _ h))))
  split
  · exact .next (.ite (hact _ (.upd h)) h)
  · exact .next h

theorem Out.Inv.execClaim {master : Nat} {v : DWord} {s : State} (h : s.Inv) : (execClaim master v s).Inv :=
  .portWrite (fun _ hs => .ite (.upd hs) hs) h

theorem Out.Inv.execLinkDownOwnerClear {master : Nat} {s : State} (h : s.Inv) :
    (execLinkDownOwnerClear master s).Inv :=
  .next (.ite (.upd h) h)

theorem Out.Inv.execFqackRetry {master fid : Nat} {s : State} (h : s.Inv) : (execFqackRetry master fid s).Inv :=
  .portWrite (fun _ hs => .answerFault hs) h

theorem Out.Inv.execFqackRefuse {master fid : Nat} {s : State} (h : s.Inv) : (execFqackRefuse master fid s).Inv :=
  .portWrite (fun _ hs => .answerFault hs) h

theorem Out.Inv.execFqheadWrite {master : Nat} {v : DWord} {s : State} (h : s.Inv) :
    (execFqheadWrite master v s).Inv :=
  .portWrite (fun _ hs => .upd hs) h

theorem Out.Inv.execPortRegWrite {master off : Nat} {v : DWord} {s : State} (h : s.Inv) :
    (execPortRegWrite master off v s).Inv := by
  refine .ite (.next h) ?_
  split
  · exact .portWrite (fun _ hs => hs) h
  · exact .portWrite (fun _ hs => .upd hs) h

theorem State.Inv.dropData {s : State} {pt asid va len : Nat} (h : s.Inv) : (s.dropData pt asid va len).Inv :=
  .foldl (.foldl h _ _ fun _ _ hs => .foldl hs _ _ fun _ _ hs1 => .l1Invalidate hs1) _ _ fun _ _ hs => .foldl hs _ _
      fun _ _ hs1 => .setSlice (.sliceFlush hs1)

theorem State.Inv.shootPart {s : State} {tr : Bool} {asid va len : Nat} (h : s.Inv) :
    (s.shootPart tr asid va len).Inv :=
  .foldl h _ _ fun _ _ hs => .ite (.dropTranslations hs) (.dropData hs)

theorem Out.Inv.shoot {tr : Bool} {master : Nat} {v : DWord} {s : State} (h : s.Inv) : (shoot tr master v s).Inv := by
  unfold Machine.shoot
  split
  · dsimp only
    split
    · exact .next (.upd (.shootPart h))
    · exact .ite (.next h) (.portWrite (fun _ hs => .upd (.ite (.fresh hs) (.shootPart (.fresh hs)))) h)
  dsimp only
  split
  · exact .next (.upd (.shootPart h))
  · exact .ite (.next h) (.portWrite (fun _ hs => .upd (.ite (.fresh hs) (.shootPart (.fresh hs)))) h)

theorem Out.Inv.execShootTr {master : Nat} {v : DWord} {s : State} (h : s.Inv) : (execShootTr master v s).Inv :=
  .shoot h

theorem Out.Inv.execShootData {master : Nat} {v : DWord} {s : State} (h : s.Inv) : (execShootData master v s).Inv :=
  .shoot h

theorem Out.Inv.execShootComplete {n : Nat} {s : State} (h : s.Inv) : (execShootComplete n s).Inv := by
  unfold Machine.execShootComplete
  split
  · exact .next h
  · exact .ite (.next h) (.next (.upd h))

theorem Out.Inv.execCmdpg {master : Nat} {v : DWord} {s : State} (h : s.Inv) : (execCmdpg master v s).Inv := by
  refine .portWrite (fun _ hs => .ite hs (.ite (.getD (.clearPage (.upd hs)) (.engineFault (.upd hs))) ?_)) h
  split
  · exact hs
  · exact .getD (.clearPage (.upd hs)) (.engineFault (.upd hs))

theorem Out.Inv.execHostBar2Write {va : Nat} {bytes : List Byte} {s : State} (h : s.Inv) :
    (execHostBar2Write va bytes s).Inv := by
  refine .ite (.next h) ?_
  split
  · exact .next (.getD h (.recordFault h))
  · exact .next (.homeWrite h)

theorem Out.Inv.execAttest {master : Nat} {v : DWord} {report : AttestReport} {s : State} (h : s.Inv) :
    (execAttest master v report s).Inv := by
  refine .portWrite (fun _ hs => ?_) h
  dsimp only
  split
  · next he => exact .of_some (.engineFault hs) he
  · exact .ite (.homeWrite (.homeWrite (.upd hs))) (.homeWrite hs)

theorem State.Inv.afterReset {s : State} {cfg : BitVec 2} (h : s.Inv) : (s.afterReset cfg).Inv := ⟨h.1, rfl⟩

theorem Out.Inv.execPresetPackage {master : Nat} {s : State} (h : s.Inv) : (execPresetPackage master s).Inv :=
  .portWrite (fun _ hs => .afterReset hs) h

theorem Out.Inv.execPowerOnReset {s : State} (h : s.Inv) : (execPowerOnReset s).Inv := .next (.afterReset h)
theorem Out.Inv.execPowerLoss {s : State} (h : s.Inv) : (execPowerLoss s).Inv := .next ⟨Memory.wf_filter h.1 _, rfl⟩
theorem State.Inv.resetPart {s : State} {pt : Nat} (h : s.Inv) : (s.resetPart pt).Inv := ⟨h.1, Memory.wf_filter h.2 _⟩

theorem Out.Inv.execPresetPartitions {master : Nat} {s : State} (h : s.Inv) : (execPresetPartitions master s).Inv :=
  .portWrite (fun _ hs => .upd (.foldl hs _ _ fun _ _ hs1 => .resetPart hs1)) h

theorem State.Inv.bootFails {s : State} {stage : Nat} {image : Bool} (h : s.Inv) : (s.bootFails stage image).Inv :=
  .upd h

theorem Out.Inv.execBootRomFwVerify {fw : BootImage} {signature : List Byte} {s : State} (h : s.Inv) :
    (execBootRomFwVerify fw signature s).Inv :=
  .ite (.next h) (.ite (.next (.upd h)) (.next (.bootFails h)))

theorem Out.Inv.execFwBringup {ok : Bool} {img : FwSetup} {s : State} (h : s.Inv) : (execFwBringup ok img s).Inv :=
  .ite (.next h) (.ite (.next (.bootFails h)) (.next
    ⟨Memory.wf_foldl_memPut (Memory.wf_filter h.1 _) (fun x => ownMemory s.pkg x.1) _, h.2⟩))

theorem Out.Inv.execStewardInstall {steward ident : BootImage} {signatures : List Byte × List Byte}
    {cells : List Host.Cell} {s : State} (h : s.Inv) : (execStewardInstall steward ident signatures cells s).Inv := by
  have hcells := Memory.wf_foldl_memPut h.1 (fun x => ownMemory s.pkg x.1) cells
  unfold Machine.execStewardInstall
  exact .ite (.next h) (.ite (.next (.bootFails h)) (.next (.ite (.recordModule ⟨hcells, h.2⟩) ⟨hcells, h.2⟩)))

theorem Out.Inv.execStewardStart {pt : Nat} {s : State} (h : s.Inv) : (execStewardStart pt s).Inv :=
  .ite (.next h) (.next (.upd h))


/-! ### A step -/

/-- No instruction and no event leaves the canonical form. -/
theorem Out.Inv.exec {i : Instr} {s : State} (h : s.Inv) : Out.Inv (exec i s) :=
  match i with
  | .nop .. => .execNop h
  | .bra .. => .execBra h
  | .brx .. => .execBrx h
  | .call .. => .execCall h
  | .callx .. => .execCallx h
  | .ret o => .execRet (x := o) h
  | .jmpk .. => .execJmpk h
  | .exit .. => .execExit h
  | .yield .. => .execYield h
  | .maskr .. => .execMaskr h
  | .maskw .. => .execMaskw h
  | .vote .. => .execVote h
  | .plop .. => .execPlop h
  | .chkf .. => .execChkf h
  | .waitf .. => .execWaitf h
  | .gsync .. => .execGsync h
  | .kmov .. => .execKmov h
  | .kmovi .. => .execKmovi h
  | .klit .. => .execKlit h
  | .kadd .. => .execKadd h
  | .ksub .. => .execKsub h
  | .kmul .. => .execKmul h
  | .kmad .. => .execKmad h
  | .kshl .. => .execKshl h
  | .kshr .. => .execKshr h
  | .klop .. => .execKlop h
  | .kcmp .. => .execKcmp h
  | .ksel .. => .execKsel h
  | .krds .. => .execKrds h
  | .kwrs .. => .execKwrs h
  | .krdf .. => .execKrdf h
  | .kmnx .. => .execKmnx h
  | .iadd .. => .execIadd h
  | .isub .. => .execIsub h
  | .imul .. => .execImul h
  | .imulh .. => .execImulh h
  | .imad .. => .execImad h
  | .imnx .. => .execImnx h
  | .iabs .. => .execIabs h
  | .shl .. => .execShl h
  | .shr .. => .execShr h
  | .sar .. => .execSar h
  | .lop3 .. => .execLop3 h
  | .popc .. => .execPopc h
  | .clz .. => .execClz h
  | .bfx .. => .execBfx h
  | .bfi .. => .execBfi h
  | .icmp .. => .execIcmp h
  | .fadd .. => .execFadd h
  | .fsub .. => .execFsub h
  | .fmul .. => .execFmul h
  | .ffma .. => .execFfma h
  | .fmnx .. => .execFmnx h
  | .fcmp .. => .execFcmp h
  | .frcp .. => .execFrcp h
  | .frsq .. => .execFrsq h
  | .fsqrt .. => .execFsqrt h
  | .fdiv .. => .execFdiv h
  | .fex2 .. => .execFex2 h
  | .flg2 .. => .execFlg2 h
  | .fsin .. => .execFsin h
  | .fcos .. => .execFcos h
  | .fcls .. => .execFcls h
  | .fscl .. => .execFscl h
  | .mov .. => .execMov h
  | .movi .. => .execMovi h
  | .sel .. => .execSel h
  | .cvt .. => .execCvt h
  | .pack .. => .execPack h
  | .unpk .. => .execUnpk h
  | .prmb .. => .execPrmb h
  | .xshf .. => .execXshf h
  | .xred .. => .execXred h
  | .xscn .. => .execXscn h
  | .mxix .. => .execMxix h
  | .rand .. => .execRand h
  | .rdsr .. => .execRdsr h
  | .clmp .. => .execClmp h
  | .qnt .. => .execQnt h
  | .dqnt .. => .execDqnt h
  | .tsum .. => .execTsum h
  | .tdif .. => .execTdif h
  | .tprd .. => .execTprd h
  | .tfma .. => .execTfma h
  | .ftsm .. => .execFtsm h
  | .xadd .. => .execXadd h
  | .xsub .. => .execXsub h
  | .xmul .. => .execXmul h
  | .xacc .. => .execXacc h
  | .xrnm .. => .execXrnm h
  | .xcpr .. => .execXcpr h
  | .xcmp .. => .execXcmp h
  | .xcvt .. => .execXcvt h
  | .xspl .. => .execXspl h
  | .xtre .. => .execXtre h
  | .xscl .. => .execXscl h
  | .ldg .. => .execLdg h
  | .stg .. => .execStg h
  | .lds .. => .execLds h
  | .sts .. => .execSts h
  | .ldw .. => .execLdw h
  | .stw .. => .execStw h
  | .ldk .. => .execLdk h
  | .stk .. => .execStk h
  | .gthr .. => .execGthr h
  | .sctr .. => .execSctr h
  | .pref .. => .execPref h
  | .wbk .. => .execWbk h
  | .inv .. => .execInv h
  | .fnc .. => .execFnc h
  | .sbnd .. => .execSbnd h
  | .sunb .. => .execSunb h
  | .aadd .. => .execAadd h
  | .afad .. => .execAfad h
  | .acad .. => .execAcad h
  | .amnx .. => .execAmnx h
  | .afmx .. => .execAfmx h
  | .amxi .. => .execAmxi h
  | .alop .. => .execAlop h
  | .axch .. => .execAxch h
  | .acas .. => .execAcas h
  | .ainc .. => .execAinc h
  | .ared .. => .execAred h
  | .waita .. => .execWaita h
  | .tld .. => .execTld h
  | .tst .. => .execTst h
  | .tzro .. => .execTzro h
  | .tzroAcc .. => .execTzroAcc h
  | .tmvv .. => .execTmvv h
  | .tmvvAcc .. => .execTmvvAcc h
  | .tmvt .. => .execTmvt h
  | .tmvtAcc .. => .execTmvtAcc h
  | .ttrn .. => .execTtrn h
  | .tscl .. => .execTscl h
  | .wld .. => .execWld h
  | .ald .. => .execAld h
  | .ast .. => .execAst h
  | .mma .. => .execMma h
  | .mmag .. => .execMmag h
  | .mfen .. => .execMfen h
  | .mfenNum .. => .execMfenNum h
  | .mfct .. => .execMfct h
  | .mtrs .. => .execMtrs h
  | .mestRd .. => .execMestRd h
  | .mestClr .. => .execMestClr h
  | .gang .. => .execGang h
  | .gangDis .. => .execGangDis h
  | .lrec .. => .execLrec h
  | .rbnd .. => .execRbnd h
  | .runb .. => .execRunb h
  | .rtchFill .. => .execRtchFill h
  | .rtchOut .. => .execRtchOut h
  | .rtst .. => .execRtst h
  | .rwt .. => .execRwt h
  | .cfen .. => .execCfen h
  | .cfenNum .. => .execCfenNum h
  | .hnewNew .. => .execHnewNew h
  | .hnewFree .. => .execHnewFree h
  | .rstaE .. => .execRstaE h
  | .rstaH .. => .execRstaH h
  | .bar .. => .execBar h
  | .bara .. => .execBara h
  | .barw .. => .execBarw h
  | .pha .. => .execPha h
  | .phaExpect .. => .execPhaExpect h
  | .phxExpect .. => .execPhxExpect h
  | .phxInit .. => .execPhxInit h
  | .phxRead .. => .execPhxRead h
  | .phw .. => .execPhw h
  | .tkg .. => .execTkg h
  | .tkw .. => .execTkw h
  | .tksSet .. => .execTksSet h
  | .tksInc .. => .execTksInc h
  | .tlw .. => .execTlw h
  | .tlr .. => .execTlr h
  | .tls .. => .execTls h
  | .cmb .. => .execCmb h
  | .cmbNt .. => .execCmbNt h
  | .cmbr .. => .execCmbr h
  | .objr .. => .execObjr h
  | .objcClr .. => .execObjcClr h
  | .objcDel .. => .execObjcDel h
  | .gld .. => .execGld h
  | .gadd .. => .execGadd h
  | .gmrg .. => .execGmrg h
  | .gset .. => .execGset h
  | .gswpAdd .. => .execGswpAdd h
  | .gswpRem .. => .execGswpRem h
  | .gstpAdd .. => .execGstpAdd h
  | .gstpRd .. => .execGstpRd h
  | .sol .. => .execSol h
  | .solw .. => .execSolw h
  | .kins .. => .execKins h
  | .kdel .. => .execKdel h
  | .kdelMv .. => .execKdelMv h
  | .rsp .. => .execRsp h
  | .solr .. => .execSolr h
  | .trap .. => .execTrap h
  | .tret .. => .execTret h
  | .tdone .. => .execTdone h
  | .iprf .. => .execIprf h
  | .modl .. => .execModl h
  | .modu .. => .execModu h
  | .cntr .. => .execCntr h
  | .cntc .. => .execCntc h
  | .cntcAll .. => .execCntcAll h
  | .brk .. => .execBrk h
  | .sregRd .. => .execSregRd h
  | .sregWr .. => .execSregWr h
  | .preemptreq .. => .execPreemptreq h
  | .resumereq .. => .execResumereq h
  | .lnch .. => .execLnch h
  | .dgstOpen .. => .execDgstOpen h
  | .dgstRead .. => .execDgstRead h
  | .dgstRecord .. => .execDgstRecord h
  | .dgstCheck .. => .execDgstCheck h
  | .pcol .. => .execPcol h
  | .pcolNowait .. => .execPcolNowait h
  | .migr .. => .execMigr h
  | .clauseSchedule .. => .execClauseSchedule h
  | .agePromote .. => .execAgePromote h
  | .clauseStart .. => .execClauseStart h
  | .ifetchLineArrival .. => .execIfetchLineArrival h
  | .trapEntry .. => .execTrapEntry h
  | .preemptTrap .. => .execPreemptTrap h
  | .forcedSave .. => .execForcedSave h
  | .uncorrectedTrap .. => .execUncorrectedTrap h
  | .registerSpill .. => .execRegisterSpill h
  | .registerReload .. => .execRegisterReload h
  | .accessVerdict .. => .execAccessVerdict h
  | .parkedSetReplay .. => .execParkedSetReplay h
  | .loadDataLand .. => .execLoadDataLand h
  | .storeAck .. => .execStoreAck h
  | .mailboxWriteLand .. => .execMailboxWriteLand h
  | .waitaRetest .. => .execWaitaRetest h
  | .homeAtomic .. => .execHomeAtomic h
  | .quadAtomic .. => .execQuadAtomic h
  | .portAtomic .. => .execPortAtomic h
  | .aredGatewayCombine .. => .execAredGatewayCombine h
  | .peerFill .. => .execPeerFill h
  | .stewardPoll .. => .execStewardPoll h
  | .launch .. => .execLaunch h
  | .signal .. => .execSignal h
  | .modload .. => .execModload h
  | .modunload .. => .execModunload h
  | .wait .. => .execWait h
  | .badcmd .. => .execBadcmd h
  | .launchReady .. => .execLaunchReady h
  | .podPartAcceptMsg .. => .execPodPartAcceptMsg h
  | .podPartRefusalMsg .. => .execPodPartRefusalMsg h
  | .blockPlace .. => .execBlockPlace h
  | .groupStart .. => .execGroupStart h
  | .launchDone .. => .execLaunchDone h
  | .barrierArrival .. => .execBarrierArrival h
  | .barrierCompletionNotify .. => .execBarrierCompletionNotify h
  | .ticketServeBroadcast .. => .execTicketServeBroadcast h
  | .timelineSignalArrival .. => .execTimelineSignalArrival h
  | .chunkRequest .. => .execChunkRequest h
  | .chunkLandFill .. => .execChunkLandFill h
  | .chunkLandWriteout .. => .execChunkLandWriteout h
  | .chunkAbort .. => .execChunkAbort h
  | .matOpAccept .. => .execMatOpAccept h
  | .matOpComplete .. => .execMatOpComplete h
  | .matOpAbandon .. => .execMatOpAbandon h
  | .gangRendezvous .. => .execGangRendezvous h
  | .liftLineMatch .. => .execLiftLineMatch h
  | .throttleWindow .. => .execThrottleWindow h
  | .cmbAccept .. => .execCmbAccept h
  | .cmbResend .. => .execCmbResend h
  | .packForm .. => .execPackForm h
  | .replyLand .. => .execReplyLand h
  | .methodFault .. => .execMethodFault h
  | .stepPropagate .. => .execStepPropagate h
  | .censusBroadcastArrive .. => .execCensusBroadcastArrive h
  | .responderSpawn .. => .execResponderSpawn h
  | .responderFault .. => .execResponderFault h
  | .diePartialFold .. => .execDiePartialFold h
  | .censusResponseArrive .. => .execCensusResponseArrive h
  | .censusTimeout .. => .execCensusTimeout h
  | .censusCloseArrive .. => .execCensusCloseArrive h
  | .censusMoveAtNode .. => .execCensusMoveAtNode h
  | .censusMoveAtCore .. => .execCensusMoveAtCore h
  | .pageWalk .. => .execPageWalk h
  | .gatherPacketExpand .. => .execGatherPacketExpand h
  | .deadlineExpiry .. => .execDeadlineExpiry h
  | .correctedError .. => .execCorrectedError h
  | .uncorrectableError .. => .execUncorrectableError h
  | .poisonConsume .. => .execPoisonConsume h
  | .korilinkCrcResend .. => .execKorilinkCrcResend h
  | .pcolMemberExchange .. => .execPcolMemberExchange h
  | .pcolRingStep .. => .execPcolRingStep h
  | .pcolComplete .. => .execPcolComplete h
  | .pcolBudgetExpiry .. => .execPcolBudgetExpiry h
  | .migrSwitch .. => .execMigrSwitch h
  | .hostBar2Write .. => .execHostBar2Write h
  | .claim .. => .execClaim h
  | .fqackRetry .. => .execFqackRetry h
  | .fqackRefuse .. => .execFqackRefuse h
  | .shootTr .. => .execShootTr h
  | .shootData .. => .execShootData h
  | .shootComplete .. => .execShootComplete h
  | .cmdpg .. => .execCmdpg h
  | .attest .. => .execAttest h
  | .presetPackage .. => .execPresetPackage h
  | .presetPartitions .. => .execPresetPartitions h
  | .portRegWrite .. => .execPortRegWrite h
  | .linkDownOwnerClear .. => .execLinkDownOwnerClear h
  | .powerOnReset => .execPowerOnReset h
  | .bootRomFwVerify .. => .execBootRomFwVerify h
  | .fwBringup .. => .execFwBringup h
  | .stewardInstall .. => .execStewardInstall h
  | .stewardStart .. => .execStewardStart h
  | .fqheadWrite .. => .execFqheadWrite h
  | .quadWriteThroughArrive .. => .execQuadWriteThroughArrive h
  | .refreshInterval .. => .execRefreshInterval h
  | .powerLoss => .execPowerLoss h
  | .bindingChangePropagate .. => .execBindingChangePropagate h

theorem Out.Inv.runMove {mv : Move} {s : State} (h : s.Inv) : Out.Inv (runMove mv s) := by
  unfold Machine.runMove
  split
  · exact .ite (.next h) (.exec (.upd h))
  · split
    · exact .next h
    · exact .exec (.upd h)

theorem Out.Inv.step {s : State} (h : s.Inv) : Out.Inv (step s) := by
  unfold Machine.step
  split
  · exact .runMove (.upd h)
  · exact .runMove (.upd h)

/-- Settles O2: after reset no byte of either memory is listed. -/
theorem resetMeetsInvariant : Obligations.ResetMeetsInvariant := ⟨rfl, rfl⟩

/-- Settles O3: every function that a step calls keeps the canonical form. -/
theorem stepKeepsCanonicalMemory : Obligations.StepKeepsCanonicalMemory := fun _ t h e =>
  Out.Inv.step h t (by rw [e]; rfl)

end Sys2Proof.Machine
end

section
/-! PROOF of O7 and O8, the encoding: the fields of each format come back from the word that holds them, the bytes of a word
give it back, the row of the opcode map reads each instruction from its word, and the unassigned opcodes are refused. -/

namespace Sys2Proof

open BitVec

/-! ### Fields of a word put together from fields (02 R41, R45) -/

theorem getLsbD_append_low {n m i : Nat} {x : BitVec n} {y : BitVec m} (h : i < m) :
    (x ++ y).getLsbD i = y.getLsbD i := by simp [getLsbD_append, h]

theorem getLsbD_append_high {n m i : Nat} {x : BitVec n} {y : BitVec m} (h : m ≤ i) :
    (x ++ y).getLsbD i = x.getLsbD (i - m) := by simp [getLsbD_append, Nat.not_lt.2 h]

theorem opcOf_eq (w : DWord) : opcOf w = (w.extractLsb' 56 8).toNat := by
  simp only [opcOf, bits, extractLsb'_toNat, Nat.shiftRight_eq_div_pow]

/-! Each format as an append of its own width: the library's lemmas on appended vectors do not see that the width of
`encX` is a sum. -/

theorem encHead_cast (opc : BitVec 8) (g : Guard) :
    encHead opc g = (opc ++ ofBool g.neg ++ g.idx).cast rfl := rfl

theorem encSrc_cast (a : Src) :
    encSrc a = (a.opnd ++ ofBool a.last ++ ofBool a.etrap).cast rfl := rfl

theorem encR_cast (opc : BitVec 8) (o : OpR) :
    encR opc o = (encHead opc o.g ++ o.d ++ encSrc o.a ++ encSrc o.b ++ encSrc o.c ++ o.m).cast rfl := rfl

@[simp] theorem opcOf_encR (opc : BitVec 8) (o : OpR) : opcOf (encR opc o) = opc.toNat := by
  simp (disch := decide) only [opcOf_eq, encR_cast, encHead_cast, extractLsb'_cast, extractLsb'_append_eq_of_le,
    -Nat.reduceAdd]
  simp only [Nat.reduceSub, extractLsb'_eq_self]

@[simp] theorem parseR_encR (opc : BitVec 8) (o : OpR) : parseR (encR opc o) = o := by
  simp (disch := decide) only [parseR, fGuard, fSrc, fld, encR_cast, encHead_cast, encSrc_cast, extractLsb'_cast, getLsbD_cast,
    extractLsb'_append_eq_of_add_le, extractLsb'_append_eq_of_le, getLsbD_append_low, getLsbD_append_high, -Nat.reduceAdd]
  simp

theorem encI_cast (opc : BitVec 8) (o : OpI) :
    encI opc o = (encHead opc o.g ++ o.d ++ encSrc o.a ++ o.imm ++ o.m).cast rfl := rfl

@[simp] theorem opcOf_encI (opc : BitVec 8) (o : OpI) : opcOf (encI opc o) = opc.toNat := by
  simp (disch := decide) only [opcOf_eq, encI_cast, encHead_cast, extractLsb'_cast, extractLsb'_append_eq_of_le,
    -Nat.reduceAdd]
  simp only [Nat.reduceSub, extractLsb'_eq_self]

@[simp] theorem parseI_encI (opc : BitVec 8) (o : OpI) : parseI (encI opc o) = o := by
  simp (disch := decide) only [parseI, fGuard, fSrc, fld, encI_cast, encHead_cast, encSrc_cast, extractLsb'_cast, getLsbD_cast,
    extractLsb'_append_eq_of_add_le, extractLsb'_append_eq_of_le, getLsbD_append_low, getLsbD_append_high, -Nat.reduceAdd]
  simp

theorem encW_cast (opc : BitVec 8) (o : OpW) :
    encW opc o = (encHead opc o.g ++ o.d ++ o.z ++ o.imm).cast rfl := rfl

@[simp] theorem opcOf_encW (opc : BitVec 8) (o : OpW) : opcOf (encW opc o) = opc.toNat := by
  simp (disch := decide) only [opcOf_eq, encW_cast, encHead_cast, extractLsb'_cast, extractLsb'_append_eq_of_le,
    -Nat.reduceAdd]
  simp only [Nat.reduceSub, extractLsb'_eq_self]

@[simp] theorem parseW_encW (opc : BitVec 8) (o : OpW) : parseW (encW opc o) = o := by
  simp (disch := decide) only [parseW, fGuard, fld, encW_cast, encHead_cast, extractLsb'_cast, getLsbD_cast,
    extractLsb'_append_eq_of_add_le, extractLsb'_append_eq_of_le, getLsbD_append_low, getLsbD_append_high, -Nat.reduceAdd]
  simp

theorem encM_cast (opc : BitVec 8) (o : OpM) :
    encM opc o = (encHead opc o.g ++ o.d ++ encSrc o.a ++ encSrc o.b ++ o.ord ++ o.scope ++ o.evict ++ o.size ++ o.off).cast rfl := rfl

@[simp] theorem opcOf_encM (opc : BitVec 8) (o : OpM) : opcOf (encM opc o) = opc.toNat := by
  simp (disch := decide) only [opcOf_eq, encM_cast, encHead_cast, extractLsb'_cast, extractLsb'_append_eq_of_le,
    -Nat.reduceAdd]
  simp only [Nat.reduceSub, extractLsb'_eq_self]

@[simp] theorem parseM_encM (opc : BitVec 8) (o : OpM) : parseM (encM opc o) = o := by
  simp (disch := decide) only [parseM, fGuard, fSrc, fld, encM_cast, encHead_cast, encSrc_cast, extractLsb'_cast, getLsbD_cast,
    extractLsb'_append_eq_of_add_le, extractLsb'_append_eq_of_le, getLsbD_append_low, getLsbD_append_high, -Nat.reduceAdd]
  simp

theorem encB_cast (opc : BitVec 8) (o : OpB) :
    encB opc o = (encHead opc o.g ++ o.toff ++ o.joff ++ BitVec.ofBool o.uni ++ BitVec.ofBool o.qen ++ o.qidx).cast rfl := rfl

@[simp] theorem opcOf_encB (opc : BitVec 8) (o : OpB) : opcOf (encB opc o) = opc.toNat := by
  simp (disch := decide) only [opcOf_eq, encB_cast, encHead_cast, extractLsb'_cast, extractLsb'_append_eq_of_le,
    -Nat.reduceAdd]
  simp only [Nat.reduceSub, extractLsb'_eq_self]

@[simp] theorem parseB_encB (opc : BitVec 8) (o : OpB) : parseB (encB opc o) = o := by
  simp (disch := decide) only [parseB, fGuard, fld, encB_cast, encHead_cast, extractLsb'_cast, getLsbD_cast,
    extractLsb'_append_eq_of_add_le, extractLsb'_append_eq_of_le, getLsbD_append_low, getLsbD_append_high, -Nat.reduceAdd]
  simp

theorem encT_cast (opc : BitVec 8) (o : OpT) :
    encT opc o = (encHead opc o.g ++ o.td ++ o.ta ++ o.tb ++ BitVec.ofBool o.res ++ o.acc ++ o.ts ++ o.shp ++ o.m).cast rfl := rfl

@[simp] theorem opcOf_encT (opc : BitVec 8) (o : OpT) : opcOf (encT opc o) = opc.toNat := by
  simp (disch := decide) only [opcOf_eq, encT_cast, encHead_cast, extractLsb'_cast, extractLsb'_append_eq_of_le,
    -Nat.reduceAdd]
  simp only [Nat.reduceSub, extractLsb'_eq_self]

@[simp] theorem parseT_encT (opc : BitVec 8) (o : OpT) : parseT (encT opc o) = o := by
  simp (disch := decide) only [parseT, fGuard, fld, encT_cast, encHead_cast, extractLsb'_cast, getLsbD_cast,
    extractLsb'_append_eq_of_add_le, extractLsb'_append_eq_of_le, getLsbD_append_low, getLsbD_append_high, -Nat.reduceAdd]
  simp

theorem encS_cast (opc : BitVec 8) (o : OpS) :
    encS opc o = (encHead opc o.g ++ o.d ++ encSrc o.a ++ o.imm ++ o.sub ++ o.m).cast rfl := rfl

@[simp] theorem opcOf_encS (opc : BitVec 8) (o : OpS) : opcOf (encS opc o) = opc.toNat := by
  simp (disch := decide) only [opcOf_eq, encS_cast, encHead_cast, extractLsb'_cast, extractLsb'_append_eq_of_le,
    -Nat.reduceAdd]
  simp only [Nat.reduceSub, extractLsb'_eq_self]

@[simp] theorem parseS_encS (opc : BitVec 8) (o : OpS) : parseS (encS opc o) = o := by
  simp (disch := decide) only [parseS, fGuard, fSrc, fld, encS_cast, encHead_cast, encSrc_cast, extractLsb'_cast, getLsbD_cast,
    extractLsb'_append_eq_of_add_le, extractLsb'_append_eq_of_le, getLsbD_append_low, getLsbD_append_high, -Nat.reduceAdd]
  simp

/-! ### A word's bytes (06 R173) -/

theorem natToBytes_succ (n x : Nat) : natToBytes (n + 1) x = BitVec.ofNat 8 x :: natToBytes n (x / 256) := by
  simp [natToBytes, List.range_succ_eq_map, Function.comp_def, Nat.pow_succ', Nat.div_div_eq_div_mul]

theorem bytesToNat_natToBytes (n : Nat) : ∀ x, bytesToNat (natToBytes n x) = x % 256 ^ n := by
  induction n with
  | zero => intro x; simp [natToBytes, bytesToNat, Nat.mod_one]
  | succ n ih =>
    intro x
    have h : bytesToNat (natToBytes (n + 1) x) = x % 256 + 256 * bytesToNat (natToBytes n (x / 256)) := by
      rw [natToBytes_succ]; rfl
    rw [h, ih, Nat.pow_succ', Nat.mod_mul]

@[simp] theorem length_natToBytes (n x : Nat) : (natToBytes n x).length = n := by simp [natToBytes]

@[simp] theorem wordOfBytes_natToBytes_append (w : DWord) (bs : List Byte) : wordOfBytes (natToBytes 8 w.toNat ++ bs) = w := by
  have h : (natToBytes 8 w.toNat ++ bs).take 8 = natToBytes 8 w.toNat := List.take_left' (length_natToBytes 8 _)
  rw [wordOfBytes, h, bytesToNat_natToBytes]
  exact BitVec.eq_of_toNat_eq (by simpa using w.isLt)

@[simp] theorem drop_natToBytes_append (n x : Nat) (bs : List Byte) : (natToBytes n x ++ bs).drop n = bs :=
  List.drop_left' (length_natToBytes n x)

/-! ### The opcode's nibbles (02 R56) -/

@[simp] theorem bits_high_nibble (w : DWord) : bits w.toNat 63 60 = opcOf w / 16 := by
  simp only [opcOf, bits]; omega

@[simp] theorem bits_low_nibble (w : DWord) : bits w.toNat 59 56 = opcOf w % 16 := by
  simp only [opcOf, bits]; omega

/-! ### R/I words: MOD[0] names the format (02 R45) -/

@[simp] theorem opcOf_encRI (opc : BitVec 8) (o : OpRI) : opcOf (encRI opc o) = opc.toNat := by
  cases o <;> simp [encRI]

theorem mod0_encR (opc : BitVec 8) (o : OpR) : (encR opc o).getLsbD 0 = mbit o.m 0 := by
  simp (disch := decide) only [encR_cast, getLsbD_cast, getLsbD_append_low, mbit]

theorem mod0_encI (opc : BitVec 8) (o : OpI) : (encI opc o).getLsbD 0 = mbit o.m 0 := by
  simp (disch := decide) only [encI_cast, getLsbD_cast, getLsbD_append_low, mbit]

theorem parseRI_encRI (opc : BitVec 8) (o : OpRI) (h : o.shape = true) : parseRI (encRI opc o) = o := by
  cases o with
  | r o =>
    have h0 : mbit o.m 0 = false := by simp_all [OpRI.shape]
    rw [encRI, parseRI, mod0_encR, h0]; simp
  | i o =>
    have h1 : mbit o.m 0 = true := h
    rw [encRI, parseRI, mod0_encI, h1]; simp

section
variable {o : OpRI}

theorem shape_of_legalUni2 {n : Nat} (h : legalUni2 n o = true) : o.shape = true := by simp_all [legalUni2]

theorem shape_of_legalKcmp (h : legalKcmp o = true) : o.shape = true := by simp_all [legalKcmp]

theorem shape_of_lanePairB (h : lanePairB o = true) : o.shape = true := by simp_all [lanePairB]

theorem shape_of_legalLane2 {ts : List Ty} {sat nof m1 : Bool} (h : legalLane2 ts sat nof m1 o = true) :
    o.shape = true := shape_of_lanePairB (by simp_all [legalLane2])

theorem shape_of_legalIadd (h : legalIadd o = true) : o.shape = true :=
  shape_of_legalLane2 (Bool.and_eq_true_iff.1 h).1

theorem shape_of_legalIcmp (h : legalIcmp o = true) : o.shape = true := shape_of_lanePairB (by simp_all [legalIcmp])

theorem shape_of_legalFcmp (h : legalFcmp o = true) : o.shape = true := shape_of_lanePairB (by simp_all [legalFcmp])

theorem shape_of_legalFmnx (h : legalFmnx o = true) : o.shape = true := shape_of_lanePairB (by simp_all [legalFmnx])

end

/-! ### Rows that share an opcode: the field that tells them apart (02 R56) -/

section
variable {o : OpS} {n : Nat}

theorem sub_of_toNat (h : o.sub.toNat = n) : o.sub = BitVec.ofNat 6 n := by
  rw [← h]; simp

theorem sub_of_legalPlainS {kd ka even : Bool} (h : legalPlainS n kd ka even o = true) : o.sub = BitVec.ofNat 6 n :=
  sub_of_toNat (by simp_all [legalPlainS])

theorem sub_of_legalMatS {kd ka : Bool} (h : legalMatS n kd ka o = true) : o.sub = BitVec.ofNat 6 n :=
  sub_of_toNat (by simp_all [legalMatS])

theorem sub_of_legalCpy {align : Nat} {kd entry : Bool} (h : legalCpy n kd align entry o = true) : o.sub = BitVec.ofNat 6 n :=
  sub_of_toNat (by simp_all [legalCpy])

theorem sub_of_legalPh {ka kd : Bool} (h : legalPh n ka kd o = true) : o.sub = BitVec.ofNat 6 n :=
  sub_of_toNat (by simp_all [legalPh])

theorem sub_of_legalTks {inc : Bool} (h : legalTks inc o = true) : o.sub = BitVec.ofNat 6 (if inc then 1 else 0) :=
  sub_of_toNat (by simp_all [legalTks])

theorem sub_of_legalCmb {nt : Bool} (h : legalCmb nt o = true) : o.sub = BitVec.ofNat 6 (if nt then 1 else 0) :=
  sub_of_toNat (by simp_all [legalCmb])

end

theorem legalCntc_sub {o : OpS} (h : legalCntc o = true) : o.sub = 0 := by simp_all [legalCntc]

theorem legalCntcAll_sub {o : OpS} (h : legalCntcAll o = true) : o.sub = 1 := by simp_all [legalCntcAll]

theorem legalSregRd_sub {o : OpS} (h : legalSregRd o = true) : o.sub = 0 := by simp_all [legalSregRd]

theorem legalSregWr_sub {r : Option Nat} {o : OpS} (h : legalSregWr r o = true) : o.sub = 1 := by
  simp_all [legalSregWr]

/-- SREG.wr names no register of a request (05 R169). -/
theorem legalSregWr_none_imm {o : OpS} (h : legalSregWr none o = true) : ¬o.imm = 2#16 ∧ ¬o.imm = 3#16 := by
  constructor <;> rintro h' <;> simp [legalSregWr, h'] at h

theorem legalSregWr_some_imm {r : Nat} {o : OpS} (h : legalSregWr (some r) o = true) : o.imm = BitVec.ofNat 16 r := by
  have : o.imm.toNat = r := by simp_all [legalSregWr]
  rw [← this]; simp

theorem legalTzro_nblk {o : OpT} (h : legalTzro o = true) : o.nblk = 0 := by
  have : o.shp = 0 := by simp_all [legalTzro]
  simp [OpT.nblk, this, bits]

theorem legalTzroAcc_nblk {o : OpT} (h : legalTzroAcc o = true) : o.nblk ≠ 0 := by
  rintro h'; simp [legalTzroAcc, h'] at h

theorem legalTmvv_mod {o : OpT} (h : legalTmvv o = true) : o.m = 0 := by simp_all [legalTmvv]

theorem legalTmvvAcc_mod {o : OpT} (h : legalTmvvAcc o = true) : o.m = 1 := by simp_all [legalTmvvAcc]

theorem legalTmvt_mod {o : OpT} (h : legalTmvt o = true) : o.m = 0 := by simp_all [legalTmvt]

theorem legalTmvtAcc_mod {o : OpT} (h : legalTmvtAcc o = true) : o.m = 1 := by simp_all [legalTmvtAcc]

/-! ### The opcode map reads back what the encoder writes -/

/-- The instruction has one word, or a word and a literal, of an assigned opcode that takes as many slots, and the opcode map
reads it back from them. -/
def ReadsBack (i : Instr) : Prop :=
  ∃ w lit, encode i = w :: lit.toList ∧ assigned (opcOf w) = true ∧ twoSlot (opcOf w) = lit.isSome ∧ parseWord w lit = some i

/-- The row of the opcode map for the high nibble of an opcode. -/
def opcodeRow (n : Nat) (w : DWord) (lit : Option DWord) : Option Instr :=
  match n with
  | 0 => row0 w lit
  | 1 => row1 w lit
  | 2 => row2 w lit
  | 3 => row3 w lit
  | 4 => row4 w lit
  | 5 => row5 w lit
  | 6 => row6 w lit
  | 7 => row7 w lit
  | 8 => row8 w lit
  | 9 => row9 w lit
  | 10 => rowA w lit
  | 11 => rowB w lit
  | 12 => rowC w lit
  | 13 => rowD w lit
  | 14 => rowE w lit
  | _ => none

theorem parseWord_eq_opcodeRow (w : DWord) (lit : Option DWord) : parseWord w lit = opcodeRow (opcOf w / 16) w lit := by
  rw [parseWord, bits_high_nibble]
  rfl

/-- An instruction that its row of the opcode map reads from its own word, given the opcode, is read back. -/
theorem ReadsBack.ofRow {i : Instr} {w : DWord} {n : Nat} (lit : Option DWord) (hn : opcOf w = n)
    (he : encode i = w :: lit.toList) (ha : assigned n = true) (ht : twoSlot n = lit.isSome)
    (hp : opcodeRow (n / 16) w lit = some i) : ReadsBack i := by
  subst hn
  exact ⟨w, lit, he, ha, ht, (parseWord_eq_opcodeRow w lit).trans hp⟩

/-- One case for each format in each row of the opcode map (02 R56); the rows that share an opcode are told apart by the field
that their legality fixes, and a step of an engine is not well formed. -/
theorem readsBack (i : Instr) (h : wellFormed i = true) : ReadsBack i := by
  cases i
  case nop o | ret o | jmpk o | exit o | yield o | maskr o | maskw o | chkf o | waitf o | gsync o =>
    exact .ofRow none (opcOf_encS _ _) rfl rfl rfl
      (show row0 _ none = _ by rw [row0, bits_low_nibble, opcOf_encS, parseS_encS]; rfl)
  case bra o | call o =>
    exact .ofRow none (opcOf_encB _ _) rfl rfl rfl
      (show row0 _ none = _ by rw [row0, bits_low_nibble, opcOf_encB, parseB_encB]; rfl)
  case vote o | plop o =>
    exact .ofRow none (opcOf_encR _ _) rfl rfl rfl
      (show row0 _ none = _ by rw [row0, bits_low_nibble, opcOf_encR, parseR_encR]; rfl)
  case brx o | callx o =>
    exact .ofRow (some o.lit) (opcOf_encB _ _) rfl rfl rfl
      (show row0 _ (some o.lit) = _ by rw [row0, bits_low_nibble, opcOf_encB, parseB_encB]; rfl)
  case kmov o | kmad o | klop o | ksel o | krdf o =>
    exact .ofRow none (opcOf_encR _ _) rfl rfl rfl
      (show row1 _ none = _ by rw [row1, bits_low_nibble, opcOf_encR, parseR_encR]; rfl)
  case kmovi o =>
    exact .ofRow none (opcOf_encW _ _) rfl rfl rfl
      (show row1 _ none = _ by rw [row1, bits_low_nibble, opcOf_encW, parseW_encW]; rfl)
  case krds o | kwrs o =>
    exact .ofRow none (opcOf_encS _ _) rfl rfl rfl
      (show row1 _ none = _ by rw [row1, bits_low_nibble, opcOf_encS, parseS_encS]; rfl)
  case klit o =>
    exact .ofRow (some o.lit) (opcOf_encW _ _) rfl rfl rfl
      (show row1 _ (some o.lit) = _ by rw [row1, bits_low_nibble, opcOf_encW, parseW_encW]; rfl)
  case kadd o | ksub o | kmul o | kshl o | kshr o | kmnx o =>
    exact .ofRow none (opcOf_encRI _ _) rfl rfl rfl
      (show row1 _ none = _ by rw [row1, bits_low_nibble, opcOf_encRI, parseRI_encRI _ _ (shape_of_legalUni2 h)]; rfl)
  case kcmp o =>
    exact .ofRow none (opcOf_encRI _ _) rfl rfl rfl
      (show row1 _ none = _ by rw [row1, bits_low_nibble, opcOf_encRI, parseRI_encRI _ _ (shape_of_legalKcmp h)]; rfl)
  case imulh o | imad o | iabs o | lop3 o | popc o | clz o | bfx o | bfi o =>
    exact .ofRow none (opcOf_encR _ _) rfl rfl rfl
      (show row2 _ none = _ by rw [row2, bits_low_nibble, opcOf_encR, parseR_encR]; rfl)
  case iadd o | isub o =>
    exact .ofRow none (opcOf_encRI _ _) rfl rfl rfl
      (show row2 _ none = _ by rw [row2, bits_low_nibble, opcOf_encRI, parseRI_encRI _ _ (shape_of_legalIadd h)]; rfl)
  case imul o | imnx o | shl o | shr o | sar o =>
    exact .ofRow none (opcOf_encRI _ _) rfl rfl rfl
      (show row2 _ none = _ by rw [row2, bits_low_nibble, opcOf_encRI, parseRI_encRI _ _ (shape_of_legalLane2 h)]; rfl)
  case icmp o =>
    exact .ofRow none (opcOf_encRI _ _) rfl rfl rfl
      (show row2 _ none = _ by rw [row2, bits_low_nibble, opcOf_encRI, parseRI_encRI _ _ (shape_of_legalIcmp h)]; rfl)
  case ffma o | frcp o | frsq o | fsqrt o | fdiv o | fex2 o | flg2 o | fsin o | fcos o | fcls o | fscl o =>
    exact .ofRow none (opcOf_encR _ _) rfl rfl rfl
      (show row3 _ none = _ by rw [row3, bits_low_nibble, opcOf_encR, parseR_encR]; rfl)
  case fadd o | fsub o | fmul o =>
    exact .ofRow none (opcOf_encRI _ _) rfl rfl rfl
      (show row3 _ none = _ by rw [row3, bits_low_nibble, opcOf_encRI, parseRI_encRI _ _ (shape_of_legalLane2 h)]; rfl)
  case fmnx o =>
    exact .ofRow none (opcOf_encRI _ _) rfl rfl rfl
      (show row3 _ none = _ by rw [row3, bits_low_nibble, opcOf_encRI, parseRI_encRI _ _ (shape_of_legalFmnx h)]; rfl)
  case fcmp o =>
    exact .ofRow none (opcOf_encRI _ _) rfl rfl rfl
      (show row3 _ none = _ by rw [row3, bits_low_nibble, opcOf_encRI, parseRI_encRI _ _ (shape_of_legalFcmp h)]; rfl)
  case mov o | sel o | cvt o | pack o | unpk o | prmb o | xshf o | xred o | xscn o | mxix o | rand o | clmp o |
      qnt o | dqnt o =>
    exact .ofRow none (opcOf_encR _ _) rfl rfl rfl
      (show row4 _ none = _ by rw [row4, bits_low_nibble, opcOf_encR, parseR_encR]; rfl)
  case movi o =>
    exact .ofRow none (opcOf_encW _ _) rfl rfl rfl
      (show row4 _ none = _ by rw [row4, bits_low_nibble, opcOf_encW, parseW_encW]; rfl)
  case rdsr o =>
    exact .ofRow none (opcOf_encS _ _) rfl rfl rfl
      (show row4 _ none = _ by rw [row4, bits_low_nibble, opcOf_encS, parseS_encS]; rfl)
  case tsum o | tdif o | tprd o | tfma o | ftsm o | xadd o | xsub o | xmul o | xacc o | xrnm o | xcpr o | xcmp o |
      xcvt o | xspl o | xtre o | xscl o =>
    exact .ofRow none (opcOf_encR _ _) rfl rfl rfl
      (show row5 _ none = _ by rw [row5, bits_low_nibble, opcOf_encR, parseR_encR]; rfl)
  case ldg o | stg o | lds o | sts o | ldw o | stw o | ldk o | stk o | gthr o | sctr o | pref o | wbk o | inv o |
      fnc o =>
    exact .ofRow none (opcOf_encM _ _) rfl rfl rfl
      (show row6 _ none = _ by rw [row6, bits_low_nibble, opcOf_encM, parseM_encM]; rfl)
  case sbnd o | sunb o =>
    exact .ofRow none (opcOf_encS _ _) rfl rfl rfl
      (show row6 _ none = _ by rw [row6, bits_low_nibble, opcOf_encS, parseS_encS]; rfl)
  case aadd o | afad o | acad o | amnx o | afmx o | amxi o | alop o | axch o | acas o | ainc o | ared o | waita o =>
    exact .ofRow none (opcOf_encM _ _) rfl rfl rfl
      (show row7 _ none = _ by rw [row7, bits_low_nibble, opcOf_encM, parseM_encM]; rfl)
  case tld o | tst o | ttrn o | tscl o | wld o | ald o | ast o =>
    exact .ofRow none (opcOf_encT _ _) rfl rfl rfl
      (show row8 _ none = _ by rw [row8, bits_low_nibble, opcOf_encT, parseT_encT]; rfl)
  case tzro o =>
    exact .ofRow none (opcOf_encT _ _) rfl rfl rfl
      (show row8 _ none = _ by simp [row8, legalTzro_nblk h])
  case tzroAcc o =>
    exact .ofRow none (opcOf_encT _ _) rfl rfl rfl
      (show row8 _ none = _ by simp [row8, legalTzroAcc_nblk h])
  case tmvv o =>
    exact .ofRow none (opcOf_encT _ _) rfl rfl rfl
      (show row8 _ none = _ by simp [row8, legalTmvv_mod h])
  case tmvvAcc o =>
    exact .ofRow none (opcOf_encT _ _) rfl rfl rfl
      (show row8 _ none = _ by simp [row8, legalTmvvAcc_mod h])
  case tmvt o =>
    exact .ofRow none (opcOf_encT _ _) rfl rfl rfl
      (show row8 _ none = _ by simp [row8, legalTmvt_mod h])
  case tmvtAcc o =>
    exact .ofRow none (opcOf_encT _ _) rfl rfl rfl
      (show row8 _ none = _ by simp [row8, legalTmvtAcc_mod h])
  case mma o | mmag o | mfct o | mtrs o =>
    exact .ofRow none (opcOf_encT _ _) rfl rfl rfl
      (show row9 _ none = _ by rw [row9, bits_low_nibble, opcOf_encT, parseT_encT]; rfl)
  case mfen o | mfenNum o | mestRd o | mestClr o | gang o | gangDis o =>
    exact .ofRow none (opcOf_encS _ _) rfl rfl rfl
      (show row9 _ none = _ by simp [row9, sub_of_legalMatS h])
  case lrec o | rbnd o | runb o | rtst o | rwt o =>
    exact .ofRow none (opcOf_encS _ _) rfl rfl rfl
      (show rowA _ none = _ by rw [rowA, bits_low_nibble, opcOf_encS, parseS_encS]; rfl)
  case rtchFill o | rtchOut o | cfen o | cfenNum o | hnewNew o | hnewFree o | rstaE o | rstaH o =>
    exact .ofRow none (opcOf_encS _ _) rfl rfl rfl
      (show rowA _ none = _ by simp [rowA, sub_of_legalCpy h])
  case bar o | bara o | barw o | phw o | tkg o | tkw o | tlw o | tlr o | tls o =>
    exact .ofRow none (opcOf_encS _ _) rfl rfl rfl
      (show rowB _ none = _ by rw [rowB, bits_low_nibble, opcOf_encS, parseS_encS]; rfl)
  case pha o | phaExpect o | phxExpect o | phxInit o | phxRead o =>
    exact .ofRow none (opcOf_encS _ _) rfl rfl rfl
      (show rowB _ none = _ by simp [rowB, sub_of_legalPh h])
  case tksSet o | tksInc o =>
    exact .ofRow none (opcOf_encS _ _) rfl rfl rfl
      (show rowB _ none = _ by simp [rowB, sub_of_legalTks h])
  case cmbr o | objr o =>
    exact .ofRow none (opcOf_encS _ _) rfl rfl rfl
      (show rowC _ none = _ by rw [rowC, bits_low_nibble, opcOf_encS, parseS_encS]; rfl)
  case gld o | gadd o | gmrg o | gset o =>
    exact .ofRow none (opcOf_encM _ _) rfl rfl rfl
      (show rowC _ none = _ by rw [rowC, bits_low_nibble, opcOf_encM, parseM_encM]; rfl)
  case cmb o | cmbNt o =>
    exact .ofRow none (opcOf_encS _ _) rfl rfl rfl
      (show rowC _ none = _ by simp [rowC, sub_of_legalCmb h])
  case objcClr o | objcDel o | gswpAdd o | gswpRem o | gstpAdd o | gstpRd o =>
    exact .ofRow none (opcOf_encS _ _) rfl rfl rfl
      (show rowC _ none = _ by simp [rowC, sub_of_legalPlainS h])
  case sol o | solw o | kins o | rsp o | solr o =>
    exact .ofRow none (opcOf_encS _ _) rfl rfl rfl
      (show rowD _ none = _ by rw [rowD, bits_low_nibble, opcOf_encS, parseS_encS]; rfl)
  case kdel o | kdelMv o =>
    exact .ofRow none (opcOf_encS _ _) rfl rfl rfl
      (show rowD _ none = _ by simp [rowD, sub_of_legalPlainS h])
  case trap o | tret o | tdone o | iprf o | modl o | modu o | cntr o | brk o | lnch o | migr o =>
    exact .ofRow none (opcOf_encS _ _) rfl rfl rfl
      (show rowE _ none = _ by rw [rowE, bits_low_nibble, opcOf_encS, parseS_encS]; rfl)
  case cntc o =>
    exact .ofRow none (opcOf_encS _ _) rfl rfl rfl
      (show rowE _ none = _ by simp [rowE, legalCntc_sub h])
  case cntcAll o =>
    exact .ofRow none (opcOf_encS _ _) rfl rfl rfl
      (show rowE _ none = _ by simp [rowE, legalCntcAll_sub h])
  case dgstOpen o | dgstRead o | dgstRecord o | dgstCheck o | pcol o | pcolNowait o =>
    exact .ofRow none (opcOf_encS _ _) rfl rfl rfl
      (show rowE _ none = _ by simp [rowE, sub_of_legalPlainS h])
  case sregRd o =>
    exact .ofRow none (opcOf_encS _ _) rfl rfl rfl
      (show rowE _ none = _ by simp [rowE, legalSregRd_sub h])
  case sregWr o =>
    exact .ofRow none (opcOf_encS _ _) rfl rfl rfl
      (show rowE _ none = _ by simp [rowE, legalSregWr_sub (r := none) h, legalSregWr_none_imm h])
  case preemptreq o =>
    exact .ofRow none (opcOf_encS _ _) rfl rfl rfl
      (show rowE _ none = _ by simp [rowE, legalSregWr_sub (r := some 2) h, legalSregWr_some_imm h])
  case resumereq o =>
    exact .ofRow none (opcOf_encS _ _) rfl rfl rfl
      (show rowE _ none = _ by simp [rowE, legalSregWr_sub (r := some 3) h, legalSregWr_some_imm h])
  all_goals exact absurd h Bool.false_ne_true

theorem ReadsBack.decode {i : Instr} (h : ReadsBack i) (hw : wellFormed i = true) (hs : illScope i = false) :
    ∃ w lit, encode i = w :: lit.toList ∧ twoSlot (opcOf w) = lit.isSome ∧ decode w lit = .ok i := by
  obtain ⟨w, lit, he, ha, ht, hp⟩ := h
  exact ⟨w, lit, he, ht, by simp [Sys2Proof.decode, ha, hp, hs, hw]⟩

theorem decodeBytes_one {w : DWord} {i : Instr} (rest : List Byte) (ht : twoSlot (opcOf w) = false)
    (hd : decode w none = .ok i) : decodeBytes (natToBytes 8 w.toNat ++ rest) = .ok (i, rest) := by
  simp [decodeBytes, ht, hd]

theorem decodeBytes_two {w x : DWord} {i : Instr} (rest : List Byte) (ht : twoSlot (opcOf w) = true)
    (hd : decode w (some x) = .ok i) :
    decodeBytes (natToBytes 8 w.toNat ++ (natToBytes 8 x.toNat ++ rest)) = .ok (i, rest) := by
  simp [decodeBytes, ht, hd]

/-- Settles O7: the opcode map reads every well-formed instruction back from its words, and no check of the decoder refuses
it. -/
theorem decodeEncodeRoundTrip : Obligations.DecodeEncodeRoundTrip := by
  intro i rest hw hs _
  obtain ⟨w, lit, he, ht, hd⟩ := (readsBack i hw).decode hw hs
  cases lit with
  | none => simpa [he] using decodeBytes_one rest ht hd
  | some x => simpa [he] using decodeBytes_two rest ht hd

/-! ### Unassigned opcodes (02 R57) -/

/-- The opcodes that the map leaves unassigned (02 R57), as the table of R56 leaves them. -/
theorem assigned_eq_false {n : Nat}
    (h : (0x7C ≤ n ∧ n ≤ 0x7F) ∨ (0x8A ≤ n ∧ n ≤ 0x8F) ∨ (0x97 ≤ n ∧ n ≤ 0x9F) ∨ (0xA9 ≤ n ∧ n ≤ 0xAF) ∨
      (0xBC ≤ n ∧ n ≤ 0xBF) ∨ (0xCA ≤ n ∧ n ≤ 0xCF) ∨ (0xD6 ≤ n ∧ n ≤ 0xDF) ∨ 0xEE ≤ n) : assigned n = false := by
  simp only [assigned, Bool.or_eq_false_iff, Bool.and_eq_false_iff, decide_eq_false_iff_not]
  omega

theorem decode_of_unassigned {w : DWord} (lit : Option DWord) (h : assigned (opcOf w) = false) :
    decode w lit = .error (.unassigned (opcOf w)) := by simp [decode, h]

theorem slotFault_of_unassigned (r : Machine.LaunchRec) (cls i : Nat) {w : DWord} (rest : List DWord)
    (h : assigned (opcOf w) = false) : Machine.slotFault r cls i (w :: rest) = some (i, .illop) := by
  unfold Machine.slotFault
  simp [h]

/-- Settles O8: the opcode is tested before anything else of the word, before its class too. -/
theorem unassignedOpcodesRefused : Obligations.UnassignedOpcodesRefused := by
  intro w lit r cls rest h
  have ha := assigned_eq_false h
  exact ⟨decode_of_unassigned lit ha, slotFault_of_unassigned r cls 0 rest ha⟩

end Sys2Proof
end

section
/-! REFUTATION of O57, scheduling and code fetch. The statement is made of every state, and `State.group?` finds the first group
of a name where `State.resident`, and with it the splits that wait for a line, lists every one. -/

namespace Sys2Proof.Machine

open Sys2Proof

/-- The line 0 on its way to partition 0 of core 0. -/
def lineZeroFill : IFill := ⟨7, ⟨false, 0, 0⟩, 0, 0, 0⟩

/-- A running group of slot 0 of core 0 with these entries in its split table. -/
def slotZeroGroup (sps : List Split) : Group := { (default : Group) with phase := .running, splits := sps }

/-- Two groups of one name: the first has an empty split table, the second a split that waits for line 0. Every controller
translates the line's page. -/
def twinState : State :=
  { State.reset with
    groups := [slotZeroGroup [], slotZeroGroup [{ Split.free with state := .blocked, wait := .fetch }]]
    tlb := (List.range 8).map (fun k => (k, [⟨0, 0, 2, 0x13⟩]))
    ifills := [lineZeroFill] }

/-- The state of split 0 of the group that the name of slot 0 finds after an answer. -/
def splitZeroAfter : Out → Option SplitState
  | .next t => (t.group? ⟨false, 0, 0, 0⟩).map (fun g => (g.split 0).state)
  | _ => none

theorem twinState_mapped : twinState.rangeFault 0 0 0 128 false = none := by decide +kernel

theorem twinState_unpoisoned : twinState.poisonAt 0 0 0 128 = none := by decide +kernel

theorem twinState_waits : (⟨false, 0, 0, 0⟩, 0) ∈ twinState.lineWaiters lineZeroFill := by decide +kernel

theorem splitZeroAfter_twinState_fill :
    splitZeroAfter (exec (.ifetchLineArrival 7) twinState) = some .free := by decide +kernel

/-- Refutes O57, in its last clause: in `twinState` the split of the second group waits for the line that arrives, but the
group its name finds is the first, whose split 0 is free and stays free. Nothing in the statement says that groups have
names of their own. -/
theorem not_schedulerAndFetch : ¬ Obligations.SchedulerAndFetch := by
  rintro ⟨-, -, -, -, hfill⟩
  obtain ⟨hland, -⟩ := hfill twinState 7 lineZeroFill rfl
  obtain ⟨t, ht, -, -, -, -, -, -, hready⟩ := hland twinState_mapped twinState_unpoisoned
  obtain ⟨g, hg, hst⟩ := hready ⟨false, 0, 0, 0⟩ 0 twinState_waits
  have hfree := splitZeroAfter_twinState_fill
  rw [ht, splitZeroAfter, hg, Option.map_some, hst] at hfree
  exact absurd hfree (by decide)

end Sys2Proof.Machine
end

section
/-! PROOF of O36, the places that perform accesses of a wider scope. What home slices and controllers do takes no notice of the
rest of the machine (`State.over`), so that they and the caches above them keep it (`State.Kept`); a lane's event at a remote place
is then one read and one write there and the replies of the lanes performed with it (`State.Beyond.performLane_spec`). -/

namespace Sys2Proof.Machine

open Sys2Proof

/-! ### Home slices and controllers apart from the rest of the machine -/

/-- The machine r with the home slices, the memory controllers and what they read as they are in s. -/
def State.over (s r : State) : State :=
  { r with
    tick := s.tick, hbm := s.hbm, poison := s.poison, slices := s.slices, remap := s.remap, tlb := s.tlb,
    engWords := s.engWords, regs := s.regs, migrs := s.migrs, kports := s.kports, lostBytes := s.lostBytes,
    parts := s.parts, pkg := s.pkg, spillBase := s.spillBase, spillPrev := s.spillPrev, modAt := s.modAt,
    codeHist := s.codeHist }

@[simp] theorem State.xlate_over (s r : State) (die asid va : Nat) : (s.over r).xlate die asid va = s.xlate die asid va := rfl
@[simp] theorem State.homeOf_over (s r : State) (die asid va : Nat) : (s.over r).homeOf die asid va = s.homeOf die asid va := rfl
@[simp] theorem State.memKey_over (s r : State) (x : Xl) : (s.over r).memKey x = s.memKey x := rfl
@[simp] theorem State.sliceLines_over (s r : State) (h : Nat × Nat) : (s.over r).sliceLines h = s.sliceLines h := rfl
@[simp] theorem State.noPoison_over (s r : State) : (s.over r).noPoison = s.noPoison := rfl

/-- What acts on a machine alike for all its parts outside the homes does so over a list. -/
theorem State.foldl_over {β : Type} {f : State → β → State} (hf : ∀ s r b, f (s.over r) b = (f s b).over r) (s r : State)
    (l : List β) : l.foldl f (s.over r) = (l.foldl f s).over r := by
  induction l generalizing s with
  | nil => rfl
  | cons b l ih => rw [List.foldl_cons, hf, ih, List.foldl_cons]

theorem State.ctlWrite_over (s r : State) (x : Xl) (bs : List Byte) : (s.over r).ctlWrite x bs = (s.ctlWrite x bs).over r := by
  unfold State.ctlWrite
  rw [show (s.over r).unreachable x = s.unreachable x from rfl,
    show (s.over r).migrOf ((s.over r).memKey x) = s.migrOf (s.memKey x) from rfl]
  split
  · rfl
  · split <;> rfl

theorem State.engDrop_over (s r : State) (asid a : Nat) : (s.over r).engDrop asid a = (s.engDrop asid a).over r := by
  unfold State.engDrop
  rw [show (s.over r).engWords = s.engWords from rfl]
  split <;> rfl

theorem State.sliceFlush_over (s r : State) (die : Nat) (l : Line) : (s.over r).sliceFlush die l = (s.sliceFlush die l).over r := by
  unfold State.sliceFlush
  rw [State.xlate_over]
  split
  · rfl
  · rw [State.foldl_over]
    · rfl
    · intro s r sec
      dsimp only
      split
      · exact s.ctlWrite_over r ..
      · refine State.foldl_over (fun s r i => ?_) s r _
        split
        · exact s.ctlWrite_over r ..
        · rfl

theorem State.sliceRoom_over (s r : State) (die : Nat) (h : Nat × Nat) (line : Nat) :
    (s.over r).sliceRoom die h line = (s.sliceRoom die h line).over r := by
  unfold State.sliceRoom
  rw [State.sliceLines_over, show (s.over r).tick = s.tick from rfl]
  dsimp only
  split
  · rfl
  · split
    · rfl
    · rw [State.sliceFlush_over]; rfl

theorem State.sliceAlloc_over (s r : State) (die : Nat) (h : Nat × Nat) (asid va prio : Nat) (leaf : DWord) :
    (s.over r).sliceAlloc die h asid va prio leaf = (s.sliceAlloc die h asid va prio leaf).over r := by
  unfold State.sliceAlloc
  rw [State.sliceLines_over]
  split
  · rfl
  · rw [State.sliceRoom_over]; rfl

theorem State.sliceTouch_over (s r : State) (die asid va prio : Nat) (last : Bool) :
    (s.over r).sliceTouch die asid va prio last = (s.sliceTouch die asid va prio last).over r := by
  unfold State.sliceTouch
  rw [State.xlate_over]
  split
  · rfl
  · simp only [State.homeOf_over, State.sliceLines_over]
    split
    · rfl
    · rw [State.sliceFlush_over]
      split <;> rfl

theorem State.homePut_over (s r : State) (die asid va prio : Nat) (b : Byte) :
    (s.over r).homePut die asid va prio b = (s.homePut die asid va prio b).over r := by
  unfold State.homePut
  rw [State.xlate_over]
  split
  · rw [State.engDrop_over]
    dsimp only
    split
    · exact State.ctlWrite_over ..
    · rw [State.homeOf_over, State.sliceAlloc_over]; rfl
  · dsimp only
    rw [State.homeOf_over, State.sliceAlloc_over]; rfl

theorem State.homeClearPoison_over (s r : State) (die asid va len : Nat) :
    (s.over r).homeClearPoison die asid va len = (s.homeClearPoison die asid va len).over r := by
  refine State.foldl_over (fun s r i => ?_) s r _
  dsimp only
  rw [State.xlate_over]
  split
  · split
    · split <;> rfl
    · rfl
  · rfl

theorem State.codeNote_over (s r : State) (die asid va n : Nat) :
    (s.over r).codeNote die asid va n = (s.codeNote die asid va n).over r := by
  unfold State.codeNote
  rw [show (s.over r).modAt = s.modAt from rfl]
  split
  · rfl
  · exact State.foldl_over (fun s r l => rfl) s r _

theorem State.homeStore_over (s r : State) (die asid va : Nat) (bs : List Byte) :
    (s.over r).homeStore die asid va bs = (s.homeStore die asid va bs).over r := by
  unfold State.homeStore
  rw [State.codeNote_over, State.foldl_over fun s r x => State.homePut_over ..]
  dsimp only
  rw [State.noPoison_over, State.homeClearPoison_over]
  split <;> rfl

theorem State.homePoison_over (s r : State) (die asid va : Nat) :
    (s.over r).homePoison die asid va = (s.homePoison die asid va).over r := by
  unfold State.homePoison
  rw [State.xlate_over]
  split
  · rfl
  · split
    · dsimp only
      rw [State.memKey_over, show (s.over r).poison = s.poison from rfl]
      split <;> rfl
    · rfl

/-! ### What the work of caches and home slices keeps -/

/-- The accesses of a machine, of which WAITAs alone may meanwhile have met their condition (08 R249). -/
def WaitasMet (old new : List MemOp) : Prop :=
  ∃ f : MemOp → Bool, (∀ o, o.kind ≠ .waita → f o = o.met) ∧ new = old.map (fun o => { o with met := f o })

theorem WaitasMet.refl (l : List MemOp) : WaitasMet l l := ⟨fun o => o.met, fun _ _ => rfl, by simp⟩

theorem WaitasMet.trans {a b c : List MemOp} : WaitasMet a b → WaitasMet b c → WaitasMet a c := by
  rintro ⟨f, hf, rfl⟩ ⟨g, hg, rfl⟩
  exact ⟨fun o => g { o with met := f o }, fun o ho => (hg { o with met := f o } ho).trans (hf o ho), by simp⟩

theorem WaitasMet.metOnly {a b : List MemOp} : WaitasMet a b → MetOnly a b := fun ⟨f, _, h⟩ => ⟨f, h⟩

theorem State.watch_ops (s : State) : WaitasMet s.ops s.watch.ops := by
  unfold State.watch
  split
  · refine ⟨fun o => if o.kind = .waita && !o.met && o.lanes.all (fun l => l.status = .accepted) && s.waitaMet o then true
      else o.met, fun o ho => by simp [ho], List.map_congr_left fun o _ => ?_⟩
    dsimp only
    split <;> rfl
  · exact .refl _

/-- From s to t only caches, home slices and memory have changed, with what is noted of them and the counters. -/
structure State.Kept (s t : State) : Prop where
  groups : t.groups = s.groups
  launches : t.launches = s.launches
  onchip : t.onchip = s.onchip
  lastPeer : t.lastPeer = s.lastPeer
  seen : WaitasMet s.ops t.ops

theorem State.Kept.refl (s : State) : s.Kept s := ⟨rfl, rfl, rfl, rfl, .refl _⟩

section
variable {r s t : State}

theorem State.Kept.upd (h : r.Kept s) (groups : t.groups = s.groups := by rfl) (launches : t.launches = s.launches := by rfl)
    (onchip : t.onchip = s.onchip := by rfl) (lastPeer : t.lastPeer = s.lastPeer := by rfl) (ops : t.ops = s.ops := by rfl) :
    r.Kept t :=
  ⟨groups.trans h.groups, launches.trans h.launches, onchip.trans h.onchip, lastPeer.trans h.lastPeer, ops ▸ h.seen⟩

/-- A machine that differs in its homes only. -/
theorem State.Kept.over (h : r.Kept s) (ht : t = t.over s) : r.Kept t := by
  rw [ht]; exact h.upd

theorem State.Kept.ite {p : Prop} {_ : Decidable p} (hs : r.Kept s) (ht : r.Kept t) : r.Kept (if p then s else t) := by
  split
  · exact hs
  · exact ht

theorem State.Kept.foldl {β : Type} {f : State → β → State} (h : r.Kept s) (l : List β)
    (hf : ∀ s b, r.Kept s → r.Kept (f s b)) : r.Kept (l.foldl f s) :=
  List.foldlRecOn l f h fun s hs b _ => hf s b hs

theorem State.Kept.count {c : CoreRef} {a b n : Nat} (h : r.Kept s) : r.Kept (s.count c a b n) := by
  obtain ⟨k, hk⟩ := s.count_eq c a b n
  rw [hk]; exact h.upd

theorem State.Kept.watch (h : r.Kept s) : r.Kept s.watch := by
  obtain ⟨l, hl, -⟩ := s.watch_eq
  have hseen := s.watch_ops
  rw [hl] at hseen ⊢
  exact ⟨h.groups, h.launches, h.onchip, h.lastPeer, h.seen.trans hseen⟩

theorem State.Kept.setL1 {c : CoreRef} {ls : List Line} (h : r.Kept s) : r.Kept (s.setL1 c ls) := h.upd

theorem State.Kept.homePut {die asid va prio : Nat} {b : Byte} (h : r.Kept s) : r.Kept (s.homePut die asid va prio b) :=
  h.over (s.homePut_over s ..)

theorem State.Kept.sliceTouch {die asid va prio : Nat} {last : Bool} (h : r.Kept s) :
    r.Kept (s.sliceTouch die asid va prio last) := h.over (s.sliceTouch_over s ..)

theorem State.Kept.homeWrite {die asid va : Nat} {bs : List Byte} (h : r.Kept s) : r.Kept (s.homeWrite die asid va bs) :=
  .watch (h.over (s.homeStore_over s ..))

theorem State.Kept.quadForget {q : Nat × Nat} {asid a n : Nat} (h : r.Kept s) : r.Kept (s.quadForget q asid a n) :=
  .ite h.upd h

theorem State.Kept.quadYield {q : Nat × Nat} {asid a n : Nat} (h : r.Kept s) : r.Kept (s.quadYield q asid a n) :=
  .ite h h.quadForget

theorem State.Kept.quadPut {q : Nat × Nat} {asid a : Nat} {bs : List Byte} (h : r.Kept s) : r.Kept (s.quadPut q asid a bs) :=
  .upd h.quadForget

theorem State.Kept.l1Flush {c : CoreRef} {l : Line} {counted : Bool} (h : r.Kept s) : r.Kept (s.l1Flush c l counted) :=
  .ite h (.watch (.count (.foldl (.foldl (h.over (s.codeNote_over s ..)) _ fun _ _ hs => .homePut hs.quadYield) _
    fun s _ hs => hs.over (s.homePoison_over s ..))))

theorem State.Kept.l1WriteBack {c : CoreRef} {asid va : Nat} {counted : Bool} (h : r.Kept s) :
    r.Kept (s.l1WriteBack c asid va counted) := by
  unfold State.l1WriteBack
  split
  · exact h
  · exact .setL1 h.l1Flush

theorem State.Kept.l1Invalidate {c : CoreRef} {asid va : Nat} {counted : Bool} (h : r.Kept s) :
    r.Kept (s.l1Invalidate c asid va counted) := by
  unfold State.l1Invalidate
  split
  · exact h
  · exact .setL1 h.l1Flush

theorem State.Kept.l1Alloc {c : CoreRef} {asid va prio : Nat} {leaf : DWord} (h : r.Kept s) :
    r.Kept (s.l1Alloc c asid va prio leaf) := by
  unfold State.l1Alloc
  split
  · exact h
  · refine .setL1 (.ite h ?_)
    split
    · exact h
    · exact h.l1Invalidate

theorem State.Kept.l1Sync {c : CoreRef} {asid a n : Nat} (h : r.Kept s) : r.Kept (s.l1Sync c asid a n) := by
  refine .ite h ?_
  split
  · exact h
  · exact .setL1 (.ite h.l1WriteBack h)

theorem State.Kept.touchPrio {c : CoreRef} {asid a : Nat} {p : Policy} (h : r.Kept s) : r.Kept (s.touchPrio c asid a p) :=
  .ite h (.setL1 (.ite h.l1WriteBack h))

theorem State.Kept.roFilled {c : CoreRef} {asid a : Nat} {leaf : DWord} (h : r.Kept s) : r.Kept (s.roFilled c asid a leaf) :=
  .ite h h.upd

end

/-- The places whose accesses have an event of their own (03 R73, 12 R343, 14 R415, R422). -/
theorem PlaceK.remote_iff (p : PlaceK) : p.remote = true ↔ p = .quad ∨ p = .home ∨ p = .port ∨ p = .stack := by
  cases p <;> decide

/-- What a place beyond the L1D does before an access (03 R61, R63, R73). -/
theorem State.reach_kept (s : State) (o : MemOp) {p : PlaceK} (a n : Nat) (hp : p.remote = true) : s.Kept (s.reach o p a n) := by
  have h := State.Kept.refl s
  obtain rfl | rfl | rfl | rfl := p.remote_iff.1 hp
  · exact .ite h.l1Sync (.quadPut h.l1Sync)
  all_goals exact .ite (.quadForget h.l1Sync) h

theorem State.readTouch_kept (s : State) (o : MemOp) {p : PlaceK} (a : Nat) (hp : p.remote = true) : s.Kept (s.readTouch o p a) := by
  have h := State.Kept.refl s
  obtain rfl | rfl | rfl | rfl := p.remote_iff.1 hp
  · exact h.sliceTouch
  · exact h.sliceTouch
  · exact h.sliceTouch
  · exact h

theorem State.placeWrite_kept (s : State) (o : MemOp) {p : PlaceK} (a : Nat) (bs : List Byte) (ls : List Nat)
    (hp : p.remote = true) : s.Kept (s.placeWrite o p a bs ls) := by
  have h := State.Kept.refl s
  obtain rfl | rfl | rfl | rfl := p.remote_iff.1 hp
  · exact h.quadPut.upd
  all_goals exact h.homeWrite.sliceTouch

/-! ### The lanes of an operation (03 R62) -/

/-- The lane of this number of the operation with this identifier. -/
def State.lane? (s : State) (id n : Nat) : Option LaneAcc := (s.op? id).bind (fun o => o.lanes.find? (fun l => l.lane = n))

theorem State.lane?_eq_some {s : State} {id n : Nat} {l : LaneAcc} :
    s.lane? id n = some l ↔ ∃ o, s.op? id = some o ∧ o.lanes.find? (fun l => l.lane = n) = some l := Option.bind_eq_some_iff

/-- Operations changed one by one, none in its identifier. -/
theorem State.op?_of_map {s t : State} {f : MemOp → MemOp} (h : t.ops = s.ops.map f) (hf : ∀ o, (f o).id = o.id) (id : Nat) :
    t.op? id = (s.op? id).map f := by
  simp only [State.op?, h, List.find?_map, Function.comp_def, hf]

/-- The lanes of operations changed one by one, none in its number. -/
theorem State.lane?_of_map {s t : State} {f : MemOp → LaneAcc → LaneAcc}
    (h : t.ops = s.ops.map (fun o => { o with lanes := o.lanes.map (f o) })) (hf : ∀ o l, (f o l).lane = l.lane) {id n : Nat} {o : MemOp}
    (ho : s.op? id = some o) : t.lane? id n = (s.lane? id n).map (f o) := by
  rw [State.lane?, State.lane?, State.op?_of_map h (fun _ => rfl), ho]
  simp only [Option.map_some, Option.bind_some, List.find?_map, Function.comp_def, hf]

theorem State.Kept.op? {s t : State} (h : s.Kept t) {id : Nat} {o : MemOp} (ho : s.op? id = some o) :
    ∃ b, t.op? id = some { o with met := b } ∧ (o.kind ≠ .waita → b = o.met) := by
  obtain ⟨f, hf, hops⟩ := h.seen
  exact ⟨f o, by rw [State.op?_of_map hops (fun _ => rfl), ho, Option.map_some], hf o⟩

theorem State.Kept.lane? {s t : State} (h : s.Kept t) {id n : Nat} {l : LaneAcc} (hl : s.lane? id n = some l) :
    t.lane? id n = some l := by
  obtain ⟨o, ho, hfind⟩ := State.lane?_eq_some.1 hl
  obtain ⟨b, hb, -⟩ := h.op? ho
  exact State.lane?_eq_some.2 ⟨_, hb, hfind⟩

/-- A lane's access performed with this reply. -/
def LaneAcc.answered (l : LaneAcc) (y : List Byte) (eng : Bool) : LaneAcc := { l with status := .performed, reply := y, eng := eng }

/-- Lanes of an operation performed, each with the lanes combined into it. -/
def State.setLanes (s : State) (id : Nat) (ks : List LaneAcc) : State := ks.foldl (fun s k => s.setLane id k) s

theorem State.setLanes_eq (s : State) (id : Nat) (ks : List LaneAcc) : ∃ l, s.setLanes id ks = { s with ops := l } := by
  induction ks generalizing s with
  | nil => exact ⟨s.ops, rfl⟩
  | cons k ks ih => obtain ⟨l, hl⟩ := ih (s.setLane id k); exact ⟨l, hl⟩

/-- What becomes of a lane of an operation when one is performed. -/
theorem State.lane?_setLane {s : State} {id n : Nat} {x : LaneAcc} (hx : s.lane? id n = some x) (k : LaneAcc) :
    (s.setLane id k).lane? id n = some (if x.lane = k.lane then k
      else if k.joined.contains (id, x.lane) then { x with status := .performed } else x) := by
  obtain ⟨o, ho, -⟩ := State.lane?_eq_some.1 hx
  have hid := State.op?_id ho
  rw [State.lane?_of_map (f := fun p x => if p.id = id && x.lane = k.lane then k
      else if k.joined.contains (p.id, x.lane) then { x with status := .performed } else x) rfl (fun p x => ?_) ho, hx]
  · simp [hid]
  · split
    · next h => simp only [Bool.and_eq_true, decide_eq_true_eq] at h; exact h.2.symm
    · split <;> rfl

/-- A performed lane stays so with its reply while others are performed with that reply. -/
theorem State.setLanes_keeps_answered {s : State} {id n : Nat} {y : List Byte} {ks : List LaneAcc}
    (hks : ∀ k ∈ ks, k.status = .performed ∧ k.reply = y) (hs : ∃ x, s.lane? id n = some x ∧ x.status = .performed ∧ x.reply = y) :
    ∃ x, (s.setLanes id ks).lane? id n = some x ∧ x.status = .performed ∧ x.reply = y := by
  induction ks generalizing s with
  | nil => exact hs
  | cons k ks ih =>
    obtain ⟨x, hx, hst, hy⟩ := hs
    refine ih (fun k' hk' => hks k' (by simp [hk'])) ⟨_, State.lane?_setLane hx k, ?_⟩
    split
    · exact hks k (by simp)
    · split
      · exact ⟨rfl, hy⟩
      · exact ⟨hst, hy⟩

/-- A lane that is among those performed is performed, with the reply of them all. -/
theorem State.setLanes_answers {s : State} {id n : Nat} {l : LaneAcc} {y : List Byte} {ks : List LaneAcc}
    (hks : ∀ k ∈ ks, k.status = .performed ∧ k.reply = y) (hl : s.lane? id n = some l) (hn : ∃ k ∈ ks, k.lane = n) :
    ∃ x, (s.setLanes id ks).lane? id n = some x ∧ x.status = .performed ∧ x.reply = y := by
  induction ks generalizing s l with
  | nil => obtain ⟨k, hk, -⟩ := hn; cases hk
  | cons k ks ih =>
    have hks' : ∀ k' ∈ ks, k'.status = .performed ∧ k'.reply = y := fun k' hk' => hks k' (by simp [hk'])
    have hlane : l.lane = n := by
      obtain ⟨o, -, hfind⟩ := State.lane?_eq_some.1 hl
      simpa using List.find?_some hfind
    have hstep := State.lane?_setLane hl k
    by_cases hk : k.lane = n
    · rw [if_pos (hlane.trans hk.symm)] at hstep
      exact State.setLanes_keeps_answered (s := s.setLane id k) hks' ⟨k, hstep, hks k (by simp)⟩
    · refine ih hks' hstep ?_
      obtain ⟨k', hk', hn'⟩ := hn
      rcases List.mem_cons.1 hk' with rfl | hk'
      · exact absurd hn' hk
      · exact ⟨k', hk', hn'⟩

/-! ### A lane performed beyond the L1D (03 R62, R73) -/

/-- The lane whose bytes an access has: of those performed together the last (03 R62). -/
def MemOp.lastMate (o : MemOp) (p : PlaceK) (l : LaneAcc) : LaneAcc := (o.mates p l).getLast?.getD l

/-- What the access of a lane makes of the bytes that its place holds: those it writes, if it does, and its reply. -/
def State.accessResult (s : State) (o : MemOp) (p : PlaceK) (l : LaneAcc) : Option (List Byte) × List Byte :=
  o.apply (o.lastMate p l) (s.stepFor o p l.addr) (s.factorsOf o) (s.placeRead o p l.addr o.size)

/-- The machine after the access of a lane at its place: a write, or a read. -/
def State.afterAccess (s : State) (o : MemOp) (p : PlaceK) (l : LaneAcc) : State :=
  match (s.accessResult o p l).1 with
  | some bs => s.placeWrite o p l.addr bs ((o.mates p l).map (·.lane))
  | none => s.readTouch o p l.addr

theorem State.afterAccess_of_read {s : State} {o : MemOp} {p : PlaceK} {l : LaneAcc} (h : (s.accessResult o p l).1 = none) :
    s.afterAccess o p l = s.readTouch o p l.addr := by rw [State.afterAccess, h]

theorem State.afterAccess_of_write {s : State} {o : MemOp} {p : PlaceK} {l : LaneAcc} {bs : List Byte}
    (h : (s.accessResult o p l).1 = some bs) :
    s.afterAccess o p l = s.placeWrite o p l.addr bs ((o.mates p l).map (·.lane)) := by rw [State.afterAccess, h]

theorem State.afterAccess_kept (s : State) (o : MemOp) {p : PlaceK} (l : LaneAcc) (hp : p.remote = true) :
    s.Kept (s.afterAccess o p l) := by
  unfold State.afterAccess
  split
  · exact s.placeWrite_kept o _ _ _ hp
  · exact s.readTouch_kept o _ hp

/-- A lane of an operation stands to be performed beyond the L1D; no lane of the operation releases, and it is no
compensated pair. -/
structure State.Beyond (s : State) (op lane : Nat) (o : MemOp) (p : PlaceK) (l : LaneAcc) : Prop where
  found : s.op? op = some o
  lane : o.lanes.find? (fun l => l.lane = lane) = some l
  place : s.placeFor o l = p
  remote : p.remote = true
  noWaita : o.kind ≠ .waita
  may : s.mayPerform o l = true
  noPair : o.isPair = false
  noRelease : ∀ k ∈ o.lanes, s.releaseFor o k = s

theorem State.releaseFor_eq_self {s : State} {o : MemOp} {l : LaneAcc} (hf : l.fence = none) (h : o.ord < 2 ∨ o.writes = false) :
    s.releaseFor o l = s := by
  have hno : ¬((decide (2 ≤ o.ord) && o.writes) = true) := by
    rcases h with h | h
    · simp; omega
    · simp [h]
  simp only [State.releaseFor, hf]
  rw [if_neg (by simpa using hno)]

/-- On-chip accesses are performed on chip. -/
theorem State.oc_of_remote {s : State} {o : MemOp} {l : LaneAcc} (h : (s.placeFor o l).remote = true) : o.oc l = none := by
  by_contra hoc
  have hsome : (o.oc l).isSome = true := Option.isSome_iff_ne_none.2 hoc
  simp only [State.placeFor, hsome, if_true] at h
  split at h <;> exact absurd h (by decide)

theorem MemOp.oc_congr (o : MemOp) {k l : LaneAcc} (h : k.addr = l.addr) : o.oc k = o.oc l := by simp only [MemOp.oc, h]

theorem State.accepted_of_mayPerform {s : State} {o : MemOp} {l : LaneAcc} (h : s.mayPerform o l = true) : l.status = .accepted := by
  simp only [State.mayPerform, State.laneReady, State.laneHere, Bool.and_eq_true, beq_iff_eq] at h
  exact h.1.1.1.1.1.1

theorem State.ownHeld_eq (s u : State) (src : List WriteSrc) : ∃ m, s.ownHeld u src = { s with migrs := m } := by
  unfold State.ownHeld
  split
  · exact ⟨s.migrs, rfl⟩
  · exact ⟨_, rfl⟩

section
variable {s : State} {op lane : Nat} {o : MemOp} {p : PlaceK} {l : LaneAcc} (h : s.Beyond op lane o p l)
include h

theorem State.Beyond.ne_merge : (p == .merge) = false := by
  obtain rfl | rfl | rfl | rfl := p.remote_iff.1 h.remote <;> rfl

theorem State.Beyond.mem : l ∈ o.lanes := List.mem_of_find?_eq_some h.lane

theorem State.Beyond.laneNo : l.lane = lane := by simpa using List.find?_some h.lane

theorem State.Beyond.oc_eq : o.oc l = none := State.oc_of_remote (h.place ▸ h.remote)

/-- The lanes performed with a lane: it alone in an atomic, else those that have its address. -/
theorem State.Beyond.mates_eq : o.mates p l =
    if o.isAtomic then [l] else o.lanes.filter (fun k => k.addr == l.addr && k.status != .performed) := by
  simp only [MemOp.mates, h.ne_merge, Bool.or_false]

theorem State.Beyond.mem_mates : l ∈ o.mates p l := by
  rw [h.mates_eq]
  split
  · simp
  · simp [h.mem, State.accepted_of_mayPerform h.may]

theorem State.Beyond.of_mem_mates {k : LaneAcc} (hk : k ∈ o.mates p l) : k ∈ o.lanes ∧ k.addr = l.addr ∧ o.mates p k = o.mates p l := by
  have hk' := hk
  rw [h.mates_eq] at hk'
  split at hk'
  · obtain rfl := List.mem_singleton.1 hk'
    exact ⟨h.mem, rfl, rfl⟩
  · next hat =>
    obtain ⟨hmem, hprop⟩ := List.mem_filter.1 hk'
    have haddr : k.addr = l.addr := by simp only [Bool.and_eq_true, beq_iff_eq] at hprop; exact hprop.1
    exact ⟨hmem, haddr, by simp [MemOp.mates, hat, h.ne_merge, haddr]⟩

theorem State.Beyond.lastMate_mem : o.lastMate p l ∈ o.mates p l := by
  unfold MemOp.lastMate
  cases hx : (o.mates p l).getLast? with
  | none => exact h.mem_mates
  | some k => exact List.mem_of_getLast? hx

/-- The indivisible step at the place: the bytes are brought there, read, and written by the last lane's access. -/
theorem State.Beyond.performAt_lastMate :
    let u := s.reach o p l.addr o.size
    ∃ m e, s.performAt o p (o.lastMate p l) =
      ({ u.afterAccess o p l with migrs := m }, (o.lastMate p l).answered (u.accessResult o p l).2 e) := by
  obtain ⟨hmem, haddr, hmates⟩ := h.of_mem_mates h.lastMate_mem
  have hoc : o.oc (o.lastMate p l) = none := (o.oc_congr haddr).trans h.oc_eq
  have hspans : o.spans (o.lastMate p l) = [(l.addr, o.size)] := by simp [MemOp.spans, h.noPair, hoc, haddr]
  have hmerge : p ≠ .merge := by simpa using h.ne_merge
  intro u
  obtain ⟨m, hm⟩ := (u.afterAccess o p l).ownHeld_eq u (u.writersOf o p (o.lastMate p l))
  refine ⟨m, u.sawEngine o (o.lastMate p l) (u.placeRead o p l.addr o.size), ?_⟩
  rw [← hm]
  simp only [State.performAt, LaneAcc.answered, haddr, hoc, hspans, hmates, h.noRelease _ hmem, h.noPair, Option.getD_none, List.foldl_cons,
    List.foldl_nil, if_neg hmerge, Bool.false_eq_true, if_false]
  rfl

/-- All the lanes performed together have the reply of the one whose bytes the access has. -/
theorem State.Beyond.performMates_eq :
    let u := s.reach o p l.addr o.size
    ∃ m e, s.performMates o p l = State.setLanes { u.afterAccess o p l with migrs := m } o.id
      ((o.mates p l).map (fun k => k.answered (u.accessResult o p l).2 e)) := by
  obtain ⟨m, e, hperf⟩ := h.performAt_lastMate
  refine ⟨m, e, ?_⟩
  have hrel : (o.mates p l).dropLast.foldl (fun (s : State) k => s.releaseFor o k) s = s :=
    foldl_eq_self fun k hk => h.noRelease k (h.of_mem_mates (List.mem_of_mem_dropLast hk)).1
  simp only [State.performMates, hrel, h.ne_merge, Bool.or_false]
  rw [show (o.mates p l).getLast?.getD l = o.lastMate p l from rfl, hperf]
  cases hat : o.isAtomic with
  | false => rfl
  | true =>
    have hsingle : o.mates p l = [l] := by simp [MemOp.mates, hat]
    have hlast : o.lastMate p l = l := by simp [MemOp.lastMate, hsingle]
    rw [hsingle, hlast, if_pos rfl]
    rfl

theorem State.Beyond.performLane_eq : performLane p op lane s = s.performMates o p l := by
  simp only [performLane, h.found, h.lane]
  exact if_pos (by simp [h.place, h.noWaita, h.may])

/-- A lane performed by its event: the place is as the access leaves it, the lane has the access's reply, and only the
owners of held writes are noted besides. -/
theorem State.Beyond.performLane_spec :
    let u := s.reach o p l.addr o.size
    ∃ ops m, performLane p op lane s = { u.afterAccess o p l with ops := ops, migrs := m } ∧
      ∃ l', (performLane p op lane s).lane? op lane = some l' ∧ l'.status = .performed ∧ l'.reply = (u.accessResult o p l).2 := by
  intro u
  obtain ⟨m, e, hperf⟩ := h.performMates_eq
  have hv : (u.afterAccess o p l).lane? op lane = some l :=
    (u.afterAccess_kept o l h.remote).lane? ((s.reach_kept o l.addr o.size h.remote).lane?
      (State.lane?_eq_some.2 ⟨o, h.found, h.lane⟩))
  obtain ⟨ops, hops⟩ := ({ u.afterAccess o p l with migrs := m } : State).setLanes_eq o.id
    ((o.mates p l).map (fun k => k.answered (u.accessResult o p l).2 e))
  rw [h.performLane_eq, hperf]
  refine ⟨ops, m, hops, ?_⟩
  obtain rfl := State.op?_id h.found
  refine State.setLanes_answers (fun k hk => ?_) (s := { u.afterAccess o p l with migrs := m }) hv
    ⟨l.answered _ e, List.mem_map_of_mem h.mem_mates, h.laneNo⟩
  obtain ⟨k', -, rfl⟩ := List.mem_map.1 hk
  exact ⟨rfl, rfl⟩

end

/-! ### The events of the places (12 R343, 14 R415, R422, 03 R73) -/

theorem State.homeCount_eq (s s' : State) (op lane : Nat) : ∃ c, s.homeCount op lane s' = { s' with counters := c } := by
  unfold State.homeCount
  split
  · split
    · split
      · exact State.count_eq ..
      · exact ⟨_, rfl⟩
    · exact ⟨_, rfl⟩
  · exact ⟨_, rfl⟩

/-- An atomic at a port is counted there besides. -/
theorem execPortAtomic_eq (op lane : Nat) (s : State) :
    ∃ c, execPortAtomic op lane s = .next { performLane .port op lane s with counters := c } := by
  unfold execPortAtomic
  dsimp only
  split
  · split
    · obtain ⟨c, hc⟩ := State.count_eq (performLane .port op lane s) _ _ _ _
      exact ⟨c, congrArg Host.Outcome.next hc⟩
    · exact ⟨_, rfl⟩
  · exact ⟨_, rfl⟩

theorem execHomeAtomic_eq (op lane : Nat) (s : State) :
    ∃ c, execHomeAtomic op lane s = .next { performLane .home op lane s with counters := c } := by
  obtain ⟨c, hc⟩ := s.homeCount_eq (performLane .home op lane s) op lane
  exact ⟨c, congrArg Host.Outcome.next hc⟩

/-- Which event performs a lane at the home slice or at a port, and what it counts. -/
theorem exec_homeOrPort {s : State} {op lane : Nat} {p : PlaceK} {i : Instr}
    (hi : (p = .home ∧ i = .homeAtomic op lane) ∨ (p = .port ∧ i = .portAtomic op lane)) :
    ∃ c, exec i s = .next { performLane p op lane s with counters := c } := by
  obtain ⟨rfl, rfl⟩ | ⟨rfl, rfl⟩ := hi
  · exact execHomeAtomic_eq op lane s
  · exact execPortAtomic_eq op lane s

/-- A lane whose access neither releases nor carries a fence stands to be performed at the home slice, a port or the quad unit. -/
theorem State.Beyond.of_unordered {s : State} {op lane : Nat} {o : MemOp} {p : PlaceK} {l : LaneAcc} (ho : s.op? op = some o)
    (hl : o.lanes.find? (fun l => l.lane = lane) = some l) (hplace : s.placeFor o l = p) (hp : p.remote = true) (hk : o.kind ≠ .waita)
    (hmay : s.mayPerform o l = true) (hpair : o.isPair = false) (hfence : ∀ x ∈ o.lanes, x.fence = none) (hord : o.ord < 2) :
    s.Beyond op lane o p l :=
  ⟨ho, hl, hplace, hp, hk, hmay, hpair, fun _ hk => State.releaseFor_eq_self (hfence _ hk) (.inl hord)⟩

/-- HOME_ATOMIC and PORT_ATOMIC perform a lane in one step on what the home slice holds (12 R343, 14 R422). -/
theorem homeOrPort_answers {s : State} {op lane : Nat} {o : MemOp} {l : LaneAcc} {p : PlaceK} {i : Instr}
    (hi : (p = .home ∧ i = .homeAtomic op lane) ∨ (p = .port ∧ i = .portAtomic op lane)) (h : s.Beyond op lane o p l) :
    let u := s.reach o p l.addr o.size
    Answers i s (fun t => t.groups = s.groups ∧ t.onchip = s.onchip ∧
      t.hbm = (u.afterAccess o p l).hbm ∧ t.slices = (u.afterAccess o p l).slices ∧
      ∃ o' l', t.op? op = some o' ∧ o'.lanes.find? (fun l => l.lane = lane) = some l' ∧ l'.status = .performed ∧
        l'.reply = (u.accessResult o p l).2) := by
  intro u
  obtain ⟨c, hexec⟩ := exec_homeOrPort (s := s) hi
  obtain ⟨ops, m, hperf, l', hl', hst, hy⟩ := h.performLane_spec
  obtain ⟨o', ho', hfind⟩ := State.lane?_eq_some.1 hl'
  have hreach := s.reach_kept o l.addr o.size h.remote
  have hacc := u.afterAccess_kept o l h.remote
  refine ⟨_, hexec, ?_, ?_, ?_, ?_, o', l', ho', hfind, hst, hy⟩ <;> dsimp only <;> rw [hperf]
  · exact hacc.groups.trans hreach.groups
  · exact hacc.onchip.trans hreach.onchip

/-- The unit may have replaced its copy: nothing else changes. -/
theorem State.quadReplace_kept (s : State) (q : Nat × Nat) (asid a n : Nat) : s.Kept (s.quadReplace q asid a n) :=
  .ite (State.Kept.refl s).quadYield (.refl s)

/-- A word that the unit keeps changes only what it keeps. -/
theorem State.quadPut_eq (s : State) (q : Nat × Nat) (asid a : Nat) (bs : List Byte) :
    ∃ c, s.quadPut q asid a bs = { s with quadCopies := c } := by
  unfold State.quadPut State.quadForget
  dsimp only
  split <;> exact ⟨_, rfl⟩

/-- A word that the unit's atomic writes is kept there and leaves for home (03 R73). -/
theorem State.placeWrite_quad (s : State) (o : MemOp) (a : Nat) (bs : List Byte) (ls : List Nat) :
    let q := (o.g.die, quadOf o.g.core)
    (s.placeWrite o .quad a bs ls).hbm = s.hbm ∧
    (s.placeWrite o .quad a bs ls).quadWrites = s.quadWrites ++ [⟨s.nextId, q.1, q.2, o.asid, a, bs, o.g, ls⟩] ∧
    (s.placeWrite o .quad a bs ls).quadCopies = (s.quadPut q o.asid a bs).quadCopies := by
  intro q
  obtain ⟨c, hc⟩ := s.quadPut_eq q o.asid a bs
  have hwrite : s.placeWrite o .quad a bs ls =
      { (s.quadPut q o.asid a bs).fresh.2 with
        quadWrites := (s.quadPut q o.asid a bs).quadWrites ++
          [⟨(s.quadPut q o.asid a bs).nextId, q.1, q.2, o.asid, a, bs, o.g, ls⟩] } := rfl
  rw [hwrite, hc]
  exact ⟨rfl, rfl, rfl⟩

/-- A word that the unit's atomic only reads stays as it is there. -/
theorem State.readTouch_quad (s : State) (o : MemOp) (a : Nat) :
    (s.readTouch o .quad a).quadWrites = s.quadWrites ∧ (s.readTouch o .quad a).quadCopies = s.quadCopies := by
  have htouch : s.readTouch o .quad a = (s.readTouch o .quad a).over s := State.sliceTouch_over ..
  rw [htouch]
  exact ⟨rfl, rfl⟩

/-- QUAD_ATOMIC performs a lane in one step on the unit's copy (03 R73). -/
theorem quadAtomic_answers {s : State} {op lane : Nat} {o : MemOp} {l : LaneAcc} (ho : s.op? op = some o)
    (hl : o.lanes.find? (fun l => l.lane = lane) = some l) :
    let s' := s.quadReplace (o.g.die, quadOf o.g.core) o.asid l.addr o.size
    let u := s'.reach o .quad l.addr o.size
    s'.Beyond op lane o .quad l → Answers (.quadAtomic op lane) s (fun t => t.groups = s.groups ∧
      (∃ o' l', t.op? op = some o' ∧ o'.lanes.find? (fun l => l.lane = lane) = some l' ∧ l'.status = .performed ∧
        l'.reply = (u.accessResult o .quad l).2) ∧
      t.hbm = (u.afterAccess o .quad l).hbm ∧ t.quadWrites = (u.afterAccess o .quad l).quadWrites ∧
      t.quadCopies = (u.afterAccess o .quad l).quadCopies) := by
  intro s' u h
  have hexec : exec (.quadAtomic op lane) s = .next (performLane .quad op lane s') := by
    show execQuadAtomic op lane s = _
    simp only [execQuadAtomic, ho, hl]
    rfl
  obtain ⟨ops, m, hperf, l', hl', hst, hy⟩ := h.performLane_spec
  obtain ⟨o', ho', hfind⟩ := State.lane?_eq_some.1 hl'
  refine ⟨_, hexec, ?_, ⟨o', l', ho', hfind, hst, hy⟩, ?_, ?_, ?_⟩ <;> rw [hperf]
  calc (u.afterAccess o .quad l).groups
    _ = u.groups := (u.afterAccess_kept o l h.remote).groups
    _ = s'.groups := (s'.reach_kept o l.addr o.size h.remote).groups
    _ = s.groups := (s.quadReplace_kept ..).groups

/-- WAITAs are tested after a write: the machine outside the homes changes in what they have seen only (08 R249). -/
theorem State.watch_over (s r : State) : ∃ l, (s.over r).watch = s.watch.over { r with ops := l } := by
  obtain ⟨l, hl, -⟩ := (s.over r).watch_eq
  obtain ⟨l', hl', -⟩ := s.watch_eq
  exact ⟨l, by rw [hl, hl']; rfl⟩

/-- Bytes written at the point of order under the page's default policy: the machine outside the homes, what WAITAs have seen
apart, is as it was (03 R58, 08 R249). -/
theorem State.homeWriteDef_over (s r : State) (die asid va : Nat) (bs : List Byte) :
    ∃ l, (s.over r).homeWriteDef die asid va bs = (s.homeWriteDef die asid va bs).over { r with ops := l } := by
  obtain ⟨l, hl⟩ := (s.homeStore die asid va bs).watch_over r
  refine ⟨l, ?_⟩
  unfold State.homeWriteDef State.homeWrite
  rw [State.homeStore_over, hl]
  exact State.sliceTouch_over ..

/-- QUAD_WRITE_THROUGH_ARRIVE (03 R73). -/
theorem quadWriteThroughArrive_answers {s : State} {n : Nat} {w : QuadWrite} (hw : s.quadWrites.find? (fun w => w.id = n) = some w)
    (hfirst : s.quadWrites.any (fun x => x.id < n && x.die = w.die && x.quad = w.quad && x.asid = w.asid &&
      meet x.addr x.bytes.length w.addr w.bytes.length) = false) :
    Answers (.quadWriteThroughArrive n) s (fun t => t.quadWrites = s.quadWrites.filter (fun x => x.id ≠ n) ∧
      t.groups = s.groups ∧ t.hbm = (s.homeWriteDef w.die w.asid w.addr w.bytes).hbm ∧
      t.slices = (s.homeWriteDef w.die w.asid w.addr w.bytes).slices) := by
  let s1 : State := { s with quadWrites := s.quadWrites.filter (fun x => x.id ≠ n) }
  obtain ⟨l, hl⟩ := s.homeWriteDef_over s1 w.die w.asid w.addr w.bytes
  obtain ⟨m, hm⟩ := (s1.homeWriteDef w.die w.asid w.addr w.bytes).ownHeld_eq s1 (w.lanes.map (fun l => .lane w.g l))
  have hexec : exec (.quadWriteThroughArrive n) s =
      .next { s1.homeWriteDef w.die w.asid w.addr w.bytes with migrs := m } := by
    show execQuadWriteThroughArrive n s = _
    rw [← hm]
    simp only [execQuadWriteThroughArrive, hw, hfirst]
    rfl
  rw [show s1.homeWriteDef w.die w.asid w.addr w.bytes = _ from hl] at hexec
  exact ⟨_, hexec, rfl, rfl, rfl, rfl⟩

/-! ### A gather packet's element (14 R415) -/

/-- The work of caches and home slices makes no group a piste group. -/
theorem State.Kept.pisteOf {s t : State} (h : s.Kept t) (g : Group) : t.pisteOf g = s.pisteOf g := by
  simp only [State.pisteOf, State.recOf, State.launch?, h.launches]

theorem State.Kept.group? {s t : State} (h : s.Kept t) (r : GRef) : t.group? r = s.group? r := by
  rw [State.group?, h.groups, State.group?]

/-- Outside a piste launch a gather reads its element from the memory of its stack. -/
theorem State.placeRead_stack {s : State} {o : MemOp} {a n : Nat} {y : Xl} (hk : o.kind = .gather)
    (hy : s.xlate o.g.die o.asid a = .ok y) (hpiste : ∀ g, s.group? o.g = some g → s.pisteOf g = false) :
    s.placeRead o .stack a n = memRead s.hbm (s.memKey y) n := by
  simp only [State.placeRead]
  rw [show s.xlate o.g.coreRef.die o.asid a = .ok y from hy]
  simp only [State.overlay, hk]
  split
  · rfl
  · next g hg => rw [hpiste g hg]; rfl

/-- The event serves the only element of a packet that its stack is to serve. -/
theorem exec_gatherPacketExpand {s : State} {op k : Nat} {o : MemOp} {l : LaneAcc} {x : Xl} (ho : s.op? op = some o)
    (hls : o.lanes = [l]) (hplace : s.placeFor o l = .stack) (hmay : s.mayPerform o l = true)
    (hx : s.xlate o.g.die o.asid l.addr = .ok x) (hstack : s.stackOf o.g.die x.pa = k) :
    exec (.gatherPacketExpand op k) s = .next (performLane .stack op l.lane s) := by
  have hst : l.isDone = false := by simp [LaneAcc.isDone, State.accepted_of_mayPerform hmay]
  show execGatherPacketExpand op k s = _
  simp [execGatherPacketExpand, ho, hls, hst, hplace, hx, hstack, hmay]

/-- A gather's only lane, performed in the memory of its stack. -/
theorem gatherPacketExpand_answers {s : State} {op k : Nat} {o : MemOp} {l : LaneAcc} {x y : Xl} {q : OpM} (ho : s.op? op = some o)
    (hls : o.lanes = [l]) (hi : o.ins = .gthr q) (hk : o.kind = .gather) (hfe : l.fence = none) (hplace : s.placeFor o l = .stack)
    (hmay : s.mayPerform o l = true) (hx : s.xlate o.g.die o.asid l.addr = .ok x) (hstack : s.stackOf o.g.die x.pa = k)
    (hpiste : ∀ g, s.group? o.g = some g → s.pisteOf g = false) :
    let u := s.reach o .stack l.addr o.size
    u.xlate o.g.die o.asid l.addr = .ok y → Answers (.gatherPacketExpand op k) s (fun t => t.hbm = u.hbm ∧ t.groups = s.groups ∧
      ∃ b, t.op? op = some { o with lanes := [{ l with status := .performed, reply := memRead u.hbm (u.memKey y) o.size, eng := b }] }) := by
  intro u hy
  have hwr : o.writes = false := by simp [MemOp.writes, hi, accForm, loadForm, AccForm.writes]
  have h : s.Beyond op l.lane o .stack l :=
    ⟨ho, by simp [hls], hplace, rfl, by simp [hk], hmay, by simp [MemOp.isPair, hi], fun z hz => by
      obtain rfl : z = l := by simpa [hls] using hz
      exact State.releaseFor_eq_self hfe (.inr hwr)⟩
  have hreach : s.Kept u := s.reach_kept o l.addr o.size rfl
  have hread : u.placeRead o .stack l.addr o.size = memRead u.hbm (u.memKey y) o.size :=
    State.placeRead_stack hk hy fun g hg => (hreach.pisteOf g).trans (hpiste g (hreach.group? o.g ▸ hg))
  have hres : u.accessResult o .stack l = (none, memRead u.hbm (u.memKey y) o.size) := by
    simp [State.accessResult, MemOp.apply, hi, hwr, hread]
  have hafter : u.afterAccess o .stack l = u := by simp only [State.afterAccess, hres]; rfl
  have hmates : o.mates .stack l = [l] := by
    simp [MemOp.mates, MemOp.isAtomic, hk, hls, State.accepted_of_mayPerform hmay]
  obtain ⟨m, e, hperf⟩ := h.performMates_eq
  rw [show s.reach o .stack l.addr o.size = u from rfl, hafter, hres, hmates] at hperf
  refine ⟨_, exec_gatherPacketExpand ho hls hplace hmay hx hstack, ?_⟩
  rw [h.performLane_eq, hperf]
  obtain ⟨b, hb, hmet⟩ := hreach.op? ho
  obtain rfl := hmet (by simp [hk])
  obtain rfl := State.op?_id ho
  refine ⟨rfl, hreach.groups, e, ?_⟩
  refine (State.op?_of_map (s := u) (f := fun p => { p with lanes := p.lanes.map _ }) rfl (fun _ => rfl) o.id).trans ?_
  rw [hb]
  simp [hls, LaneAcc.answered]

/-! ### AREDs combined at a gateway (03 R80) -/

/-- One lane of one operation replaced. -/
def State.modLane (s : State) (id n : Nat) (f : LaneAcc → LaneAcc) : State :=
  { s with ops := s.ops.map (fun o => { o with lanes := o.lanes.map (fun l => if o.id = id && l.lane = n then f l else l) }) }

theorem State.lane?_modLane {s : State} {id n : Nat} {x : LaneAcc} (hx : s.lane? id n = some x) (id' n' : Nat) {f : LaneAcc → LaneAcc}
    (hf : ∀ l, l.lane = n' → (f l).lane = n') :
    (s.modLane id' n' f).lane? id n = some (if id = id' ∧ n = n' then f x else x) := by
  obtain ⟨o, ho, hfind⟩ := State.lane?_eq_some.1 hx
  have hid : o.id = id := State.op?_id ho
  have hn : x.lane = n := by simpa using List.find?_some hfind
  rw [State.lane?_of_map (s := s) (f := fun o l => if o.id = id' && l.lane = n' then f l else l) rfl (fun o l => ?_) ho, hx]
  · simp [hid, hn]
  · split
    · next h =>
      simp only [Bool.and_eq_true, decide_eq_true_eq] at h
      exact (hf l h.2).trans h.2.symm
    · rfl

/-- A lane of an integer ARED, with the operand of another's lane added to its own and that lane combined into it (03 R80). -/
def LaneAcc.withAred (l1 : LaneAcc) (op2 lane2 : Nat) (l2 : LaneAcc) : LaneAcc :=
  { l1 with
    data := natToBytes 4 ((bytesToNat l1.data + bytesToNat l2.data) % 2 ^ 32),
    joined := l1.joined ++ (op2, lane2) :: l2.joined }

/-- Two integer AREDs to one word that leave a die by one gateway become one, whose operand is the exact sum (03 R80). -/
theorem aredGatewayCombine_answers {s : State} {op1 lane1 op2 lane2 : Nat} {o1 o2 : MemOp} {l1 l2 : LaneAcc} {q : OpM}
    (hne : op1 ≠ op2) (ho1 : s.op? op1 = some o1) (ho2 : s.op? op2 = some o2)
    (hl1 : o1.lanes.find? (fun l => l.lane = lane1) = some l1) (hl2 : o2.lanes.find? (fun l => l.lane = lane2) = some l2)
    (hi1 : o1.ins = .ared q) (hi2 : o2.ins = .ared q) (hadd : q.evict = 0) (hsize : o1.size = 4) (hst1 : l1.status = .accepted)
    (hst2 : l2.status = .accepted) (hp1 : s.placeFor o1 l1 = .home) (hp2 : s.placeFor o2 l2 = .home)
    (hgw : (s.gatewayOf o1 l1).isSome = true) (hsame : s.gatewayOf o2 l2 = s.gatewayOf o1 l1) (hrel1 : o1.releases l1 = false)
    (hrel2 : o2.releases l2 = false) (hdie : o1.g.die = o2.g.die) (hasid : o1.asid = o2.asid) (haddr : l1.addr = l2.addr)
    (hfree : ∀ o ∈ s.ops, ∀ l ∈ o.lanes, (op1, lane1) ∉ l.joined ∧ (op2, lane2) ∉ l.joined) :
    Answers (.aredGatewayCombine op1 lane1 op2 lane2) s (fun t => t.hbm = s.hbm ∧ t.groups = s.groups ∧
      ∃ o' l', t.op? op1 = some o' ∧ o'.lanes.find? (fun l => l.lane = lane1) = some l' ∧ (op2, lane2) ∈ l'.joined ∧
        l'.data = natToBytes 4 ((bytesToNat l1.data + bytesToNat l2.data) % 2 ^ 32)) := by
  have hno : ∀ o ∈ s.ops, ∀ l ∈ o.lanes, (op2, lane2) ∉ l.joined ∧ (op1, lane1) ∉ l.joined := fun o ho l hl => (hfree o ho l hl).symm
  have hexec : exec (.aredGatewayCombine op1 lane1 op2 lane2) s =
      .next ((s.modLane op2 lane2 (fun l => { l with joined := [] })).modLane op1 lane1 (fun _ => l1.withAred op2 lane2 l2)) := by
    show execAredGatewayCombine op1 lane1 op2 lane2 s = _
    simp only [execAredGatewayCombine, ho1, ho2, hl1, hl2, hi1, hi2]
    refine (if_neg ?_).trans ?_
    · simpa [hst1, hst2, hp1, hp2, hgw, hsame, hrel1, hrel2, hdie, hasid, haddr, hadd, hne] using hno
    · simp only [hadd, hsize]; rfl
  have hlane1 : s.lane? op1 lane1 = some l1 := State.lane?_eq_some.2 ⟨o1, ho1, hl1⟩
  have hafter := State.lane?_modLane (State.lane?_modLane hlane1 op2 lane2 (f := fun l => { l with joined := [] }) fun _ h => h) op1 lane1
    (f := fun _ => l1.withAred op2 lane2 l2) fun _ _ => by
      simpa [LaneAcc.withAred] using List.find?_some hl1
  rw [if_pos ⟨rfl, rfl⟩] at hafter
  obtain ⟨o', ho', hfind⟩ := State.lane?_eq_some.1 hafter
  exact ⟨_, hexec, rfl, rfl, o', _, ho', hfind, by simp [LaneAcc.withAred], rfl⟩

/-! ### A load miss filled from a peer (08 R233) -/

theorem bmGet?_bmSet (m : ByteMap) (a : Nat) (b : Byte) (i : Nat) : bmGet? (bmSet m a b) i = if i = a then some b else bmGet? m i := by
  induction m with
  | nil => simp [bmSet, bmGet?, eq_comm]
  | cons x m ih =>
    obtain ⟨k, c⟩ := x
    simp only [bmSet]
    split
    · next hk =>
      simp only [bmGet?, ih]
      split
      · next hi => rw [if_neg (by omega)]
      · rfl
    · split
      · next hk =>
        subst hk
        simp only [bmGet?, eq_comm (a := i)]
        split <;> rfl
      · simp only [bmGet?, eq_comm (a := i)]

/-- A byte filled into a line is valid there, and every byte that was stays so (08 R232). -/
theorem Line.byte?_putClean (x : Line) (a : Nat) (b : Byte) {i : Nat} (h : (x.byte? i).isSome = true ∨ i = a) :
    ((x.putClean a b).byte? i).isSome = true := by
  unfold Line.putClean
  split
  · next c hc =>
    rcases h with h | rfl
    · exact h
    · simp [Line.byte?, hc]
  · simp only [Line.byte?, bmGet?_bmSet] at h ⊢
    split
    · rfl
    · next hd =>
      rcases h with h | rfl
      · rw [hd] at h
        split
        · rfl
        · exact h
      · simp

/-- Filling bytes into a line leaves its tag. -/
theorem Line.putClean_tag (x : Line) (a : Nat) (b : Byte) : (x.putClean a b).asid = x.asid ∧ (x.putClean a b).line = x.line := by
  unfold Line.putClean
  split <;> exact ⟨rfl, rfl⟩

/-- The first n bytes of a peer's line filled into a line. -/
def Line.filledFrom (x ln : Line) (n : Nat) : Line :=
  (List.range n).foldl (fun x i => match ln.byte? i with | some b => x.putClean i b | none => x) x

theorem Line.filledFrom_succ (x ln : Line) (n : Nat) : x.filledFrom ln (n + 1) =
    match ln.byte? n with | some b => (x.filledFrom ln n).putClean n b | none => x.filledFrom ln n := by
  simp only [Line.filledFrom, List.range_succ, List.foldl_append, List.foldl_cons, List.foldl_nil]

theorem Line.filledFrom_tag (x ln : Line) (n : Nat) : (x.filledFrom ln n).asid = x.asid ∧ (x.filledFrom ln n).line = x.line := by
  induction n with
  | zero => exact ⟨rfl, rfl⟩
  | succ n ih =>
    rw [Line.filledFrom_succ]
    split
    · exact ⟨(Line.putClean_tag ..).1.trans ih.1, (Line.putClean_tag ..).2.trans ih.2⟩
    · exact ih

theorem Line.byte?_filledFrom (x ln : Line) {n i : Nat} (hi : i < n) (h : (ln.byte? i).isSome = true) :
    ((x.filledFrom ln n).byte? i).isSome = true := by
  induction n with
  | zero => omega
  | succ n ih =>
    rw [Line.filledFrom_succ]
    split
    · refine Line.byte?_putClean _ _ _ ?_
      rcases Nat.lt_succ_iff_lt_or_eq.1 hi with hlt | rfl
      · exact .inl (ih hlt)
      · exact .inr rfl
    · next hn =>
      rcases Nat.lt_succ_iff_lt_or_eq.1 hi with hlt | rfl
      · exact ih hlt
      · rw [hn] at h; cases h

theorem findLine_modLine {ls : List Line} {asid a : Nat} {f : Line → Line} (hf : ∀ x, (f x).asid = x.asid ∧ (f x).line = x.line) :
    findLine (modLine ls asid a f) asid a = (findLine ls asid a).map f := by
  induction ls with
  | nil => rfl
  | cons x ls ih =>
    unfold findLine modLine at ih ⊢
    by_cases hx : (x.asid = asid && x.line = a / 128) = true
    · simp only [List.map_cons, List.find?_cons, hx, hf, if_true, Option.map_some]
    · simp only [List.map_cons, List.find?_cons, hx, ih, if_false, Bool.false_eq_true]

@[simp] theorem State.l1Lines_setL1 (s : State) (c : CoreRef) (ls : List Line) : (s.setL1 c ls).l1Lines c = ls := by
  simp [State.l1Lines, State.setL1, AMap.getD]

/-- The L1D holds the line of an address once it is allocated (08 R232). -/
theorem State.findLine_l1Alloc (s : State) (c : CoreRef) (asid a prio : Nat) (leaf : DWord) :
    ∃ x, findLine ((s.l1Alloc c asid a prio leaf).l1Lines c) asid a = some x := by
  unfold State.l1Alloc
  split
  · next x hx => exact ⟨x, hx⟩
  · next hnone =>
    dsimp only
    rw [State.l1Lines_setL1]
    refine Option.isSome_iff_exists.1 ?_
    simp [findLine, newLine]

theorem findLine_setPrio (ls : List Line) (asid a n : Nat) :
    findLine (modLine ls asid a (fun l => { l with prio := n })) asid a = (findLine ls asid a).map (fun l => { l with prio := n }) :=
  findLine_modLine fun _ => ⟨rfl, rfl⟩

/-- What becomes of the L1D's lines when one takes the priority of its last access, which is not its last use (08 R235). -/
theorem State.findLine_touchPrio {s : State} {c : CoreRef} {asid a : Nat} {p : Policy} {x : Line} (hp : p.last = false)
    (hx : findLine (s.l1Lines c) asid a = some x) :
    ∃ n, findLine ((s.touchPrio c asid a p).l1Lines c) asid a = some { x with prio := n } := by
  simp only [State.touchPrio, hx, hp, Option.isNone_some, Bool.false_eq_true, if_false, State.l1Lines_setL1]
  rw [findLine_setPrio, hx]
  exact ⟨_, rfl⟩

theorem State.roFilled_l1d (s : State) (c : CoreRef) (asid a : Nat) (leaf : DWord) : (s.roFilled c asid a leaf).l1d = s.l1d := by
  unfold State.roFilled
  split <;> rfl

/-- A line filled from a peer's, after the L1D allocated it (08 R233). -/
def State.l1FilledFrom (s : State) (c : CoreRef) (asid a : Nat) (p : Policy) (peer : Nat) (ln : Line) : State :=
  let leaf := s.leafOr c.die asid a
  let s1 := s.l1Alloc c asid a p.l1 leaf
  let s2 := s1.setL1 c (modLine (s1.l1Lines c) asid a (fun x => x.filledFrom ln 128))
  ({ s2 with lastPeer := s2.lastPeer.set c peer }.roFilled c asid a leaf).touchPrio c asid a p

/-- The bytes that the peer's line holds are in the core's line. -/
theorem State.findLine_l1FilledFrom (s : State) (c : CoreRef) (asid a : Nat) {p : Policy} (peer : Nat) (ln : Line) (hp : p.last = false) :
    ∃ x, findLine ((s.l1FilledFrom c asid a p peer ln).l1Lines c) asid a = some x ∧
      ∀ i < 128, (ln.byte? i).isSome = true → (x.byte? i).isSome = true := by
  let s1 := s.l1Alloc c asid a p.l1 (s.leafOr c.die asid a)
  let s2 := s1.setL1 c (modLine (s1.l1Lines c) asid a (fun x => x.filledFrom ln 128))
  let s3 := ({ s2 with lastPeer := s2.lastPeer.set c peer } : State).roFilled c asid a (s.leafOr c.die asid a)
  obtain ⟨x, hx⟩ := s.findLine_l1Alloc c asid a p.l1 (s.leafOr c.die asid a)
  have hfill : findLine (s3.l1Lines c) asid a = some (x.filledFrom ln 128) := by
    rw [State.l1Lines, show s3.l1d = s2.l1d from State.roFilled_l1d ..]
    show findLine (s2.l1Lines c) asid a = _
    rw [State.l1Lines_setL1, findLine_modLine (fun x => x.filledFrom_tag ln 128), hx]
    rfl
  obtain ⟨n, hn⟩ := State.findLine_touchPrio hp hfill
  exact ⟨_, hn, fun i hi hb => Line.byte?_filledFrom x ln hi hb⟩

/-- A line filled from a peer's is remembered as the peer's; groups and accesses, what WAITAs have seen apart, are as they were. -/
theorem State.l1FilledFrom_kept (s : State) (c : CoreRef) (asid a : Nat) (p : Policy) (peer : Nat) (ln : Line) :
    (s.l1FilledFrom c asid a p peer ln).groups = s.groups ∧ MetOnly s.ops (s.l1FilledFrom c asid a p peer ln).ops ∧
      (s.l1FilledFrom c asid a p peer ln).lastPeer.get? c = some peer := by
  let s1 := s.l1Alloc c asid a p.l1 (s.leafOr c.die asid a)
  let s2 := s1.setL1 c (modLine (s1.l1Lines c) asid a (fun x => x.filledFrom ln 128))
  let s3 : State := { s2 with lastPeer := s2.lastPeer.set c peer }
  have halloc : s.Kept s1 := (State.Kept.refl s).l1Alloc
  have htouch : s3.Kept (s.l1FilledFrom c asid a p peer ln) := (State.Kept.refl s3).roFilled.touchPrio
  refine ⟨htouch.groups.trans halloc.groups, halloc.seen.metOnly.trans htouch.seen.metOnly, ?_⟩
  rw [htouch.lastPeer]
  exact AMap.get?_set_self ..

/-- A miss of a core to a page of the filter is served by its peer, if that holds the bytes in a sound read-only line (08 R233). -/
theorem State.peerFill_eq {s : State} {c : CoreRef} {asid a n : Nat} {p : Policy} {ln : Line} (hl1 : hasL1 c = true)
    (hmiss : s.l1Holds c asid a n = false) (hfilter : (s.roFilter.getD c []).contains (asid, a / 2 ^ 16) = true)
    (hln : findLine (s.l1Lines (s.peerOf c)) asid a = some ln) (hro : ln.ro = true) (hpo : ln.poison = [])
    (hpeer : s.l1Holds (s.peerOf c) asid a n = true) :
    s.peerFill c asid a n p = some ((if p.alloc then s.l1FilledFrom c asid a p (s.peerOf c).core ln
      else { s with lastPeer := s.lastPeer.set c (s.peerOf c).core }).count c 4 4) := by
  unfold State.peerFill
  rw [if_neg (by rw [hl1, hmiss, hfilter]; decide)]
  dsimp only
  rw [hln]
  dsimp only
  rw [if_neg (by simp [hro, hpo, hpeer])]
  cases p.alloc <;> rfl

/-- PEER_FILL fills a load miss to a page of the filter from the core's neighbour, which holds the line (08 R233). -/
theorem peerFill_answers {s : State} {op lane : Nat} {o : MemOp} {l : LaneAcc} {ln : Line} (ho : s.op? op = some o)
    (hl : o.lanes.find? (fun l => l.lane = lane && l.status = .accepted) = some l) (hhome : o.g.home = false)
    (hlast : s.lastPeer.get? o.g.coreRef = none)
    (hln : findLine (s.l1Lines { o.g.coreRef with core := o.g.core ^^^ 1 }) o.asid l.addr = some ln) (hro : ln.ro = true)
    (hpo : ln.poison = []) (hfilter : (s.roFilter.getD o.g.coreRef []).contains (o.asid, l.addr / 2 ^ 16) = true)
    (hk : o.kind = .load) (hmay : s.mayPerform o l = true)
    (hpeer : s.l1Holds { o.g.coreRef with core := o.g.core ^^^ 1 } o.asid l.addr o.size = true) (hplace : s.placeFor o l = .cache)
    (hmiss : s.l1Holds o.g.coreRef o.asid l.addr o.size = false) :
    Answers (.peerFill op lane) s (fun t => t.groups = s.groups ∧ MetOnly s.ops t.ops ∧
      t.lastPeer.get? o.g.coreRef = some (o.g.core ^^^ 1) ∧
      ((s.policyAt o l.addr).alloc = false → t.l1d = s.l1d) ∧
      ((s.policyAt o l.addr).alloc = true → (s.policyAt o l.addr).last = false →
        ∃ x, findLine (t.l1Lines o.g.coreRef) o.asid l.addr = some x ∧ ∀ i < 128, (ln.byte? i).isSome → (x.byte? i).isSome)) := by
  let c := o.g.coreRef
  let p := s.policyAt o l.addr
  let u := if p.alloc then s.l1FilledFrom c o.asid l.addr p (o.g.core ^^^ 1) ln
    else { s with lastPeer := s.lastPeer.set c (o.g.core ^^^ 1) }
  have hl1 : hasL1 c = true := by simp [c, hasL1, GRef.coreRef, hhome]
  have hnext : s.peerOf c = { c with core := o.g.core ^^^ 1 } := by simp only [State.peerOf, hlast, c]; rfl
  have hfill : s.peerFill c o.asid l.addr o.size p = some (u.count c 4 4) := by
    rw [State.peerFill_eq hl1 hmiss hfilter (hnext ▸ hln) hro hpo (hnext ▸ hpeer), hnext]
  have hexec : exec (.peerFill op lane) s = .next (u.count c 4 4) := by
    show execPeerFill op lane s = _
    simp only [execPeerFill, ho, hl, hk, hplace, hmay]
    rw [show s.peerFill o.g.coreRef o.asid l.addr o.size (s.policyAt o l.addr) = _ from hfill]
    rfl
  obtain ⟨n, hn⟩ := u.count_eq c 4 4 1
  refine ⟨_, hexec, ?_⟩
  rw [hn]
  cases halloc : p.alloc with
  | false =>
    have hu : u = { s with lastPeer := s.lastPeer.set c (o.g.core ^^^ 1) } := by simp [u, halloc]
    rw [hu]
    exact ⟨rfl, .refl _, AMap.get?_set_self .., fun _ => rfl, (fun h => nomatch h)⟩
  | true =>
    have hu : u = s.l1FilledFrom c o.asid l.addr p (o.g.core ^^^ 1) ln := by simp [u, halloc]
    rw [hu]
    obtain ⟨hgroups, hops, hpeer'⟩ := s.l1FilledFrom_kept c o.asid l.addr p (o.g.core ^^^ 1) ln
    exact ⟨hgroups, hops, hpeer', (fun h => nomatch h), fun _ hlu =>
      s.findLine_l1FilledFrom c o.asid l.addr (o.g.core ^^^ 1) ln hlu⟩

/-! ### The obligation -/

/-- Settles O36: a lane's event brings the bytes to the place, reads and writes them there in one step, and answers every lane
performed with it; the work of caches and home slices on the way changes no group and no access, what WAITAs have seen apart. -/
theorem atomicPlaces : Obligations.AtomicPlaces := by
  unfold Obligations.AtomicPlaces
  refine ⟨?_, ?_, ?_, ?_, ?_, ?_⟩
  · intro s op lane o l p i hi ho hl hplace hk hmay hpair hfence hord k u r
    have hp : p.remote = true := by obtain ⟨rfl, -⟩ | ⟨rfl, -⟩ := hi <;> rfl
    have hr : u.accessResult o p l = r := by obtain ⟨rfl, -⟩ | ⟨rfl, -⟩ := hi <;> rfl
    obtain ⟨t, hexec, hgroups, honchip, hhbm, hslices, o', l', ho', hl', hst, hy⟩ :=
      homeOrPort_answers hi (.of_unordered ho hl hplace hp hk hmay hpair hfence hord)
    refine ⟨t, hexec, hgroups, honchip, ⟨o', l', ho', hl', hst, hy.trans (congrArg Prod.snd hr)⟩, fun hnone => ?_, fun bs hsome => ?_⟩
    · rw [State.afterAccess_of_read (hr ▸ hnone)] at hhbm hslices
      exact ⟨hhbm, hslices⟩
    · rw [State.afterAccess_of_write (hr ▸ hsome)] at hhbm hslices
      obtain ⟨rfl, -⟩ | ⟨rfl, -⟩ := hi <;> exact ⟨hhbm, hslices⟩
  · intro s op lane o l ho hl hk hpair hfence hord s' hplace hmay k u r
    have hr : u.accessResult o .quad l = r := rfl
    have ho' : s'.op? op = some o := by
      obtain ⟨b, hb, hmet⟩ := (s.quadReplace_kept (o.g.die, quadOf o.g.core) o.asid l.addr o.size).op? ho
      rw [hb, hmet hk]
    obtain ⟨t, hexec, hgroups, hlane, hhbm, hwrites, hcopies⟩ :=
      quadAtomic_answers ho hl (.of_unordered ho' hl hplace rfl hk hmay hpair hfence hord)
    refine ⟨t, hexec, hgroups, hlane, fun hnone => ?_, fun bs hsome => ?_⟩
    · rw [State.afterAccess_of_read (hr ▸ hnone)] at hhbm hwrites hcopies
      obtain ⟨hwritesKept, hcopiesKept⟩ := u.readTouch_quad o l.addr
      exact ⟨hwrites.trans hwritesKept, hcopies.trans hcopiesKept, hhbm⟩
    · rw [State.afterAccess_of_write (hr ▸ hsome)] at hhbm hwrites hcopies
      obtain ⟨hhbmKept, hsent, hput⟩ := u.placeWrite_quad o l.addr bs ((o.mates .quad l).map (·.lane))
      exact ⟨hhbm.trans hhbmKept, hwrites.trans hsent, hcopies.trans hput⟩
  · exact fun s n w hw hfirst => quadWriteThroughArrive_answers hw hfirst
  · exact fun s op1 lane1 op2 lane2 o1 o2 l1 l2 q hne ho1 ho2 hl1 hl2 hi1 hi2 hadd hsize hst1 hst2 hp1 hp2 hgw hsame hrel1 hrel2 hdie
      hasid haddr hfree => aredGatewayCombine_answers hne ho1 ho2 hl1 hl2 hi1 hi2 hadd hsize hst1 hst2 hp1 hp2 hgw hsame hrel1 hrel2 hdie
      hasid haddr hfree
  · exact fun s op k o l x q ho hls hi hk hfe hplace hmay hx hstack hpiste y hy =>
      gatherPacketExpand_answers ho hls hi hk hfe hplace hmay hx hstack hpiste hy
  · exact fun s op lane o l ln ho hl hhome hlast hln hro hpo hfilter hk hmay hpeer hplace hmiss =>
      peerFill_answers ho hl hhome hlast hln hro hpo hfilter hk hmay hpeer hplace hmiss

end Sys2Proof.Machine
end

section
/-! SUPPORT of O54 to O56. What the work of caches and home slices leaves alone in the rest of the machine (`State.Cached`), and that it
is the same for two machines that differ in groups and counters only (`State.Twin`). -/

namespace Sys2Proof.Machine

open Sys2Proof

/-! ### What is read at the point of order -/

theorem State.memByte_over (s r : State) (x : Xl) : (s.over r).memByte x = s.memByte x := rfl

theorem State.homeByte_over (s r : State) (die asid va : Nat) : (s.over r).homeByte die asid va = s.homeByte die asid va := by
  unfold State.homeByte
  simp only [State.xlate_over, State.homeOf_over, State.sliceLines_over, State.memKey_over, State.memByte_over]
  rfl

theorem State.homeRead_over (s r : State) (die asid va n : Nat) : (s.over r).homeRead die asid va n = s.homeRead die asid va n := by
  simp only [State.homeRead, State.homeByte_over]

theorem State.homeRead64_over (s r : State) (die asid va : Nat) : (s.over r).homeRead64 die asid va = s.homeRead64 die asid va := by
  simp only [State.homeRead64, State.homeRead_over]

/-! ### What the work of caches leaves alone -/

/-- From s to t only caches, home slices and controllers have changed, with the counters and what WAITAs have seen. -/
structure State.Cached (s t : State) : Prop where
  rest : t = { t.over s with l1d := t.l1d, quadCopies := t.quadCopies, counters := t.counters, ops := t.ops }

section
variable {r s t : State}

theorem State.Cached.refl (s : State) : s.Cached s := ⟨rfl⟩

theorem State.Cached.trans (hrs : r.Cached s) (hst : s.Cached t) : r.Cached t :=
  ⟨by rw [hst.rest, hrs.rest]; rfl⟩

theorem State.Cached.groups (h : s.Cached t) : t.groups = s.groups := (congrArg State.groups h.rest :)
theorem State.Cached.launches (h : s.Cached t) : t.launches = s.launches := (congrArg State.launches h.rest :)
theorem State.Cached.blocks (h : s.Cached t) : t.blocks = s.blocks := (congrArg State.blocks h.rest :)
theorem State.Cached.podNews (h : s.Cached t) : t.podNews = s.podNews := (congrArg State.podNews h.rest :)
theorem State.Cached.pages (h : s.Cached t) : t.pages = s.pages := (congrArg State.pages h.rest :)
theorem State.Cached.regions (h : s.Cached t) : t.regions = s.regions := (congrArg State.regions h.rest :)
theorem State.Cached.objs (h : s.Cached t) : t.objs = s.objs := (congrArg State.objs h.rest :)
theorem State.Cached.dists (h : s.Cached t) : t.dists = s.dists := (congrArg State.dists h.rest :)
theorem State.Cached.nextId (h : s.Cached t) : t.nextId = s.nextId := (congrArg State.nextId h.rest :)

theorem State.Cached.over (h : r.Cached s) (ht : t = t.over s) : r.Cached t :=
  h.trans ⟨by rw [ht]; rfl⟩

theorem State.Cached.ite {p : Prop} {_ : Decidable p} (hs : r.Cached s) (ht : r.Cached t) : r.Cached (if p then s else t) := by
  split
  · exact hs
  · exact ht

theorem State.Cached.foldl {β : Type} {f : State → β → State} (h : r.Cached s) (l : List β)
    (hf : ∀ s b, r.Cached s → r.Cached (f s b)) : r.Cached (l.foldl f s) :=
  List.foldlRecOn l f h fun s hs b _ => hf s b hs

theorem State.Cached.count {c : CoreRef} {a b n : Nat} (h : r.Cached s) : r.Cached (s.count c a b n) := by
  obtain ⟨k, hk⟩ := s.count_eq c a b n
  rw [hk]; exact h.trans ⟨rfl⟩

theorem State.Cached.watch (h : r.Cached s) : r.Cached s.watch := by
  obtain ⟨l, hl, -⟩ := s.watch_eq
  rw [hl]; exact h.trans ⟨rfl⟩

theorem State.Cached.setL1 {c : CoreRef} {ls : List Line} (h : r.Cached s) : r.Cached (s.setL1 c ls) := h.trans ⟨rfl⟩

theorem State.Cached.quadYield {q : Nat × Nat} {asid a n : Nat} (h : r.Cached s) : r.Cached (s.quadYield q asid a n) :=
  .ite h (.ite (h.trans ⟨rfl⟩) h)

theorem State.Cached.homePut {die asid va prio : Nat} {b : Byte} (h : r.Cached s) : r.Cached (s.homePut die asid va prio b) :=
  h.over (s.homePut_over s ..)

theorem State.Cached.homeWrite {die asid va : Nat} {bs : List Byte} (h : r.Cached s) : r.Cached (s.homeWrite die asid va bs) :=
  .watch (h.over (s.homeStore_over s ..))

theorem State.Cached.sliceTouch {die asid va prio : Nat} {last : Bool} (h : r.Cached s) :
    r.Cached (s.sliceTouch die asid va prio last) := h.over (s.sliceTouch_over s ..)

theorem State.Cached.l1Flush {c : CoreRef} {l : Line} {counted : Bool} (h : r.Cached s) : r.Cached (s.l1Flush c l counted) :=
  .ite h (.watch (.count (.foldl (.foldl (h.over (s.codeNote_over s ..)) _ fun _ _ hs => .homePut hs.quadYield) _
    fun s _ hs => hs.over (s.homePoison_over s ..))))

theorem State.Cached.l1WriteBack {c : CoreRef} {asid va : Nat} {counted : Bool} (h : r.Cached s) :
    r.Cached (s.l1WriteBack c asid va counted) := by
  unfold State.l1WriteBack
  split
  · exact h
  · exact .setL1 h.l1Flush

theorem State.Cached.l1Invalidate {c : CoreRef} {asid va : Nat} {counted : Bool} (h : r.Cached s) :
    r.Cached (s.l1Invalidate c asid va counted) := by
  unfold State.l1Invalidate
  split
  · exact h
  · exact .setL1 h.l1Flush

theorem State.Cached.l1Release {c : CoreRef} {asid : Nat} {rs : Option (List (Nat × Nat))} (h : r.Cached s) :
    r.Cached (s.l1Release c asid rs) := .foldl h _ fun _ _ hs => .ite hs.l1WriteBack hs

theorem State.Cached.l1Acquire {c : CoreRef} {asid : Nat} {rs : Option (List (Nat × Nat))} (h : r.Cached s) :
    r.Cached (s.l1Acquire c asid rs) := .foldl h _ fun _ _ hs => .ite hs.l1Invalidate hs

theorem State.Cached.l1AcquireAll {c : CoreRef} (h : r.Cached s) : r.Cached (s.l1AcquireAll c) :=
  .foldl h _ fun _ _ hs => hs.l1Invalidate

end

/-! ### Machines alike to the caches -/

/-- The machine with other groups and counters. -/
def State.dress (s : State) (gs : List Group) (cs : AMap (CoreRef × Nat) DWord) : State := { s with groups := gs, counters := cs }

/-- t is s with other groups and counters, whose mailbox registers hold the same bytes. -/
def State.Twin (s t : State) : Prop := ∃ gs cs, t = s.dress gs cs ∧ ∀ a, (s.dress gs cs).ocByte a = s.ocByte a

section
variable {s t : State}

/-- What takes no notice of the machine outside the homes. -/
theorem State.Twin.over {f : State → State} (hf : ∀ s r, f (s.over r) = (f s).over r) (h : s.Twin t) : (f s).Twin (f t) := by
  obtain ⟨gs, cs, rfl, hb⟩ := h
  have hs : f s = (f s).over s := hf s s
  have ht : f (s.dress gs cs) = (f s).dress gs cs := by
    calc f (s.dress gs cs) = (f s).over (s.dress gs cs) := hf s (s.dress gs cs)
      _ = ((f s).over s).dress gs cs := rfl
      _ = (f s).dress gs cs := by rw [← hs]
  refine ⟨gs, cs, ht, fun a => ?_⟩
  rw [hs]
  exact hb a

theorem State.Twin.foldl {β : Type} {f : State → β → State} (hf : ∀ {s t}, s.Twin t → ∀ b, (f s b).Twin (f t b)) (l : List β)
    (h : s.Twin t) : (l.foldl f s).Twin (l.foldl f t) := by
  induction l generalizing s t with
  | nil => exact h
  | cons b l ih => exact ih (hf h b)

theorem State.Twin.count {c : CoreRef} {a b n : Nat} (h : s.Twin t) : (s.count c a b n).Twin (t.count c a b n) := by
  obtain ⟨gs, cs, rfl, hb⟩ := h
  obtain ⟨k, hk⟩ := s.count_eq c a b n
  obtain ⟨k', hk'⟩ := (s.dress gs cs).count_eq c a b n
  rw [hk, hk']
  exact ⟨gs, k', rfl, hb⟩

theorem State.Twin.quadYield {q : Nat × Nat} {asid a n : Nat} (h : s.Twin t) :
    (s.quadYield q asid a n).Twin (t.quadYield q asid a n) := by
  obtain ⟨gs, cs, rfl, hb⟩ := h
  unfold State.quadYield State.quadForget
  rw [show (s.dress gs cs).quadTransit q asid a n = s.quadTransit q asid a n from rfl,
    show (s.dress gs cs).quadCopies = s.quadCopies from rfl]
  dsimp only
  split
  · exact ⟨gs, cs, rfl, hb⟩
  · split <;> exact ⟨gs, cs, rfl, hb⟩

theorem State.waitaMet_dress {gs : List Group} {cs : AMap (CoreRef × Nat) DWord}
    (hb : ∀ a, (s.dress gs cs).ocByte a = s.ocByte a) (o : MemOp) : (s.dress gs cs).waitaMet o = s.waitaMet o := by
  have hword : ∀ l, (s.dress gs cs).waitaWord o l = s.waitaWord o l := by
    intro l
    have hread : ∀ n, (s.dress gs cs).homeRead o.g.die o.asid l.addr n = s.homeRead o.g.die o.asid l.addr n :=
      State.homeRead_over s (s.dress gs cs) o.g.die o.asid l.addr
    have hpacks : (s.dress gs cs).packs = s.packs := rfl
    unfold State.waitaWord State.ocRead
    simp only [hb, hread, hpacks]
  simp only [State.waitaMet, hword]

theorem State.Twin.watch (h : s.Twin t) : s.watch.Twin t.watch := by
  obtain ⟨gs, cs, rfl, hb⟩ := h
  have hops : (s.dress gs cs).ops = s.ops := rfl
  unfold State.watch
  simp only [hops, State.waitaMet_dress hb]
  split <;> exact ⟨gs, cs, rfl, hb⟩

theorem State.Twin.l1Lines (h : s.Twin t) (c : CoreRef) : t.l1Lines c = s.l1Lines c := by
  obtain ⟨gs, cs, rfl, -⟩ := h; rfl

theorem State.Twin.setL1 {c : CoreRef} {ls : List Line} (h : s.Twin t) : (s.setL1 c ls).Twin (t.setL1 c ls) := by
  obtain ⟨gs, cs, rfl, hb⟩ := h
  exact ⟨gs, cs, rfl, hb⟩

theorem State.Twin.l1Flush {c : CoreRef} {l : Line} {counted : Bool} (h : s.Twin t) :
    (s.l1Flush c l counted).Twin (t.l1Flush c l counted) := by
  unfold State.l1Flush
  split
  · exact h
  · refine .watch (.count (State.Twin.foldl (fun hs sec =>
      hs.over (f := fun s => s.homePoison c.die l.asid (l.line * 128 + 16 * sec)) fun s r => s.homePoison_over r ..) _
      (.foldl (fun hs x => ?_) _ ?_)))
    · exact hs.quadYield.over (f := fun s => s.homePut c.die l.asid (l.line * 128 + x.1) l.prio x.2) fun s r => s.homePut_over r ..
    · exact h.over (f := fun s => s.codeNote c.die l.asid (l.line * 128) 128) fun s r => s.codeNote_over r ..

theorem State.Twin.l1WriteBack {c : CoreRef} {asid va : Nat} {counted : Bool} (h : s.Twin t) :
    (s.l1WriteBack c asid va counted).Twin (t.l1WriteBack c asid va counted) := by
  unfold State.l1WriteBack
  rw [h.l1Lines]
  split
  · exact h
  · dsimp only
    rw [h.l1Flush.l1Lines]
    exact h.l1Flush.setL1

theorem State.Twin.l1Release {c : CoreRef} {asid : Nat} {rs : Option (List (Nat × Nat))} (h : s.Twin t) :
    (s.l1Release c asid rs).Twin (t.l1Release c asid rs) := by
  unfold State.l1Release
  rw [h.l1Lines]
  refine .foldl (fun hs l => ?_) _ h
  split
  · exact hs.l1WriteBack
  · exact hs

theorem State.Twin.releaseAt {c : CoreRef} {asid scope : Nat} {rs : Option (List (Nat × Nat))} (h : s.Twin t) :
    (s.releaseAt c asid scope rs).Twin (t.releaseAt c asid scope rs) := by
  unfold State.releaseAt
  split
  · exact h
  · exact h.l1Release

end

/-! ### The L bits of a slot leave every mailbox byte as it was -/

/-- L bits change a group's v registers only. -/
theorem applyLast_eq (s : State) (m : Mask) (g : Group) (rds : List Rd) : ∃ v, applyLast s m g rds = { g with vregs := v } := by
  unfold applyLast
  refine List.foldlRecOn (motive := fun (x : Group) => ∃ v, x = { g with vregs := v }) rds _ ⟨g.vregs, rfl⟩ fun x ⟨v, hx⟩ rd _ => ?_
  subst hx
  dsimp only
  split
  · exact ⟨v, rfl⟩
  · split
    · exact ⟨_, rfl⟩
    · split <;> exact ⟨_, rfl⟩

theorem isMbox_applyLast (s : State) (m : Mask) (g : Group) (rds : List Rd) (n : Nat) :
    s.isMbox (applyLast s m g rds) n = s.isMbox g n := by
  obtain ⟨v, hv⟩ := applyLast_eq s m g rds
  rw [hv]; rfl

/-- The L bit of a mailbox register makes it empty and leaves its words (05 R125, 01 R16). -/
theorem applyLast_mbox_vals (s : State) (m : Mask) (g : Group) (rds : List Rd) {n : Nat} (hn : s.isMbox g n = true) :
    ((applyLast s m g rds).vreg n).vals = (g.vreg n).vals := by
  induction rds generalizing g with
  | nil => rfl
  | cons rd rds ih =>
    have hstep : applyLast s m g (rd :: rds) = applyLast s m (applyLast s m g [rd]) rds := rfl
    rw [hstep, ih _ ((isMbox_applyLast ..).trans hn)]
    simp only [applyLast, List.foldl_cons, List.foldl_nil]
    split
    · rfl
    · split
      · by_cases hr : n = rd.n
        · subst hr; rw [Group.vreg_setV_self]
        · rw [Group.vreg_setV_of_ne _ _ hr]
      · rename_i hno
        have hr : n ≠ rd.n := by rintro rfl; exact hno hn
        split
        · rfl
        · rw [Group.vreg_setV_of_ne _ _ hr]

theorem State.ocByte_applyLast (s : State) (r : GRef) (m : Mask) (rds : List Rd) (cs : AMap (CoreRef × Nat) DWord) (a : Nat) :
    (s.dress (s.modGroup r (fun g => applyLast s m g rds)).groups cs).ocByte a = s.ocByte a := by
  let f (g : Group) : Group := if g.ref = r then applyLast s m g rds else g
  have hf : ∀ g, (f g).ref = g.ref := fun g => by dsimp only [f]; split <;> simp
  have hbox : ∀ g n, s.isMbox (f g) n = s.isMbox g n := fun g n => by
    dsimp only [f]; split
    · exact isMbox_applyLast ..
    · rfl
  have hval : ∀ g n, s.isMbox g n = true → ((f g).vreg n).vals = (g.vreg n).vals := fun g n hn => by
    dsimp only [f]; split
    · exact applyLast_mbox_vals _ _ _ _ hn
    · rfl
  have hgroup : ∀ q, (s.dress (s.modGroup r (fun g => applyLast s m g rds)).groups cs).group? q = (s.group? q).map f := fun q => by
    simp only [State.group?, State.dress, State.modGroup]
    rw [show (fun g => if g.ref = r then applyLast s m g rds else g) = f from rfl, List.find?_map]
    simp only [Function.comp_def, hf]
  unfold State.ocByte State.ocMbox
  simp only [hgroup]
  cases ocDecode a with
  | none => rfl
  | some x =>
    dsimp only
    split
    · cases s.group? ⟨false, x.die, x.core, x.off / 0x1000⟩ with
      | none => rfl
      | some g =>
        simp only [Option.map_some]
        rw [show ∀ n, (s.dress (s.modGroup r (fun g => applyLast s m g rds)).groups cs).isMbox (f g) n = s.isMbox (f g) n from
          fun _ => rfl, hbox]
        cases hn : s.isMbox g (288 + x.off % 0x1000 / 0x80) with
        | false => rfl
        | true =>
          simp only [if_true, VReg.lane]
          rw [hval g _ hn]
    · rfl

/-- The machine in which a slot acts is alike to the caches with the one it was issued in. -/
theorem ReadyOn.twin {s : State} {lo : Group → Split → Mask} {rds : List Rd} {dsts : List Nat} {c : Ctx}
    (h : ReadyOn s lo rds dsts c) : s.Twin c.s := by
  obtain ⟨k, hk⟩ := (s.modGroup c.r (fun g => applyLast s c.m g rds)).count_eq c.r.coreRef 1 0x12
    ((rds.filter (fun rd => !rd.isK)).foldl (fun n rd => n + (deadLanes s c.g rd.n &&& c.m).card) 0)
  rw [h.now, hk]
  exact ⟨_, k, rfl, s.ocByte_applyLast c.r c.m rds k⟩

/-- A slot that reads no register acts in the machine in which it was issued. -/
theorem ReadyOn.now_of_nil {s : State} {lo : Group → Split → Mask} {dsts : List Nat} {c : Ctx}
    (h : ReadyOn s lo [] dsts c) : c.s = s := by
  rw [h.now]
  exact s.modGroup_self c.r

end Sys2Proof.Machine
end

section
/-! SUPPORT of O54 to O56. What can follow when groups, blocks and launches end: groups go, none comes, and every launch keeps its
place, its END and the blocks that are not placed (`State.Follows`). -/

namespace Sys2Proof.Machine

open Sys2Proof

/-! ### What follows when groups, blocks and launches end -/

/-- The same group by name, launch and kind. -/
def Group.Named (g h : Group) : Prop := h.ref = g.ref ∧ h.lid = g.lid ∧ h.kind = g.kind

/-- The launch is DRAINING or DONE. -/
def Launch.IsOver (l : Launch) : Prop := l.state = .draining ∨ l.state = .done

/-- What became of a launch while others ended: it keeps its END and the blocks that are not placed, and stays over. -/
def Launch.Follows (l m : Launch) : Prop :=
  m.lid = l.lid ∧ m.endc = l.endc ∧ m.unplaced = l.unplaced ∧ (l.IsOver → m.IsOver)

/-- From s to t groups may have ended, and none has come; every launch stands where it stood, with its END. -/
structure State.Follows (s t : State) : Prop where
  groups : ∀ h ∈ t.groups, ∃ g ∈ s.groups, g.Named h
  launches : ∃ f : Launch → Launch, (∀ l : Launch, l.Follows (f l)) ∧ t.launches = s.launches.map f
  podNews : t.podNews = s.podNews

theorem Group.Named.refl (g : Group) : g.Named g := ⟨rfl, rfl, rfl⟩

theorem Group.Named.trans {g h k : Group} : g.Named h → h.Named k → g.Named k :=
  fun ⟨hr, hl, hk⟩ ⟨hr', hl', hk'⟩ => ⟨hr'.trans hr, hl'.trans hl, hk'.trans hk⟩

theorem Launch.Follows.refl (l : Launch) : l.Follows l := ⟨rfl, rfl, rfl, id⟩

theorem Launch.Follows.trans {l m n : Launch} : l.Follows m → m.Follows n → l.Follows n :=
  fun ⟨hi, he, hu, hs⟩ ⟨hi', he', hu', hs'⟩ => ⟨hi'.trans hi, he'.trans he, hu'.trans hu, hs' ∘ hs⟩

theorem Launch.Follows.ite {l m n : Launch} {p : Prop} {_ : Decidable p} (hm : l.Follows m) (hn : l.Follows n) :
    l.Follows (if p then m else n) := by
  split
  · exact hm
  · exact hn

section
variable {r s t : State}

theorem State.Follows.refl (s : State) : s.Follows s :=
  ⟨fun h hh => ⟨h, hh, .refl h⟩, ⟨id, Launch.Follows.refl, s.launches.map_id.symm⟩, rfl⟩

theorem State.Follows.trans (hrs : r.Follows s) (hst : s.Follows t) : r.Follows t where
  groups := fun k hk => by
    obtain ⟨h, hh, hhk⟩ := hst.groups k hk
    obtain ⟨g, hg, hgh⟩ := hrs.groups h hh
    exact ⟨g, hg, hgh.trans hhk⟩
  launches := by
    obtain ⟨f, hf, hs⟩ := hrs.launches
    obtain ⟨f', hf', ht⟩ := hst.launches
    exact ⟨f' ∘ f, fun l => (hf l).trans (hf' (f l)), by rw [ht, hs, List.map_map]⟩
  podNews := hst.podNews.trans hrs.podNews

theorem State.Follows.fewer (h : r.Follows s) (groups : ∀ g ∈ t.groups, g ∈ s.groups) (launches : t.launches = s.launches)
    (podNews : t.podNews = s.podNews) : r.Follows t :=
  h.trans ⟨fun g hg => ⟨g, groups g hg, .refl g⟩, ⟨id, Launch.Follows.refl, by rw [launches, List.map_id]⟩, podNews⟩

/-- The groups, the launches and the answers kept of other packages stand as they did. -/
theorem State.Follows.same (h : r.Follows s) (ht : (t.groups, t.launches, t.podNews) = (s.groups, s.launches, s.podNews)) :
    r.Follows t := by
  obtain ⟨hgroups, hlaunches, hnews⟩ : t.groups = s.groups ∧ t.launches = s.launches ∧ t.podNews = s.podNews := by simpa using ht
  exact h.fewer (fun _ hg => hgroups ▸ hg) hlaunches hnews

/-- The work of caches ends nothing. -/
theorem State.Follows.cached (h : r.Follows s) (ht : s.Cached t) : r.Follows t :=
  h.fewer (fun _ hg => ht.groups ▸ hg) ht.launches ht.podNews

theorem State.Follows.ite {p : Prop} {_ : Decidable p} (hs : r.Follows s) (ht : r.Follows t) :
    r.Follows (if p then s else t) := by
  split
  · exact hs
  · exact ht

theorem State.Follows.foldl {β : Type} {f : State → β → State} (h : r.Follows s) (l : List β)
    (hf : ∀ s b, r.Follows s → r.Follows (f s b)) : r.Follows (l.foldl f s) :=
  List.foldlRecOn l f h fun s hs b _ => hf s b hs

theorem State.Follows.modGroup {q : GRef} {f : Group → Group} (h : r.Follows s) (hf : ∀ g : Group, g.Named (f g)) :
    r.Follows (s.modGroup q f) :=
  h.trans {
    groups := fun x hx => by
      obtain ⟨g, hg, rfl⟩ := List.mem_map.1 hx
      refine ⟨g, hg, ?_⟩
      split
      · exact hf g
      · exact .refl g
    launches := ⟨id, Launch.Follows.refl, s.launches.map_id.symm⟩
    podNews := rfl }

theorem State.Follows.modReady {q : GRef} {f : Group → Group} (h : r.Follows s) (hf : ∀ g : Group, g.Named (f g)) :
    r.Follows (s.modReady q f) :=
  .same (h.modGroup (f := fun g => (f g).readied s.nextId g) fun g => hf g) rfl

theorem State.Follows.mapLaunches {f : Launch → Launch} (h : r.Follows s) (hf : ∀ l : Launch, l.Follows (f l))
    (groups : t.groups = s.groups) (launches : t.launches = s.launches.map f)
    (podNews : t.podNews = s.podNews) : r.Follows t :=
  h.trans ⟨fun g hg => ⟨g, groups ▸ hg, .refl g⟩, ⟨f, hf, launches⟩, podNews⟩

theorem State.Follows.modLaunch {n : Nat} {f : Launch → Launch} (h : r.Follows s) (hf : ∀ l : Launch, l.Follows (f l)) :
    r.Follows (s.modLaunch n f) :=
  h.mapLaunches (f := fun l => if l.lid = n then f l else l) (fun l => .ite (hf l) (.refl l)) rfl rfl rfl

theorem State.Follows.count {c : CoreRef} {a b n : Nat} (h : r.Follows s) : r.Follows (s.count c a b n) :=
  h.cached (.count (.refl s))

theorem State.Follows.watch (h : r.Follows s) : r.Follows s.watch := h.cached (.watch (.refl s))

theorem State.Follows.homeWrite {die asid va : Nat} {bs : List Byte} (h : r.Follows s) :
    r.Follows (s.homeWrite die asid va bs) := h.cached (.homeWrite (.refl s))

/-! ### The changes of a group -/

theorem Group.named_holdAtEnd (g : Group) (e : Nat) : g.Named (g.holdAtEnd e) := by
  unfold Group.holdAtEnd
  dsimp only
  split <;> exact ⟨rfl, rfl, rfl⟩

theorem Group.named_finish (g : Group) (e n : Nat) : g.Named (g.finish e n) :=
  .trans ⟨rfl, rfl, rfl⟩ (Group.named_holdAtEnd ..)

theorem Group.named_landK (g : Group) (n id : Nat) (x : DWord) : g.Named (g.landK n id x) := by
  unfold Group.landK
  split <;> exact ⟨rfl, rfl, rfl⟩

theorem State.Follows.finishSlot {q : GRef} {e n : Nat} (h : r.Follows s) : r.Follows (s.finishSlot q e n) :=
  .count (h.modReady fun g => g.named_finish e n)

theorem State.Follows.answer {w : Waiter} {x : DWord} (h : r.Follows s) : r.Follows (s.answer w x) := by
  have hland : r.Follows (s.modGroup w.g (fun g => g.landK w.kd w.id x)) := h.modGroup fun g => g.named_landK ..
  unfold State.answer
  dsimp only
  split
  · exact .ite hland.finishSlot hland
  · exact hland

/-! ### Merge epochs and barriers -/

theorem State.Follows.imgPutReg {q : GRef} {mbox : Bool} {n : Nat} {v : VReg} (h : r.Follows s) :
    r.Follows (s.imgPutReg q mbox n v) := .ite h.homeWrite h.homeWrite.homeWrite

theorem State.Follows.mboxDeliver {q : GRef} {n : Nat} {bs : ByteMap} (h : r.Follows s) : r.Follows (s.mboxDeliver q n bs) := by
  unfold State.mboxDeliver
  split
  · exact h
  · have hset : ∀ v : VReg, r.Follows (s.modGroup q (fun g => g.setV n v)) := fun _ => h.modGroup fun _ => ⟨rfl, rfl, rfl⟩
    exact .ite h (.watch (.count (.ite (hset _).imgPutReg (hset _))))

theorem State.Follows.ocStore {a : Nat} {bs : List Byte} (h : r.Follows s) : r.Follows (s.ocStore a bs) := by
  unfold State.ocStore
  split
  · exact h
  · refine .ite ?_ (.watch (h.same rfl))
    split
    · exact h.mboxDeliver
    · exact h

theorem State.Follows.homeWriteDef {die asid va : Nat} {bs : List Byte} (h : r.Follows s) :
    r.Follows (s.homeWriteDef die asid va bs) := h.homeWrite.cached (.sliceTouch (.refl _))

theorem State.Follows.applyAred {die asid : Nat} {a : HeldAred} (h : r.Follows s) : r.Follows (s.applyAred die asid a) := by
  unfold State.applyAred
  split
  · extract_lets chip s' _ put _ _
    have h' : r.Follows s' := .ite h h.count
    have hput : ∀ s a x, r.Follows s → r.Follows (put s a x) := fun _ _ _ h => .ite h.ocStore h.homeWriteDef
    split
    · exact hput _ _ _ (hput _ _ _ h')
    · exact hput _ _ _ h'
  · exact h

theorem State.Follows.mergeEpochs {die asid : Nat} {es : List Epoch} (h : r.Follows s) : r.Follows (s.mergeEpochs die asid es) :=
  .foldl (.foldl h _ fun _ _ hs => hs.homeWrite) _ fun _ _ hs => hs.applyAred

theorem State.Follows.epochEnd {lid : Nat} {bar : Option Nat} (h : r.Follows s) : r.Follows (s.epochEnd lid bar) := by
  unfold State.epochEnd
  split
  · exact h
  · exact .same (.foldl (.foldl h _ fun _ _ hs => hs.mergeEpochs) _ fun _ _ hs => hs.count) rfl

theorem State.Follows.epochArrive {lid blk : Nat} (h : r.Follows s) : r.Follows (s.epochArrive lid blk) := by
  unfold State.epochArrive
  split
  · exact h
  · exact .ite (.foldl h _ fun _ _ hs => (hs.same rfl)) h

theorem State.Follows.completeBar {b : HBar} (h : r.Follows s) : r.Follows (s.completeBar b) := by
  refine .ite ?_ h
  have hcores := State.Follows.foldl (h.same (t := { s with bars := s.bars.map (fun x =>
      if x.lid = b.lid && x.level = b.level && x.inst = b.inst && x.id = b.id then
        { x with c := x.c + 1, arrived := [] } else x) }) rfl) (s.barCores b) fun s c hs => hs.count (c := c) (a := 3) (b := 1) (n := 1)
  split
  · exact .ite hcores.epochEnd hcores
  · exact hcores

theorem State.Follows.completeBars {lid : Nat} (h : r.Follows s) : r.Follows (s.completeBars lid) :=
  .foldl h _ fun _ _ hs => hs.completeBar

/-! ### Windows, directory entries, gangs and blocks -/

theorem State.Follows.windowsClose {lid blk : Nat} (h : r.Follows s) : r.Follows (s.windowsClose lid blk) :=
  .same (.foldl h _ fun _ _ hs => hs.count) rfl

theorem State.Follows.moveDone {n : Nat} (h : r.Follows s) : r.Follows (s.moveDone n) := by
  unfold State.moveDone
  split
  · exact h
  · split
    · exact .answer (h.same (by rfl))
    · exact h

theorem State.Follows.dirRelease {k : CoreRef × Nat} (h : r.Follows s) : r.Follows (s.dirRelease k) := by
  unfold State.dirRelease
  split
  · exact h
  · refine .ite ?_ h
    split
    · exact .answer (.foldl (.count (h.same (by rfl))) _ fun _ _ hs => hs.moveDone)
    · exact .foldl (.count (h.same (by rfl))) _ fun _ _ hs => hs.moveDone

theorem State.Follows.cenClose {n : Nat} {c : CoreRef} (h : r.Follows s) : r.Follows (s.cenClose n c) := by
  unfold State.cenClose
  split
  · exact h
  · split
    · exact h
    · refine .ite (.foldl (.modGroup (h.same (by rfl)) ?_) _ fun _ _ hs => hs.dirRelease) h
      exact fun _ => ⟨rfl, rfl, rfl⟩

theorem State.Follows.dirPurge {lid blk : Nat} (h : r.Follows s) : r.Follows (s.dirPurge lid blk) :=
  .foldl (h.same (by rfl)) _ fun _ _ hs => hs.dirRelease

theorem State.Follows.gangDissolve {g : Group} (h : r.Follows s) : r.Follows (s.gangDissolve g) := by
  refine .foldl h _ fun _ _ hs => .same (hs.modGroup ?_) rfl
  exact fun _ => ⟨rfl, rfl, rfl⟩

theorem State.Follows.detach {q : GRef} (h : r.Follows s) : r.Follows (s.detach q) :=
  h.mapLaunches (f := fun l => { l with change := l.change.map (fun ch => { ch with g := if ch.g = q then detached q else ch.g }) })
    (fun _ => ⟨rfl, rfl, rfl, id⟩) rfl rfl rfl

theorem State.Follows.releaseBlocks {lid : Nat} (h : r.Follows s) : r.Follows (s.releaseBlocks lid) := h.same rfl

theorem State.Follows.drainCheck {lid : Nat} (h : r.Follows s) : r.Follows (s.drainCheck lid) := by
  unfold State.drainCheck
  split
  · exact h
  · exact .ite (.releaseBlocks (.modLaunch (.ite h.epochEnd h) fun _ => ⟨rfl, rfl, rfl, fun _ => .inl rfl⟩)) h.releaseBlocks

theorem State.Follows.blockEnd {lid blk : Nat} (h : r.Follows s) : r.Follows (s.blockEnd lid blk) :=
  .same h.windowsClose.dirPurge rfl

/-! ### A group ends -/

/-- The machine once a group has left its slot, before its block and its launch take notice. -/
def State.withoutGroup (s : State) (g : Group) (q : GRef) : State :=
  let t := (s.gangDissolve g).detach q
  { t with groups := t.groups.filter (fun x => x.ref ≠ q) }

theorem State.follows_withoutGroup (s : State) (g : Group) (q : GRef) : s.Follows (s.withoutGroup g q) :=
  .fewer (.detach (.gangDissolve (.refl s))) (fun _ hx => List.mem_of_mem_filter hx) rfl rfl

theorem State.withoutGroup_ref {g x : Group} {q : GRef} (hx : x ∈ (s.withoutGroup g q).groups) : x.ref ≠ q := by
  simpa using (List.mem_filter.1 hx).2

/-- What the end of a group does after the group has left its slot. -/
theorem State.groupEnd_follows_withoutGroup {g : Group} {q : GRef} (hg : s.group? q = some g) :
    (s.withoutGroup g q).Follows (s.groupEnd q) := by
  have h := State.Follows.refl (s.withoutGroup g q)
  unfold State.groupEnd
  rw [hg]
  refine .ite (.drainCheck (.completeBars (.ite h.blockEnd h.epochArrive))) (.releaseBlocks ?_)
  split
  · exact .cenClose (h.same (by rfl))
  · exact h

theorem State.Follows.groupEnd {q : GRef} (h : r.Follows s) : r.Follows (s.groupEnd q) := by
  cases hg : s.group? q with
  | none => unfold State.groupEnd; rw [hg]; exact h
  | some g => exact h.trans ((s.follows_withoutGroup g q).trans (State.groupEnd_follows_withoutGroup hg))

/-- No group has the name of one that has ended. -/
theorem State.ref_ne_of_groupEnd {q : GRef} {x : Group} (hx : x ∈ (s.groupEnd q).groups) : x.ref ≠ q := by
  cases hg : s.group? q with
  | none =>
    rw [State.groupEnd, hg] at hx
    simpa using List.find?_eq_none.1 hg x hx
  | some g =>
    obtain ⟨y, hy, hname, -, -⟩ := (State.groupEnd_follows_withoutGroup hg).groups x hx
    rw [hname]
    exact State.withoutGroup_ref hy

theorem State.Follows.groupEnds (h : r.Follows s) (qs : List GRef) : r.Follows (qs.foldl (fun s q => s.groupEnd q) s) :=
  .foldl h _ fun _ _ hs => hs.groupEnd

theorem State.ref_notMem_of_groupEnds {x : Group} (qs : List GRef) (hx : x ∈ (qs.foldl (fun s q => s.groupEnd q) s).groups) :
    x.ref ∉ qs := by
  induction qs generalizing s with
  | nil => simp
  | cons q qs ih =>
    rw [List.mem_cons, not_or]
    refine ⟨?_, ih hx⟩
    obtain ⟨y, hy, hname, -, -⟩ := ((State.Follows.refl _).groupEnds qs).groups x hx
    rw [hname]
    exact State.ref_ne_of_groupEnd hy

/-! ### Launches found after they changed -/

/-- Launches changed one by one, none in its name. -/
theorem State.launch?_of_map {f : Launch → Launch} (h : t.launches = s.launches.map f) (hf : ∀ l, (f l).lid = l.lid) (n : Nat) :
    t.launch? n = (s.launch? n).map f := by
  simp only [State.launch?, h, List.find?_map, Function.comp_def, hf]

theorem State.launch?_lid {n : Nat} {l : Launch} (h : s.launch? n = some l) : l.lid = n := by
  simpa using List.find?_some h

theorem State.launch?_modLaunch {n : Nat} {l : Launch} {f : Launch → Launch} (h : s.launch? n = some l)
    (hf : ∀ l, (f l).lid = l.lid) : (s.modLaunch n f).launch? n = some (f l) := by
  rw [State.launch?_of_map (f := fun l => if l.lid = n then f l else l) rfl _ n, h, Option.map_some, if_pos (State.launch?_lid h)]
  intro l
  split
  · exact hf l
  · rfl

theorem State.Follows.launch? {n : Nat} {l : Launch} (h : s.Follows t) (hl : s.launch? n = some l) :
    ∃ l', t.launch? n = some l' ∧ l.Follows l' := by
  obtain ⟨f, hf, ht⟩ := h.launches
  exact ⟨f l, by rw [State.launch?_of_map ht (fun l => (hf l).1), hl, Option.map_some], hf l⟩

/-! ### Traps -/

theorem State.Follows.groupTrapped {q : GRef} (h : r.Follows s) : r.Follows (s.groupTrapped q) := by
  unfold State.groupTrapped
  split
  · exact h
  · exact .groupEnd (.ite (h.modLaunch fun _ => ⟨rfl, rfl, rfl, id⟩) h)

theorem Group.named_enter (g : Group) (e : Nat) (c : Cause) (detail tpc handler now : Nat) :
    g.Named (g.enter e c detail tpc handler now) := by
  unfold Group.enter Group.Named
  exact ⟨rfl, rfl, rfl⟩

theorem Group.named_nest (g : Group) (e : Nat) (c : Cause) (detail tpc handler now : Nat) :
    g.Named (g.nest e c detail tpc handler now) := by
  unfold Group.nest Group.Named
  exact ⟨rfl, rfl, rfl⟩

theorem State.Follows.takeTrap {q : GRef} {e : Nat} {c : Cause} {detail tpc : Nat} (h : r.Follows s) :
    r.Follows (s.takeTrap q e c detail tpc) := by
  unfold State.takeTrap
  split
  · exact h
  · split
    · have hended : r.Follows (s.groupTrapped q) := h.groupTrapped
      refine .ite (.ite ?_ hended) (.ite ?_ (.ite ?_ hended))
      · exact .count (h.modReady fun g => g.named_nest ..)
      · exact h.modGroup fun _ => ⟨rfl, rfl, rfl⟩
      · exact .count (h.modReady fun g => g.named_enter ..)
    · exact h.modGroup fun _ => ⟨rfl, rfl, rfl⟩

end

end Sys2Proof.Machine
end

section
/-! PROOF of O54, task digests: the instructions on the open task of a wave. -/

namespace Sys2Proof.Machine

open Sys2Proof

/-! ### A slot that changes more than its group -/

section
variable {s u v : State} {lo : Group → Split → Mask} {rds : List Rd} {dsts : List Nat} {c : Ctx} {body : Ctx → SlotRes}
  {w : Group → Group}

/-- A ready slot answers what the end of its meaning makes of the machine. -/
theorem ReadyOn.answers {gd : Guard} {i : Instr} {x : Out} {P : State → Prop} (h : Ready s gd rds dsts c) (hi : exec i s = x)
    (hx : x = Machine.slot s gd rds dsts body) {res : SlotRes} (hb : body c = res) (hP : P (slotEnd c res)) : Answers i s P :=
  ⟨_, hi.trans (hx.trans (h.slot body)), hb ▸ hP⟩

theorem Updates.of_ok (hgroup : v.group? c.r = some (w (c.read rds))) (hothers : ∀ r, r ≠ c.r → v.group? r = c.s0.group? r)
    (hrest : v = { u with groups := v.groups, counters := v.counters }) : Updates c rds w u (slotEnd c (.ok v)) where
  group := ⟨v.nextId, by
    show ((v.modReady c.r _).count c.r.coreRef 1 1 1).group? c.r = _
    rw [State.group?_count]
    exact State.group?_modReady hgroup (Group.finish_ref ..)⟩
  others := fun r hr => by
    show ((v.modReady c.r _).count c.r.coreRef 1 1 1).group? r = _
    rw [State.group?_count, State.group?_modReady_other hr fun _ => Group.finish_ref .., hothers r hr]
  rest := by
    obtain ⟨gs, cs, rfl⟩ : ∃ gs cs, v = { u with groups := gs, counters := cs } := ⟨_, _, hrest⟩
    obtain ⟨m, hm⟩ := (State.modReady { u with groups := gs, counters := cs } c.r (fun g => g.finish c.e 1)).count_eq c.r.coreRef 1 1 1
    rw [slotEnd, State.finishSlot, hm]
    rfl

/-- The slot completes, its meaning having changed nothing of any group. -/
theorem ReadyOn.updates (h : ReadyOn s lo rds dsts c) (hgroups : v.groups = c.s.groups)
    (hrest : v = { u with groups := v.groups, counters := v.counters }) : Updates c rds id u (slotEnd c (.ok v)) :=
  .of_ok (by rw [State.group?, hgroups]; exact h.groupNow)
    (fun r hr => by rw [State.group?, hgroups]; exact h.othersNow r hr) hrest

theorem ReadyOn.updates_self (h : ReadyOn s lo rds dsts c) (hgroups : v.groups = c.s.groups) :
    Updates c rds id v (slotEnd c (.ok v)) := h.updates hgroups rfl

end

/-! ### The tasks of a wave (04 R105, R109) -/

theorem taskOwned_iff (r : LaunchRec) (blk t : Nat) :
    taskOwned r blk t = true ↔ t < r.ptasks ∧ blk ≤ t ∧ (t - blk) % (r.plcores * r.pwaves) = 0 := by
  simp [taskOwned, and_assoc]

section
variable {o : OpS} {s : State} {c : Ctx} {b : Block} {t : Nat}

theorem dgstOpen_traps (h : Ready s o.g (srcRds o.a) [] c) (hb : s.blockOf c.g = some b)
    (hno : ¬((s.recOf c.g).piste = true ∧ b.task = none ∧ taskOwned (s.recOf c.g) c.g.blk (c.k o.a.kNum).toNat = true)) :
    Answers (.dgstOpen o) s (Traps c .illpiste 0) := by
  refine h.answers (x := execDgstOpen o s) rfl rfl (res := .trap .illpiste 0) ?_ rfl
  rw [h.start, hb]
  refine if_pos ?_
  cases hp : (s.recOf c.g).piste <;> cases ht : b.task <;> simp_all

/-- A block whose task t opens, to be executed again from a header. -/
def Block.opened (b : Block) (t restart : Nat) : Block := { b with task := some t, dig := 0, restart := restart, mismatch := false }

theorem dgstOpen_opens (h : Ready s o.g (srcRds o.a) [] c) (hb : s.blockOf c.g = some b)
    (hok : (s.recOf c.g).piste = true ∧ b.task = none ∧ taskOwned (s.recOf c.g) c.g.blk (c.k o.a.kNum).toNat = true) :
    Answers (.dgstOpen o) s (Updates c (srcRds o.a) id (s.modBlock c.g.lid c.g.blk (fun b =>
      b.opened (c.k o.a.kNum).toNat c.sp.nextHdr))) := by
  obtain ⟨hp, ht, howned⟩ := hok
  refine h.answers (x := execDgstOpen o s) rfl rfl (res := .ok (c.s.modBlock c.g.lid c.g.blk (fun b =>
    b.opened (c.k o.a.kNum).toNat c.sp.nextHdr))) ?_ (h.updates rfl ?_)
  · rw [h.start, hb]
    exact if_neg (by simp [hp, ht, howned])
  · rw [h.restNow, h.start]; rfl

/-! ### The open task (04 R109) -/

theorem ReadyOn.openTask_eq_none {lo : Group → Split → Mask} {rds : List Rd} {dsts : List Nat} (h : ReadyOn s lo rds dsts c)
    (hno : (s.recOf c.g).piste = false ∨ ∀ b, s.blockOf c.g = some b → b.task = none) : c.openTask = none := by
  unfold Ctx.openTask
  rw [h.start]
  rcases hno with hp | hb
  · rw [hp]; rfl
  · split
    · cases hblk : s.blockOf c.g with
      | none => rfl
      | some b => rw [Option.bind_some, hb b hblk]; rfl
    · rfl

theorem ReadyOn.openTask_eq_some {lo : Group → Split → Mask} {rds : List Rd} {dsts : List Nat} (h : ReadyOn s lo rds dsts c)
    (hp : (s.recOf c.g).piste = true) (hb : s.blockOf c.g = some b) (ht : b.task = some t) : c.openTask = some (b, t) := by
  unfold Ctx.openTask
  rw [h.start, hp, hb, if_pos rfl, Option.bind_some, ht]
  rfl

theorem dgst_traps (h : Ready s o.g [] [] c) (hno : c.openTask = none) :
    Answers (.dgstRead o) s (Traps c .illpiste 0) ∧ Answers (.dgstRecord o) s (Traps c .illpiste 0) ∧
      Answers (.dgstCheck o) s (Traps c .illpiste 0) := by
  refine ⟨h.answers (x := execDgstRead o s) rfl rfl (res := .trap .illpiste 0) ?_ rfl,
    h.answers (x := execDgstRecord o s) rfl rfl (res := .trap .illpiste 0) ?_ rfl,
    h.answers (x := execDgstCheck o s) rfl rfl (res := .trap .illpiste 0) ?_ rfl⟩
  all_goals rw [hno]

theorem dgstRead_answers (h : Ready s o.g [] [] c) (htask : c.openTask = some (b, t)) :
    Answers (.dgstRead o) s (Completes c [] 1 (fun g => g.writeK (dstNum o.d) b.dig)) := by
  refine h.answers (x := execDgstRead o s) rfl rfl (res := .ok (c.putK c.s (dstNum o.d) b.dig)) ?_ (h.mid.putK _ _).ok
  rw [htask]

@[simp] theorem State.closeTask_groups (s : State) (lid blk t : Nat) (d : DWord) : (s.closeTask lid blk t d).groups = s.groups := rfl

theorem dgstRecord_waits (h : Ready s o.g [] [] c) (htask : c.openTask = some (b, t))
    (hfault : s.engineFault c.r.coreRef (s.recOf c.g).asid (digAddr (s.recOf c.g) t) 8 true = none)
    (hheld : s.gdMigrates c.r.die (s.recOf c.g).asid (digAddr (s.recOf c.g) t) = true) :
    Answers (.dgstRecord o) s (fun u => u = s.modSplit c.r c.e (fun sp => { sp with state := .blocked, wait := .retest })) := by
  refine h.answers (x := execDgstRecord o s) rfl rfl (res := .block s .retest) ?_ rfl
  rw [htask]
  simp only [h.now_of_nil, h.start, hfault, State.outsHeld, List.any_cons, List.any_nil, Bool.or_false, hheld, if_true]

theorem dgstRecord_records (h : Ready s o.g [] [] c) (htask : c.openTask = some (b, t))
    (hfault : s.engineFault c.r.coreRef (s.recOf c.g).asid (digAddr (s.recOf c.g) t) 8 true = none)
    (hheld : s.gdMigrates c.r.die (s.recOf c.g).asid (digAddr (s.recOf c.g) t) = false) :
    Answers (.dgstRecord o) s (Updates c [] id ((s.homeWrite c.r.die (s.recOf c.g).asid (digAddr (s.recOf c.g) t)
      (natToBytes 8 b.dig.toNat)).closeTask c.g.lid c.g.blk t b.dig)) := by
  refine h.answers (x := execDgstRecord o s) rfl rfl (res := .ok ((s.homeWrite c.r.die (s.recOf c.g).asid
    (digAddr (s.recOf c.g) t) (natToBytes 8 b.dig.toNat)).closeTask c.g.lid c.g.blk t b.dig)) ?_ (h.updates_self ?_)
  · rw [htask]
    simp only [h.now_of_nil, h.start, hfault, State.outsHeld, List.any_cons, List.any_nil, Bool.or_false, hheld, if_false,
      Bool.false_eq_true]
  · rw [State.closeTask_groups, (State.Cached.homeWrite (.refl s)).groups, h.now_of_nil]

/-! ### DGST.check (04 R109, R110) -/

/-- What a first mismatch makes of the block: the entries of its task are discarded and its digest starts again. -/
def Block.rewound (b : Block) (t : Nat) : Block :=
  { b with
    merge := b.merge.filter (fun m => m.task ≠ some t), areds := b.areds.filter (fun m => m.task ≠ some t),
    epochs := b.epochs.map (fun x => { x with
      bytes := x.bytes.filter (fun m => m.task ≠ some t), areds := x.areds.filter (fun m => m.task ≠ some t) }),
    dig := 0, mismatch := true }

/-- What the comparison of the digest of an open task with the table comes to. -/
def Ctx.checked (c : Ctx) (b : Block) (t : Nat) : SlotRes :=
  let s1 := c.s.count c.r.coreRef 0 8
  if c.s.homeRead64 c.r.die (c.s0.recOf c.g).asid (digAddr (c.s0.recOf c.g) t) = b.dig then
    .ok ((if b.mismatch then s1.holdWaves c.g.lid c.g.blk false else s1).closeTask c.g.lid c.g.blk t b.dig)
  else if b.mismatch then .done (s1.digestFail c.g.lid)
  else .trapAt ((((s1.modBlock c.g.lid c.g.blk (fun b => b.rewound t)).holdWaves c.g.lid c.g.blk true)).count c.r.coreRef 0 9)
    .digest 0 b.restart

theorem dgstCheck_answers (h : Ready s o.g [] [] c) (htask : c.openTask = some (b, t)) {P : State → Prop}
    (hfault : s.engineFault c.r.coreRef (s.recOf c.g).asid (digAddr (s.recOf c.g) t) 8 false = none)
    (hP : P (slotEnd c (c.checked b t))) : Answers (.dgstCheck o) s P := by
  refine h.answers (x := execDgstCheck o s) rfl rfl (res := c.checked b t) ?_ hP
  rw [htask]
  simp only [h.now_of_nil, h.start, hfault, Ctx.checked, Block.rewound]

/-- Holding waves changes the list of blocks only. -/
theorem State.holdWaves_eq (s : State) (lid blk : Nat) (hold : Bool) :
    ∃ f : Block → Bool, (∀ b, b.idx = blk → f b = b.hold) ∧
      s.holdWaves lid blk hold = { s with blocks := s.blocks.map (fun b => { b with hold := f b }) } := by
  unfold State.holdWaves
  split
  · exact ⟨fun b => b.hold, fun _ _ => rfl, by simp⟩
  · next l _ =>
    refine ⟨fun b => if b.lid = lid && b.idx / l.lrec.pwaves = blk / l.lrec.pwaves && b.idx ≠ blk then hold else b.hold,
      fun b hb => by simp [hb], ?_⟩
    congr 1
    refine List.map_congr_left fun b _ => ?_
    by_cases hb : (b.lid = lid && b.idx / l.lrec.pwaves = blk / l.lrec.pwaves && b.idx ≠ blk) = true
    · simp only [hb, if_true]
    · simp only [hb, if_false, Bool.false_eq_true]

theorem State.holdWaves_count (s : State) (lid blk : Nat) (hold : Bool) (r : CoreRef) (a e n : Nat) :
    ∃ m, (s.count r a e n).holdWaves lid blk hold = { s.holdWaves lid blk hold with counters := m } := by
  obtain ⟨m, hm⟩ := s.count_eq r a e n
  refine ⟨m, ?_⟩
  rw [hm]
  unfold State.holdWaves
  rw [show State.launch? { s with counters := m } lid = s.launch? lid from rfl]
  split <;> rfl

end

end Sys2Proof.Machine
end

section
/-! PROOF of O54, task digests: the comparison with the table. -/

namespace Sys2Proof.Machine

open Sys2Proof

section
variable {o : OpS} {s : State} {c : Ctx} {b : Block} {t : Nat}

/-! ### Blocks found after they changed -/

/-- Blocks changed one by one, none in its name. -/
theorem State.block?_of_map {u : State} {f : Block → Block} (h : u.blocks = s.blocks.map f)
    (hf : ∀ b, (f b).lid = b.lid ∧ (f b).idx = b.idx) (lid idx : Nat) : u.block? lid idx = (s.block? lid idx).map f := by
  simp only [State.block?, h, List.find?_map, Function.comp_def, hf]

theorem State.block?_name {lid idx : Nat} (h : s.block? lid idx = some b) : b.lid = lid ∧ b.idx = idx := by
  simpa using List.find?_some h

theorem State.block?_modBlock {lid idx : Nat} {f : Block → Block} (h : s.block? lid idx = some b)
    (hf : ∀ b, (f b).lid = b.lid ∧ (f b).idx = b.idx) : (s.modBlock lid idx f).block? lid idx = some (f b) := by
  rw [State.block?_of_map (f := fun b => if b.lid = lid && b.idx = idx then f b else b) rfl _ lid idx, h, Option.map_some]
  · simp [State.block?_name h]
  · intro b
    split
    · exact hf b
    · exact ⟨rfl, rfl⟩

/-- Holding the other waves leaves the block of a wave as it is. -/
theorem State.block?_holdWaves {lid blk : Nat} (h : s.block? lid blk = some b) (hold : Bool) :
    (s.holdWaves lid blk hold).block? lid blk = some b := by
  obtain ⟨f, hf, hs⟩ := s.holdWaves_eq lid blk hold
  rw [hs, State.block?_of_map (f := fun b => { b with hold := f b }) rfl (fun _ => ⟨rfl, rfl⟩) lid blk, h, Option.map_some,
    hf b (State.block?_name h).2]

theorem State.block?_count (r : CoreRef) (a e n lid idx : Nat) : (s.count r a e n).block? lid idx = s.block? lid idx := by
  rw [State.block?, State.count_blocks]; rfl

/-! ### What DGST.check comes to (04 R109, R110) -/

theorem Ctx.checked_same (h : Ready s o.g [] [] c)
    (hsame : s.homeRead64 c.r.die (s.recOf c.g).asid (digAddr (s.recOf c.g) t) = b.dig) :
    Updates c [] id ((if b.mismatch then s.holdWaves c.g.lid c.g.blk false else s).closeTask c.g.lid c.g.blk t b.dig)
      (slotEnd c (c.checked b t)) := by
  have hv : ∃ m, (if b.mismatch then (s.count c.r.coreRef 0 8).holdWaves c.g.lid c.g.blk false else s.count c.r.coreRef 0 8) =
      { (if b.mismatch then s.holdWaves c.g.lid c.g.blk false else s) with counters := m } := by
    split
    · exact s.holdWaves_count ..
    · exact s.count_eq ..
  obtain ⟨m, hm⟩ := hv
  rw [Ctx.checked, h.now_of_nil, h.start, if_pos hsame, hm]
  refine h.updates ?_ rfl
  rw [h.now_of_nil]
  show (if b.mismatch then s.holdWaves c.g.lid c.g.blk false else s).groups = s.groups
  split
  · obtain ⟨f, -, hf⟩ := s.holdWaves_eq c.g.lid c.g.blk false
    rw [hf]
  · rfl

theorem Ctx.checked_waits (h : Ready s o.g [] [] c)
    (hdiff : s.homeRead64 c.r.die (s.recOf c.g).asid (digAddr (s.recOf c.g) t) ≠ b.dig) (hfirst : b.mismatch = false)
    (hdepth : 0 < c.g.depth) (hother : c.g.handles c.e = false) :
    slotEnd c (c.checked b t) = s.takeTrap c.r c.e .digest 0 b.restart := by
  simp only [Ctx.checked, h.now_of_nil, h.start, hdiff, hfirst, if_false, Bool.false_eq_true]
  rw [slotEnd, if_pos (by simp [hdepth, hother]), h.start]

theorem Ctx.checked_rewinds (h : Ready s o.g [] [] c)
    (hdiff : s.homeRead64 c.r.die (s.recOf c.g).asid (digAddr (s.recOf c.g) t) ≠ b.dig) (hfirst : b.mismatch = false)
    (htrap : c.g.depth = 0 ∨ c.g.handles c.e = true) (hb : s.blockOf c.g = some b) :
    ∃ v : State, slotEnd c (c.checked b t) =
        (v.modGroup c.r (fun g => g.modSplit c.e (fun sp => sp.goto b.restart))).takeTrap c.r c.e .digest 0 b.restart ∧
      v.group? c.r = some c.g ∧ v.hbm = s.hbm ∧ v.onchip = s.onchip ∧ v.blockOf c.g = some (b.rewound t) := by
  obtain ⟨f, -, hf⟩ := ((s.count c.r.coreRef 0 8).modBlock c.g.lid c.g.blk (fun b => b.rewound t)).holdWaves_eq c.g.lid c.g.blk true
  refine ⟨(((s.count c.r.coreRef 0 8).modBlock c.g.lid c.g.blk (fun b => b.rewound t)).holdWaves c.g.lid c.g.blk true).count
    c.r.coreRef 0 9, ?_, ?_, ?_, ?_, ?_⟩
  · simp only [Ctx.checked, h.now_of_nil, h.start, hdiff, hfirst, if_false, Bool.false_eq_true]
    rw [slotEnd, if_neg (by rcases htrap with h0 | h1 <;> simp [*])]
  · rw [State.group?_count, hf]
    exact (State.group?_count ..).trans h.group
  · rw [State.count_hbm, hf]; exact State.count_hbm ..
  · rw [State.count_onchip, hf]; exact State.count_onchip ..
  · rw [State.blockOf, State.block?_count]
    have hcount : (s.count c.r.coreRef 0 8).block? c.g.lid c.g.blk = some b := (State.block?_count ..).trans hb
    exact State.block?_holdWaves (State.block?_modBlock (f := fun b => b.rewound t) hcount fun _ => ⟨rfl, rfl⟩) true

/-- The launch ends with END 2 and its merge buffers are discarded, its groups being still there (04 R110). -/
def State.failing (s : State) (n : Nat) : State :=
  { s.modLaunch n (fun l => { l with endc := 2, unplaced := [] }) with
    blocks := s.blocks.map (fun (b : Block) => if b.lid = n then { b with merge := [], areds := [], epochs := [] } else b) }

/-- The groups of a launch that end with it. -/
def State.failingRefs (s : State) (n : Nat) : List GRef := (s.groups.filter (fun g => g.lid = n && !g.isPack)).map (·.ref)

/-- A launch that a second mismatch ends has no group left but packs of its objects (04 R110). -/
theorem State.digestFail_ends {l : Launch} {n : Nat} (hl : s.launch? n = some l) :
    (∀ g ∈ (s.digestFail n).groups, g.lid = n → g.isPack = true) ∧
      ∃ l', (s.digestFail n).launch? n = some l' ∧ l'.endc = 2 ∧ l'.unplaced = [] := by
  have hfollows : (s.failing n).Follows (s.digestFail n) := (State.Follows.refl _).groupEnds _
  refine ⟨fun g hg hlid => ?_, ?_⟩
  · have hgone : g.ref ∉ (s.failing n).failingRefs n := State.ref_notMem_of_groupEnds _ hg
    obtain ⟨g0, hg0, href, hlid0, hkind⟩ := hfollows.groups g hg
    have hpack : g0.isPack = g.isPack := by rw [Group.isPack, Group.isPack, hkind]
    by_contra hno
    refine hgone (href ▸ List.mem_map_of_mem (List.mem_filter.2 ⟨hg0, ?_⟩))
    simp [hlid0 ▸ hlid, hpack, eq_false_of_ne_true hno]
  · have hl1 : (s.failing n).launch? n = some { l with endc := 2, unplaced := [] } :=
      State.launch?_modLaunch (f := fun l => { l with endc := 2, unplaced := [] }) hl fun _ => rfl
    obtain ⟨l', hl', -, hendc, hunplaced, -⟩ := hfollows.launch? hl1
    exact ⟨l', hl', hendc, hunplaced⟩

theorem Ctx.checked_ends (h : Ready s o.g [] [] c)
    (hdiff : s.homeRead64 c.r.die (s.recOf c.g).asid (digAddr (s.recOf c.g) t) ≠ b.dig) (hsecond : b.mismatch = true) {l : Launch}
    (hl : s.launch? c.g.lid = some l) :
    (∀ g ∈ (slotEnd c (c.checked b t)).groups, g.lid = c.g.lid → g.isPack = true) ∧
      ∃ l', (slotEnd c (c.checked b t)).launch? c.g.lid = some l' ∧ l'.endc = 2 ∧ l'.unplaced = [] := by
  have hend : slotEnd c (c.checked b t) = ((s.count c.r.coreRef 0 8).digestFail c.g.lid).count c.r.coreRef 1 1 := by
    simp only [Ctx.checked, h.now_of_nil, h.start, hdiff, hsecond, if_false, if_true, slotEnd]
  rw [hend, State.count_groups, State.launch?, State.count_launches]
  exact State.digestFail_ends (by rw [State.launch?, State.count_launches]; exact hl)

end

/-- Settles O54: DGST.open, .read and .record change the block as they say; .check goes by what the table holds, and the groups
that a second mismatch ends leave their slots for good. -/
theorem taskDigests : Obligations.TaskDigests := by
  unfold Obligations.TaskDigests
  intro owned addr close
  refine ⟨?_, ?_⟩
  · intro o s c b h hb t ok
    have hok : ok ↔ (s.recOf c.g).piste = true ∧ b.task = none ∧ taskOwned (s.recOf c.g) c.g.blk t = true := by
      rw [taskOwned_iff]
    exact ⟨fun hno => dgstOpen_traps h hb (hok.not.1 hno), fun hyes => dgstOpen_opens h hb (hok.1 hyes)⟩
  · intro o s c h
    refine ⟨fun hno => dgst_traps h (h.openTask_eq_none hno), fun b t hp hb ht => ?_⟩
    have htask := h.openTask_eq_some hp hb ht
    refine ⟨dgstRead_answers h htask, dgstRecord_waits h htask, dgstRecord_records h htask, ?_⟩
    intro hfault same
    refine ⟨?_, ?_, ?_, ?_⟩
    · exact fun hsame => dgstCheck_answers h htask hfault (Ctx.checked_same h hsame)
    · exact fun hdiff hfirst hdepth hother => dgstCheck_answers h htask hfault (Ctx.checked_waits h hdiff hfirst hdepth hother)
    · intro hdiff hfirst htrap
      obtain ⟨v, hv, hgroup, hhbm, honchip, hblock⟩ := Ctx.checked_rewinds h hdiff hfirst htrap hb
      exact dgstCheck_answers h htask hfault ⟨v, hv, hgroup, hhbm, honchip, b.rewound t, hblock, ht, rfl, rfl, rfl, rfl, rfl⟩
    · exact fun l hdiff hsecond hl => dgstCheck_answers h htask hfault (Ctx.checked_ends h hdiff hsecond hl)

end Sys2Proof.Machine
end

section
/-! SUPPORT of O55 and O56. A launch completes: what its end writes, drops and leaves (04 R97). -/

namespace Sys2Proof.Machine

open Sys2Proof

section
variable {r s t : State}

/-! ### What follows the end of a launch -/

theorem State.Follows.closeTransfer {x : Transfer} (h : r.Follows s) : r.Follows (s.closeTransfer x) := by
  unfold State.closeTransfer
  split
  · exact h
  · exact h.modGroup fun _ => ⟨rfl, rfl, rfl⟩

theorem State.Follows.setRegion {k : CoreRef × Nat} {x : Region} (h : r.Follows s) : r.Follows (s.setRegion k x) := h.same rfl

theorem State.Follows.settleFill {k : CoreRef × Nat} (h : r.Follows s) : r.Follows (s.settleFill k) := by
  unfold State.settleFill
  dsimp only
  split
  · exact h
  · exact .ite h (.ite h.closeTransfer.setRegion h.closeTransfer.setRegion)

theorem State.Follows.settleRegion {k : CoreRef × Nat} (h : r.Follows s) : r.Follows (s.settleRegion k) := by
  unfold State.settleRegion
  dsimp only
  split
  · exact .ite h.settleFill (.ite (.releaseBlocks (.same h.settleFill.closeTransfer (by rfl))) h.settleFill.closeTransfer.setRegion)
  · exact .ite (.same h.settleFill rfl) h.settleFill

theorem State.Follows.acquireFar {c : CoreRef} {x : Region} (h : r.Follows s) : r.Follows (s.acquireFar c x) := by
  unfold State.acquireFar
  split
  · exact .ite h (.ite h (h.cached (.l1Acquire (.refl s))))
  · exact h

theorem State.Follows.serveRwt {k : CoreRef × Nat} (h : r.Follows s) : r.Follows (s.serveRwt k) :=
  .foldl h _ fun _ _ hs => .ite hs.acquireFar.finishSlot hs.takeTrap

theorem State.Follows.served {k : CoreRef × Nat} {which : Nat → Bool} (h : r.Follows s) : r.Follows (s.served k which) :=
  .serveRwt (.count h.setRegion)

theorem State.Follows.revoke {k : CoreRef × Nat} {reason : Nat} (h : r.Follows s) : r.Follows (s.revoke k reason) :=
  .ite h (.settleRegion (.served (.count h.setRegion)))

theorem State.Follows.freeContext {k : Nat × Nat} {reason : Nat} (h : r.Follows s) : r.Follows (s.freeContext k reason) :=
  .foldl (h.same (by rfl)) _ fun _ _ hs => hs.revoke

theorem State.Follows.failQueued {ob : Obj} {detail : Nat} (h : r.Follows s) : r.Follows (s.failQueued ob detail) :=
  .foldl (h.same (by rfl)) _ fun _ _ hs => .count (hs.same (by rfl))

theorem State.Follows.objDeregister {ob : Obj} (h : r.Follows s) : r.Follows (s.objDeregister ob).1 := by
  unfold State.objDeregister
  split
  · exact .same (State.Follows.failQueued h) rfl
  · exact .foldl (.same h.failQueued (by rfl)) _ fun _ _ hs => hs.answer

theorem State.Follows.engNote {die asid a : Nat} (h : r.Follows s) : r.Follows (s.engNote die asid a) := h.same rfl

theorem State.Follows.refSignal {die asid issuer : Nat} {x v : DWord} (h : r.Follows s) :
    r.Follows (s.refSignal die asid issuer x v) := by
  unfold State.refSignal
  split
  · exact .ite h.homeWrite.engNote h
  · exact h.modLaunch fun _ => ⟨rfl, rfl, rfl, id⟩
  · exact h

/-! ### The steps of a completion (04 R97) -/

/-- The status of a launch is written, what it wrote is released, its timelines go and COMP is signalled. -/
def State.signalDone (s : State) (n : Nat) (l : Launch) : State :=
  let c := s.distCore l.part
  let s1 := if l.lrec.stata = 0 then s else s.homeWrite c.die l.lrec.asid l.lrec.stata l.status
  let s2 := (s1.l1d.map (·.1)).foldl (fun (s : State) k => s.l1Release k l.lrec.asid none) s1
  (s2.modLaunch n (fun l => { l with tls := [] })).refSignal c.die l.lrec.asid l.issuer l.lrec.comp l.lrec.compv

/-- The objects of a launch are deregistered. -/
def State.dropObjs (s : State) (n : Nat) : State :=
  (s.objs.filter (fun o => o.lid = n)).foldl (fun (s : State) o => (s.objDeregister o).1) s

/-- The copy contexts of a launch are freed. -/
def State.dropCtxs (s : State) (n : Nat) : State :=
  ((s.ctxs.filter (fun x => x.2.owner = some n)).map (·.1)).foldl (fun (s : State) k => s.freeContext k 1) s

/-- The launch is DONE and leaves its queue; its barriers and tickets go. -/
def State.leaveQueue (s : State) (n pt : Nat) : State :=
  let d := s.dist pt
  let s1 := s.setDist pt { d with queues := d.queues.map (fun x => (x.1, x.2.filter (· ≠ n))) }
  { s1.modLaunch n (fun l => { l with state := .done }) with
    bars := s1.bars.filter (fun b => b.lid ≠ n), tickets := s1.tickets.filter (fun t => t.lid ≠ n) }

theorem State.finishLaunch_eq {n : Nat} {l : Launch} (hl : s.launch? n = some l) :
    s.finishLaunch n = ((((s.signalDone n l).dropObjs n).dropCtxs n).leaveQueue n l.part).count (s.distCore l.part) 0 2 := by
  unfold State.finishLaunch
  rw [hl]
  rfl

theorem State.Follows.signalDone {n : Nat} {l : Launch} (h : r.Follows s) : r.Follows (s.signalDone n l) := by
  refine .refSignal (.modLaunch (.foldl (.ite h h.homeWrite) _ fun s _ hs => hs.cached (.l1Release (.refl s))) ?_)
  exact fun _ => ⟨rfl, rfl, rfl, id⟩

theorem State.Follows.dropObjs {n : Nat} (h : r.Follows s) : r.Follows (s.dropObjs n) :=
  .foldl h _ fun _ _ hs => hs.objDeregister

theorem State.Follows.dropCtxs {n : Nat} (h : r.Follows s) : r.Follows (s.dropCtxs n) :=
  .foldl h _ fun _ _ hs => hs.freeContext

theorem State.Follows.leaveQueue {n pt : Nat} (h : r.Follows s) : r.Follows (s.leaveQueue n pt) := by
  refine .same (.modLaunch (.same h (by rfl)) ?_) rfl
  exact fun _ => ⟨rfl, rfl, rfl, fun _ => .inr rfl⟩

theorem State.Follows.finishLaunch {n : Nat} (h : r.Follows s) : r.Follows (s.finishLaunch n) := by
  cases hl : s.launch? n with
  | none => unfold State.finishLaunch; rw [hl]; exact h
  | some l => rw [State.finishLaunch_eq hl]; exact .count h.signalDone.dropObjs.dropCtxs.leaveQueue

/-- The launch that has completed is DONE. -/
theorem State.finishLaunch_done {n : Nat} {l : Launch} (hl : s.launch? n = some l) :
    ∃ l', (s.finishLaunch n).launch? n = some l' ∧ l'.state = .done ∧ l'.endc = l.endc ∧ l'.unplaced = l.unplaced := by
  have hfollows : s.Follows (((s.signalDone n l).dropObjs n).dropCtxs n) := (State.Follows.refl s).signalDone.dropObjs.dropCtxs
  obtain ⟨m, hm, -, hendc, hunplaced, -⟩ := hfollows.launch? hl
  refine ⟨{ m with state := .done }, ?_, rfl, hendc, hunplaced⟩
  rw [State.finishLaunch_eq hl, State.launch?, State.count_launches]
  exact State.launch?_modLaunch (f := fun l => { l with state := .done }) hm fun _ => rfl

/-! ### A completion that waits for its pages (14 R408, R414) -/

theorem State.Follows.sysWrite {va : Nat} {bs : List Byte} (h : r.Follows s) : r.Follows (s.sysWrite va bs) := h.homeWrite

theorem State.Follows.fqPut {w0 w1 w2 w3 : Nat} (h : r.Follows s) : r.Follows (s.fqPut w0 w1 w2 w3) := .sysWrite (.sysWrite h)

theorem State.Follows.withFaults {fs : List FaultRec} {n : Nat} (h : r.Follows s) :
    r.Follows { s with faults := fs, nextFid := n } := h.same rfl

/-- Any machine that an operation may answer follows r. -/
def State.FollowsSome (r : State) (x : Option State) : Prop := ∀ t, x = some t → r.Follows t

theorem State.FollowsSome.some (h : r.Follows s) : r.FollowsSome (some s) := fun _ e => Option.some.inj e ▸ h

theorem State.FollowsSome.none : r.FollowsSome none := fun _ e => nomatch e

theorem State.FollowsSome.ite {x y : Option State} {p : Prop} {_ : Decidable p} (hx : r.FollowsSome x) (hy : r.FollowsSome y) :
    r.FollowsSome (if p then x else y) := by
  split
  · exact hx
  · exact hy

theorem State.Follows.recordFault {asid va kind level sclass src : Nat} {entry : DWord} {who : Requester} (h : r.Follows s) :
    r.FollowsSome (s.recordFault asid va kind entry level sclass src who) := by
  refine .ite .none ?_
  split
  · exact .ite (.some h) (.some (.count (h.same (by rfl))))
  · exact .ite .none (.some (.count (.withFaults h.fqPut)))

theorem State.Follows.engineFault {c : CoreRef} {asid va n : Nat} {store : Bool} (h : r.Follows s) :
    r.FollowsSome (s.engineFault c asid va n store) := by
  unfold State.engineFault
  split
  · exact .none
  · next a k e lv _ =>
    refine .some ?_
    cases hrec : s.recordFault asid a k e lv 3 (engineSrc c) .engine with
    | none => exact h
    | some u => exact h.recordFault u hrec

theorem State.Follows.closeLaunch {n : Nat} (h : r.Follows s) : r.Follows (s.closeLaunch n) := by
  unfold State.closeLaunch
  split
  · exact h
  · split
    · next hfault =>
      obtain ⟨x, -, hx⟩ := List.exists_of_findSome?_eq_some hfault
      exact h.engineFault _ hx
    · exact .ite h h.finishLaunch

/-- A launch that is refused before it starts ends with that END at once, or once its pages accept what it writes (04 R94). -/
theorem State.refuseLaunch_ends {n e : Nat} {l : Launch} (hl : l ∈ s.launches) (hn : l.lid = n) :
    ∃ l' ∈ (s.refuseLaunch n e).launches, l'.lid = n ∧ l'.endc = e ∧ l'.unplaced = [] ∧ (l'.state = .draining ∨ l'.state = .done) := by
  let f (l : Launch) : Launch := { l with endc := e, unplaced := [], state := .draining }
  have hmem : f l ∈ (s.modLaunch n f).launches := by
    refine List.mem_map.2 ⟨l, hl, ?_⟩
    rw [if_pos hn]
  obtain ⟨g, hg, hlaunches⟩ := ((State.Follows.refl (s.modLaunch n f)).closeLaunch (n := n)).launches
  obtain ⟨hlid, hendc, hunplaced, hover⟩ := hg (f l)
  refine ⟨g (f l), ?_, hlid.trans hn, hendc, hunplaced, hover (.inl rfl)⟩
  rw [State.refuseLaunch, hlaunches]
  exact List.mem_map_of_mem hmem

end

end Sys2Proof.Machine
end

section
/-! PROOF of O55, launch commands: what a submission of a record comes to (04 R91 to R95). -/

namespace Sys2Proof.Machine

open Sys2Proof

/-! ### The codes of a submission (04 R92) -/

/-- BADREC. -/
def State.BadRec (s : State) (die : Nat) (r : LaunchRec) (ntl : Option Nat) : Prop :=
  r.wf = false ∨ (∃ d ∈ r.deps, refWf d.1 ntl = false) ∨ refWf r.comp ntl = false ∨
    bindEntries r (s.readBinds die r) = none ∨ (r.span = 2 ∧ (s.podSize < r.podn + 1 ∨ r.podn < s.pkg))

/-- BADMODULE. -/
def State.BadModule (s : State) (die : Nat) (r : LaunchRec) : Prop :=
  let m := s.modEnt die r.asid r.mdl
  m.valid = false ∨ m.len ≤ r.entry ∨ (r.hen = true ∧ m.len ≤ r.handler)

/-- BADPISTE. -/
def State.BadPiste (s : State) (pt : Nat) (r : LaunchRec) : Prop :=
  r.piste = true ∧ (r.persist = false ∨ r.blocks + 1 ≠ r.plcores * r.pwaves ∨ (spanCores (s.partDies pt) r).length < r.plcores)

/-- BADQUEUE. -/
def State.BadQueue (s : State) (pt : Nat) (r : LaunchRec) (page : Option Nat) : Prop :=
  (∃ l ∈ s.queueLaunches pt r.queue, l.lrec.asid ≠ r.asid) ∨ ∃ p, page = some p ∧ p ≠ r.queue

/-- The distributor refuses the record with code n, the first that applies. -/
def State.Refused (s : State) (pt die : Nat) (r : LaunchRec) (ntl page : Option Nat) (n : Nat) : Prop :=
  let c1 := s.BadRec die r ntl
  let c2 := s.BadModule die r
  let c3 := noFit (s.partDies pt) s.pkg r = true
  let c4 := s.BadPiste pt r
  let c5 := 128 ≤ (s.queueLaunches pt r.queue).length
  let c6 := s.BadQueue pt r page
  (n = 1 ∧ c1) ∨ (n = 2 ∧ ¬c1 ∧ c2) ∨ (n = 3 ∧ ¬c1 ∧ ¬c2 ∧ c3) ∨ (n = 4 ∧ ¬c1 ∧ ¬c2 ∧ ¬c3 ∧ c4) ∨
    (n = 5 ∧ ¬c1 ∧ ¬c2 ∧ ¬c3 ∧ ¬c4 ∧ c5) ∨ (n = 6 ∧ ¬c1 ∧ ¬c2 ∧ ¬c3 ∧ ¬c4 ∧ ¬c5 ∧ c6)

section
variable {s : State} {pt die : Nat} {r : LaunchRec} {ntl page : Option Nat}

theorem State.badRec_iff : s.badRec die r ntl = true ↔ s.BadRec die r ntl := by
  simp only [State.badRec, State.BadRec, Bool.or_eq_true, Bool.not_eq_true', List.all_eq_false, Bool.and_eq_true,
    decide_eq_true_eq, Option.isNone_iff_eq_none, Bool.not_eq_true, or_assoc]

theorem State.badModule_iff :
    (!(s.modEnt die r.asid r.mdl).valid || (s.modEnt die r.asid r.mdl).len ≤ r.entry ||
      (r.hen && decide ((s.modEnt die r.asid r.mdl).len ≤ r.handler))) = true ↔ s.BadModule die r := by
  simp only [State.BadModule, Bool.or_eq_true, Bool.not_eq_true', Bool.and_eq_true, decide_eq_true_eq, or_assoc]

theorem State.badPiste_iff :
    (r.piste && (!r.persist || r.blocks + 1 ≠ r.plcores * r.pwaves || (spanCores (s.partDies pt) r).length < r.plcores)) = true ↔
      s.BadPiste pt r := by
  simp only [State.BadPiste, Bool.or_eq_true, Bool.not_eq_true', Bool.and_eq_true, decide_eq_true_eq, or_assoc]

theorem State.badQueue_iff :
    ((s.queueLaunches pt r.queue).any (fun l => l.lrec.asid ≠ r.asid) ||
      (match page with | some p => p ≠ r.queue | none => false)) = true ↔ s.BadQueue pt r page := by
  simp only [State.BadQueue, Bool.or_eq_true, List.any_eq_true, decide_eq_true_eq]
  cases page <;> simp

/-- A number is the first of six conditions that holds, 0 standing for none. -/
theorem first_of_six {c1 c2 c3 c4 c5 c6 : Prop} [Decidable c1] [Decidable c2] [Decidable c3] [Decidable c4] [Decidable c5]
    [Decidable c6] (n : Nat) :
    ((n = 1 ∧ c1) ∨ (n = 2 ∧ ¬c1 ∧ c2) ∨ (n = 3 ∧ ¬c1 ∧ ¬c2 ∧ c3) ∨ (n = 4 ∧ ¬c1 ∧ ¬c2 ∧ ¬c3 ∧ c4) ∨
      (n = 5 ∧ ¬c1 ∧ ¬c2 ∧ ¬c3 ∧ ¬c4 ∧ c5) ∨ (n = 6 ∧ ¬c1 ∧ ¬c2 ∧ ¬c3 ∧ ¬c4 ∧ ¬c5 ∧ c6)) ↔
    n ≠ 0 ∧ (if c1 then 1 else if c2 then 2 else if c3 then 3 else if c4 then 4 else if c5 then 5 else if c6 then 6 else 0) = n := by
  split_ifs <;> simp only [*, not_true_eq_false, not_false_eq_true, false_and, and_false, and_true, or_false, false_or, false_iff] <;>
    omega

theorem State.refused_iff (n : Nat) : s.Refused pt die r ntl page n ↔ n ≠ 0 ∧ s.lnchCode pt die r ntl page = n := by
  unfold State.Refused State.lnchCode
  simp only [← State.badRec_iff, ← State.badModule_iff, ← State.badPiste_iff, ← State.badQueue_iff]
  exact first_of_six n

theorem State.lnchCode_eq_zero (h : ¬∃ n, s.Refused pt die r ntl page n) : s.lnchCode pt die r ntl page = 0 := by
  by_contra h0
  exact h ⟨_, (State.refused_iff _).2 ⟨h0, rfl⟩⟩

end

/-! ### The answers of other packages (04 R94) -/

/-- One answer of a package is taken. -/
def PodNews.takeOne (x : PodNews × List (Nat × Bool)) (p : Nat) : PodNews × List (Nat × Bool) :=
  match x.1.msgs.find? (fun m => m.1 = p) with
  | some m => ({ x.1 with msgs := x.1.msgs.erase m }, x.2 ++ [m])
  | none => x

theorem PodNews.take_eq (n : PodNews) (ps : List Nat) : n.take ps = ps.foldl PodNews.takeOne (n, []) := rfl

/-- What is taken was there: where every answer accepts, so do those taken. -/
theorem PodNews.take_accepts {n : PodNews} (h : ∀ m ∈ n.msgs, m.2 = true) (ps : List Nat) : (n.take ps).2.all (·.2) = true := by
  have hinv : (∀ m ∈ (n.take ps).1.msgs, m.2 = true) ∧ (n.take ps).2.all (·.2) = true := by
    rw [PodNews.take_eq]
    refine List.foldlRecOn (motive := fun x : PodNews × List (Nat × Bool) => (∀ m ∈ x.1.msgs, m.2 = true) ∧ x.2.all (·.2) = true)
      ps _ ⟨h, rfl⟩ fun x ⟨hleft, htaken⟩ p _ => ?_
    unfold PodNews.takeOne
    split
    · next m hm =>
      refine ⟨fun m' hm' => hleft m' (List.mem_of_mem_erase hm'), ?_⟩
      rw [List.all_append, htaken]
      simpa using hleft m (List.mem_of_find?_eq_some hm)
    · exact ⟨hleft, htaken⟩
  exact hinv.2

/-- What has been taken stays taken. -/
theorem PodNews.taken_mono (ps : List Nat) (x : PodNews × List (Nat × Bool)) {m : Nat × Bool} (hm : m ∈ x.2) :
    m ∈ (ps.foldl PodNews.takeOne x).2 := by
  refine List.foldlRecOn (motive := fun x : PodNews × List (Nat × Bool) => m ∈ x.2) ps _ hm fun x hx p _ => ?_
  unfold PodNews.takeOne
  split
  · exact List.mem_append_left _ hx
  · exact hx

theorem PodNews.takeOne_find? {x : PodNews × List (Nat × Bool)} {p q : Nat} (h : q ≠ p) :
    (PodNews.takeOne x q).1.msgs.find? (fun m => m.1 = p) = x.1.msgs.find? (fun m => m.1 = p) := by
  unfold PodNews.takeOne
  split
  · next m hm =>
    have hq : m.1 = q := by simpa using List.find?_some hm
    have hno : ¬(m.1 = p) := fun e => h (hq.symm.trans e)
    obtain ⟨l₁, l₂, -, hl, herase⟩ := List.exists_erase_eq (List.mem_of_find?_eq_some hm)
    rw [herase, hl]
    simp [List.find?_append, hno]
  · rfl

/-- The first answer of each package asked is taken. -/
theorem PodNews.mem_take {n : PodNews} {p : Nat} {m : Nat × Bool} {ps : List Nat} (hp : p ∈ ps)
    (hm : n.msgs.find? (fun m => m.1 = p) = some m) : m ∈ (n.take ps).2 := by
  rw [PodNews.take_eq]
  generalize hx : (n, ([] : List (Nat × Bool))) = x
  replace hm : x.1.msgs.find? (fun m => m.1 = p) = some m := by rw [← hx]; exact hm
  clear hx
  induction ps generalizing x with
  | nil => cases hp
  | cons q ps ih =>
    rw [List.foldl_cons]
    by_cases hq : q = p
    · refine PodNews.taken_mono ps _ ?_
      rw [PodNews.takeOne, hq, hm]
      exact List.mem_append_right _ (List.mem_singleton_self m)
    · have hps : p ∈ ps := (List.mem_cons.1 hp).resolve_left fun e => hq e.symm
      exact ih hps _ ((PodNews.takeOne_find? hq).trans hm)

section
variable {s : State} {r : LaunchRec} {ka : Nat}

/-- No kept answer to a record refuses. -/
def State.Free (s : State) (asid ka : Nat) : Prop := ∀ n ∈ s.podNews, n.asid = asid → n.recAddr = ka → ∀ m ∈ n.msgs, m.2 = true

/-- The first kept answer of some package to a record refuses. -/
def State.Turned (s : State) (r : LaunchRec) (ka : Nat) : Prop :=
  ∃ p ∈ s.podOthers r, ∃ m, (s.news r.asid ka).msgs.find? (fun m => m.1 = p) = some m ∧ m.2 = false

theorem State.news_accepts {asid : Nat} (h : s.Free asid ka) : ∀ m ∈ (s.news asid ka).msgs, m.2 = true := by
  unfold State.news
  cases hn : s.podNews.find? (fun n => n.asid = asid && n.recAddr = ka) with
  | none => simp
  | some n =>
    have hkey : n.asid = asid ∧ n.recAddr = ka := by simpa using List.find?_some hn
    exact h n (List.mem_of_find?_eq_some hn) hkey.1 hkey.2

theorem State.podAnswer_of_no_others (h : s.podOthers r = []) (ok : Bool) : s.podAnswer r ka ok = (s, []) := by
  unfold State.podAnswer
  rw [h]; rfl

/-- A submission that is answered changes what is kept of the answers of others only. -/
theorem State.podAnswer_eq (ok : Bool) : ∃ ns, (s.podAnswer r ka ok).1 = { s with podNews := ns } ∧
    (s.podOthers r = [] → ns = s.podNews) := by
  by_cases h : s.podOthers r = []
  · exact ⟨s.podNews, by rw [State.podAnswer_of_no_others h], fun _ => rfl⟩
  · have hne : (s.podOthers r).isEmpty = false := by simpa using h
    simp only [State.podAnswer, hne, if_false, Bool.false_eq_true]
    exact ⟨_, rfl, fun h' => absurd h' h⟩

theorem State.podAnswer_accepts (h : s.Free r.asid ka) (ok : Bool) : (s.podAnswer r ka ok).2.all (·.2) = true := by
  by_cases ho : (s.podOthers r).isEmpty = true
  · simp only [State.podAnswer, ho, if_true, List.all_nil]
  · simp only [State.podAnswer, ho, if_false, Bool.false_eq_true]
    exact PodNews.take_accepts (State.news_accepts h) _

theorem State.podAnswer_refuses (h : s.Turned r ka) (ok : Bool) : (s.podAnswer r ka ok).2.all (·.2) = false := by
  obtain ⟨p, hp, m, hm, hfalse⟩ := h
  have hne : (s.podOthers r).isEmpty = false := List.isEmpty_eq_false_iff.2 (List.ne_nil_of_mem hp)
  simp only [State.podAnswer, hne, if_false, Bool.false_eq_true]
  exact List.all_eq_false.2 ⟨m, PodNews.mem_take hp hm, by rw [hfalse]; exact Bool.false_ne_true⟩

end

end Sys2Proof.Machine
end

section
/-! PROOF of O55, launch commands: a submission is refused, turned back by another package or queued (04 R91 to R95). -/

namespace Sys2Proof.Machine

open Sys2Proof

/-! ### A launch that is queued (04 R94, R95) -/

/-- The machine t is s with a new launch of the record at the end of its queue. -/
def State.Queued (s : State) (pt die ka : Nat) (r : LaunchRec) (t : State) : Prop :=
  t.nextLid = s.nextLid + 1 ∧ t.hbm = s.hbm ∧ (∃ l : Launch, t.launches = s.launches ++ [l] ∧ l.lid = s.nextLid ∧ l.part = pt ∧
    l.lrec = r ∧ l.recAddr = ka ∧ l.state = .queued ∧ l.endc = 0 ∧ l.trapped = 0 ∧ l.unplaced = ownBlocks s.pkg r ∧
    l.base = (s.modEnt die r.asid r.mdl).base ∧ l.preempted = false) ∧
  (t.dist pt).queues.getD r.queue [] = (s.dist pt).queues.getD r.queue [] ++ [s.nextLid] ∧
  ∀ q, q ≠ r.queue → (t.dist pt).queues.getD q [] = (s.dist pt).queues.getD q []

/-- The launch that a record at ka becomes when it is accepted. -/
def State.newLaunch (s : State) (pt die ka : Nat) (r : LaunchRec) (issuer : Option (Nat × Nat)) (accepted : List Nat) : Launch :=
  { lid := s.nextLid, part := pt, lrec := r, recAddr := ka, base := (s.modEnt die r.asid r.mdl).base, state := .queued,
    endc := 0, trapped := 0, ldig := 0, tls := [], issuer := (issuer.map (·.1)).getD 0, unplaced := ownBlocks s.pkg r,
    preempted := false, readySeq := 0, bindings := [], change := none, ft := [], podAccepted := accepted }

/-- A launch put at the end of a queue of a partition, and what is kept of answers of other packages. -/
def State.enqueued (s : State) (pt q : Nat) (l : Launch) (ns : List PodNews) : State :=
  let d := s.dist pt
  let s1 : State := { s with podNews := ns, launches := s.launches ++ [l], nextLid := s.nextLid + 1 }
  (s1.setDist pt { d with queues := d.queues.set q (d.queues.getD q [] ++ [s.nextLid]) }).count (s.distCore pt) 0 0

section
variable {s t : State} {pt die asid ka n : Nat} {r : LaunchRec} {issuer : Option (Nat × Nat)} {page : Option Nat} {ns : List PodNews}

theorem State.dist_setDist (s : State) (pt : Nat) (d : Distributor) : (s.setDist pt d).dist pt = d := by
  rw [State.dist, State.setDist, AMap.getD, AMap.get?_set_self]; rfl

/-- Groups, counters and the number of the moment say nothing of it. -/
theorem State.Queued.of_rest {u : State} (h : s.Queued pt die ka r u)
    (ht : t = { u with groups := t.groups, counters := t.counters, nextId := t.nextId }) : s.Queued pt die ka r t := by
  rw [ht]; exact h

theorem State.enqueued_groups (s : State) (pt q : Nat) (l : Launch) (ns : List PodNews) : (s.enqueued pt q l ns).groups = s.groups :=
  State.count_groups ..

theorem State.enqueued_dist (s : State) (pt q : Nat) (l : Launch) (ns : List PodNews) :
    (s.enqueued pt q l ns).dist pt =
      { s.dist pt with queues := (s.dist pt).queues.set q ((s.dist pt).queues.getD q [] ++ [s.nextLid]) } := by
  unfold State.enqueued
  obtain ⟨m, hm⟩ := State.count_eq _ (s.distCore pt) 0 0 1
  rw [hm]
  exact State.dist_setDist ..

theorem State.enqueued_queued (s : State) (pt die ka : Nat) (r : LaunchRec) (issuer : Option (Nat × Nat)) (accepted : List Nat)
    (ns : List PodNews) :
    s.Queued pt die ka r (s.enqueued pt r.queue (s.newLaunch pt die ka r issuer accepted) ns) := by
  refine ⟨State.count_nextLid .., State.count_hbm .., ⟨s.newLaunch pt die ka r issuer accepted, State.count_launches .., rfl, rfl,
    rfl, rfl, rfl, rfl, rfl, rfl, rfl, rfl⟩, ?_, fun q hq => ?_⟩
  · rw [State.enqueued_dist, AMap.getD, AMap.get?_set_self]; rfl
  · rw [State.enqueued_dist, AMap.getD, AMap.get?_set_of_ne _ _ hq]; rfl

/-! ### What the distributor answers -/

theorem State.submit_refused (hr : recordOf (s.readWords die asid ka 32) = r)
    (h : s.Refused pt die r (issuer.map (·.2)) page n) :
    ∃ ns, (s.podOthers r = [] → ns = s.podNews) ∧
      s.submit pt die asid ka issuer page = (BitVec.ofNat 64 n, ({ s with podNews := ns } : State).count (s.distCore pt) 0 1) := by
  obtain ⟨hn, hcode⟩ := (State.refused_iff n).1 h
  obtain ⟨ns, hns, hkeep⟩ := s.podAnswer_eq (r := r) (ka := ka) (decide (n = 0))
  refine ⟨ns, hkeep, ?_⟩
  unfold State.submit
  simp only [hr, hcode]
  rw [if_pos hn, hns]

/-- A record that is not refused becomes a launch, which ends at once when another package refused its part. -/
theorem State.submit_accepted (hr : recordOf (s.readWords die asid ka 32) = r)
    (h : ¬∃ n, s.Refused pt die r (issuer.map (·.2)) page n) :
    ∃ ns accepted, s.submit pt die asid ka issuer page = (BitVec.ofNat 64 (s.nextLid * 2 ^ 32),
      let u := s.enqueued pt r.queue (s.newLaunch pt die ka r issuer accepted) ns
      if (s.podAnswer r ka true).2.all (·.2) then u else u.refuseLaunch s.nextLid 4) := by
  obtain ⟨ns, hns, -⟩ := s.podAnswer_eq (r := r) (ka := ka) true
  refine ⟨ns, ((s.podAnswer r ka true).2.filter (·.2)).map (·.1), ?_⟩
  unfold State.submit
  simp only [hr, State.lnchCode_eq_zero h]
  rw [if_neg (by decide)]
  simp only [decide_true, hns]
  rfl

theorem State.submit_queued (hr : recordOf (s.readWords die asid ka 32) = r)
    (h : ¬∃ n, s.Refused pt die r (issuer.map (·.2)) page n) (hfree : s.Free r.asid ka) :
    ∃ ns accepted, s.submit pt die asid ka issuer page = (BitVec.ofNat 64 (s.nextLid * 2 ^ 32),
      s.enqueued pt r.queue (s.newLaunch pt die ka r issuer accepted) ns) := by
  obtain ⟨ns, accepted, hsubmit⟩ := State.submit_accepted hr h
  exact ⟨ns, accepted, by rw [hsubmit]; exact congrArg _ (if_pos (State.podAnswer_accepts hfree true))⟩

/-- The new launch has ended with END 4, or ends once its pages accept what it writes. -/
def State.Ended (s t : State) : Prop :=
  ∃ l ∈ t.launches, l.lid = s.nextLid ∧ l.endc = 4 ∧ l.unplaced = [] ∧ (l.state = .draining ∨ l.state = .done)

theorem State.submit_turned (hr : recordOf (s.readWords die asid ka 32) = r)
    (h : ¬∃ n, s.Refused pt die r (issuer.map (·.2)) page n) (hturned : s.Turned r ka) :
    s.Ended (s.submit pt die asid ka issuer page).2 := by
  obtain ⟨ns, accepted, hsubmit⟩ := State.submit_accepted hr h
  obtain ⟨-, -, ⟨l, hlaunches, hlid, -⟩, -⟩ := s.enqueued_queued pt die ka r issuer accepted ns
  rw [hsubmit]
  simp only [State.podAnswer_refuses hturned true, if_false, Bool.false_eq_true]
  exact State.refuseLaunch_ends (by rw [hlaunches]; simp) hlid

end

end Sys2Proof.Machine
end

section
/-! SUPPORT of O55. The work of caches leaves the partitions of the package as they are. -/

namespace Sys2Proof.Machine

open Sys2Proof

/-- s and t have the same partitions. -/
def State.Parted (s t : State) : Prop := t.parts = s.parts

section
variable {r s t : State}

theorem State.Parted.refl (s : State) : s.Parted s := rfl

theorem State.Parted.same (h : r.Parted s) (parts : t.parts = s.parts) : r.Parted t := parts.trans h

theorem State.Parted.ite {p : Prop} {_ : Decidable p} (hs : r.Parted s) (ht : r.Parted t) : r.Parted (if p then s else t) := by
  split
  · exact hs
  · exact ht

theorem State.Parted.foldl {β : Type} {f : State → β → State} (h : r.Parted s) (l : List β)
    (hf : ∀ s b, r.Parted s → r.Parted (f s b)) : r.Parted (l.foldl f s) :=
  List.foldlRecOn l f h fun s hs b _ => hf s b hs

theorem State.Parted.ctlWrite {x : Xl} {bs : List Byte} (h : r.Parted s) : r.Parted (s.ctlWrite x bs) := by
  unfold State.ctlWrite
  refine .ite h ?_
  split <;> exact h

theorem State.Parted.engDrop {asid a : Nat} (h : r.Parted s) : r.Parted (s.engDrop asid a) := .ite h h

theorem State.Parted.sliceFlush {die : Nat} {l : Line} (h : r.Parted s) : r.Parted (s.sliceFlush die l) := by
  unfold State.sliceFlush
  split
  · exact h
  · refine .same (.foldl h _ fun s sec hs => .ite hs.ctlWrite (.foldl hs _ fun s i hs => ?_)) rfl
    split
    · exact hs.ctlWrite
    · exact hs

theorem State.Parted.sliceAlloc {die asid va prio : Nat} {h : Nat × Nat} {leaf : DWord} (hs : r.Parted s) :
    r.Parted (s.sliceAlloc die h asid va prio leaf) := by
  have hroom : r.Parted (s.sliceRoom die h (va / 128)) := by
    refine .ite hs ?_
    split
    · exact hs
    · exact .same hs.sliceFlush rfl
  unfold State.sliceAlloc
  split
  · exact hs
  · exact hroom.same rfl

theorem State.Parted.homePut {die asid va prio : Nat} {b : Byte} (h : r.Parted s) : r.Parted (s.homePut die asid va prio b) := by
  unfold State.homePut
  split
  · exact .ite h.engDrop.ctlWrite (.same h.engDrop.sliceAlloc rfl)
  · exact .same h.sliceAlloc rfl

theorem State.Parted.homePoison {die asid va : Nat} (h : r.Parted s) : r.Parted (s.homePoison die asid va) := by
  unfold State.homePoison
  split
  · exact h
  · exact .ite (.ite h h) h

theorem State.Parted.codeNote {die asid va n : Nat} (h : r.Parted s) : r.Parted (s.codeNote die asid va n) :=
  .ite h (.foldl h _ fun _ _ hs => hs)

theorem State.Parted.quadYield {q : Nat × Nat} {asid a n : Nat} (h : r.Parted s) : r.Parted (s.quadYield q asid a n) :=
  .ite h (.ite (.same h rfl) h)

theorem State.Parted.l1Flush {c : CoreRef} {l : Line} {counted : Bool} (h : r.Parted s) : r.Parted (s.l1Flush c l counted) := by
  have hwritten := State.Parted.foldl (f := fun s x => (s.quadYield (c.die, quadOf c.core) l.asid (l.line * 128 + x.1) 1).homePut c.die
    l.asid (l.line * 128 + x.1) l.prio x.2) (h.codeNote (die := c.die) (asid := l.asid) (va := l.line * 128) (n := 128)) l.dirty
    fun s x hs => hs.quadYield.homePut
  exact .ite h ((State.watch_parts _).trans ((State.count_parts ..).trans (State.Parted.foldl hwritten _ fun _ _ hs => hs.homePoison)))

theorem State.Parted.l1Release {c : CoreRef} {asid : Nat} {rs : Option (List (Nat × Nat))} (h : r.Parted s) :
    r.Parted (s.l1Release c asid rs) := by
  refine .foldl h _ fun s l hs => .ite ?_ hs
  unfold State.l1WriteBack
  split
  · exact hs
  · exact .same hs.l1Flush rfl

theorem State.Parted.partIdx (h : s.Parted t) (die : Nat) : t.partIdx die = s.partIdx die := by
  rw [State.partIdx, h]; rfl

end

end Sys2Proof.Machine
end

section
/-! PROOF of O55, launch commands: LNCH (04 R90, R91). -/

namespace Sys2Proof.Machine

open Sys2Proof

section
variable {r s t : State}

theorem State.Cached.releaseAt {c : CoreRef} {asid scope : Nat} {rs : Option (List (Nat × Nat))} (h : r.Cached s) :
    r.Cached (s.releaseAt c asid scope rs) := .ite h h.l1Release

theorem State.Parted.releaseAt {c : CoreRef} {asid scope : Nat} {rs : Option (List (Nat × Nat))} (h : r.Parted s) :
    r.Parted (s.releaseAt c asid scope rs) := .ite h h.l1Release

/-- An engine's access is found to wait for its pages by translation alone. -/
theorem State.engineFault_eq_none {c : CoreRef} {asid va n : Nat} {store : Bool} :
    s.engineFault c asid va n store = none ↔ s.rangeFault c.die asid va n store = none := by
  unfold State.engineFault
  split <;> simp_all

theorem State.rangeFault_over (s r : State) (die asid va n : Nat) (store : Bool) :
    (s.over r).rangeFault die asid va n store = s.rangeFault die asid va n store := by
  simp only [State.rangeFault, State.xlate_over]

theorem State.needPages_eq_none {c : CoreRef} {asid : Nat} {rs : List (Nat × Nat)} :
    s.needPages c asid rs = none ↔ ∀ x ∈ rs, x.2 ≠ 0 → s.rangeFault c.die asid x.1 x.2 false = none := by
  rw [State.needPages, List.findSome?_eq_none_iff]
  refine forall₂_congr fun x _ => ?_
  by_cases hx : x.2 = 0
  · simp [hx]
  · simp [hx, State.engineFault_eq_none]

theorem State.needPages_over (r : State) {c : CoreRef} {asid : Nat} {rs : List (Nat × Nat)} (h : s.needPages c asid rs = none) :
    (s.over r).needPages c asid rs = none := by
  rw [State.needPages_eq_none] at h ⊢
  simpa only [State.rangeFault_over] using h

section
variable {gs : List Group} {cs : AMap (CoreRef × Nat) DWord}

theorem State.homeRead64_dress (die asid a : Nat) : (s.dress gs cs).homeRead64 die asid a = s.homeRead64 die asid a :=
  State.homeRead64_over s (s.dress gs cs) ..
theorem State.readWords_dress (die asid a n : Nat) : (s.dress gs cs).readWords die asid a n = s.readWords die asid a n := by
  simp only [State.readWords, State.homeRead64_dress]
theorem State.partIdx_dress (die : Nat) : (s.dress gs cs).partIdx die = s.partIdx die := rfl
theorem State.recOf_dress (g : Group) : (s.dress gs cs).recOf g = s.recOf g := rfl
theorem State.needPages_dress {c : CoreRef} {asid : Nat} {rs : List (Nat × Nat)} (h : s.needPages c asid rs = none) :
    (s.dress gs cs).needPages c asid rs = none := State.needPages_over (s.dress gs cs) h
theorem State.modEnt_dress (die asid idx : Nat) : (s.dress gs cs).modEnt die asid idx = s.modEnt die asid idx := by
  have haddr : (s.dress gs cs).modEntAddr asid idx = s.modEntAddr asid idx := rfl
  simp only [State.modEnt, State.homeRead64_dress, haddr]
theorem State.partDies_dress (pt : Nat) : (s.dress gs cs).partDies pt = s.partDies pt := rfl
theorem State.queueLaunches_dress (pt q : Nat) : (s.dress gs cs).queueLaunches pt q = s.queueLaunches pt q := rfl
theorem State.readBinds_dress (die : Nat) (r : LaunchRec) : (s.dress gs cs).readBinds die r = s.readBinds die r := by
  simp only [State.readBinds, State.homeRead64_dress]
theorem State.refused_dress (pt die : Nat) (r : LaunchRec) (ntl page : Option Nat) (n : Nat) :
    (s.dress gs cs).Refused pt die r ntl page n = s.Refused pt die r ntl page n := by
  unfold State.Refused State.BadRec State.BadModule State.BadPiste State.BadQueue
  rw [State.modEnt_dress, State.partDies_dress, State.queueLaunches_dress, State.readBinds_dress]
  rfl
theorem State.turned_dress (r : LaunchRec) (ka : Nat) : (s.dress gs cs).Turned r ka ↔ s.Turned r ka := .rfl
theorem State.free_dress (asid ka : Nat) : (s.dress gs cs).Free asid ka ↔ s.Free asid ka := .rfl
theorem State.queued_dress (pt die ka : Nat) (r : LaunchRec) : (s.dress gs cs).Queued pt die ka r t ↔ s.Queued pt die ka r t := by
  unfold State.Queued
  rw [State.modEnt_dress]
  rfl

end

end

section
variable {o : OpS} {s : State} {c : Ctx}

/-- The address of the record that LNCH names. -/
def Ctx.recAt (c : Ctx) (o : OpS) : Nat := (c.k o.a.kNum).toNat

/-- What LNCH has made of the machine before the distributor reads the record: it is released at die scope. -/
def State.lnchReleased (s : State) (o : OpS) (c : Ctx) : State :=
  s.releaseAt c.r.coreRef (s.asidOf c.g) 2 (some [(c.recAt o, 256)])

/-- The record that LNCH submits. -/
def State.lnchRecord (s : State) (o : OpS) (c : Ctx) : LaunchRec :=
  recordOf ((s.lnchReleased o c).readWords c.r.die (s.asidOf c.g) (c.recAt o) 32)

/-- What the submission comes to in the released machine, with the groups and counters of the slot. -/
def State.lnchSubmit (s : State) (o : OpS) (c : Ctx) (cs : AMap (CoreRef × Nat) DWord) : DWord × State :=
  ((s.lnchReleased o c).dress c.s.groups cs).submit (s.partIdx c.r.die) c.r.die (s.asidOf c.g) (c.recAt o)
    (some (c.g.lid, (s.recOf c.g).ntl)) none

theorem lnch_misaligned (h : Ready s o.g (srcRds o.a) [] c) (hka : c.recAt o % 256 ≠ 0) :
    Answers (.lnch o) s (Traps c .misalign 0) :=
  h.answers (x := execLnch o s) rfl rfl (res := .trap .misalign 0) (if_pos hka) rfl

theorem lnch_not_ordinary (h : Ready s o.g (srcRds o.a) [] c) (hka : c.recAt o % 256 = 0)
    (hno : ¬(c.g.isResponder = false ∧ c.g.isPack = false)) : Answers (.lnch o) s (Traps c .illop 3) := by
  refine h.answers (x := execLnch o s) rfl rfl (res := .trap .illop 3) ?_ rfl
  refine (if_neg (not_not.2 hka)).trans (if_pos ?_)
  cases hr : c.g.isResponder <;> cases hp : c.g.isPack <;> simp_all

theorem lnch_piste (h : Ready s o.g (srcRds o.a) [] c) (hka : c.recAt o % 256 = 0)
    (hord : c.g.isResponder = false ∧ c.g.isPack = false) (hp : s.pisteOf c.g = true) :
    Answers (.lnch o) s (Traps c .illpiste 0) := by
  refine h.answers (x := execLnch o s) rfl rfl (res := .trap .illpiste 0) ?_ rfl
  refine (if_neg (not_not.2 hka)).trans ((if_neg (by simp [hord])).trans (if_pos ?_))
  rw [h.start, hp]

theorem ReadyOn.groupDrainedNow {lo : Group → Split → Mask} {rds : List Rd} {dsts : List Nat} (h : ReadyOn s lo rds dsts c) :
    c.s.groupDrained c.r = s.groupDrained c.r := by
  rw [h.restNow, h.start]; rfl

theorem lnch_waits (h : Ready s o.g (srcRds o.a) [] c) (hka : c.recAt o % 256 = 0)
    (hord : c.g.isResponder = false ∧ c.g.isPack = false) (hp : s.pisteOf c.g = false) (hd : s.groupDrained c.r = false) :
    Answers (.lnch o) s (fun t => t = s.modSplit c.r c.e (fun sp => { sp with state := .blocked, wait := .retest })) := by
  refine h.answers (x := execLnch o s) rfl rfl (res := .block c.s0 .retest) ?_ ?_
  · refine (if_neg (not_not.2 hka)).trans ((if_neg (by simp [hord])).trans ((if_neg ?_).trans (if_pos ?_)))
    · rw [h.start, hp]; exact Bool.false_ne_true
    · rw [h.groupDrainedNow, hd]; rfl
  · rw [h.start]; rfl

/-- The release of a slot is that of the machine in which it was issued. -/
theorem ReadyOn.releasedNow {lo : Group → Split → Mask} {rds : List Rd} {dsts : List Nat} (h : ReadyOn s lo rds dsts c)
    (k : CoreRef) (asid scope : Nat) (rs : Option (List (Nat × Nat))) :
    ∃ cs, c.s.releaseAt k asid scope rs = (s.releaseAt k asid scope rs).dress c.s.groups cs := by
  obtain ⟨gs, cs, heq, -⟩ := h.twin.releaseAt (c := k) (asid := asid) (scope := scope) (rs := rs)
  have hgs : gs = c.s.groups := by
    rw [← (State.Cached.releaseAt (c := k) (asid := asid) (scope := scope) (rs := rs) (.refl c.s)).groups, heq]; rfl
  exact ⟨cs, hgs ▸ heq⟩

/-- An ordinary group whose accesses are performed submits its record. -/
theorem lnch_submits (h : Ready s o.g (srcRds o.a) [] c) (hka : c.recAt o % 256 = 0)
    (hord : c.g.isResponder = false ∧ c.g.isPack = false) (hp : s.pisteOf c.g = false) (hd : s.groupDrained c.r = true)
    (hrec : (s.lnchReleased o c).needPages c.r.coreRef (s.asidOf c.g) [(c.recAt o, 256)] = none)
    (hbind : (s.lnchReleased o c).needPages c.r.coreRef (s.lnchRecord o c).asid
      [((s.lnchRecord o c).bindt, if (s.lnchRecord o c).wf then 16 * (s.lnchRecord o c).nbind else 0)] = none) :
    ∃ cs, ∀ P : State → Prop, P (slotEnd c (.ok (c.putK (s.lnchSubmit o c cs).2 (dstNum o.d) (s.lnchSubmit o c cs).1))) →
      Answers (.lnch o) s P := by
  obtain ⟨cs, hcs⟩ := h.releasedNow c.r.coreRef (s.asidOf c.g) 2 (some [(c.recAt o, 256)])
  refine ⟨cs, fun P hP => h.answers (x := execLnch o s) rfl rfl ?_ hP⟩
  refine (if_neg (not_not.2 hka)).trans ((if_neg (by simp [hord])).trans ((if_neg ?_).trans ((if_neg ?_).trans ?_)))
  · rw [h.start, hp]; exact Bool.false_ne_true
  · rw [h.groupDrainedNow, hd]; exact Bool.false_ne_true
  have hpart : (s.lnchReleased o c).partIdx c.r.coreRef.die = s.partIdx c.r.die := (State.Parted.releaseAt (.refl s)).partIdx _
  have hntl : (s.lnchReleased o c).recOf c.g = s.recOf c.g := by
    have hlaunches : (s.lnchReleased o c).launches = s.launches := (State.Cached.releaseAt (.refl s)).launches
    simp only [State.recOf, State.launch?, hlaunches]
  have hnow : c.s.releaseAt c.r.coreRef (c.s0.asidOf c.g) 2 (some [((c.k o.a.kNum).toNat, 256)]) =
      (s.lnchReleased o c).dress c.s.groups cs := by rw [h.start]; exact hcs
  have hread : recordOf ((s.lnchReleased o c).readWords c.r.coreRef.die (s.asidOf c.g) (c.k o.a.kNum).toNat 32) =
      s.lnchRecord o c := rfl
  have hgo := State.needPages_dress (gs := c.s.groups) (cs := cs) hrec
  have hgo' := State.needPages_dress (gs := c.s.groups) (cs := cs) hbind
  unfold Ctx.recAt at hgo
  dsimp only
  rw [hnow, h.start]
  simp only [State.readWords_dress, State.partIdx_dress, State.recOf_dress, hread, hgo, hgo', hpart, hntl]
  rfl

@[simp] theorem slotEnd_ok_launches (c : Ctx) (v : State) : (slotEnd c (.ok v)).launches = v.launches :=
  State.count_launches (v.modReady c.r fun g => g.finish c.e 1) ..

/-- The group of a slot that has submitted is the one that has read its registers, its status written. -/
theorem ReadyOn.group?_putK {lo : Group → Split → Mask} {rds : List Rd} {dsts : List Nat} {u : State} (h : ReadyOn s lo rds dsts c)
    (hu : u.groups = c.s.groups) (n : Nat) (x : DWord) :
    (c.putK u n x).group? c.r = some ((c.read rds).writeK n x) ∧ ∀ r, r ≠ c.r → (c.putK u n x).group? r = c.s0.group? r := by
  have hgroup : ∀ q, u.group? q = c.s.group? q := fun q => by rw [State.group?, hu]; rfl
  refine ⟨State.group?_modGroup ((hgroup _).trans h.groupNow) rfl, fun r hr => ?_⟩
  rw [Ctx.putK, State.group?_modGroup_other (f := fun g => g.writeK n x) hr fun _ => rfl, hgroup, h.othersNow r hr]

theorem ReadyOn.updates_putK {lo : Group → Split → Mask} {rds : List Rd} {dsts : List Nat} {u v : State} (h : ReadyOn s lo rds dsts c)
    (hv : v.groups = c.s.groups) (hrest : v = { u with groups := v.groups, counters := v.counters }) (n : Nat) (x : DWord) :
    Updates c rds (fun g => g.writeK n x) u (slotEnd c (.ok (c.putK v n x))) := by
  obtain ⟨hgroup, hothers⟩ := h.group?_putK hv n x
  refine .of_ok hgroup hothers ?_
  rw [Ctx.putK, State.modGroup, hrest]

variable (h : Ready s o.g (srcRds o.a) [] c) (hka : c.recAt o % 256 = 0)
  (hord : c.g.isResponder = false ∧ c.g.isPack = false) (hp : s.pisteOf c.g = false) (hd : s.groupDrained c.r = true)
  (hrec : (s.lnchReleased o c).needPages c.r.coreRef (s.asidOf c.g) [(c.recAt o, 256)] = none)
  (hbind : (s.lnchReleased o c).needPages c.r.coreRef (s.lnchRecord o c).asid
    [((s.lnchRecord o c).bindt, if (s.lnchRecord o c).wf then 16 * (s.lnchRecord o c).nbind else 0)] = none)

include h hka hord hp hd hrec hbind

theorem lnch_refused {n : Nat}
    (hn : (s.lnchReleased o c).Refused (s.partIdx c.r.die) c.r.die (s.lnchRecord o c) (some (s.recOf c.g).ntl) none n) :
    Answers (.lnch o) s (fun t =>
      ((s.lnchReleased o c).podOthers (s.lnchRecord o c) = [] → t.podNews = (s.lnchReleased o c).podNews) ∧
      Updates c (srcRds o.a) (fun g => g.writeK (dstNum o.d) (BitVec.ofNat 64 n))
        { s.lnchReleased o c with podNews := t.podNews } t) := by
  obtain ⟨cs, hcs⟩ := lnch_submits h hka hord hp hd hrec hbind
  refine hcs _ ?_
  unfold State.lnchSubmit
  have hr : recordOf ((s.lnchReleased o c).readWords c.r.die (s.asidOf c.g) (c.recAt o) 32) = s.lnchRecord o c := rfl
  generalize s.lnchReleased o c = u at *
  rw [← State.refused_dress (gs := c.s.groups) (cs := cs)] at hn
  obtain ⟨ns, hkeep, hsubmit⟩ := State.submit_refused (issuer := some (c.g.lid, (s.recOf c.g).ntl))
    ((congrArg recordOf (State.readWords_dress ..)).trans hr) hn
  obtain ⟨cs', hcount⟩ := State.count_eq ({ u.dress c.s.groups cs with podNews := ns })
    ((u.dress c.s.groups cs).distCore (s.partIdx c.r.die)) 0 1 1
  have hup := h.updates_putK (u := { u with podNews := ns }) (v := { u.dress c.s.groups cs with podNews := ns, counters := cs' })
    rfl rfl (dstNum o.d) (BitVec.ofNat 64 n)
  have hnews := congrArg State.podNews hup.rest
  rw [hsubmit, hcount]
  refine ⟨fun ho => hnews.trans (hkeep ho), ?_⟩
  rw [hnews]
  exact hup

theorem lnch_ended
    (hn : ¬∃ n, (s.lnchReleased o c).Refused (s.partIdx c.r.die) c.r.die (s.lnchRecord o c) (some (s.recOf c.g).ntl) none n)
    (hturned : (s.lnchReleased o c).Turned (s.lnchRecord o c) (c.recAt o)) :
    Answers (.lnch o) s (s.lnchReleased o c).Ended := by
  obtain ⟨cs, hcs⟩ := lnch_submits h hka hord hp hd hrec hbind
  refine hcs _ ?_
  unfold State.lnchSubmit
  have hr : recordOf ((s.lnchReleased o c).readWords c.r.die (s.asidOf c.g) (c.recAt o) 32) = s.lnchRecord o c := rfl
  generalize s.lnchReleased o c = u at *
  replace hn : ¬∃ n, (u.dress c.s.groups cs).Refused (s.partIdx c.r.die) c.r.die (s.lnchRecord o c) (some (s.recOf c.g).ntl) none n := by
    simpa only [State.refused_dress] using hn
  rw [← State.turned_dress (gs := c.s.groups) (cs := cs)] at hturned
  obtain ⟨l, hl, hended⟩ := State.submit_turned (issuer := some (c.g.lid, (s.recOf c.g).ntl))
    ((congrArg recordOf (State.readWords_dress ..)).trans hr) hn hturned
  refine ⟨l, ?_, hended⟩
  rw [slotEnd_ok_launches]
  exact hl

theorem lnch_queued
    (hn : ¬∃ n, (s.lnchReleased o c).Refused (s.partIdx c.r.die) c.r.die (s.lnchRecord o c) (some (s.recOf c.g).ntl) none n)
    (hfree : (s.lnchReleased o c).Free (s.lnchRecord o c).asid (c.recAt o)) :
    Answers (.lnch o) s (fun t =>
      (s.lnchReleased o c).Queued (s.partIdx c.r.die) c.r.die (c.recAt o) (s.lnchRecord o c) t ∧
      c.Ends ((c.read (srcRds o.a)).writeK (dstNum o.d) (BitVec.ofNat 64 ((s.lnchReleased o c).nextLid * 2 ^ 32))) t ∧
      ∀ x, x ≠ c.r → t.group? x = s.group? x) := by
  obtain ⟨cs, hcs⟩ := lnch_submits h hka hord hp hd hrec hbind
  refine hcs _ ?_
  unfold State.lnchSubmit
  have hr : recordOf ((s.lnchReleased o c).readWords c.r.die (s.asidOf c.g) (c.recAt o) 32) = s.lnchRecord o c := rfl
  generalize s.lnchReleased o c = u at *
  replace hn : ¬∃ n, (u.dress c.s.groups cs).Refused (s.partIdx c.r.die) c.r.die (s.lnchRecord o c) (some (s.recOf c.g).ntl) none n := by
    simpa only [State.refused_dress] using hn
  rw [← State.free_dress (gs := c.s.groups) (cs := cs)] at hfree
  obtain ⟨ns, accepted, hsubmit⟩ := State.submit_queued (issuer := some (c.g.lid, (s.recOf c.g).ntl))
    ((congrArg recordOf (State.readWords_dress ..)).trans hr) hn hfree
  have hqueued := (u.dress c.s.groups cs).enqueued_queued (s.partIdx c.r.die) c.r.die (c.recAt o) (s.lnchRecord o c)
    (some (c.g.lid, (s.recOf c.g).ntl)) accepted ns
  have hgroups := (u.dress c.s.groups cs).enqueued_groups (s.partIdx c.r.die) (s.lnchRecord o c).queue
    ((u.dress c.s.groups cs).newLaunch (s.partIdx c.r.die) c.r.die (c.recAt o) (s.lnchRecord o c)
      (some (c.g.lid, (s.recOf c.g).ntl)) accepted) ns
  rw [hsubmit]
  generalize State.enqueued _ _ _ _ ns = v at *
  have hup := h.updates_putK (u := v) (v := v) hgroups rfl (dstNum o.d) (BitVec.ofNat 64 (u.nextLid * 2 ^ 32))
  exact ⟨(State.queued_dress ..).1 (hqueued.of_rest hup.rest), hup.group, fun x hx => (hup.others x hx).trans (by rw [h.start])⟩

end

end Sys2Proof.Machine
end

section
/-! PROOF of O55, launch commands: the commands of the steward (04 R85 to R87). -/

namespace Sys2Proof.Machine

open Sys2Proof

/-! ### Command pages -/

/-- A map whose value at one key is changed. -/
theorem AMap.get?_map_at {κ α : Type} [DecidableEq κ] (m : AMap κ α) (k : κ) (f : α → α) :
    AMap.get? (m.map (fun x => if x.1 = k then (x.1, f x.2) else x)) k = (m.get? k).map f := by
  induction m with
  | nil => rfl
  | cons x m ih =>
    obtain ⟨k', a⟩ := x
    by_cases hk : k' = k
    · simp [AMap.get?, hk]
    · simp [AMap.get?, hk, ih]

section
variable {s t : State} {pt page : Nat} {p : CmdPage}

theorem State.modPage_get? {k : Nat × Nat} {f : CmdPage → CmdPage} (hp : s.pages.get? k = some p) :
    (s.modPage k f).pages.get? k = some (f p) := by
  rw [State.modPage, AMap.get?_map_at, hp, Option.map_some]

theorem State.modPage_hbm (s : State) (k : Nat × Nat) (f : CmdPage → CmdPage) : (s.modPage k f).hbm = s.hbm := rfl

theorem State.homeWrite_pages (s : State) (die asid va : Nat) (bs : List Byte) : (s.homeWrite die asid va bs).pages = s.pages :=
  (State.Cached.homeWrite (.refl s)).pages

theorem State.homeWrite_launches (s : State) (die asid va : Nat) (bs : List Byte) : (s.homeWrite die asid va bs).launches = s.launches :=
  (State.Cached.homeWrite (.refl s)).launches

/-- A page that has been registered, or has ended, is cleared (14 R430). -/
theorem stewardPoll_clears (hp : s.pages.get? (pt, page) = some p) (hclear : p.clear = true)
    (hf : s.engineFault (s.stewardCore pt) 0 p.va 8 true = none) :
    exec (.stewardPoll pt page) s = .next (s.clearPage (pt, page) p) := by
  show execStewardPoll pt page s = _
  simp only [execStewardPoll, hp, hclear, hf, if_true, Option.getD_none]

theorem State.clearPage_get? (hp : s.pages.get? (pt, page) = some p) :
    (s.clearPage (pt, page) p).pages.get? (pt, page) = some { p with clear := false } := by
  refine State.modPage_get? (f := fun p => { p with clear := false }) ?_
  split <;> rw [State.homeWrite_pages, hp]

/-- The count of a page at an address. -/
def State.pageWord (s : State) (pt a : Nat) : DWord := s.homeRead64 (s.stewardCore pt).die 0 a

/-- The command at HEAD of a page. -/
def State.nextCommand (s : State) (pt : Nat) (p : CmdPage) : Command :=
  let head := (s.pageWord pt (p.va + 8)).toNat
  let w (i : Nat) : DWord := s.pageWord pt (p.va + 0x80 + 128 * (head % 511) + 8 * i)
  ⟨(w 0).toNat, w 1, w 2, w 3, head⟩

/-- The steward polls a page that it may write to. -/
theorem stewardPoll_polls (hp : s.pages.get? (pt, page) = some p) (hruns : s.stewardRuns pt = true) (hperr : p.perr = 0)
    (hcmd : p.cmd = none) (hclear : p.clear = false) (hf : s.engineFault (s.stewardCore pt) 0 p.va 8 true = none) :
    let tail := (s.pageWord pt p.va).toNat
    let head := (s.pageWord pt (p.va + 8)).toNat
    exec (.stewardPoll pt page) s = .next (
      if tail ≤ head then s
      else if head + 511 < tail then
        (s.homeWrite (s.stewardCore pt).die 0 (p.va + 0x10) (natToBytes 8 1)).modPage (pt, page) (fun p => { p with perr := 1 })
      else s.modPage (pt, page) (fun q => { q with cmd := some (s.nextCommand pt p) })) := by
  intro tail head
  have hexec : exec (.stewardPoll pt page) s = execStewardPoll pt page s := rfl
  rw [hexec]
  simp only [execStewardPoll, hp, hclear, hruns, hperr, hcmd, hf, if_false, Bool.false_eq_true, Bool.not_true, Option.isSome_none,
    Bool.or_false, ne_eq, not_true_eq_false, decide_false]
  show (if tail ≤ head then _ else if head + 511 < tail then _ else _) = _
  split
  · rfl
  · split <;> rfl

section
variable (hp : s.pages.get? (pt, page) = some p) (hruns : s.stewardRuns pt = true) (hperr : p.perr = 0)
  (hcmd : p.cmd = none) (hclear : p.clear = false) (hf : s.engineFault (s.stewardCore pt) 0 p.va 8 true = none)

include hp hruns hperr hcmd hclear hf

theorem stewardPoll_rests (hle : (s.pageWord pt p.va).toNat ≤ (s.pageWord pt (p.va + 8)).toNat) :
    Answers (.stewardPoll pt page) s (fun t => t = s) := by
  have hpoll := stewardPoll_polls hp hruns hperr hcmd hclear hf
  dsimp only at hpoll
  rw [if_pos hle] at hpoll
  exact ⟨s, hpoll, rfl⟩

theorem stewardPoll_refuses (hlt : (s.pageWord pt (p.va + 8)).toNat + 511 < (s.pageWord pt p.va).toNat) :
    Answers (.stewardPoll pt page) s (fun t =>
      t.hbm = (s.homeWrite (s.stewardCore pt).die 0 (p.va + 0x10) (natToBytes 8 1)).hbm ∧
      ∃ p', t.pages.get? (pt, page) = some p' ∧ p'.perr = 1 ∧ p'.cmd = none) := by
  have hpoll := stewardPoll_polls hp hruns hperr hcmd hclear hf
  dsimp only at hpoll
  rw [if_neg (by omega), if_pos hlt] at hpoll
  refine ⟨_, hpoll, State.modPage_hbm .., { p with perr := 1 }, ?_, rfl, hcmd⟩
  exact State.modPage_get? (f := fun p => { p with perr := 1 }) (by rw [State.homeWrite_pages, hp])

theorem stewardPoll_takes (hlt : (s.pageWord pt (p.va + 8)).toNat < (s.pageWord pt p.va).toNat)
    (hle : (s.pageWord pt p.va).toNat ≤ (s.pageWord pt (p.va + 8)).toNat + 511) :
    Answers (.stewardPoll pt page) s (fun t => t.hbm = s.hbm ∧
      t.pages.get? (pt, page) = some { p with cmd := some (s.nextCommand pt p) }) := by
  have hpoll := stewardPoll_polls hp hruns hperr hcmd hclear hf
  dsimp only at hpoll
  rw [if_neg (by omega), if_neg (by omega)] at hpoll
  exact ⟨_, hpoll, State.modPage_hbm .., State.modPage_get? (f := fun q => { q with cmd := some (s.nextCommand pt p) }) hp⟩

end

/-! ### The command of a page -/

section
variable {isOp : Nat → Bool} {act : State → Command → State ⊕ (DWord × State)} {c : Command} {v : DWord} {u : State}

theorem command_done (hp : s.pages.get? (pt, page) = some p) (hruns : s.stewardRuns pt = true) (hcmd : p.cmd = some c)
    (hf : s.engineFault (s.stewardCore pt) 0 p.va 8 true = none) (hop : isOp c.op = true) (hact : act s c = .inr (v, u)) :
    command pt page isOp act s = .next (u.cmdDone pt page p c.number v) := by
  simp only [command, hp, hcmd, hop, hruns, hf, hact, Bool.not_true, Bool.or_false, if_false, Bool.false_eq_true]

theorem command_waits (hp : s.pages.get? (pt, page) = some p) (hruns : s.stewardRuns pt = true) (hcmd : p.cmd = some c)
    (hf : s.engineFault (s.stewardCore pt) 0 p.va 8 true = none) (hop : isOp c.op = true) (hact : act s c = .inl u) :
    command pt page isOp act s = .next u := by
  simp only [command, hp, hcmd, hop, hruns, hf, hact, Bool.not_true, Bool.or_false, if_false, Bool.false_eq_true]

end

/-! ### What a command leaves of a launch -/

theorem State.cmdDone_launches (s : State) (pt page : Nat) (p : CmdPage) (n : Nat) (v : DWord) :
    (s.cmdDone pt page p n v).launches = s.launches := by
  simp only [State.cmdDone, State.modPage, State.homeWrite_launches]

/-- The machine with other answers kept of other packages. -/
def State.withNews (s : State) (ns : List PodNews) : State := { s with podNews := ns }

theorem State.watch_withNews (s : State) (ns : List PodNews) : (s.withNews ns).watch = s.watch.withNews ns := by
  have hops : (s.withNews ns).ops = s.ops := rfl
  have hmet : ∀ o, (s.withNews ns).waitaMet o = s.waitaMet o := fun o => by
    have hread : ∀ l : LaneAcc, (s.withNews ns).homeRead o.g.die o.asid l.addr o.size = s.homeRead o.g.die o.asid l.addr o.size :=
      fun l => State.homeRead_over s (s.withNews ns) o.g.die o.asid l.addr o.size
    have hoc : ∀ a, (s.withNews ns).ocByte a = s.ocByte a := fun _ => rfl
    have hpacks : (s.withNews ns).packs = s.packs := rfl
    simp only [State.waitaMet, State.waitaWord, State.ocRead, hread, hoc, hpacks]
  unfold State.watch
  simp only [hops, hmet]
  split <;> rfl

/-- A write takes no notice of what other packages answered. -/
theorem State.homeWrite_withNews (s : State) (ns : List PodNews) (die asid va : Nat) (bs : List Byte) :
    (s.withNews ns).homeWrite die asid va bs = (s.homeWrite die asid va bs).withNews ns := by
  have hs : s.homeStore die asid va bs = (s.homeStore die asid va bs).over s := s.homeStore_over s ..
  have hns : (s.withNews ns).homeStore die asid va bs = (s.homeStore die asid va bs).withNews ns :=
    calc _ = (s.homeStore die asid va bs).over (s.withNews ns) := s.homeStore_over (s.withNews ns) ..
      _ = ((s.homeStore die asid va bs).over s).withNews ns := rfl
      _ = _ := by rw [← hs]
  unfold State.homeWrite
  rw [hns, State.watch_withNews]

theorem State.modPage_withNews (s : State) (ns : List PodNews) (k : Nat × Nat) (f : CmdPage → CmdPage) :
    (s.withNews ns).modPage k f = (s.modPage k f).withNews ns := rfl

theorem State.cmdDone_withNews (s : State) (ns : List PodNews) (pt page : Nat) (p : CmdPage) (n : Nat) (v : DWord) :
    (s.withNews ns).cmdDone pt page p n v = (s.cmdDone pt page p n v).withNews ns := by
  have hcore : (s.withNews ns).stewardCore pt = s.stewardCore pt := rfl
  unfold State.cmdDone
  dsimp only
  rw [hcore, State.homeWrite_withNews, State.homeWrite_withNews, State.modPage_withNews]

end

/-! ### LAUNCH -/

section
variable {s : State} {pt page : Nat} {p : CmdPage} {c : Command} {r : LaunchRec}

/-- The steward runs and has the command c of a page that it may write to. -/
structure State.HasCommand (s : State) (pt page : Nat) (p : CmdPage) (c : Command) : Prop where
  page : s.pages.get? (pt, page) = some p
  runs : s.stewardRuns pt = true
  taken : p.cmd = some c
  open_ : s.engineFault (s.stewardCore pt) 0 p.va 8 true = none


/-- A command that is executed is done. -/
theorem State.HasCommand.done {isOp : Nat → Bool} {act : State → Command → State ⊕ (DWord × State)} {i : Instr} {v : DWord} {u : State}
    {x : Out} (h : s.HasCommand pt page p c) (hi : exec i s = x) (hx : x = command pt page isOp act s) (hop : isOp c.op = true)
    (hact : act s c = .inr (v, u)) : Answers i s (fun t => t = u.cmdDone pt page p c.number v) :=
  ⟨_, hi.trans (hx.trans (command_done h.page h.runs h.taken h.open_ hop hact)), rfl⟩

/-- A command that waits leaves its page as it is. -/
theorem State.HasCommand.waits {isOp : Nat → Bool} {act : State → Command → State ⊕ (DWord × State)} {i : Instr}
    {x : Out} (h : s.HasCommand pt page p c) (hi : exec i s = x) (hx : x = command pt page isOp act s) (hop : isOp c.op = true)
    (hact : act s c = .inl s) : Answers i s (fun t => t = s) :=
  ⟨_, hi.trans (hx.trans (command_waits h.page h.runs h.taken h.open_ hop hact)), rfl⟩

theorem launch_misaligned (h : s.HasCommand pt page p c) (hop : c.op = 1) (hka : c.arg0.toNat % 256 ≠ 0) :
    Answers (.launch pt page) s (fun t => t = s.cmdDone pt page p c.number 1) :=
  h.done (x := execLaunch pt page s) rfl rfl (by rw [hop]; rfl) (if_pos hka)

/-- The record that a LAUNCH of the steward submits. -/
def State.stewardRecord (s : State) (pt : Nat) (c : Command) : LaunchRec :=
  recordOf (s.readWords (s.stewardCore pt).die 0 c.arg0.toNat 32)

/-- What the submission of the steward comes to. -/
def State.stewardSubmit (s : State) (pt page : Nat) (c : Command) : DWord × State :=
  s.submit pt (s.stewardCore pt).die 0 c.arg0.toNat none (some page)

section
variable (h : s.HasCommand pt page p c) (hop : c.op = 1) (hka : c.arg0.toNat % 256 = 0)
  (hrec : s.needPages (s.stewardCore pt) 0 [(c.arg0.toNat, 256)] = none)
  (hbind : s.needPages (s.stewardCore pt) (s.stewardRecord pt c).asid
    [((s.stewardRecord pt c).bindt, if (s.stewardRecord pt c).wf then 16 * (s.stewardRecord pt c).nbind else 0)] = none)

include h hop hka hrec hbind

theorem launch_submits : Answers (.launch pt page) s (fun t =>
    t = (s.stewardSubmit pt page c).2.cmdDone pt page p c.number (s.stewardSubmit pt page c).1) := by
  refine h.done (x := execLaunch pt page s) rfl rfl (by rw [hop]; rfl) ?_
  refine (if_neg (not_not.2 hka)).trans ?_
  unfold State.stewardRecord at hbind
  rw [hrec, hbind]
  rfl

theorem launch_refused {n : Nat} (hn : s.Refused pt (s.stewardCore pt).die (s.stewardRecord pt c) none (some page) n) :
    Answers (.launch pt page) s (fun t => (s.podOthers (s.stewardRecord pt c) = [] → t.podNews = s.podNews) ∧
      t = { (s.count (s.distCore pt) 0 1).cmdDone pt page p c.number (BitVec.ofNat 64 n) with podNews := t.podNews }) := by
  obtain ⟨t, ht, htdone⟩ := launch_submits h hop hka hrec hbind
  obtain ⟨ns, hkeep, hsubmit⟩ := State.submit_refused (s := s) (issuer := none) (asid := 0) (ka := c.arg0.toNat) rfl hn
  rw [State.stewardSubmit, hsubmit] at htdone
  have hcount : ({ s with podNews := ns } : State).count (s.distCore pt) 0 1 = (s.count (s.distCore pt) 0 1).withNews ns := rfl
  rw [hcount, State.cmdDone_withNews] at htdone
  refine ⟨t, ht, ?_, ?_⟩
  · rw [htdone]; exact hkeep
  · rw [htdone]; rfl

theorem launch_ended (hn : ¬∃ n, s.Refused pt (s.stewardCore pt).die (s.stewardRecord pt c) none (some page) n)
    (hturned : s.Turned (s.stewardRecord pt c) c.arg0.toNat) : Answers (.launch pt page) s s.Ended := by
  obtain ⟨t, ht, rfl⟩ := launch_submits h hop hka hrec hbind
  obtain ⟨l, hl, hended⟩ := State.submit_turned (s := s) (issuer := none) (asid := 0) (ka := c.arg0.toNat) rfl hn hturned
  refine ⟨_, ht, l, ?_, hended⟩
  rw [State.cmdDone_launches]
  exact hl

theorem launch_queued (hn : ¬∃ n, s.Refused pt (s.stewardCore pt).die (s.stewardRecord pt c) none (some page) n)
    (hfree : s.Free (s.stewardRecord pt c).asid c.arg0.toNat) : Answers (.launch pt page) s (fun t => ∃ u,
      s.Queued pt (s.stewardCore pt).die c.arg0.toNat (s.stewardRecord pt c) u ∧ u.groups = s.groups ∧
      t = u.cmdDone pt page p c.number (BitVec.ofNat 64 (s.nextLid * 2 ^ 32))) := by
  obtain ⟨t, ht, rfl⟩ := launch_submits h hop hka hrec hbind
  obtain ⟨ns, accepted, hsubmit⟩ := State.submit_queued (s := s) (issuer := none) (asid := 0) (ka := c.arg0.toNat) rfl hn hfree
  refine ⟨_, ht, _, s.enqueued_queued pt _ _ _ none accepted ns, s.enqueued_groups .., ?_⟩
  rw [State.stewardSubmit, hsubmit]
  rfl

end

/-! ### The other commands -/

theorem memTimeline_eq {x : DWord} (hk : refKind x = 1) (hwf : refWf x none = true) : memTimeline x = some (bits x.toNat 55 0) := by
  rw [memTimeline, hk, hwf]; rfl

theorem State.refValue_memory (s : State) (die asid issuer : Nat) {x : DWord} (hk : refKind x = 1) :
    s.refValue die asid issuer x = (s.homeRead64 die asid (bits x.toNat 55 0)).toNat := by
  rw [State.refValue, hk]; rfl

theorem State.refSignal_memory (s : State) (die asid issuer : Nat) {x : DWord} (v : DWord) (hk : refKind x = 1) :
    s.refSignal die asid issuer x v = if (s.homeRead64 die asid (bits x.toNat 55 0)).toNat < v.toNat then
      (s.homeWrite die asid (bits x.toNat 55 0) (natToBytes 8 v.toNat)).engNote die asid (bits x.toNat 55 0) else s := by
  rw [State.refSignal, hk]; rfl

section
variable (h : s.HasCommand pt page p c) (hk : refKind c.arg0 = 1) (hwf : refWf c.arg0 none = true)

include h hk hwf

theorem signal_waits (hop : c.op = 2) (hf : s.engineFault (s.stewardCore pt) 0 (bits c.arg0.toNat 55 0) 8 true = none)
    (hheld : s.gdMigrates (s.stewardCore pt).die 0 (bits c.arg0.toNat 55 0) = true) :
    Answers (.signal pt page) s (fun t => t = s) := by
  refine h.waits (x := execSignal pt page s) rfl rfl (by rw [hop]; rfl) ?_
  simp only [memTimeline_eq hk hwf, hf, State.outsHeld, List.any_cons, List.any_nil, Bool.or_false, hheld, if_true]

theorem signal_signals (hop : c.op = 2) (hf : s.engineFault (s.stewardCore pt) 0 (bits c.arg0.toNat 55 0) 8 true = none)
    (hheld : s.gdMigrates (s.stewardCore pt).die 0 (bits c.arg0.toNat 55 0) = false) :
    Answers (.signal pt page) s (fun t =>
      t = (s.refSignal (s.stewardCore pt).die 0 0 c.arg0 c.arg1).cmdDone pt page p c.number 0) := by
  refine h.done (x := execSignal pt page s) rfl rfl (by rw [hop]; rfl) ?_
  simp only [memTimeline_eq hk hwf, hf, State.outsHeld, List.any_cons, List.any_nil, Bool.or_false, hheld, if_false, Bool.false_eq_true]

theorem wait_done (hop : c.op = 5) (hf : s.engineFault (s.stewardCore pt) 0 (bits c.arg0.toNat 55 0) 8 false = none)
    (hv : c.arg1.toNat ≤ (s.homeRead64 (s.stewardCore pt).die 0 (bits c.arg0.toNat 55 0)).toNat) :
    Answers (.wait pt page) s (fun t => t = s.cmdDone pt page p c.number 0) := by
  refine h.done (x := execWait pt page s) rfl rfl (by rw [hop]; rfl) ?_
  simp only [memTimeline_eq hk hwf, hf, State.refValue_memory _ _ _ _ hk, Nat.not_lt.2 hv, if_false]

theorem wait_waits (hop : c.op = 5) (hf : s.engineFault (s.stewardCore pt) 0 (bits c.arg0.toNat 55 0) 8 false = none)
    (hv : (s.homeRead64 (s.stewardCore pt).die 0 (bits c.arg0.toNat 55 0)).toNat < c.arg1.toNat) :
    Answers (.wait pt page) s (fun t => t = s) := by
  refine h.waits (x := execWait pt page s) rfl rfl (by rw [hop]; rfl) ?_
  simp only [memTimeline_eq hk hwf, hf, State.refValue_memory _ _ _ _ hk, hv, if_true]

end

section
variable (h : s.HasCommand pt page p c)

include h

theorem modload_installs (hop : c.op = 3) (hidx : c.arg1.toNat ≤ 255)
    (hpages : s.needPages (s.stewardCore pt) 0 [(c.arg0.toNat % 2 ^ 56, 64), (s.modTab.toNat, 4096)] = none) :
    Answers (.modload pt page) s (fun t =>
      t = (s.installModule (s.stewardCore pt).die 0 c.arg1.toNat (c.arg0.toNat % 2 ^ 56)).2.cmdDone pt page p c.number
        (BitVec.ofNat 64 (s.installModule (s.stewardCore pt).die 0 c.arg1.toNat (c.arg0.toNat % 2 ^ 56)).1)) := by
  refine h.done (x := execModload pt page s) rfl rfl (by rw [hop]; rfl) ?_
  refine (if_neg (Nat.not_lt.2 hidx)).trans ?_
  rw [hpages]

theorem modunload_removes (hop : c.op = 4) (hidx : c.arg1.toNat ≤ 255) : Answers (.modunload pt page) s (fun t =>
    t = (s.removeModule (s.stewardCore pt).die 0 c.arg1.toNat).2.cmdDone pt page p c.number
      (BitVec.ofNat 64 (s.removeModule (s.stewardCore pt).die 0 c.arg1.toNat).1)) :=
  h.done (x := execModunload pt page s) rfl rfl (by rw [hop]; rfl) (if_neg (Nat.not_lt.2 hidx))

theorem badcmd_done (hop : c.op = 0 ∨ 5 < c.op) :
    Answers (.badcmd pt page) s (fun t => t = s.cmdDone pt page p c.number 0xFF) :=
  h.done (x := execBadcmd pt page s) rfl rfl (by simpa using hop) rfl

end

end

end Sys2Proof.Machine
end

section
/-! PROOF of O55, launch commands, from the lemmas on LNCH and on the steward. -/

namespace Sys2Proof.Machine

open Sys2Proof

/-- Settles O55: LNCH and LAUNCH come to one submission, whose code is the first that applies, and the other commands of the
steward to what they name. -/
theorem launchCommands : Obligations.LaunchCommands := by
  unfold Obligations.LaunchCommands
  intro refused queued free turned ended done
  refine ⟨?lnch, ?clear, ?poll, ?commands⟩
  case lnch =>
    intro o s c h ka asid die u r pt ntl ordinary
    refine ⟨lnch_misaligned h, lnch_not_ordinary h, lnch_piste h, lnch_waits h, fun hka hord hp hd hrec hbind => ⟨fun n hn => ?_,
      fun hn hturned => ?_, fun hn hfree => ?_⟩⟩
    · exact lnch_refused h hka hord hp hd hrec hbind hn
    · exact lnch_ended h hka hord hp hd hrec hbind hn hturned
    · exact lnch_queued h hka hord hp hd hrec hbind hn hfree
  case clear =>
    intro s pt page p hp hclear die hf
    exact ⟨_, stewardPoll_clears hp hclear hf, rfl, State.clearPage_get? hp⟩
  case poll =>
    intro s pt page p hp hruns hperr hcmd hclear hf die tail head w
    exact ⟨stewardPoll_rests hp hruns hperr hcmd hclear hf, stewardPoll_refuses hp hruns hperr hcmd hclear hf,
      stewardPoll_takes hp hruns hperr hcmd hclear hf⟩
  case commands =>
    intro s pt page p c hp hruns hcmd hf core die ka r img tl is
    have h : s.HasCommand pt page p c := ⟨hp, hruns, hcmd, hf⟩
    refine ⟨launch_misaligned h, fun hop hka hrec hbind => ⟨fun n hn => ?_, fun hn hturned => ?_, fun hn hfree => ?_⟩,
      fun hop hk hwf hfault => ⟨signal_waits h hk hwf hop hfault, fun hheld => ?_⟩,
      modload_installs h, modunload_removes h,
      fun hop hk hwf hfault => ⟨wait_done h hk hwf hop hfault, wait_waits h hk hwf hop hfault⟩, badcmd_done h⟩
    · exact launch_refused h hop hka hrec hbind hn
    · exact launch_ended h hop hka hrec hbind hn hturned
    · exact launch_queued h hop hka hrec hbind hn hfree
    · have hdone := signal_signals h hk hwf hop hfault hheld
      rw [State.refSignal_memory _ _ _ _ _ hk] at hdone
      exact hdone

end Sys2Proof.Machine
end

section
/-! PROOF of O56, the states of a launch: the head of a queue becomes READY (04 R94, R96). -/

namespace Sys2Proof.Machine

open Sys2Proof

/-! ### Named timelines alone change -/

/-- Every launch with the named timelines that f gives it. -/
def State.retime (s : State) (f : Launch → List DWord) : State :=
  { s with launches := s.launches.map (fun l => { l with tls := f l }) }

/-- t is s with other values of named timelines. -/
def State.Retimed (s t : State) : Prop := ∃ f, t = s.retime f

section
variable {s t u : State}

theorem State.Retimed.refl (s : State) : s.Retimed s := ⟨Launch.tls, by simp [State.retime]⟩

theorem State.Retimed.trans : s.Retimed t → t.Retimed u → s.Retimed u := by
  rintro ⟨f, rfl⟩ ⟨g, rfl⟩
  exact ⟨fun l => g { l with tls := f l }, by simp [State.retime, Function.comp_def]⟩

theorem State.retimed_raiseNamed (s : State) (n i : Nat) (v : DWord) : s.Retimed (s.raiseNamed n i v) := by
  refine ⟨fun l => if l.lid = n then modNth l.tls i (fun x => if x.toNat < v.toNat then v else x) else l.tls, ?_⟩
  simp only [State.raiseNamed, State.modLaunch, State.retime]
  congr 1
  refine List.map_congr_left fun l _ => ?_
  split <;> rfl

theorem State.retimed_refSync (s : State) (issuer : Nat) (x : DWord) : s.Retimed (s.refSync issuer x) := by
  unfold State.refSync State.podTimeline
  split
  · split
    · split
      · exact s.retimed_raiseNamed ..
      · exact .refl s
    · exact .refl s
  · exact .refl s

theorem State.retime_launch? {f : Launch → List DWord} {n : Nat} {l : Launch} (h : s.launch? n = some l) :
    (s.retime f).launch? n = some { l with tls := f l } := by
  rw [State.launch?_of_map (s := s) (f := fun l => { l with tls := f l }) rfl fun _ => rfl, h, Option.map_some]

theorem State.mem_queueLaunches {pt q : Nat} {l : Launch} (h : l ∈ s.queueLaunches pt q) : s.launch? l.lid = some l := by
  obtain ⟨n, -, hn⟩ := List.mem_filterMap.1 h
  rw [State.launch?_lid hn, hn]

/-! ### The head of a queue (04 R96) -/

section
variable {pt q : Nat} {l : Launch}

/-- The machine once the dependences of a launch have been read. -/
def State.synced (s : State) (l : Launch) : State := l.lrec.deps.foldl (fun (u : State) d => u.refSync l.issuer d.1) s

theorem State.retimed_synced (s : State) (l : Launch) : s.Retimed (s.synced l) :=
  List.foldlRecOn (motive := s.Retimed) _ _ (.refl s) fun u hu _ _ => hu.trans (u.retimed_refSync ..)

/-- Every dependence holds. -/
def State.DepsMet (s : State) (l : Launch) : Prop :=
  ∀ d ∈ l.lrec.deps, refKind d.1 = 0 ∨ d.2.toNat ≤ (s.synced l).refValue (s.distCore l.part).die l.lrec.asid l.issuer d.1

/-- Every part of a pod-span launch is accepted. -/
def State.PartsMet (s : State) (l : Launch) : Prop := l.lrec.span = 2 → ∀ p ≤ l.lrec.podn, p = s.pkg ∨ p ∈ l.podAccepted

theorem State.depsHold_iff : (s.synced l).depsHold l = true ↔ s.DepsMet l := by
  have hcore : (s.synced l).distCore l.part = s.distCore l.part := by
    obtain ⟨f, hf⟩ := s.retimed_synced l
    rw [hf]; rfl
  simp [State.depsHold, State.DepsMet, hcore]

theorem State.partsHold_iff : (s.synced l).partsHold l = true ↔ s.PartsMet l := by
  have hpkg : (s.synced l).pkg = s.pkg := by
    obtain ⟨f, hf⟩ := s.retimed_synced l
    rw [hf]; rfl
  by_cases hspan : l.lrec.span = 2 <;> simp [State.partsHold, State.PartsMet, hspan, hpkg]

/-- What the launch becomes as it is READY: its binding table, its factor table and its timelines' first values are read. -/
def State.made (s : State) (pt : Nat) (r : LaunchRec) (l : Launch) : Launch :=
  let die := (s.distCore pt).die
  { l with
    state := .ready, readySeq := (s.dist pt).readyCount, bindings := (bindEntries r (s.readBinds die r)).getD [],
    ft := if r.gft = 0 then [] else (List.range 256).map (fun i => BitVec.ofNat 32 (bytesToNat (s.homeRead die r.asid (r.gft + 4 * i) 4))),
    tls := (List.range r.ntl).map (fun i => if r.tlinit = 0 then 0 else s.homeRead64 die r.asid (r.tlinit + 8 * i)) }

theorem State.made_retime (s : State) (f : Launch → List DWord) (pt : Nat) (r : LaunchRec) (l : Launch) :
    (s.retime f).made pt r l = s.made pt r l := by
  have hread : ∀ die asid a n, (s.retime f).homeRead die asid a n = s.homeRead die asid a n := State.homeRead_over s (s.retime f)
  have hword : ∀ die asid a, (s.retime f).homeRead64 die asid a = s.homeRead64 die asid a := State.homeRead64_over s (s.retime f)
  have hcore : (s.retime f).distCore pt = s.distCore pt := rfl
  have hdist : (s.retime f).dist pt = s.dist pt := rfl
  simp only [State.made, State.readBinds, hread, hword, hcore, hdist]

/-- What the start of a launch reads. -/
def LaunchRec.startReads (r : LaunchRec) : List (Nat × Nat) :=
  [(r.bindt, 16 * r.nbind), (r.gft, if r.gft = 0 then 0 else 1024), (r.tlinit, if r.tlinit = 0 then 0 else 8 * r.ntl)]

/-- The state after the launch has become READY. -/
def State.readyLaunch (s : State) (pt : Nat) (l : Launch) : State :=
  (s.modLaunch l.lid (s.made pt l.lrec)).setDist pt { s.dist pt with readyCount := (s.dist pt).readyCount + 1 }

/-- The launch goes from QUEUED to READY, once nothing holds it back and its pages can be read. -/
def State.readied (u : State) (pt : Nat) (m : Launch) : Out :=
  if m.state ≠ .queued || !u.depsHold m || !u.partsHold m then .next u
  else
    match u.needPages (u.distCore pt) m.lrec.asid m.lrec.startReads with
    | some s1 => .next s1
    | none => .next (u.readyLaunch pt m)

theorem launchReady_exec (hl : (s.queueLaunches pt q).find? (fun l => l.state = .queued || l.state = .ready) = some l) :
    ∃ f, s.synced l = s.retime f ∧ exec (.launchReady pt q) s = (s.synced l).readied pt { l with tls := f l } := by
  obtain ⟨f, hf⟩ := s.retimed_synced l
  have hlaunch := State.retime_launch? (f := f) (State.mem_queueLaunches (List.mem_of_find?_eq_some hl))
  have hexec : exec (.launchReady pt q) s = (s.synced l).readied pt (((s.synced l).launch? l.lid).getD l) := by
    show execLaunchReady pt q s = _
    rw [execLaunchReady, hl]
    rfl
  exact ⟨f, hf, by rw [hexec, hf, hlaunch]; rfl⟩

section
variable (hl : (s.queueLaunches pt q).find? (fun l => l.state = .queued || l.state = .ready) = some l) (hq : l.state = .queued)

include hl hq

theorem launchReady_waits (hno : ¬(s.DepsMet l ∧ s.PartsMet l)) :
    Answers (.launchReady pt q) s (fun t => t = s.synced l) := by
  obtain ⟨f, -, hexec⟩ := launchReady_exec hl
  refine ⟨s.synced l, hexec.trans (if_pos ?_), rfl⟩
  have hmet : (s.synced l).depsHold l = true → (s.synced l).partsHold l = true → False :=
    fun hd hp => hno ⟨State.depsHold_iff.1 hd, State.partsHold_iff.1 hp⟩
  have hm : ((s.synced l).depsHold { l with tls := f l }, (s.synced l).partsHold { l with tls := f l }) =
    ((s.synced l).depsHold l, (s.synced l).partsHold l) := rfl
  obtain ⟨hmd, hmp⟩ := Prod.mk.inj hm
  rw [hmd, hmp]
  cases hd : (s.synced l).depsHold l <;> cases hp : (s.synced l).partsHold l <;> simp_all

theorem launchReady_readies (hd : s.DepsMet l) (hp : s.PartsMet l)
    (hpages : s.needPages (s.distCore pt) l.lrec.asid l.lrec.startReads = none) :
    ∃ f, s.synced l = s.retime f ∧ exec (.launchReady pt q) s = .next ((s.retime f).readyLaunch pt { l with tls := f l }) := by
  obtain ⟨f, hf, hexec⟩ := launchReady_exec hl
  refine ⟨f, hf, ?_⟩
  rw [← State.depsHold_iff] at hd
  rw [← State.partsHold_iff] at hp
  rw [hf] at hexec hd hp
  have hgo : (s.retime f).needPages ((s.retime f).distCore pt) l.lrec.asid l.lrec.startReads = none :=
    State.needPages_over (s.retime f) hpages
  rw [hexec, State.readied, if_neg]
  · show (match (s.retime f).needPages _ _ _ with | some s1 => _ | none => _) = _
    rw [hgo]
  · have hm : ((s.retime f).depsHold { l with tls := f l }, (s.retime f).partsHold { l with tls := f l }) =
      ((s.retime f).depsHold l, (s.retime f).partsHold l) := rfl
    obtain ⟨hmd, hmp⟩ := Prod.mk.inj hm
    rw [hmd, hmp, hd, hp]
    simp [hq]

/-- What a launch that has become READY is. -/
theorem launchReady_ready (hd : s.DepsMet l) (hp : s.PartsMet l)
    (hpages : s.needPages (s.distCore pt) l.lrec.asid l.lrec.startReads = none) :
    Answers (.launchReady pt q) s (fun t => t.hbm = s.hbm ∧ t.groups = s.groups ∧
      ∃ f, t.launch? l.lid = some (s.made pt l.lrec { l with tls := f })) := by
  obtain ⟨f, -, hexec⟩ := launchReady_readies hl hq hd hp hpages
  refine ⟨_, hexec, rfl, rfl, f l, ?_⟩
  have hlaunch := State.launch?_modLaunch (f := (s.retime f).made pt l.lrec)
    (State.retime_launch? (f := f) (State.mem_queueLaunches (List.mem_of_find?_eq_some hl))) fun _ => rfl
  exact hlaunch.trans (congrArg some (State.made_retime ..))

end

end

end

end Sys2Proof.Machine
end

section
/-! PROOF of O56, the states of a launch: the answers of other packages to a pod-span record (04 R94). -/

namespace Sys2Proof.Machine

open Sys2Proof

/-! ### What is kept of the answers -/

section
variable {s t : State} {asid rec pkg : Nat}

theorem State.news_key (s : State) (asid rec : Nat) : (s.news asid rec).asid = asid ∧ (s.news asid rec).recAddr = rec := by
  unfold State.news
  cases hn : s.podNews.find? (fun n => n.asid = asid && n.recAddr = rec) with
  | none => exact ⟨rfl, rfl⟩
  | some n => simpa using List.find?_some hn

/-- What is put is what is kept. -/
theorem State.news_setNews (s : State) (n : PodNews) : (s.setNews n).news n.asid n.recAddr = n := by
  have hold : (s.podNews.filter (fun x => !(x.asid == n.asid && x.recAddr == n.recAddr))).find?
      (fun x => x.asid = n.asid && x.recAddr = n.recAddr) = none := by
    rw [List.find?_eq_none]
    intro x hx
    simpa [imp_iff_not_or] using (List.mem_filter.1 hx).2
  unfold State.news State.setNews
  rw [List.find?_append, hold, Option.none_or]
  split
  · next hempty =>
    obtain ⟨hmsgs, hstale⟩ : n.msgs = [] ∧ n.stale = [] := by simpa using hempty
    show PodNews.mk n.asid n.recAddr [] [] = n
    rw [← hmsgs, ← hstale]
  · simp

theorem State.news_put (s : State) (asid rec : Nat) (msgs : List (Nat × Bool)) (stale : List Nat) :
    (s.setNews { s.news asid rec with msgs := msgs, stale := stale }).news asid rec =
      { s.news asid rec with msgs := msgs, stale := stale } := by
  obtain ⟨hasid, hrec⟩ := s.news_key asid rec
  have h := s.news_setNews { s.news asid rec with msgs := msgs, stale := stale }
  rwa [hasid, hrec] at h

/-! ### The answer of a package to a part of this one -/

variable {i : Instr} {ok : Bool} {act : Launch → State}

/-- An answer to a submission that has ended here is dropped. -/
theorem podMsg_stale (hi : exec i s = podMsg asid rec pkg ok act s) (hstale : pkg ∈ (s.news asid rec).stale) :
    Answers i s (fun t => t = { s with podNews := t.podNews } ∧
      (t.news asid rec).stale = (s.news asid rec).stale.erase pkg ∧ (t.news asid rec).msgs = (s.news asid rec).msgs) := by
  have hput := s.news_put asid rec (s.news asid rec).msgs ((s.news asid rec).stale.erase pkg)
  exact ⟨_, hi.trans (if_pos (List.contains_iff_mem.2 hstale)), rfl, congrArg PodNews.stale hput, (congrArg PodNews.msgs hput :)⟩

/-- An answer to a submission that is still to come is kept. -/
theorem podMsg_keeps (hi : exec i s = podMsg asid rec pkg ok act s) (hstale : pkg ∉ (s.news asid rec).stale)
    (hpart : s.podPart asid rec pkg = none) :
    Answers i s (fun t => t = { s with podNews := t.podNews } ∧
      (t.news asid rec).msgs = (s.news asid rec).msgs ++ [(pkg, ok)]) := by
  have hput := s.news_put asid rec ((s.news asid rec).msgs ++ [(pkg, ok)]) (s.news asid rec).stale
  refine ⟨_, hi.trans ((if_neg (fun h => hstale (List.contains_iff_mem.1 h))).trans ?_), rfl, congrArg PodNews.msgs hput⟩
  rw [hpart]

/-- An answer to a part that is accepted here. -/
theorem podMsg_acts {l : Launch} (hi : exec i s = podMsg asid rec pkg ok act s) (hstale : pkg ∉ (s.news asid rec).stale)
    (hpart : s.podPart asid rec pkg = some l) : exec i s = .next (act l) := by
  refine hi.trans ((if_neg (fun h => hstale (List.contains_iff_mem.1 h))).trans ?_)
  rw [hpart]

/-! ### A part that is refused -/

theorem State.engineFault_over (r : State) {c : CoreRef} {a va n : Nat} {store : Bool} (h : s.engineFault c a va n store = none) :
    (s.over r).engineFault c a va n store = none := by
  rw [State.engineFault_eq_none] at h ⊢
  rwa [State.rangeFault_over]

theorem State.outsHeld_over (s r : State) (die a : Nat) (outs : List (Nat × Nat)) :
    (s.over r).outsHeld die a outs = s.outsHeld die a outs := by
  have hmigrs : (s.over r).migrs = s.migrs := rfl
  have hmigr : ∀ k, (s.over r).migrOf k = s.migrOf k := fun _ => rfl
  simp only [State.outsHeld, State.gdMigrates, State.xlate_over, State.memKey_over, hmigrs, hmigr]

/-- A launch whose pages accept what its end writes completes. -/
theorem State.closeLaunch_finishes {n : Nat} {l : Launch} (hl : s.launch? n = some l)
    (hf : ∀ x ∈ l.doneOuts, s.engineFault (s.distCore l.part) l.lrec.asid x.1 x.2 true = none)
    (hheld : s.outsHeld (s.distCore l.part).die l.lrec.asid l.doneOuts = false) : s.closeLaunch n = s.finishLaunch n := by
  unfold State.closeLaunch
  simp only [hl, List.findSome?_eq_none_iff.2 hf, hheld, Bool.false_eq_true, if_false]

/-- A launch that is refused before it starts, and whose pages accept what its end writes, is DONE with that END. -/
theorem State.refuseLaunch_done {n e : Nat} {l : Launch} (hl : s.launch? n = some l)
    (hf : ∀ x ∈ l.doneOuts, s.engineFault (s.distCore l.part) l.lrec.asid x.1 x.2 true = none)
    (hheld : s.outsHeld (s.distCore l.part).die l.lrec.asid l.doneOuts = false) :
    ∃ l', (s.refuseLaunch n e).launch? n = some l' ∧ l'.state = .done ∧ l'.endc = e ∧ l'.unplaced = [] := by
  let f (l : Launch) : Launch := { l with endc := e, unplaced := [], state := .draining }
  have hl' : (s.modLaunch n f).launch? n = some (f l) := State.launch?_modLaunch hl fun _ => rfl
  have hheld' := (s.outsHeld_over (s.modLaunch n f) (s.distCore l.part).die l.lrec.asid l.doneOuts).trans hheld
  have hclose : s.refuseLaunch n e = (s.modLaunch n f).finishLaunch n :=
    State.closeLaunch_finishes hl' (fun x hx => State.engineFault_over (s.modLaunch n f) (hf x hx)) hheld'
  rw [hclose]
  exact State.finishLaunch_done hl'

theorem State.refuseLaunch_news (s : State) (n e asid rec : Nat) : (s.refuseLaunch n e).news asid rec = s.news asid rec := by
  have h : (s.refuseLaunch n e).podNews = s.podNews :=
    ((State.Follows.refl (s.modLaunch n fun l => { l with endc := e, unplaced := [], state := .draining })).closeLaunch).podNews
  rw [State.news, h]; rfl

/-- The packages whose answers to a part that is refused have not come yet. -/
def State.dueOf (s : State) (l : Launch) (pkg : Nat) : List Nat :=
  (s.podOthers l.lrec).filter (fun p => p ≠ pkg && !l.podAccepted.contains p)

/-- What is kept once a part is refused: the answers that are still to come are to a submission that has ended. -/
def State.newsDue (s : State) (asid rec pkg : Nat) (l : Launch) : State :=
  s.setNews { s.news asid rec with stale := (s.news asid rec).stale ++ s.dueOf l pkg }

theorem podPartRefusal_ends {l : Launch} (hpart : s.podPart asid rec pkg = some l) (hstale : pkg ∉ (s.news asid rec).stale)
    (hf : ∀ x ∈ l.doneOuts, s.engineFault (s.distCore l.part) l.lrec.asid x.1 x.2 true = none)
    (hheld : s.outsHeld (s.distCore l.part).die l.lrec.asid l.doneOuts = false) (hl : s.launch? l.lid = some l) :
    Answers (.podPartRefusalMsg asid rec pkg) s (fun t =>
      (∃ l', t.launch? l.lid = some l' ∧ l'.state = .done ∧ l'.endc = 4 ∧ l'.unplaced = []) ∧
      ∀ p ∈ s.podOthers l.lrec, p ≠ pkg → p ∉ l.podAccepted → p ∈ (t.news asid rec).stale) := by
  have hexec : exec (.podPartRefusalMsg asid rec pkg) s = .next ((s.newsDue asid rec pkg l).refuseLaunch l.lid 4) :=
    podMsg_acts (act := fun l => (s.newsDue asid rec pkg l).refuseLaunch l.lid 4) rfl hstale hpart
  have hheld' := (s.outsHeld_over (s.newsDue asid rec pkg l) (s.distCore l.part).die l.lrec.asid l.doneOuts).trans hheld
  refine ⟨_, hexec, ?_, fun p hp hne hnot => ?_⟩
  · exact State.refuseLaunch_done (s := s.newsDue asid rec pkg l) hl
      (fun x hx => State.engineFault_over (s.newsDue asid rec pkg l) (hf x hx)) hheld'
  · rw [State.refuseLaunch_news, State.newsDue, s.news_put]
    exact List.mem_append_right _ (List.mem_filter.2 ⟨hp, by simp [hne, hnot]⟩)

theorem podPartAccept_accepts {l : Launch} (hpart : s.podPart asid rec pkg = some l) (hstale : pkg ∉ (s.news asid rec).stale) :
    Answers (.podPartAcceptMsg asid rec pkg) s (fun t =>
      t = s.modLaunch l.lid (fun l => { l with podAccepted := l.podAccepted ++ [pkg] })) :=
  ⟨_, podMsg_acts (act := fun l => s.modLaunch l.lid (fun l => { l with podAccepted := l.podAccepted ++ [pkg] })) rfl hstale hpart, rfl⟩

end

end Sys2Proof.Machine
end

section
/-! PROOF of O56, the states of a launch: blocks are placed and groups start (04 R98, R99). -/

namespace Sys2Proof.Machine

open Sys2Proof

section
variable {s t : State}

/-! ### A block becomes resident (04 R98) -/

/-- The block of a launch that a plan places. -/
def Launch.blockAt (l : Launch) (p : BlockPlan) : Block :=
  { lid := l.lid, idx := p.blk, die := p.at_ / 48, core := p.at_ % 48, slots := p.slots, scratchBase := p.scr,
    scratchLen := scrNeed l.lrec, tileBase := p.tile, accBase := p.acc, phase := List.replicate 32 (PhaseBar.start l.lrec.groups),
    latch := none, merge := [], areds := [], epochs := [], task := none, dig := 0, restart := 0, mismatch := false, hold := false,
    closed := false }

/-- The groups of a block that a plan places, which wait for KARGS. -/
def Launch.groupsAt (l : Launch) (p : BlockPlan) (now : Nat) : List Group :=
  (p.slots.zipIdx).map (fun x =>
    Group.fresh { home := false, die := p.at_ / 48, core := p.at_ % 48, slot := x.1 } .ordinary .placed l p.blk x.2
      ((l.base + l.lrec.entry) % 2 ^ 56) [] now)

/-- t has the blocks and groups of s with others after them; its launches and distributors are those of s. -/
structure State.Placed (s t : State) (bs : List Block) (gs : List Group) : Prop where
  blocks : t.blocks = s.blocks ++ bs
  groups : t.groups = s.groups ++ gs
  launches : t.launches = s.launches
  dists : t.dists = s.dists
  nextId : t.nextId = s.nextId

theorem State.placed_residentBlock (s : State) (l : Launch) (p : BlockPlan) :
    s.Placed (s.residentBlock l p) [l.blockAt p] (l.groupsAt p s.nextId) := by
  have h := State.Cached.l1AcquireAll (c := { home := false, die := p.at_ / 48, core := p.at_ % 48 }) (.refl s)
  unfold State.residentBlock
  dsimp only
  constructor
  · rw [State.count_blocks, h.blocks]; rfl
  · rw [State.count_groups, h.groups]; rfl
  · rw [State.count_launches]; exact h.launches
  · rw [State.count_dists]; exact h.dists
  · rw [State.count_nextId]; exact h.nextId

theorem State.placed_foldl (s : State) (l : Launch) (ps : List BlockPlan) :
    s.Placed (ps.foldl (fun (s : State) p => s.residentBlock l p) s) (ps.map l.blockAt) (ps.flatMap (l.groupsAt · s.nextId)) := by
  induction ps generalizing s with
  | nil => exact ⟨by simp, by simp, rfl, rfl, rfl⟩
  | cons p ps ih =>
    have hp := s.placed_residentBlock l p
    have hps := ih (s.residentBlock l p)
    rw [List.foldl_cons]
    constructor
    · rw [hps.blocks, hp.blocks, List.append_assoc]; rfl
    · rw [hps.groups, hp.groups, List.append_assoc, hp.nextId]; rfl
    · exact hps.launches.trans hp.launches
    · exact hps.dists.trans hp.dists
    · exact hps.nextId.trans hp.nextId

theorem Launch.groupsAt_ref (l : Launch) (p : BlockPlan) (now : Nat) :
    (l.groupsAt p now).map (·.ref) = p.slots.map (fun x => ⟨false, p.at_ / 48, p.at_ % 48, x⟩) := by
  let ref (x : Nat) : GRef := ⟨false, p.at_ / 48, p.at_ % 48, x⟩
  calc (l.groupsAt p now).map (·.ref) = (p.slots.zipIdx.map Prod.fst).map ref := by
        rw [Launch.groupsAt, List.map_map, List.map_map]; rfl
    _ = p.slots.map ref := by rw [List.zipIdx_map_fst]

theorem Launch.mem_groupsAt (l : Launch) {p : BlockPlan} {now : Nat} {g : Group} (hg : g ∈ l.groupsAt p now) :
    ∃ r idx, g = Group.fresh r .ordinary .placed l p.blk idx ((l.base + l.lrec.entry) % 2 ^ 56) [] now := by
  obtain ⟨x, -, rfl⟩ := List.mem_map.1 hg
  exact ⟨_, _, rfl⟩

/-! ### The first offer for which there is room -/

section
variable {pt ptr : Nat} {l : Launch} {ps : List BlockPlan} {before after : List Launch}

/-- The launch with the blocks of some plans placed. -/
def Launch.placedBy (l : Launch) (ps : List BlockPlan) : Launch :=
  let left := l.unplaced.filter (fun b => !(ps.map (·.blk)).contains b)
  { l with unplaced := left, state := if left.isEmpty then .running else .placing }

/-- The machine with the blocks of some plans of a launch resident. -/
def State.placePlans (s : State) (pt : Nat) (l : Launch) (ps : List BlockPlan) (ptr : Nat) : State :=
  let s2 := (ps.foldl (fun (s : State) p => s.residentBlock l p) s).modLaunch l.lid (fun l => l.placedBy ps)
  s2.setDist pt { s2.dist pt with pointer := ptr }

theorem blockPlace_places (hheld : s.held = false) (hstopped : pt ∉ s.stopped) (hoffers : s.offers pt = before ++ l :: after)
    (hbefore : ∀ x ∈ before, s.planFor x = none) (hplan : s.planFor l = some (ps, ptr)) (hleft : l.unplaced ≠ []) :
    ∃ n, exec (.blockPlace pt) s = .next ((s.count (s.distCore pt) 0 3 n).placePlans pt l ps ptr) := by
  have hfirst : (s.offers pt).findSome? (fun l => (s.planFor l).map (fun p => (l, p))) = some (l, ps, ptr) := by
    have hnone : before.findSome? (fun l => (s.planFor l).map (fun p => (l, p))) = none := by
      rw [List.findSome?_eq_none_iff]
      intro x hx
      rw [hbefore x hx]; rfl
    rw [hoffers, List.findSome?_append, hnone, Option.none_or, List.findSome?_cons, hplan]
    rfl
  have hexec : exec (.blockPlace pt) s = execBlockPlace pt s := rfl
  rw [hexec]
  have hempty : l.unplaced.isEmpty = false := by simpa using hleft
  have hruns : s.stopped.contains pt = false := by simpa using hstopped
  simp only [execBlockPlace, hheld, hruns, Bool.or_false, Bool.false_eq_true, if_false, hfirst, hempty]
  exact ⟨_, rfl⟩

theorem State.placePlans_launch? (hl : s.launch? l.lid = some l) :
    (s.placePlans pt l ps ptr).launch? l.lid = some (l.placedBy ps) := by
  have h := s.placed_foldl l ps
  refine State.launch?_modLaunch (f := fun l => l.placedBy ps) ?_ fun _ => rfl
  rw [State.launch?, h.launches]
  exact hl

theorem State.placePlans_pointer : ((s.placePlans pt l ps ptr).dist pt).pointer = ptr :=
  congrArg Distributor.pointer (State.dist_setDist ..)

theorem blockPlace_answers (hheld : s.held = false) (hstopped : pt ∉ s.stopped) (hoffers : s.offers pt = before ++ l :: after)
    (hbefore : ∀ x ∈ before, s.planFor x = none) (hplan : s.planFor l = some (ps, ptr)) (hleft : l.unplaced ≠ [])
    (hl : s.launch? l.lid = some l) :
    Answers (.blockPlace pt) s (fun t =>
      t.blocks = s.blocks ++ ps.map l.blockAt ∧ t.groups = s.groups ++ ps.flatMap (l.groupsAt · s.nextId) ∧
      t.launch? l.lid = some (l.placedBy ps) ∧ (t.dist pt).pointer = ptr) := by
  obtain ⟨n, hexec⟩ := blockPlace_places hheld hstopped hoffers hbefore hplan hleft
  have h := (s.count (s.distCore pt) 0 3 n).placed_foldl l ps
  refine ⟨_, hexec, ?_, ?_, State.placePlans_launch? ?_, State.placePlans_pointer⟩
  · exact h.blocks.trans (by rw [State.count_blocks])
  · exact h.groups.trans (by rw [State.count_groups, State.count_nextId])
  · rw [State.launch?, State.count_launches]; exact hl

end

/-! ### A group starts (04 R99) -/

section
variable {r : GRef} {g : Group} {l : Launch}

/-- A map that lists what a function gives at some keys. -/
theorem AMap.get?_map_keys {κ α : Type} [DecidableEq κ] (f : κ → α) {ks : List κ} {k : κ} (hk : k ∈ ks) :
    AMap.get? (ks.map (fun i => (i, f i))) k = some (f k) := by
  induction ks with
  | nil => cases hk
  | cons i ks ih =>
    by_cases hi : i = k
    · simp [AMap.get?, hi]
    · have hmem : k ∈ ks := (List.mem_cons.1 hk).resolve_left fun e => hi e.symm
      simp [AMap.get?, hi, ih hmem]

/-- The k registers at a start hold the words given, then 0. -/
theorem kStart_getD (ws : List DWord) {j : Nat} (hj : j < 64) :
    AMap.getD (kStart ws) j KReg.zero = { KReg.zero with val := ws.getD j 0 } := by
  rw [AMap.getD, kStart, AMap.get?_map_keys _ (List.mem_range.2 hj)]
  rfl

/-- The words of KARGS, none where there is no table. -/
def State.kargs (s : State) (r : GRef) (l : LaunchRec) : List DWord :=
  if l.kargs = 0 then [] else s.readWords r.die l.asid l.kargs 16

theorem State.kargs_getD (s : State) (r : GRef) (l : LaunchRec) {j : Nat} (hj : j < 16) :
    (s.kargs r l).getD j 0 = if l.kargs = 0 then 0 else s.homeRead64 r.die l.asid (l.kargs + 8 * j) := by
  unfold State.kargs State.readWords
  split
  · rfl
  · simp [List.getD_eq_getElem?_getD, hj]

theorem State.kargs_getD_of_le (s : State) (r : GRef) (l : LaunchRec) {j : Nat} (hj : 16 ≤ j) : (s.kargs r l).getD j 0 = 0 := by
  unfold State.kargs State.readWords
  split
  · rfl
  · simp [List.getD_eq_getElem?_getD, hj]

/-- A group that starts at a moment. -/
def Group.started (g : Group) (ks : AMap Nat KReg) (now : Nat) : Group :=
  { g with
    phase := .running, kregs := ks, age := now, lastStart := now,
    splits := g.splits.map (fun sp => if sp.state = .ready then { sp with since := now } else sp) }

theorem Group.started_split (g : Group) (ks : AMap Nat KReg) (now e : Nat) :
    ∃ n, (g.started ks now).split e = { g.split e with since := n } := by
  unfold Group.split Group.started
  rw [List.getD_eq_getElem?_getD, List.getD_eq_getElem?_getD, List.getElem?_map]
  cases g.splits[e]? with
  | none => exact ⟨_, rfl⟩
  | some sp =>
    by_cases hready : sp.state = .ready
    · exact ⟨now, by simp [hready]⟩
    · exact ⟨sp.since, by simp [hready]⟩

theorem Group.started_kreg (g : Group) (ws : List DWord) (now : Nat) {j : Nat} (hj : j < 64) :
    (g.started (kStart ws) now).kreg j = { KReg.zero with val := ws.getD j 0 } := kStart_getD ws hj

theorem groupStart_starts (hg : s.group? r = some g) (hl : s.launch? g.lid = some l) (hphase : g.phase = .placed)
    (hpages : s.needPages r.coreRef l.lrec.asid [(l.lrec.kargs, if l.lrec.kargs = 0 then 0 else 128)] = none) :
    exec (.groupStart r) s = .next ((s.startGroup r (kStart (s.kargs r l.lrec))).count r.coreRef 0 5) := by
  have hexec : exec (.groupStart r) s = execGroupStart r s := rfl
  rw [hexec]
  simp only [execGroupStart, hg, hl, hphase, hpages]
  rfl

theorem State.startGroup_group? {ks : AMap Nat KReg} (hg : s.group? r = some g) :
    (s.startGroup r ks).group? r = some (g.started ks s.nextId) :=
  State.group?_modGroup (f := fun g => g.started ks s.nextId) hg rfl

theorem State.othersKept_startGroup {ks : AMap Nat KReg} : OthersKept ⟨s, s, g, default, r, 0, 0⟩ (s.startGroup r ks) where
  others := fun _ hq => State.group?_modGroup_other (f := fun g => g.started ks s.nextId) hq fun _ => rfl
  rest := rfl
  seen := .refl _

theorem groupStart_answers (hg : s.group? r = some g) (hl : s.launch? g.lid = some l) (hphase : g.phase = .placed)
    (hpages : s.needPages r.coreRef l.lrec.asid [(l.lrec.kargs, if l.lrec.kargs = 0 then 0 else 128)] = none) :
    Answers (.groupStart r) s (fun t => OthersKept ⟨s, s, g, default, r, 0, 0⟩ t ∧
      t.group? r = some (g.started (kStart (s.kargs r l.lrec)) s.nextId)) :=
  ⟨_, groupStart_starts hg hl hphase hpages, State.othersKept_startGroup.count .., (State.group?_count ..).trans (State.startGroup_group? hg)⟩

end

end

end Sys2Proof.Machine
end

section
/-! PROOF of O56, the states of a launch: what a completion drops disturbs neither memory nor other launches (`State.Calm`, 04 R97). -/

namespace Sys2Proof.Machine

open Sys2Proof

/-! ### Waits for chunks -/

/-- A split of the group waits for chunks of a region entry. -/
def Group.AwaitsChunks (g : Group) (n : Nat) : Prop := ∃ sp ∈ g.splits, ∃ h ka, sp.wait = .chunks n h ka

/-- The same group by name, in which no other split waits for chunks. -/
def Group.Settles (g h : Group) : Prop := h.ref = g.ref ∧ ∀ n, h.AwaitsChunks n → g.AwaitsChunks n

theorem State.unawaited_iff {s : State} {k : CoreRef × Nat} :
    s.Unawaited k ↔ ∀ g ∈ s.groups, g.ref.coreRef = k.1 → ¬g.AwaitsChunks k.2 := by
  refine forall₃_congr fun g _ _ => ⟨?_, ?_⟩
  · rintro h ⟨sp, hsp, x, ka, hw⟩
    exact h sp hsp x ka hw
  · exact fun h sp hsp x ka hw => h ⟨sp, hsp, x, ka, hw⟩

section
variable {g h k : Group}

theorem Group.Settles.refl (g : Group) : g.Settles g := ⟨rfl, fun _ => id⟩

theorem Group.Settles.trans : g.Settles h → h.Settles k → g.Settles k :=
  fun ⟨hr, hw⟩ ⟨hr', hw'⟩ => ⟨hr'.trans hr, fun n => hw n ∘ hw' n⟩

theorem mem_modNth {α : Type} {l : List α} {n : Nat} {f : α → α} {x : α} (hx : x ∈ modNth l n f) : x ∈ l ∨ ∃ y ∈ l, x = f y := by
  obtain ⟨i, hi⟩ := List.mem_iff_getElem?.1 hx
  rw [modNth, List.getElem?_modify] at hi
  obtain ⟨y, hy, hxy⟩ := Option.map_eq_some_iff.1 hi
  have hmem := List.mem_of_getElem? hy
  by_cases hn : n = i
  · exact .inr ⟨y, hmem, by rw [← hxy, if_pos hn]⟩
  · exact .inl (by rw [← hxy, if_neg hn]; exact hmem)

theorem Group.settles_modSplit (g : Group) (e : Nat) {f : Split → Split} (hf : ∀ sp n h ka, (f sp).wait ≠ .chunks n h ka) :
    g.Settles (g.modSplit e f) := by
  refine ⟨rfl, fun n ⟨sp, hsp, x, ka, hw⟩ => ?_⟩
  rcases mem_modNth hsp with hold | ⟨y, -, rfl⟩
  · exact ⟨sp, hold, x, ka, hw⟩
  · exact absurd hw (hf y n x ka)

theorem Split.step_wait (sp : Split) (n : Nat) : (sp.step n).wait = .none := by
  unfold Split.step
  dsimp only
  split
  · rfl
  · split <;> rfl

theorem Group.settles_finish (g : Group) (e n : Nat) : g.Settles (g.finish e n) := by
  have hstep : g.Settles (g.modSplit e (fun sp => sp.step n)) :=
    g.settles_modSplit e fun sp m h ka hw => by rw [Split.step_wait] at hw; cases hw
  unfold Group.finish Group.holdAtEnd
  dsimp only
  split
  · exact hstep.trans (Group.settles_modSplit _ e fun sp m h ka hw => by cases hw)
  · exact hstep

theorem Group.settles_landK (g : Group) (n id : Nat) (x : DWord) : g.Settles (g.landK n id x) := by
  unfold Group.landK
  split
  · exact ⟨rfl, fun _ hw => hw⟩
  · exact .refl g

theorem Group.settles_readied (g : Group) (now : Nat) (old : Group) : g.Settles (g.readied now old) := by
  refine ⟨rfl, fun n ⟨sp, hsp, x, ka, hw⟩ => ?_⟩
  obtain ⟨i, hi, hsince⟩ := List.mem_mapIdx.1 hsp
  refine ⟨g.splits[i], List.getElem_mem hi, x, ka, ?_⟩
  rw [← hw, ← hsince]
  split <;> rfl

end

/-! ### A calm change -/

/-- From r to s memory, on-chip storage and launches stand, no split has come to wait for chunks, and no region entry and no
object has come. -/
structure State.Calm (r s : State) : Prop where
  kept : (s.hbm, s.onchip, s.launches) = (r.hbm, r.onchip, r.launches)
  waits : ∀ k, r.Unawaited k → s.Unawaited k
  keys : ∀ y ∈ s.regions, ∃ z ∈ r.regions, z.1 = y.1
  objs : ∀ o ∈ s.objs, o ∈ r.objs

section
variable {r s t : State}

theorem State.Calm.refl (s : State) : s.Calm s := ⟨rfl, fun _ => id, fun y hy => ⟨y, hy, rfl⟩, fun _ => id⟩

theorem State.Calm.trans (hrs : r.Calm s) (hst : s.Calm t) : r.Calm t where
  kept := hst.kept.trans hrs.kept
  waits := fun k => hst.waits k ∘ hrs.waits k
  keys := fun y hy => by
    obtain ⟨z, hz, hzy⟩ := hst.keys y hy
    obtain ⟨x, hx, hxz⟩ := hrs.keys z hz
    exact ⟨x, hx, hxz.trans hzy⟩
  objs := fun o ho => hrs.objs o (hst.objs o ho)

/-- Groups, region entries and objects stand too. -/
theorem State.Calm.same (h : r.Calm s) (ht : (t.hbm, t.onchip, t.launches, t.groups, t.regions, t.objs) =
    (s.hbm, s.onchip, s.launches, s.groups, s.regions, s.objs)) : r.Calm t := by
  simp only [Prod.mk.injEq] at ht
  obtain ⟨hhbm, honchip, hlaunches, hgroups, hregions, hobjs⟩ := ht
  refine h.trans ⟨by rw [hhbm, honchip, hlaunches], fun k hk => ?_, fun y hy => ⟨y, hregions ▸ hy, rfl⟩, fun o ho => hobjs ▸ ho⟩
  unfold State.Unawaited
  rw [hgroups]
  exact hk

theorem State.Calm.ite {p : Prop} {_ : Decidable p} (hs : r.Calm s) (ht : r.Calm t) : r.Calm (if p then s else t) := by
  split
  · exact hs
  · exact ht

theorem State.Calm.foldl {β : Type} {f : State → β → State} (h : r.Calm s) (l : List β)
    (hf : ∀ s b, b ∈ l → r.Calm s → r.Calm (f s b)) : r.Calm (l.foldl f s) :=
  List.foldlRecOn l f h fun s hs b hb => hf s b hb hs

theorem State.Calm.count {c : CoreRef} {a b n : Nat} (h : r.Calm s) : r.Calm (s.count c a b n) := by
  obtain ⟨m, hm⟩ := s.count_eq c a b n
  exact h.same (by rw [hm])

theorem State.Calm.modGroup {q : GRef} {f : Group → Group} (h : r.Calm s) (hf : ∀ g : Group, g.Settles (f g)) :
    r.Calm (s.modGroup q f) := by
  refine h.trans ⟨rfl, fun k hk => ?_, fun y hy => ⟨y, hy, rfl⟩, fun _ => id⟩
  rw [State.unawaited_iff] at hk ⊢
  intro x hx hcore
  obtain ⟨g, hg, rfl⟩ := List.mem_map.1 hx
  have hsettles : g.Settles (if g.ref = q then f g else g) := by
    split
    · exact hf g
    · exact .refl g
  exact fun hw => hk g hg (hsettles.1 ▸ hcore) (hsettles.2 _ hw)

theorem State.Calm.modReady {q : GRef} {f : Group → Group} (h : r.Calm s) (hf : ∀ g : Group, g.Settles (f g)) :
    r.Calm (s.modReady q f) := by
  have hmod := h.modGroup (q := q) (f := fun g => (f g).readied s.nextId g) fun g => (hf g).trans (Group.settles_readied ..)
  exact hmod.same rfl

theorem State.Calm.finishSlot {q : GRef} {e n : Nat} (h : r.Calm s) : r.Calm (s.finishSlot q e n) :=
  .count (h.modReady fun g => g.settles_finish e n)

theorem State.Calm.answer {w : Waiter} {x : DWord} (h : r.Calm s) : r.Calm (s.answer w x) := by
  have hland : r.Calm (s.modGroup w.g (fun g => g.landK w.kd w.id x)) := h.modGroup fun g => g.settles_landK ..
  unfold State.answer
  dsimp only
  split
  · exact .ite hland.finishSlot hland
  · exact hland

/-! ### Objects -/

theorem State.Calm.failQueued {ob : Obj} {detail : Nat} (h : r.Calm s) : r.Calm (s.failQueued ob detail) :=
  .foldl (h.same (by rfl)) _ fun _ _ _ hs => .count (hs.same (by rfl))

theorem State.Calm.dropObj {home : Nat} (h : r.Calm s) : r.Calm { s with objs := s.objs.filter (fun o => o.home ≠ home) } :=
  h.trans ⟨rfl, fun _ => id, fun y hy => ⟨y, hy, rfl⟩, fun _ ho => List.mem_of_mem_filter ho⟩

/-- An object that no pack runs for leaves its table. -/
theorem State.calm_objDeregister (s : State) {ob : Obj} (hidle : ¬(ob.state = .running ∨ ob.state = .closing)) :
    s.Calm (s.objDeregister ob).1 ∧ ∀ o ∈ (s.objDeregister ob).1.objs, o.home ≠ ob.home := by
  have hfailed : s.Calm (s.failQueued ob 0x6400) := (State.Calm.refl s).failQueued
  have hfree : (s.objDeregister ob).1 = (s.failQueued ob 0x6400).objFree ob := by
    unfold State.objDeregister
    rw [if_neg (by simpa using hidle)]
  have hleft : ({ s.failQueued ob 0x6400 with objs := (s.failQueued ob 0x6400).objs.filter (fun o => o.home ≠ ob.home) } : State).Calm
      ((s.failQueued ob 0x6400).objFree ob) := .foldl (.refl _) _ fun _ _ _ hs => hs.answer
  rw [hfree]
  exact ⟨hfailed.dropObj.trans hleft, fun o ho => by simpa using (List.mem_filter.1 (hleft.objs o ho)).2⟩

theorem State.calm_deregisterAll (s : State) {obs : List Obj} (hidle : ∀ ob ∈ obs, ¬(ob.state = .running ∨ ob.state = .closing)) :
    s.Calm (obs.foldl (fun (s : State) o => (s.objDeregister o).1) s) ∧
      ∀ o ∈ (obs.foldl (fun (s : State) o => (s.objDeregister o).1) s).objs, ∀ ob ∈ obs, o.home ≠ ob.home := by
  induction obs generalizing s with
  | nil => exact ⟨.refl s, fun _ _ _ h => by cases h⟩
  | cons ob obs ih =>
    obtain ⟨hcalm, hgone⟩ := s.calm_objDeregister (hidle ob List.mem_cons_self)
    obtain ⟨hcalms, hgones⟩ := ih (s.objDeregister ob).1 fun o ho => hidle o (List.mem_cons_of_mem _ ho)
    refine ⟨hcalm.trans hcalms, fun o ho ob' hob' => ?_⟩
    rcases List.mem_cons.1 hob' with rfl | hmem
    · exact hgone o (hcalms.objs o ho)
    · exact hgones o ho ob' hmem

/-- The objects of a launch that no pack runs for are gone once it drops them. -/
theorem State.calm_dropObjs (s : State) {n : Nat}
    (hidle : ∀ o ∈ s.objs, o.lid = n → ¬(o.state = .running ∨ o.state = .closing)) :
    s.Calm (s.dropObjs n) ∧ ∀ o ∈ (s.dropObjs n).objs, o.lid ≠ n := by
  have hmine : ∀ ob ∈ s.objs.filter (fun o => o.lid = n), ob ∈ s.objs ∧ ob.lid = n := fun ob hob => by simpa using hob
  obtain ⟨hcalm, hgone⟩ := s.calm_deregisterAll (obs := s.objs.filter (fun o => o.lid = n)) fun ob hob =>
    hidle ob (hmine ob hob).1 (hmine ob hob).2
  refine ⟨hcalm, fun o ho hlid => hgone o ho o ?_ rfl⟩
  simpa using ⟨hcalm.objs o ho, hlid⟩

/-! ### Region entries -/

theorem AMap.mem_of_mem_set {κ α : Type} [DecidableEq κ] {m : AMap κ α} {k : κ} {a : α} {y : κ × α} (hy : y ∈ m.set k a) :
    y = (k, a) ∨ y ∈ m := by
  induction m with
  | nil => exact .inl (List.mem_singleton.1 hy)
  | cons x m ih =>
    obtain ⟨k', b⟩ := x
    unfold AMap.set at hy
    split at hy
    · rcases List.mem_cons.1 hy with rfl | hm
      · exact .inl rfl
      · exact .inr (List.mem_cons_of_mem _ hm)
    · rcases List.mem_cons.1 hy with rfl | hm
      · exact .inr List.mem_cons_self
      · exact (ih hm).imp_right (List.mem_cons_of_mem _)

/-- The core's region table lists an entry. -/
def State.HasRegion (s : State) (k : CoreRef × Nat) : Prop := ∃ z ∈ s.regions, z.1 = k

variable {k : CoreRef × Nat}

theorem State.Calm.setRegion {x : Region} (h : r.Calm s) (hk : r.HasRegion k) : r.Calm (s.setRegion k x) where
  kept := h.kept
  waits := h.waits
  keys := fun y hy => by
    rcases AMap.mem_of_mem_set hy with rfl | hold
    · exact hk
    · exact h.keys y hold
  objs := h.objs

theorem State.Calm.eraseRegion (h : r.Calm s) : r.Calm { s with regions := s.regions.erase k } :=
  h.trans ⟨rfl, fun _ => id, fun y hy => ⟨y, List.mem_of_mem_filter hy, rfl⟩, fun _ => id⟩

theorem State.Calm.closeTransfer {x : Transfer} (h : r.Calm s) : r.Calm (s.closeTransfer x) := by
  unfold State.closeTransfer
  split
  · exact h
  · exact h.modGroup fun _ => ⟨rfl, fun _ hw => hw⟩

theorem State.Calm.settleFill (h : r.Calm s) (hk : r.HasRegion k) : r.Calm (s.settleFill k) := by
  unfold State.settleFill
  dsimp only
  split
  · exact h
  · exact .ite h (.ite (h.closeTransfer.setRegion hk) (h.closeTransfer.setRegion hk))

theorem State.Calm.settleRegion (h : r.Calm s) (hk : r.HasRegion k) : r.Calm (s.settleRegion k) := by
  have hfill := h.settleFill hk
  unfold State.settleRegion
  dsimp only
  split
  · exact .ite hfill (.ite (.same (.eraseRegion hfill.closeTransfer) (by rfl)) (hfill.closeTransfer.setRegion hk))
  · exact .ite hfill.eraseRegion hfill

/-- No RWT is tested where none waits. -/
theorem State.serveRwt_of_unawaited (h : s.Unawaited k) : s.serveRwt k = s := by
  unfold State.serveRwt
  dsimp only
  rw [List.flatMap_eq_nil_iff.2]
  · rfl
  intro g hg
  obtain ⟨hmem, hcore⟩ : g ∈ s.groups ∧ g.ref.coreRef = k.1 := by
    have := List.mem_filter.1 hg
    simp only [Bool.and_eq_true, decide_eq_true_eq] at this
    exact ⟨this.1, this.2.1.1.1⟩
  rw [List.filterMap_eq_nil_iff]
  intro e _
  have hnone : ∀ x ka, (g.split e).wait ≠ .chunks k.2 x ka := by
    intro x ka
    unfold Group.split
    rw [List.getD_eq_getElem?_getD]
    cases hsp : g.splits[e]? with
    | none => exact fun hw => by cases hw
    | some sp => exact h g hmem hcore sp (List.mem_of_getElem? hsp) x ka
  split
  · next hw =>
    rw [if_neg]
    rintro rfl
    exact hnone _ _ hw
  · rfl

theorem State.Calm.served {which : Nat → Bool} (h : r.Calm s) (hk : r.HasRegion k) (hw : r.Unawaited k) :
    r.Calm (s.served k which) := by
  have htouched : r.Calm (s.serveTouches k which) := .count (h.setRegion hk)
  rw [State.served, State.serveRwt_of_unawaited (htouched.waits k hw)]
  exact htouched

theorem State.Calm.revoke {reason : Nat} (h : r.Calm s) (hk : r.HasRegion k) (hw : r.Unawaited k) : r.Calm (s.revoke k reason) :=
  .ite h (.settleRegion (.served (.count (h.setRegion hk)) hk hw) hk)

/-! ### Copy contexts -/

theorem State.closeTransfer_ctxs (s : State) (x : Transfer) : (s.closeTransfer x).ctxs = s.ctxs := by
  unfold State.closeTransfer
  split <;> rfl

theorem State.settleFill_ctxs (s : State) (k : CoreRef × Nat) : (s.settleFill k).ctxs = s.ctxs := by
  have hset : ∀ x y, ((s.closeTransfer x).setRegion k y).ctxs = s.ctxs := fun x _ => s.closeTransfer_ctxs x
  unfold State.settleFill
  dsimp only
  split
  · rfl
  · split
    · rfl
    · split <;> rw [hset]

theorem State.settleRegion_ctxs (s : State) (k : CoreRef × Nat) : (s.settleRegion k).ctxs = s.ctxs := by
  have hset : ∀ x y, (((s.settleFill k).closeTransfer x).setRegion k y).ctxs = s.ctxs :=
    fun x _ => ((s.settleFill k).closeTransfer_ctxs x).trans (s.settleFill_ctxs k)
  unfold State.settleRegion
  dsimp only
  split
  · split
    · exact s.settleFill_ctxs k
    · split
      · exact ((s.settleFill k).closeTransfer_ctxs _).trans (s.settleFill_ctxs k)
      · exact hset _ _
  · split <;> exact s.settleFill_ctxs k

theorem State.Calm.revoke_ctxs {reason : Nat} (h : r.Calm s) (hk : r.HasRegion k) (hw : r.Unawaited k) :
    (s.revoke k reason).ctxs = s.ctxs := by
  have hserved : ∀ x n which, (((s.setRegion k x).count k.1 6 4 n).served k which).ctxs = s.ctxs := by
    intro x n which
    have hcalm : r.Calm (((s.setRegion k x).count k.1 6 4 n).serveTouches k which) := .count (.setRegion (.count (h.setRegion hk)) hk)
    rw [State.served, State.serveRwt_of_unawaited (hcalm.waits k hw), State.serveTouches, State.count_ctxs]
    exact State.count_ctxs ..
  unfold State.revoke
  dsimp only
  split
  · rfl
  · rw [State.settleRegion_ctxs, hserved]

/-- A context is freed, its generation raised. -/
theorem State.calm_freeContext {q : Nat × Nat} {reason : Nat} (hall : ∀ y ∈ s.regions, s.Unawaited y.1) :
    s.Calm (s.freeContext q reason) ∧ ∃ gen, (s.freeContext q reason).ctxs = s.ctxs.set q ⟨none, gen, none⟩ := by
  let gen := if (s.copyCtx q).gen = 255 then 1 else (s.copyCtx q).gen + 1
  let u : State := { s with ctxs := s.ctxs.set q ⟨none, gen, none⟩ }
  have hu : s.Calm u := (State.Calm.refl s).same rfl
  have hfree : s.Calm (s.freeContext q reason) ∧ (s.freeContext q reason).ctxs = u.ctxs := by
    refine List.foldlRecOn (motive := fun v : State => s.Calm v ∧ v.ctxs = u.ctxs) _ _ ⟨hu, rfl⟩ fun v ⟨hv, hctxs⟩ k hk => ?_
    obtain ⟨y, hy, rfl⟩ := List.mem_map.1 hk
    have hmem : y ∈ s.regions := List.mem_of_mem_filter hy
    exact ⟨hv.revoke ⟨y, hmem, rfl⟩ (hall y hmem), (hv.revoke_ctxs ⟨y, hmem, rfl⟩ (hall y hmem)).trans hctxs⟩
  exact ⟨hfree.1, gen, hfree.2⟩

theorem State.Calm.unawaited (h : r.Calm s) (hall : ∀ y ∈ r.regions, r.Unawaited y.1) : ∀ y ∈ s.regions, s.Unawaited y.1 := by
  intro y hy
  obtain ⟨z, hz, hzy⟩ := h.keys y hy
  exact h.waits _ (hzy ▸ hall z hz)

theorem State.calm_freeAll {n reason : Nat} {qs : List (Nat × Nat)} (hall : ∀ y ∈ s.regions, s.Unawaited y.1)
    (hown : ∀ q, (s.copyCtx q).owner = some n → q ∈ qs) :
    s.Calm (qs.foldl (fun (s : State) q => s.freeContext q reason) s) ∧
      ∀ q, ((qs.foldl (fun (s : State) q => s.freeContext q reason) s).copyCtx q).owner ≠ some n := by
  induction qs generalizing s with
  | nil => exact ⟨.refl s, fun q hq => by cases hown q hq⟩
  | cons p qs ih =>
    obtain ⟨hcalm, gen, hctxs⟩ := State.calm_freeContext (q := p) (reason := reason) hall
    have hleft : ∀ q, ((s.freeContext p reason).copyCtx q).owner = some n → q ∈ qs := by
      intro q hq
      rw [State.copyCtx, hctxs, AMap.getD] at hq
      by_cases hpq : q = p
      · subst hpq
        rw [AMap.get?_set_self] at hq
        cases hq
      · rw [AMap.get?_set_of_ne _ _ hpq] at hq
        exact (List.mem_cons.1 (hown q hq)).resolve_left hpq
    obtain ⟨hcalms, hnone⟩ := ih (hcalm.unawaited hall) hleft
    exact ⟨hcalm.trans hcalms, hnone⟩

theorem AMap.mem_of_get? {κ α : Type} [DecidableEq κ] {m : AMap κ α} {k : κ} {a : α} (h : m.get? k = some a) : (k, a) ∈ m := by
  induction m with
  | nil => cases h
  | cons x m ih =>
    obtain ⟨k', b⟩ := x
    unfold AMap.get? at h
    split at h
    · next hk => subst hk; cases h; exact List.mem_cons_self
    · exact List.mem_cons_of_mem _ (ih h)

/-- The copy contexts of a launch are free once it drops them. -/
theorem State.calm_dropCtxs {n : Nat} (hall : ∀ y ∈ s.regions, s.Unawaited y.1) :
    s.Calm (s.dropCtxs n) ∧ ∀ q, ((s.dropCtxs n).copyCtx q).owner ≠ some n := by
  refine State.calm_freeAll hall fun q hq => ?_
  unfold State.copyCtx AMap.getD at hq
  cases hx : s.ctxs.get? q with
  | none => rw [hx] at hq; cases hq
  | some x =>
    rw [hx] at hq
    exact List.mem_map.2 ⟨(q, x), List.mem_filter.2 ⟨AMap.mem_of_get? hx, by simpa using hq⟩, rfl⟩

end

end Sys2Proof.Machine
end

section
/-! PROOF of O56, the states of a launch: a quiet launch completes (04 R97), and all its states together. -/

namespace Sys2Proof.Machine

open Sys2Proof

section
variable {s : State} {n : Nat} {l : Launch}

/-! ### What a completing launch writes -/

theorem State.homeWrite_l1d (s : State) (die asid va : Nat) (bs : List Byte) : (s.homeWrite die asid va bs).l1d = s.l1d :=
  (State.watch_l1d _).trans (congrArg State.l1d (s.homeStore_over s die asid va bs) :)

/-- The machine once the status of a launch is written and every core has written back what it holds of its address space. -/
def State.statusWritten (s : State) (l : Launch) : State :=
  let c := s.distCore l.part
  (s.l1d.map (·.1)).foldl (fun (s : State) k => s.l1Release k l.lrec.asid none)
    (if l.lrec.stata = 0 then s else s.homeWrite c.die l.lrec.asid l.lrec.stata l.status)

/-- Its named timelines go. -/
def State.timelinesGone (s : State) (n : Nat) (l : Launch) : State := (s.statusWritten l).modLaunch n (fun l => { l with tls := [] })

theorem State.signalDone_eq (s : State) (n : Nat) (l : Launch) :
    s.signalDone n l = (s.timelinesGone n l).refSignal (s.distCore l.part).die l.lrec.asid l.issuer l.lrec.comp l.lrec.compv := by
  have hl1d : (if l.lrec.stata = 0 then s else s.homeWrite (s.distCore l.part).die l.lrec.asid l.lrec.stata l.status).l1d = s.l1d := by
    split
    · rfl
    · exact s.homeWrite_l1d ..
  unfold State.signalDone State.timelinesGone State.statusWritten
  dsimp only
  rw [hl1d]

theorem State.cached_statusWritten (s : State) (l : Launch) : s.Cached (s.statusWritten l) :=
  .foldl (.ite (.refl s) (.homeWrite (.refl s))) _ fun _ _ hs => hs.l1Release

theorem State.Cached.engNote {r : State} {die asid a : Nat} (h : r.Cached s) : r.Cached (s.engNote die asid a) := h.over rfl

theorem State.cached_refSignal (s : State) (die asid issuer : Nat) {x : DWord} (v : DWord) (hk : refKind x ≠ 2) :
    s.Cached (s.refSignal die asid issuer x v) := by
  unfold State.refSignal
  split
  · exact .ite (.engNote (.homeWrite (.refl s))) (.refl s)
  · next h => exact absurd h hk
  · exact .refl s

theorem State.refSignal_kept (s : State) (die asid issuer : Nat) (x v : DWord) :
    (s.refSignal die asid issuer x v).groups = s.groups ∧ (s.refSignal die asid issuer x v).regions = s.regions ∧
      (s.refSignal die asid issuer x v).objs = s.objs := by
  by_cases hk : refKind x = 2
  · rw [State.refSignal, hk]
    exact ⟨rfl, rfl, rfl⟩
  · have h := s.cached_refSignal die asid issuer v hk
    exact ⟨h.groups, h.regions, h.objs⟩

theorem State.signalDone_kept (s : State) (n : Nat) (l : Launch) :
    (s.signalDone n l).groups = s.groups ∧ (s.signalDone n l).regions = s.regions ∧ (s.signalDone n l).objs = s.objs := by
  have hwritten := s.cached_statusWritten l
  obtain ⟨hgroups, hregions, hobjs⟩ := (s.timelinesGone n l).refSignal_kept (s.distCore l.part).die l.lrec.asid l.issuer l.lrec.comp
    l.lrec.compv
  rw [State.signalDone_eq]
  exact ⟨hgroups.trans hwritten.groups, hregions.trans hwritten.regions, hobjs.trans hwritten.objs⟩

/-- Its timelines are gone when COMP names no timeline of a launch. -/
theorem State.signalDone_launch? (hl : s.launch? n = some l) (hk : refKind l.lrec.comp ≠ 2) :
    (s.signalDone n l).launch? n = some { l with tls := [] } := by
  have hwritten : (s.statusWritten l).launch? n = some l := by
    rw [State.launch?, (s.cached_statusWritten l).launches]
    exact hl
  rw [State.signalDone_eq, State.launch?, (State.cached_refSignal _ _ _ _ _ hk).launches]
  exact State.launch?_modLaunch (f := fun l => { l with tls := [] }) hwritten fun _ => rfl

/-! ### The launch leaves its queue -/

theorem AMap.get?_mapValues {κ α : Type} [DecidableEq κ] (m : AMap κ α) (f : α → α) (k : κ) :
    AMap.get? (m.map (fun x => (x.1, f x.2))) k = (m.get? k).map f := by
  induction m with
  | nil => rfl
  | cons x m ih =>
    obtain ⟨k', a⟩ := x
    by_cases hk : k' = k
    · simp [AMap.get?, hk]
    · simp [AMap.get?, hk, ih]

/-- The queues of a distributor without a launch. -/
def Distributor.without (d : Distributor) (n : Nat) : Distributor :=
  { d with queues := d.queues.map (fun x => (x.1, x.2.filter (· ≠ n))) }

theorem Distributor.without_queues (d : Distributor) (n q : Nat) : n ∉ (d.without n).queues.getD q [] := by
  rw [Distributor.without, AMap.getD, AMap.get?_mapValues]
  cases d.queues.get? q <;> simp

theorem State.leaveQueue_bars (s : State) (n pt : Nat) : ∀ b ∈ (s.leaveQueue n pt).bars, b.lid ≠ n := fun b hb => by
  simpa using (List.mem_filter.1 hb).2

/-! ### A quiet launch completes (04 R97) -/

/-- A launch of which nothing runs is DONE: what it wrote is in memory, and its objects, copy contexts and barriers are gone. -/
theorem State.finishLaunch_ends (hl : s.launch? n = some l)
    (hidle : ∀ o ∈ s.objs, o.lid = n → ¬(o.state = .running ∨ o.state = .closing)) (hall : ∀ y ∈ s.regions, s.Unawaited y.1) :
    let t := s.finishLaunch n
    t.hbm = (s.signalDone n l).hbm ∧ t.onchip = (s.signalDone n l).onchip ∧
      (∃ l', t.launch? n = some l' ∧ l'.state = .done ∧ l'.endc = l.endc ∧ (refKind l.lrec.comp ≠ 2 → l'.tls = [])) ∧
      (∀ o ∈ t.objs, o.lid ≠ n) ∧ (∀ k, (t.copyCtx k).owner ≠ some n) ∧ (∀ b ∈ t.bars, b.lid ≠ n) ∧
      ∀ q, n ∉ (t.dist l.part).queues.getD q [] := by
  intro t
  obtain ⟨hgroups, hregions, hobjs⟩ := s.signalDone_kept n l
  have hall' : ∀ y ∈ (s.signalDone n l).regions, (s.signalDone n l).Unawaited y.1 := by
    unfold State.Unawaited
    rw [hgroups, hregions]
    exact hall
  obtain ⟨hdrop, hnoObj⟩ := (s.signalDone n l).calm_dropObjs (n := n) (hobjs ▸ hidle)
  obtain ⟨hfree, hnoCtx⟩ := State.calm_dropCtxs (n := n) (hdrop.unawaited hall')
  have hkept := (hdrop.trans hfree).kept
  simp only [Prod.mk.injEq] at hkept
  obtain ⟨hhbm, honchip, hlaunches⟩ := hkept
  have hnoObj' : ∀ o ∈ (((s.signalDone n l).dropObjs n).dropCtxs n).objs, o.lid ≠ n := fun o ho => hnoObj o (hfree.objs o ho)
  have hlaunch : refKind l.lrec.comp ≠ 2 → (((s.signalDone n l).dropObjs n).dropCtxs n).launch? n = some { l with tls := [] } := by
    intro hk
    rw [State.launch?, hlaunches]
    exact State.signalDone_launch? hl hk
  obtain ⟨l', hl', hdone, hendc, -⟩ := State.finishLaunch_done hl
  have ht : t = ((((s.signalDone n l).dropObjs n).dropCtxs n).leaveQueue n l.part).count (s.distCore l.part) 0 2 :=
    State.finishLaunch_eq hl
  generalize ((s.signalDone n l).dropObjs n).dropCtxs n = w at *
  obtain ⟨cs, hcs⟩ := State.count_eq (w.leaveQueue n l.part) (s.distCore l.part) 0 2 1
  rw [hcs] at ht
  refine ⟨?_, ?_, ⟨l', hl', hdone, hendc, fun hk => ?_⟩, ?_, ?_, ?_, ?_⟩
  · rw [ht]; exact hhbm
  · rw [ht]; exact honchip
  · have hleft : t.launches = (w.modLaunch n (fun l => { l with state := .done })).launches := by rw [ht]; rfl
    have hgone : t.launch? n = some { l with tls := [], state := .done } := by
      rw [State.launch?, hleft]
      exact State.launch?_modLaunch (f := fun l => { l with state := .done }) (hlaunch hk) fun _ => rfl
    rw [Option.some.inj (hl'.symm.trans hgone)]
  · rw [ht]; exact hnoObj'
  · intro q
    have hctxs : t.ctxs = w.ctxs := by rw [ht]; rfl
    rw [State.copyCtx, hctxs]
    exact hnoCtx q
  · rw [ht]; exact w.leaveQueue_bars n l.part
  · have hdists : t.dists = w.dists.set l.part ((w.dist l.part).without n) := by rw [ht]; rfl
    rw [State.dist, hdists, AMap.getD, AMap.get?_set_self]
    exact Distributor.without_queues _ n

theorem State.launchQuiet_objs {asid : Nat} (hq : s.launchQuiet n asid = true) :
    ∀ o ∈ s.objs, o.lid = n → ¬(o.state = .running ∨ o.state = .closing) := by
  intro o ho hlid
  have hobjs : s.objs.all (fun o => o.lid ≠ n || !(o.state = .running || o.state = .closing)) = true := by
    simp only [State.launchQuiet, Bool.and_eq_true] at hq
    tauto
  have := List.all_eq_true.1 hobjs o ho
  simpa [hlid] using this

theorem launchDone_finishes (hl : s.launch? n = some l) (hstate : l.state = .draining)
    (hq : s.launchQuiet n l.lrec.asid = true)
    (hstata : l.lrec.stata ≠ 0 → s.engineFault (s.distCore l.part) l.lrec.asid l.lrec.stata 16 true = none)
    (hcomp : refKind l.lrec.comp = 1 → s.engineFault (s.distCore l.part) l.lrec.asid (bits l.lrec.comp.toNat 55 0) 8 true = none)
    (hheld : s.outsHeld (s.distCore l.part).die l.lrec.asid l.doneOuts = false) :
    exec (.launchDone n) s = .next (s.finishLaunch n) := by
  have hclose : s.closeLaunch n = s.finishLaunch n := by
    refine State.closeLaunch_finishes hl (fun x hx => ?_) hheld
    rcases List.mem_append.1 hx with hx | hx
    · split at hx
      · cases hx
      · next h => rw [List.mem_singleton.1 hx]; exact hstata h
    · split at hx
      · next h => rw [List.mem_singleton.1 hx]; exact hcomp h
      · cases hx
  have hexec : exec (.launchDone n) s = execLaunchDone n s := rfl
  rw [hexec]
  simp [execLaunchDone, hl, hstate, hq, hclose]

end

/-! ### The states of a launch together -/

/-- Settles O56, one lemma for each step of a launch. -/
theorem launchSteps : Obligations.LaunchSteps := by
  unfold Obligations.LaunchSteps
  refine ⟨?ready, ?part, ?msgs, ?place, ?start, ?done⟩
  case ready =>
    intro s pt q l hl hq die r u deps parts
    refine ⟨launchReady_waits hl hq, fun hd hp hpages => ?_⟩
    obtain ⟨t, hexec, hhbm, hgroups, f, hmade⟩ := launchReady_ready hl hq hd hp hpages
    refine ⟨t, hexec, hhbm, hgroups, _, hmade, rfl, rfl, rfl, by simp [State.made, r], fun i hi => ?_, fun bs hbs => ?_⟩
    · exact (List.getElem?_map ..).trans (by rw [List.getElem?_range hi]; rfl)
    · exact congrArg (Option.getD · []) hbs
  case part =>
    intro s asid rec pkg l hpart hstale c
    exact ⟨podPartAccept_accepts hpart hstale, fun hf hheld hl => podPartRefusal_ends hpart hstale hf hheld hl⟩
  case msgs =>
    rintro i ok s asid rec pkg (⟨rfl, rfl⟩ | ⟨rfl, rfl⟩)
    · exact ⟨podMsg_stale rfl, podMsg_keeps rfl⟩
    · exact ⟨podMsg_stale rfl, podMsg_keeps rfl⟩
  case place =>
    intro s pt ptr l ps before after hheld hstopped hoffers hbefore hplan hleft hl hpt
    obtain ⟨t, hexec, hblocks, hgroups, hlaunch, hpointer⟩ :=
      blockPlace_answers hheld hstopped hoffers hbefore hplan hleft hl
    refine ⟨t, hexec, ?_, ⟨_, hgroups, ?_, ?_⟩, _, hlaunch, rfl, ?_, hpointer⟩
    · rw [hblocks, List.map_append, List.map_map]; rfl
    · rw [List.map_flatMap]
      exact List.flatMap_congr fun p _ => l.groupsAt_ref p _
    · intro g hg
      obtain ⟨p, -, hp⟩ := List.mem_flatMap.1 hg
      obtain ⟨x, idx, rfl⟩ := l.mem_groupsAt hp
      exact ⟨rfl, rfl, rfl, rfl, rfl, rfl, rfl⟩
    · simp [Launch.placedBy]
  case start =>
    intro s r g l hg hl hphase ka hpages
    obtain ⟨t, hexec, hothers, hstarted⟩ := groupStart_answers hg hl hphase hpages
    refine ⟨t, hexec, hothers, _, hstarted, rfl, fun j hj => ?_, fun j hj hj' => ?_, rfl, rfl, g.started_split _ _⟩
    · rw [g.started_kreg _ _ (by omega)]
      exact ⟨s.kargs_getD r l.lrec hj, rfl⟩
    · rw [g.started_kreg _ _ hj']
      exact ⟨s.kargs_getD_of_le r l.lrec hj, rfl⟩
  case done =>
    intro s n l hl hstate hq r c e u1 u2 hstata hcomp hheld hall
    have hends := State.finishLaunch_ends hl (State.launchQuiet_objs hq) hall
    rw [State.signalDone_eq] at hends
    exact ⟨_, launchDone_finishes hl hstate hq hstata hcomp hheld, hends⟩

end Sys2Proof.Machine
end
